-- ==== Sys2Proof/Word.lean ====
section
/-! DEFINITION. The words of the Diral 5120: bytes, register words of up to 96 bits (R269), 32-bit and 64-bit words, and the sparse keyed tables that the state is made of. -/

namespace Sys2Proof

/-- One byte of a memory (R4). -/
abbrev Byte := BitVec 8
/-- A register of up to 96 bits (R8, R269). -/
abbrev RWord := BitVec 96
/-- A 32-bit word. -/
abbrev W32 := BitVec 32
/-- A 64-bit word, the width of a general register (R173). -/
abbrev W64 := BitVec 64

/-- Sparse data by key: key and value pairs in rising order of key. -/
abbrev Map (α : Type) := List (Nat × α)

/-- Tile T0 to T15 (R9). -/
abbrev Tile := Fin 16
/-- Partition P0 to P15. -/
abbrev Part := Fin 16
/-- A channel k of a tile (R9). -/
abbrev Chan := Fin 1280
/-- An actuator output, AO 0 to 20479 (R9). -/
abbrev Ao := Fin 20480
/-- A monitor input, MI 0 to 16383 (R9). -/
abbrev Mi := Fin 16384
/-- A monitor converter of a tile, d = 0 to 7 (R9). -/
abbrev Madc := Fin 8
/-- A thread H0 to H15, bound to the partition of its number (R10). -/
abbrev Thr := Fin 16
/-- A member of a twin: 0 is A, 1 is B. -/
abbrev Member := Fin 2
/-- A twin pair: 0 the Sequencers, 1 + t the Loop Engines of tile t (R247). -/
abbrev Pair := Fin 17
/-- A request ring (R224). -/
abbrev Ring := Fin 8192
/-- A PCIe function: 0 the PF, 1 to 63 the VFs. -/
abbrev Fn := Fin 64

end Sys2Proof
end

