-- ==== Sys2Proof/Syntax.lean ====
section
/-! DEFINITION. The commands of the Diral 5120: one constructor for each row of the table of operations and events. The operands are the model's own (the table gives none): which tile, channel, partition or thread acts, the value written, and what the world outside answers. -/

namespace Sys2Proof

/-- A sideband marker as it fared (R274): how long it took to the tile, and its echo back, in ps. -/
structure MarkerTrip where
  down : Nat
  up : Nat
  deriving DecidableEq, Repr

/-- What the micro-routine of a Diral 2560 instruction makes of a D2 thread (R191): registers, time registers, the low five bits of SCR_STATUS, bytes stored to data memory, the next PC, and whether it is one of the 2560's switching instructions. Its instruction set is laid down in the manual of that part. -/
structure D2Effect where
  g : List (Fin 32 × W64)
  t : List (Fin 8 × RWord)
  flags : BitVec 5
  stores : List (Fin 262144 × Byte)
  pc : BitVec 21
  switching : Bool
  deriving DecidableEq, Repr

/-- What befalls a member at its control store (R261, R262): a parity error strikes the microword it fetches, the next address after one is bad, or the member goes through the microword at its microaddress, with whether COND holds. -/
inductive MicroEvt where
  | parity
  | badAddr
  | cycle (cond : Bool)
  deriving DecidableEq, Repr
/-- A write of a register: the master that makes it, 8 for the access port of the TAP (R8), and the value. -/
structure MasterWrite where
  m : Fin 9
  v : W64
  deriving DecidableEq, Repr

/-- The uncorrectable errors of R302. -/
inductive PcieErr where
  | poisoned | timeout | completerAbort | unexpected | overflow | malformed | ecrc | unsupported | dataLink
  deriving DecidableEq, Repr

/-- How a read that the 5120 issued to the host fails (R302, R323): a completion with UR or CA status, none in time, or a poisoned one. -/
inductive HostErr where
  | ur | ca | timeout | poisoned
  deriving DecidableEq, Repr

/-- A read of a ring that fails (R231): which of the outstanding ones, and how. -/
structure FetchErr where
  read : Fin 4
  err : HostErr
  deriving DecidableEq, Repr

/-- What an image carries for a member's control store (R264): LEVEL, ARB, its identity (R254), the match entries and the microwords. -/
structure PatchImage where
  level : Nat
  arb : Nat
  ident : Nat
  entries : List (Nat × Nat)
  words : List Nat
  deriving DecidableEq, Repr

/-- An edge at an input pin (R281): the root period after the CORE edge at which the new level is first seen, and for how many root periods it persists. -/
structure PinEdge where
  k : Fin 5
  held : Byte
  deriving DecidableEq, Repr

/-- The address of an access that the Lattice refuses (R312), and the channel of the DMA engine where M1 is the master. -/
structure LatAddr where
  addr : BitVec 48
  chan : Fin 16
  deriving DecidableEq, Repr

/-- A granted access that waits for its target (R310), and for how many CORE cycles it has waited. -/
structure LatWait extends LatAddr where
  waited : BitVec 32
  deriving DecidableEq, Repr

/-- The causes of R323: an error response of the Lattice, a failed host access, an uncorrectable word on the chip with its BAR2 offset. -/
inductive DmaErr where
  | lattice
  | host (e : HostErr)
  | uncorrectable (w : BitVec 26)
  deriving DecidableEq, Repr

/-- A configuration write that acts on what a function does (R293, R295 to R297, R301, R302): Bus Master Enable, the D-state, Memory Space Enable, MSI-X Enable, Function Mask, Max_Read_Request_Size and Max_Payload_Size as 128 bytes times a power of two, a BAR word; of AER an error whose status is cleared, its severity changed from the default or back, or its mask, and ECRC generation and checking; the Completion Timeout Value; of the PF also VF Enable with NumVFs, the System Page Size as 4 KiB times a power of two, and a word of VF BAR0. -/
inductive CfgItem where
  | maxPayload (n : Fin 3)
  | bar (i : Fin 6) (w : W32)
  | aerClear (e : PcieErr)
  | aerCorClear
  | aerSeverity (e : PcieErr) (change : Bool)
  | bme (on : Bool)
  | d3hot (on : Bool)
  | mse (on : Bool)
  | msixEnable (on : Bool)
  | functionMask (on : Bool)
  | maxRead (n : Fin 6)
  | sriov (enable : Bool) (numVfs : Fin 64)
  | timeoutRange (v : Fin 16)
  | aerMask (e : PcieErr) (on : Bool)
  | ecrc (generate check : Bool)
  | pageSize (n : Fin 5)
  | vfBar (i : Fin 2) (w : W32)
  deriving DecidableEq, Repr

/-- A received request (R303): a memory read of n bytes or a memory write at an offset of a BAR (0, 2 or 4), poisoned or not; a memory request outside every BAR, posted or not; an AtomicOp or I/O request; a read of a double word of configuration space, or a configuration write; an error of R302, or a correctable one, that the endpoint detects at a function. A read of a register carries whether its target times out on the Lattice; a write carries what host memory holds for the frame-ring doorbells in it. -/
inductive PcieReq where
  | read (bar : Fin 5) (off : BitVec 26) (n : Fin 4097) (timeout : Bool)
  | write (bar : Fin 5) (off : BitVec 26) (data : List Byte) (poisoned : Bool) (mem : List (List Byte × List Byte))
  | outside (posted : Bool)
  | atomic
  | io
  | config (reg : BitVec 10)
  | configWrite (x : CfgItem)
  | error (e : PcieErr)
  | correctable
  deriving DecidableEq, Repr

/-- A stage of trimming (R389 to R391), with what the calibration controller measures: start, the GO of CAL_CMD; the references as a tile measures them against its bandgap (VREF_EXT in uV, the IREF_SET current in pA), whether the tile-level trims stay in range, and the 14 tile words from offset 0x3000 on; an input disconnected, and its trims; an AO's OFS; the tile temperature, which ends a tile; the next channel of TRIM_AO at its low code, at its high code, and its trims, with whether a limit was met. -/
inductive TrimOp where
  | start
  | refs (vref iref : W32) (inRange : Bool) (words : List W32)
  | miBegin (m : Mi)
  | miDone (m : Mi) (ofs gain : Byte)
  | aoOfs (a : Ao) (ofs : Byte)
  | tcal (v : BitVec 16)
  | aoBegin (t : Tile)
  | aoSecond (t : Tile)
  | aoDone (t : Tile) (ofs gain : Byte) (limit : Bool)
  deriving DecidableEq, Repr

/-- What the structural test measures at a site (R406): its resistance in ohm to its Kelvin sense and to AGND, its voltage in mV at 10 uA, and how far its neighbours rise in mV in the bridge pass: those before and after it along its depth line, and those in the lines before and after. -/
structure OsMeas where
  site : Fin 6400
  kelv : BitVec 32
  gnd : BitVec 32
  mv : BitVec 16
  prev : BitVec 16
  succ : BitVec 16
  left : BitVec 16
  right : BitVec 16
  deriving DecidableEq, Repr

/-- What the structural test measures in a tile (R406): at the sites listed, and the same at every other. -/
structure OsRun where
  sites : List OsMeas
  rest : OsMeas
  deriving DecidableEq, Repr

/-- The data register of UNLOCK (R408): Capture-DR with the nonce it takes, or Update-DR with a signature. -/
inductive UnlockOp where
  | capture (nonce : BitVec 256)
  | submit (sig : BitVec 768)
  deriving DecidableEq, Repr

/-- A register of a thread (R409). -/
inductive ThrReg where
  | g (n : Fin 32)
  | t (n : Fin 8)
  | scr (n : BitVec 10)
  deriving DecidableEq, Repr

/-- An access through the IEEE 1687 network (R409), by instrument: freeze control; registers and memory; the state of a Sequencer thread; the pipeline of a Loop Engine member, by the number of its register; the test controller. -/
inductive JtagOp where
  | clearHold
  | freezeTimer
  | regRead (addr : BitVec 24) (wide : Bool)
  | regWrite (addr : BitVec 24) (wide : Bool) (v : W64) (mem : List (List Byte × List Byte))
  | memRead (addr : BitVec 26)
  | memWrite (addr : BitVec 26) (b : Byte)
  | thread (m : Member) (h : Thr) (r : ThrReg)
  | engine (t : Tile) (m : Member) (n : BitVec 16)
  | testRead (addr : BitVec 24) (wide : Bool)
  | testWrite (addr : BitVec 24) (wide : Bool) (v : W64)
  deriving DecidableEq, Repr
/-- One command for each row of spec/opcode_table.json. -/
inductive Instr where
  /-- REGISTER_WRITE (R5). A software write to a register field that has no row of its own, applied by its field type, including lock and reserved-bit handling. -/
  | registerWrite (m : Fin 8) (addr : BitVec 24) (wide : Bool) (v : W64) (mem : List (List Byte × List Byte))
  /-- REG64_LATCH_READ (R8). A 32-bit read of the low word of a 64-bit or 96-bit register latches the upper words for that master until released. -/
  | reg64LatchRead (m : Fin 8) (addr : BitVec 24) (wide : Bool)
  /-- BAD_WIDTH_ACCESS (R8). A register access of a width or alignment not accepted is discarded or returns all ones and raises LAT_DECODE. -/
  | badWidthAccess (m : Fin 8) (addr : BitVec 24) (wr : Bool)
  /-- TILE_POWER_UP (R15). The tile's analogue supplies become good and the tile reads its Carafe and drives every AO to its park value within 50 µs. -/
  | tilePowerUp (t : Tile)
  /-- TILE_LINK_CRC_FAIL (R17). A Tile Link frame fails its CRC and a retry is scheduled. -/
  | tileLinkCrcFail (t : Tile)
  /-- TILE_LINK_RETRY (R17). A failed frame is resent, and after the 8th failed retry the Control Die takes the link down. -/
  | tileLinkRetry (t : Tile) (good : Bool)
  /-- TILE_WATCHDOG_EXPIRY (R17). A tile receives no valid frame for 20 µs, fences itself and parks. -/
  | tileWatchdogExpiry (t : Tile)
  /-- TILE_LINK_TRAINED (R62). A Tile Link completes training, and after a chip reset the tile re-initialises its registers and reports REINIT. -/
  | tileLinkTrained (t : Tile)
  /-- CLK_LOSS (R25). REFCLK is absent for 1 µs or the root PLL loses lock, and all root-derived clocks stop at the next SLOW edge. -/
  | clkLoss (why : Fin 2)
  /-- CLK_LOSS_RESET (R341). After CLK_LOSS with CRST set, REFCLK present for 1 ms without a break causes a chip reset. -/
  | clkLossReset
  /-- AO_CFG_WRITE (R38). A write of AO_CFG is accepted or refused whole by ownership and partition mode. -/
  | aoCfgWrite (a : Ao) (v : W32)
  /-- AO_DIR_WRITE (R43). A direct write replaces the active code within 100 ns if the channel and partition allow it, else sets DIR_REFUSED. -/
  | aoDirWrite (a : Ao) (code : BitVec 16)
  /-- LIMIT_QUALIFIED (R47). A driver stands at its current or compliance limit for 1 µs without a break, sets LIMIT and enters the SADC priority queue. -/
  | limitQualified (a : Ao)
  /-- SADC_CONVERSION (R48). The tile SADC takes its next 500 ns conversion from the priority queue, fast list or background scan and compares the reading. -/
  | sadcConversion (t : Tile) (reading : BitVec 16) (aux : Nat) (lim : Bool)
  /-- FAULT_RELEASE (R54). A write of 1 to AO_STAT.FAULT releases the channel fault and queues the channel for a priority reading. -/
  | faultRelease (a : Ao)
  /-- LOOP_OUTPUT_ARRIVAL (R44). A loop update reaches the tile and is applied or discarded by its commit generation and write precedence. -/
  | loopOutputArrival
  /-- COMMIT_STROBE (R41). At t_c or a sub-strobe, each tile copies staged shadow codes of masked partitions into the active registers. -/
  | commitStrobe (p : Part)
  /-- MI_CFG_WRITE (R64). A write of MI_CFG is applied, or refused for ownership with OWN_ERR set. -/
  | miCfgWrite (m : Mi) (v : W32)
  /-- MADC_SAMPLE (R72). A conversion result becomes available and is delivered to the Loop Engines, forwarded and copied as configured. -/
  | madcSample (t : Tile) (d : Madc) (code : BitVec 12) (sat : Bool)
  /-- SAMPLE_FORWARD_ARRIVAL (R72). A sample forwarded through the Control Die reaches another tile's Loop Engines. -/
  | sampleForwardArrival
  /-- FWD_TOKEN_REFILL (R72). A forwarding or Sample Queue token bucket gains one token every 15.625 ns up to its depth. -/
  | fwdTokenRefill (t : Tile) (b : Fin 3)
  /-- SQ_COPY_ARRIVAL (R78). A sample copy reaches its Sample Queue at the Control Die and is written or dropped when full. -/
  | sqCopyArrival
  /-- SQ_RD_WRITE (R78). A write of MI_SQ_RD frees entries, or is ignored outside the occupied span with RD_ERR set. -/
  | sqRdWrite (q : Fin 16) (v : BitVec 17)
  /-- SQ_CLR (R78). MI_SQ_CTL.CLR zeroes WR and RD, clears the drop count and OVF and discards the contents. -/
  | sqClr (q : Fin 16)
  /-- MI_BIAS_WRITE (R67). A write of MI_BIAS.CODE starts a ramp of the tile bias at no more than 1 V/ms. -/
  | miBiasWrite (t : Tile) (code : Byte)
  /-- BIAS_RAMP_DONE (R67). The bias reaches its new value and BIAS_RAMP clears. -/
  | biasRampDone (t : Tile) (ibias : Byte)
  /-- BIAS_OVERLOAD (R68). Bias demand exceeds 200 mA for 10 µs, the generator limits and BIAS_OVL and the tile summary bit are set. -/
  | biasOverload (t : Tile)
  /-- SCAN_CTL_WRITE (R70). A write of MI_SCAN_CTLd applies MODE at once when no pass runs, abandoning a COMMIT delay. -/
  | scanCtlWrite (t : Tile) (d : Madc) (v : W32)
  /-- SCAN_TIMER_TICK (R71). In TIMER mode a period tick starts a pass, or is counted in TRIG_MISS while one runs. -/
  | scanTimerTick (t : Tile) (d : Madc)
  /-- SCAN_COMMIT_DELAY_EXPIRY (R71). In COMMIT mode the DELAY after a strobe of TPART expires and one pass starts. -/
  | scanCommitDelayExpiry (t : Tile) (d : Madc)
  /-- SCAN_PASS_END (R70). A scan pass ends, the pending MODE and LEN take effect and the next pass starts or the converter idles. -/
  | scanPassEnd (t : Tile) (d : Madc)
  /-- FOCUS_EXPIRY (R75). An active focus entry reaches FLEN frames and expires, and the list closes up. -/
  | focusExpiry (t : Tile) (d : Madc)
  /-- LOOP_UPDATE (R82). A sample of MI1 that passes MININT triggers an update of a running context under its law. -/
  | loopUpdate (a : Ao)
  /-- LOOP_TICK (R82). A tile tick at a multiple of MININT × 4 ns triggers an update of a context with TSRC = 1. -/
  | loopTick (a : Ao)
  /-- COMMIT_UPDATE (R88). After a strobe the engine runs one commit update per exchanged context within 100 ns. -/
  | commitUpdate (a : Ao)
  /-- CONTEXT_WRITE (R90). A host BAR2 write of a context is accepted by bank and mode and checked and applied whole as one unit. -/
  | contextWrite (bank : Fin 2) (a : Ao) (off : Fin 128) (bs : List Byte)
  /-- LE_RESTART (R112). LE_CMD RESTART takes a context out of FAULT into SEEKING, or sets RESTART_REFUSED. -/
  | leRestart (a : Ao)
  /-- LE_HOLD (R110). LE_CMD HOLD sets HOLDREQ of the bank-A context. -/
  | leHold (a : Ao)
  /-- LE_RELEASE (R110). LE_CMD RELEASE clears HOLDREQ of the bank-A context. -/
  | leRelease (a : Ao)
  /-- LE_FOCUS_WRITE (R108). A write of LE_FOCUS is accepted only if both loads stay within budget, else LE_OVERCOMMIT is raised. -/
  | leFocusWrite (t : Tile) (slots : Byte) (fcost : Byte)
  /-- MAP_STORE_WRITE (R115). A host write to the Map Store is accepted or refused region by region. -/
  | mapStoreWrite (off : BitVec 24) (bs : List Byte)
  /-- STATE_MIRROR_APPLY (R121). An accepted state-entry write reaches the tile's mirror and is used from 2 µs after the write. -/
  | stateMirrorApply
  /-- RTU_LOAD (R119). RTU_PCTLp.LOAD loads the partition's descriptor, checking it and resetting plan, cache slots and circuits. -/
  | rtuLoad (p : Part)
  /-- RTU_LOAD_DONE (R119). A descriptor load completes within 200 µs, setting DESC_VALID or DESC_ERR. -/
  | rtuLoadDone (p : Part)
  /-- RTU_PLAN_CLR (R152). RTU_PCTLp.PLAN_CLR empties the plan and reverts pending states, refused unless the partition is in HOLD. -/
  | rtuPlanClr (p : Part)
  /-- RTU_CACHE_CLR (R141). RTU_PCTLp.CACHE_CLR clears the partition's slots in every tile plan cache. -/
  | rtuCacheClr (p : Part)
  /-- ROUTE_JOB_START (R130). The Route Unit takes the next waiting job round-robin by partition. -/
  | routeJobStart
  /-- ROUTE_JOB_DONE (R125). A routing job returns its result, plan growth and collateral report under the partition's policy. -/
  | routeJobDone (bad : Bool)
  /-- STAGING_WORD (R137). A tile processes a staging word to a shadow register, its charge term and bank S context. -/
  | stagingWord (t : Tile)
  /-- STAGE_BURST_ACK (R138). A tile's acknowledgement of a staging burst arrives and the Control Die sets REF or STG on the entries. -/
  | stageBurstAck (t : Tile)
  /-- CACHE_FILL (R141). A burst with DEST = 1 replaces a plan cache slot, or is refused whole when the bank is full. -/
  | cacheFill (t : Tile)
  /-- CACHE_LOAD (R141). Loading a plan cache slot processes its words as staging words at 4 per CORE cycle. -/
  | cacheLoad (t : Tile)
  /-- ARM_MESSAGE (R145). A tile receives an arm, forms Q_T and its sub-strobes and replies GO, NOGO or MISS. -/
  | armMessage (p : Part) (t : Tile)
  /-- ARM_REPLY (R144). A tile's GO, NOGO or MISS reply reaches the Control Die. -/
  | armReply (p : Part) (t : Tile) (loads : List (Chan × BitVec 16)) (pw : Nat)
  /-- CANCEL_DEADLINE (R144). At t_c − 200 ns the Control Die sends CANCEL if any tile replied NOGO. -/
  | cancelDeadline (p : Part)
  /-- CANCEL_MESSAGE (R144). A tile accepts CANCEL up to t_c − 20 ns and drops its arm. -/
  | cancelMessage (p : Part) (t : Tile)
  /-- COMMIT_REPORT (R148). A tile's report of committed and uncommitted AO reaches the Control Die. -/
  | commitReport (p : Part) (t : Tile)
  /-- COMMIT_CLOSE (R148). Within t_c + 1 µs the Control Die closes the commit, sets LAST_RESULT and updates the circuit table. -/
  | commitClose (p : Part)
  /-- ROT_CTL_GO (R158). RTU_ROT_CTLp.GO starts the standby cycle list after unstaging the partition. -/
  | rotCtlGo (p : Part)
  /-- ROT_CTL_STOP (R160). RTU_ROT_CTLp.STOP makes the engine stop at the cycle boundary. -/
  | rotCtlStop (p : Part)
  /-- ROT_CTL_STOP_NOW (R160). RTU_ROT_CTLp.STOP_NOW stops the engine after any slot past its cancel deadline. -/
  | rotCtlStopNow (p : Part)
  /-- ROT_CTL_SWAP (R165). RTU_ROT_CTLp.SWAP checks the standby buffer and sets SWAP_PEND. -/
  | rotCtlSwap (p : Part)
  /-- ROT_CTL_SWAP_CANCEL (R165). RTU_ROT_CTLp.SWAP_CANCEL withdraws a pending swap whose load has not started. -/
  | rotCtlSwapCancel (p : Part)
  /-- ROTOR_BUF_WRITE (R156). A host write to a cycle-list buffer is accepted or refused with BUF_REFUSED. -/
  | rotorBufWrite (p : Part) (b : Fin 2) (w : Fin 132) (v : W32)
  /-- ROT_CFG_WRITE (R169). A write of RTU_ROT_CFGp is refused with BUF_REFUSED unless the engine is IDLE. -/
  | rotCfgWrite (p : Part) (v : W32)
  /-- ROTOR_SLOT_LOAD (R159). After the previous slot's last sub-strobe the engine loads the next slot's cache plan in every live tile. -/
  | rotorSlotLoad (p : Part)
  /-- ROTOR_SKIP_CHECK (R159). At t_c − 500 ns the engine fires the slot, or skips it for lateness or NOGO and may halt. -/
  | rotorSkipCheck (p : Part) (loads : List (Ao × BitVec 16)) (pw : Nat)
  /-- ROTOR_SYNC_EDGE (R163). A SYNC_IN edge reaches a Rotor Engine with SRC = 1 and is ignored, counted as fast or accepted. -/
  | rotorSyncEdge (p : Part)
  /-- SYNC_LOST (R164). No edge is accepted by P + LOSTN × D, the engine raises SYNC_LOST and enters FREEWHEEL. -/
  | syncLost (p : Part)
  /-- LEARN_WINDOW_OPEN (R166). The learning window of a slot opens at t_c + WDLY × 64 ns. -/
  | learnWindowOpen (p : Part)
  /-- LEARN_WINDOW_CLOSE (R167). At the slot's nominal end the table unit updates entry s of each learning context. -/
  | learnWindowClose (p : Part)
  /-- LRN_WRITE (R168). A write of RTU_ROT_LRNp that sets LEN is checked for overcommit in every tile and refused whole if any refuses. -/
  | lrnWrite (p : Part) (v : W32)
  /-- LEARN_CLR (R168). RTU_ROT_LRNp.CLR zeroes the partition's repetitive tables, refused unless LEN = 0 or FRZ = 1. -/
  | learnClr (p : Part)
  /-- LEARN_CLR_DONE (R168). The table clear finishes within 100 µs and CLR_BUSY clears. -/
  | learnClrDone (p : Part)
  /-- REP_TABLE_WRITE (R168). A host write to a repetitive table is refused while learning is active, else accepted. -/
  | repTableWrite (a : Ao) (off : Fin 128) (bs : List Byte)
  /-- ADD (R181). Adds two registers and sets Z N C V. -/
  | add (h : Thr)
  /-- SUB (R181). Subtracts two registers and sets Z N C V. -/
  | sub (h : Thr)
  /-- AND (R181). Bitwise AND of two registers. -/
  | and (h : Thr)
  /-- OR (R181). Bitwise OR of two registers. -/
  | or (h : Thr)
  /-- XOR (R181). Bitwise XOR of two registers. -/
  | xor (h : Thr)
  /-- SHL (R181). Shifts a register left. -/
  | shl (h : Thr)
  /-- SHR (R181). Shifts a register right logically. -/
  | shr (h : Thr)
  /-- SAR (R181). Shifts a register right arithmetically. -/
  | sar (h : Thr)
  /-- MUL (R181). Multiplies two registers in its low or high forms. -/
  | mul (h : Thr)
  /-- MIN (R181). Takes the signed or unsigned minimum. -/
  | min (h : Thr)
  /-- MAX (R181). Takes the signed or unsigned maximum. -/
  | max (h : Thr)
  /-- CMP (R181). Computes a − b and sets the flags only. -/
  | cmp (h : Thr)
  /-- ADDI (R181). Adds a sign-extended immediate. -/
  | addi (h : Thr)
  /-- ANDI (R181). ANDs a zero-extended immediate. -/
  | andi (h : Thr)
  /-- ORI (R181). ORs a zero-extended immediate. -/
  | ori (h : Thr)
  /-- LUI (R181). Loads a shifted immediate into a register. -/
  | lui (h : Thr)
  /-- LD8 (R182). Loads 8 bits zero-extended. -/
  | ld8 (h : Thr)
  /-- LD16 (R182). Loads 16 bits zero-extended. -/
  | ld16 (h : Thr)
  /-- LD32 (R182). Loads 32 bits zero-extended. -/
  | ld32 (h : Thr)
  /-- LD64 (R182). Loads 64 bits. -/
  | ld64 (h : Thr)
  /-- ST8 (R182). Stores the low 8 bits. -/
  | st8 (h : Thr)
  /-- ST16 (R182). Stores the low 16 bits. -/
  | st16 (h : Thr)
  /-- ST32 (R182). Stores the low 32 bits. -/
  | st32 (h : Thr)
  /-- ST64 (R182). Stores 64 bits. -/
  | st64 (h : Thr)
  /-- BR (R182). Branches if its condition holds. -/
  | br (h : Thr)
  /-- JAL (R182). Writes the link address and branches. -/
  | jal (h : Thr)
  /-- JR (R182). Writes the link address and jumps to a register. -/
  | jr (h : Thr)
  /-- JR_E (R182). Jumps, restores IE from PIE and returns to D2 mode or resumes a micro-trap frame. -/
  | jrE (h : Thr) (upcOk : Bool)
  /-- TRAP (R182). Raises the TRAP exception with INFO = FUNC. -/
  | trap (h : Thr)
  /-- FENCE_M (R176). Completes when every earlier store of the thread is written and every load returned. -/
  | fenceM (h : Thr)
  /-- SCRR (R182). Reads a sequencer control register. -/
  | scrr (h : Thr)
  /-- SCRW (R182). Writes a sequencer control register. -/
  | scrw (h : Thr)
  /-- HALT (R182). Enters HALTED and raises THREADn_HALT. -/
  | halt (h : Thr)
  /-- NOP (R182). Does nothing. -/
  | nop (h : Thr)
  /-- TIMEGET_NOW (R183). Reads time base b into a T register. -/
  | timegetNow (h : Thr)
  /-- TIMEGET_SEC (R183). Extracts the seconds of a time value. -/
  | timegetSec (h : Thr)
  /-- TIMEGET_NS (R183). Extracts the nanoseconds of a time value. -/
  | timegetNs (h : Thr)
  /-- TIMEGET_FRAC (R183). Extracts the fraction of a time value. -/
  | timegetFrac (h : Thr)
  /-- TIMEGET_TBN (R183). Extracts the time base number of a time value. -/
  | timegetTbn (h : Thr)
  /-- TIMEGET_DIFF (R183). Computes the difference of two time values in ns. -/
  | timegetDiff (h : Thr)
  /-- TIMEADD (R183). Adds signed ns to a time value. -/
  | timeadd (h : Thr)
  /-- TIMEADD_SET (R183). Builds a time value from seconds, ns and a base. -/
  | timeaddSet (h : Thr)
  /-- TIMEADD_MOV (R183). Copies a time register. -/
  | timeaddMov (h : Thr)
  /-- TIMEADD_CMP (R183). Compares two time values and sets the flags. -/
  | timeaddCmp (h : Thr)
  /-- TIMEADD_ROUND (R183). Rounds a time value up to a multiple of Gs ns. -/
  | timeaddRound (h : Thr)
  /-- WAITT (R184). Completes at once with L = 1 if the time has passed, else waits. -/
  | waitt (h : Thr)
  /-- WAITT_WAKE (R184). The time base reaches Ts and the waiting thread becomes ready. -/
  | waittWake (h : Thr)
  /-- WAITE (R185). Waits on masked Chord channel flags with an optional timeout. -/
  | waite (h : Thr)
  /-- WAITE_WAKE (R185). A watched flag sets or the timeout arrives and WAITE completes. -/
  | waiteWake (h : Thr)
  /-- EVRAISE (R186). Raises a Chord channel as producer of the thread. -/
  | evraise (h : Thr)
  /-- TRACE (R187). Writes one entry to the member's trace buffer if enabled. -/
  | trace (h : Thr)
  /-- EVENT_ENTRY (R188). At a boundary with IE = 1 and a pending enabled flag, the thread enters its handler. -/
  | eventEntry (h : Thr)
  /-- D2_INSTRUCTION (R191). A Diral 2560 instruction runs as a micro-routine in a D2 thread. -/
  | d2Instruction (h : Thr) (e : D2Effect)
  /-- D2_MICRO_TRAP (R191). At a trap point after an event becomes takeable, the routine stores its frame and enters the handler. -/
  | d2MicroTrap (h : Thr) (upc : BitVec 13) (step : W64) (ut : List W64) (tt : List RWord)
  /-- THREAD_START (R171). START loads PC and mode and sets the thread to RUN, or sets START_REFUSED. -/
  | threadStart (h : Thr)
  /-- THREAD_STOP (R171). STOP takes effect at the thread's next boundary, abandoning a wait. -/
  | threadStop (h : Thr)
  /-- THREAD_REDIRECT (R177). REDIRECT loads PC and code range from NPC and NCODE at the next boundary. -/
  | threadRedirect (h : Thr)
  /-- PS_WRITE (R177). A BAR2 write into the Program Store is discarded inside a running thread's code range. -/
  | psWrite (off : BitVec 21) (bs : List Byte)
  /-- DMWIN_DATA_ACCESS (R176). An access to SEQ_DMWIN_DATA reads or writes a data memory word and may increment WORD. -/
  | dmwinDataAccess (m : Member) (part : Fin 3) (wr : Bool) (v : W64)
  /-- THR_CODE_WRITE (R194). A write of SEQ_THR_CODEn or NCODEn is ignored whole with CFG_REFUSED when out of range or not STOPPED. -/
  | thrCodeWrite (h : Thr) (new : Bool) (v : W32)
  /-- ADMIT_POP (R200). Pops the oldest admitted request into an admit record, or reports the queue empty. -/
  | admitPop (h : Thr)
  /-- ADMIT_POP_WAKE (R200). A request becomes poppable and a waiting ADMIT.POP.W completes. -/
  | admitPopWake (h : Thr)
  /-- CPL_POST (R204). Completes an open record and posts the completion to its ring. -/
  | cplPost (h : Thr)
  /-- CPL_POST_DEFER (R205). Returns the record's request to the deferral queue, or posts COLLATERAL_REJECT. -/
  | cplPostDefer (h : Thr)
  /-- ROUTE (R207). Submits the circuit ops of an open record as one routing job. -/
  | route (h : Thr)
  /-- ROUTE_WAIT (R209). Returns the outstanding job's result or waits for it. -/
  | routeWait (h : Thr)
  /-- ROUTE_WAIT_WAKE (R209). The outstanding job returns and ROUTE.WAIT completes. -/
  | routeWaitWake (h : Thr)
  /-- PERM_LOAD (R208). Submits a PERM_APPLY job for a library entry, in short or full form. -/
  | permLoad (h : Thr)
  /-- PLAN_CLR (R210). Unstages the plan's AO, empties the plan and reverts pending states. -/
  | planClr (h : Thr)
  /-- PLAN_CLR_LAST (R210). Withdraws the tentative group only. -/
  | planClrLast (h : Thr)
  /-- SH_SET (R211). Sends one explicit staging word to an AO's shadow register. -/
  | shSet (h : Thr)
  /-- SH_LIST (R211). Sends a list of explicit staging words. -/
  | shList (h : Thr)
  /-- STAGE (R212). Sends every unstaged plan entry to the shadow registers. -/
  | stage (h : Thr)
  /-- STAGE_FILL (R212). Fills a plan cache slot with the plan and then empties the plan. -/
  | stageFill (h : Thr)
  /-- STAGE_CACHE (R212). Loads a plan cache slot into the shadow registers of every live tile. -/
  | stageCache (h : Thr)
  /-- ARM (R213). Arms a commit of the mask at a TB0 time under the arming rules. -/
  | arm (h : Thr)
  /-- ARM_RESUME (R213). The masked partitions' stagings are acknowledged and a waiting ARM forms E and completes. -/
  | armResume (h : Thr)
  /-- COMMIT_WAIT (R214). Waits while a commit is armed or unclosed and returns LAST_RESULT. -/
  | commitWait (h : Thr)
  /-- COMMIT_WAIT_WAKE (R214). The commit closes and COMMIT.WAIT completes. -/
  | commitWaitWake (h : Thr)
  /-- ABORT (R215). Cancels the armed commit, or clears staging when nothing is armed, or waits when too late. -/
  | abort (h : Thr)
  /-- ABORT_WAKE (R215). A too-late commit closes and the waiting ABORT completes TOO_LATE. -/
  | abortWake (h : Thr)
  /-- LAW_SET (R216). Writes a context image to bank A or S as one checked unit. -/
  | lawSet (h : Thr)
  /-- LE_BAR (R217). Fixes the set of exchanged contexts and waits until each is LOCKED, HELD or FAULT. -/
  | leBar (h : Thr)
  /-- LE_BAR_WAKE (R217). The last context settles or the timeout arrives and LE.BAR completes. -/
  | leBarWake (h : Thr)
  /-- PART_MODE (R219). Requests a change of the thread's own partition mode. -/
  | partMode (h : Thr)
  /-- FENCE_P (R220). Fences a permitted partition and completes when the fence takes effect. -/
  | fenceP (h : Thr)
  /-- UNFENCE_P (R220). Starts the resume sequence of a permitted partition. -/
  | unfenceP (h : Thr)
  /-- SAMP_FOCUS (R218). Adds an owned MI to the shadow focus list of its MADC. -/
  | sampFocus (h : Thr)
  /-- SAMP_FOCUS_EN (R218). Writes the partition's focus enable bit in all 16 tiles. -/
  | sampFocusEn (h : Thr)
  /-- BUDGET_CHK (R221). Returns the slot budget remainder less a test amount without charging. -/
  | budgetChk (h : Thr)
  /-- ROTOR_LOAD (R222). Copies a cycle-list image into the standby buffer and optionally requests a swap. -/
  | rotorLoad (h : Thr)
  /-- ROTOR_GO (R222). Starts the Rotor Engine as RTU_ROT_CTLp.GO does. -/
  | rotorGo (h : Thr)
  /-- ROTOR_STOP (R222). Stops the Rotor Engine as STOP or STOP_NOW, optionally waiting. -/
  | rotorStop (h : Thr)
  /-- ROTOR_STOP_WAKE (R222). The engine becomes IDLE and a waiting ROTOR.STOP.W completes. -/
  | rotorStopWake (h : Thr)
  /-- RQ_DOORBELL (R225). A write of BRS_RQ_PI makes entries available, or is ignored with DB_ERR. -/
  | rqDoorbell (n : Ring) (v : W32)
  /-- CQ_DOORBELL (R225). A write of BRS_CQ_CI frees completion places, or is ignored with DB_ERR. -/
  | cqDoorbell (n : Ring) (v : W32)
  /-- RING_FETCH_ISSUE (R225). Barista issues a read of available ring entries when room and outstanding-read limits allow. -/
  | ringFetchIssue (n : Ring)
  /-- ENTRY_ARRIVAL (R231). A request entry reaches the chip and is checked, metered and made pending or completed by Barista. -/
  | entryArrival (n : Ring) (k : Fin 4) (bs : List Byte)
  /-- RING_FETCH_ERROR (R231). A PCIe error on an entry read halts the ring and raises BRS_RING_ERR. -/
  | ringFetchError (n : Ring) (x : FetchErr)
  /-- METER_REFILL (R234). Every 1 µs all meter and shaper buckets are refilled. -/
  | meterRefill
  /-- ADMIT_STEP (R238). The port picks the next request by colour, class and DRR and admits or holds it. -/
  | admitStep (p : Part)
  /-- BUDGET_RENEWAL (R238). The port's slot budget renews periodically or at a commit close and admission resumes. -/
  | budgetRenewal (p : Part)
  /-- XP_PAYLOAD_FETCH (R232). An admitted XP request at the queue head reserves a record slot and its payload is read. -/
  | xpPayloadFetch (p : Part)
  /-- XP_PAYLOAD_WRITTEN (R232). The extended payload is written to data memory, or fails with INVALID, and the request becomes poppable. -/
  | xpPayloadWritten (p : Part) (err : Option HostErr) (bs : List Byte)
  /-- ITR_HOLDOFF_EXPIRY (R230). A ring's MSI-X hold-off ends and one message covers the writes made during it. -/
  | itrHoldoffExpiry (n : Ring)
  /-- RING_EN_WRITE (R242). A write of BRS_RING_CTL.EN starts or stops fetching and accepting. -/
  | ringEnWrite (n : Ring) (v : W32)
  /-- RING_INIT (R242). INIT zeroes the ring indices and sets PHASE, or is refused with CFG_REFUSED. -/
  | ringInit (n : Ring) (v : W32)
  /-- RING_DRAIN (R242). DRAIN stops fetching and completes the ring's requests and open records ABORTED. -/
  | ringDrain (n : Ring)
  /-- RING_DRAIN_DONE (R242). The drain ends, EN clears and BUSY clears. -/
  | ringDrainDone (n : Ring)
  /-- RING_CFG_WRITE (R242). A write of a ring configuration register is refused unless EN = 0 and BUSY = 0. -/
  | ringCfgWrite (n : Ring) (w : Fin 5) (x : MasterWrite)
  /-- PORT_ENABLE (R238). A write changing BRS_PORT_CFG.EN from 0 to 1 makes a renewal at once. -/
  | portEnable (p : Part) (v : W32)
  /-- MPROF_WRITE (R236). A meter profile write changes rates at the next refill or resets every bucket using it. -/
  | mprofWrite (n : Byte) (w : Fin 4) (v : W32)
  /-- SPROF_WRITE (R236). A shaper profile write changes its rate or resets every bucket using it. -/
  | sprofWrite (n : Byte) (w : Fin 2) (v : W32)
  /-- SVC_CFG_WRITE (R246). A write of BRS_SVC_CFG is applied or refused whole when it changes PORT while EN = 1. -/
  | svcCfgWrite (v : Fin 512) (x : W32)
  /-- SCHED_FRAME (R244). A schedule frame from a sync port is checked and its entries accepted into frame queues or dropped. -/
  | schedFrame
  /-- LEASE_RENEWAL (R249). The holder renews its lease at the gate. -/
  | leaseRenewal (x : Pair) (m : Member)
  /-- LEASE_EXPIRY (R249). No renewal within LEASE_US, the gate fences the holder and passes the token or applies no-holder rules. -/
  | leaseExpiry (x : Pair)
  /-- LEASE_MOVE (R250). MOVE requests a transfer to an INSYNC standby, or sets MOVE_REFUSED. -/
  | leaseMove (x : Pair)
  /-- HANDOVER (R250). At a handover point a requested MOVE or take-back transfers the token. -/
  | handover (x : Pair)
  /-- MEMBER_RESTART (R251). RESTART makes a non-holding member OFFLINE and starts LOADING, or is refused for the holder. -/
  | memberRestart (x : Pair) (m : Member)
  /-- PATCH_LOAD_DONE (R265). A member's patch load passes into SELFTEST or fails back to OFFLINE with PATCH_AUTH. -/
  | patchLoadDone (x : Pair) (m : Member) (code : Fin 7) (g : PatchImage)
  /-- SELFTEST_DONE (R251). A member's self-test passes into RESYNC, or takes the token when no holder, or fails to OFFLINE. -/
  | selftestDone (x : Pair) (m : Member) (ok : Bool) (cls : Fin 16) (ua : BitVec 13)
  /-- RESYNC_DONE (R251). A resyncing member joins lockstep and enters INSYNC. -/
  | resyncDone (x : Pair) (m : Member)
  /-- DIGEST_COMPARE (R252). Both members' digests for an ARM, STAGE.FILL, ROTOR.LOAD or 1,024 loop updates are compared. -/
  | digestCompare (x : Pair) (other : W64)
  /-- DIGEST_TIMEOUT (R252). The standby's digest is 1 µs late and the comparison counts as a mismatch. -/
  | digestTimeout (x : Pair)
  /-- DIAG_DONE (R255). Both micro-diagnostics end and the mismatch outcome is applied. -/
  | diagDone (x : Pair) (hf : Bool) (sf : Bool)
  /-- SELFTEST_SWEEP_DONE (R258). An idle self-test sweep completes, or a failure acts as a machine check. -/
  | selftestSweepDone (x : Pair) (m : Member) (ok : Bool) (cls : Fin 16) (ua : BitVec 13)
  /-- MACHINE_CHECK (R262). A parity, address or self-test fault stops the member, records its cause and hands over to the twin. -/
  | machineCheck (x : Pair) (m : Member) (e : MicroEvt) (ua : BitVec 13)
  /-- TB_INC_WRITE (R270). A write of TB_INCb is accepted within ±1,000 ppm and pended, or refused. -/
  | tbIncWrite (b : Fin 4) (x : MasterWrite)
  /-- TB_INC_APPLY (R270). At the first whole microsecond at least 1 µs after the write the new rate takes effect everywhere. -/
  | tbIncApply (b : Fin 4)
  /-- STEP (R271). STEP pends a step of the base to TB_SETb, or is refused. -/
  | step (b : Fin 4)
  /-- STEP_OFF (R271). STEP_OFF pends a step of the base by TB_OFFb, or is refused. -/
  | stepOff (b : Fin 4)
  /-- TB_STEP_APPLY (R271). A pending step takes effect, ends amortisation and handles armed commits and rotors for TB0. -/
  | tbStepApply (b : Fin 4)
  /-- AMORT (R273). AMORT starts an amortised absorption of TB_OFFb, or is refused while one runs. -/
  | amort (b : Fin 4)
  /-- AMORT_START_APPLY (R273). The amortised rate change begins at its whole microsecond. -/
  | amortStartApply (b : Fin 4)
  /-- AMORT_DONE (R273). The whole offset is absorbed, the base returns to INC and AMORT_BUSY clears. -/
  | amortDone (b : Fin 4)
  /-- AMORT_STOP (R273). AMORT_STOP requests the end of the adjustment. -/
  | amortStop (b : Fin 4)
  /-- AMORT_STOP_APPLY (R273). The adjustment ends and the remainder is written into TB_OFFb. -/
  | amortStopApply (b : Fin 4)
  /-- REPLICA_REALIGN (R275). A sideband marker round trip realigns a tile replica, correcting it or clearing VALID. -/
  | replicaRealign (t : Tile) (x : MarkerTrip)
  /-- TPO_LOAD (R277). LOAD applies a TPO's staged programming. -/
  | tpoLoad (n : Fin 8)
  /-- TPO_EDGE (R277). A TPO pulse edge is placed when the base reaches its time, raising TPOn_PULSE at a leading edge. -/
  | tpoEdge (n : Fin 8)
  /-- TCI_EDGE (R279). A filtered TCI edge is timestamped into the FIFO or dropped. -/
  | tciEdge (n : Fin 8) (falling : Bool) (e : PinEdge)
  /-- TCI_TS_READ (R279). A read of word 0 of TB_TCI_TSn pops the head entry and latches its other words. -/
  | tciTsRead (n : Fin 8) (m : Fin 8) (wide : Bool)
  /-- TCI_CLR (R279). TB_TCI_CTLn.CLR empties the FIFO. -/
  | tciClr (n : Fin 8)
  /-- SYNC_IN_EDGE (R280). A filtered SYNC_IN edge is timestamped on TB0, counted and raises SYNC_EDGE. -/
  | syncInEdge (rising : Bool) (e : PinEdge)
  /-- SP_CFG_WRITE (R282). A write of SP_CFG is applied, or refused with CFG_REFUSED for RS-FEC at 10G or changes while enabled. -/
  | spCfgWrite (p : Fin 2) (v : W32)
  /-- SP_LINK_LOSS (R284). A port loses block lock or RS-FEC alignment, clears LINK, raises SPs_LINK and discards queued frames. -/
  | spLinkLoss (p : Fin 2)
  /-- SP_FRAME_RX (R283). A received frame is timestamped, filtered and sent to Barista, the receive ring or forwarding. -/
  | spFrameRx (p : Fin 2) (bs : List Byte) (fcs : Bool) (k : Fin 5)
  /-- SP_FRAME_TX (R287). A frame is committed to the wire, timestamped, one-step or residence fields updated and a TSQ entry made. -/
  | spFrameTx (p : Fin 2) (k : Fin 5)
  /-- SP_TXR_DOORBELL (R285). A write of SP_TXR_PI makes transmit descriptors available. -/
  | spTxrDoorbell (p : Fin 2) (v : W32) (fr : List (List Byte × List Byte))
  /-- SP_RXR_DOORBELL (R285). A write of SP_RXR_PI gives the port receive buffers. -/
  | spRxrDoorbell (p : Fin 2) (v : W32) (bufs : List (W64 × BitVec 14))
  /-- SP_FR_INIT (R292). SP_FR_CTL.INIT zeroes the frame ring indices while EN = 0. -/
  | spFrInit (p : Fin 2) (v : W32)
  /-- SP_TSQ_READ (R287). A read of word 0 of SP_TSQ_TS pops the head timestamp entry. -/
  | spTsqRead (p : Fin 2) (m : Fin 8) (wide : Bool)
  /-- SP_TC_ENABLE (R289). A write of SP_TC_CTL.EN turns the transparent clock on, refused unless both ports qualify. -/
  | spTcEnable (en : Bool)
  /-- FORWARD_READY (R291). A forwarded frame becomes ready and joins its class queue at the egress port. -/
  | forwardReady (p : Fin 2)
  /-- PCIE_LINK_DOWN (R295). Link down, Hot Reset or PERST# resets configuration space and raises PCIE_LINK_DOWN. -/
  | pcieLinkDown
  /-- PCIE_CONFIG_WRITE (R295). A configuration write changes Bus Master Enable, D-state, MSI-X Enable or SR-IOV fields. -/
  | pcieConfigWrite (f : Fn) (x : CfgItem)
  /-- PCIE_REQUEST (R303). An inbound memory request is decoded and served or completed with an error. -/
  | pcieRequest (f : Fn) (r : PcieReq)
  /-- VF_DOORBELL_ACCESS (R299). An access to a VF doorbell slot acts on its ring or is refused and counted in DB_BAD. -/
  | vfDoorbellAccess (v : Fn) (k : Fin 1024) (w : Fin 8) (wr : Bool) (x : W32)
  /-- VF_FLR (R304). A Function Level Reset of a VF masks its vectors, clears mailboxes and drains its rings. -/
  | vfFlr (v : Fn)
  /-- VF_FLR_DONE (R304). The VF reset completes within 1 ms and FLR_BUSY clears. -/
  | vfFlrDone (v : Fn)
  /-- VF_RING_WRITE (R297). A write of LAT_VF_RINGv is refused while VF Enable = 1. -/
  | vfRingWrite (v : Fn) (w : W32)
  /-- VF_VEC_WRITE (R300). A write of LAT_VF_VECv is refused while VF Enable = 1 or over the total. -/
  | vfVecWrite (v : Fn) (w : W32)
  /-- MSIX_SEND (R301). A message for a vector is sent, held pending or counted as out of range. -/
  | msixSend (f : Fn) (v : BitVec 11)
  /-- MSIX_UNMASK (R301). Unmasking or enabling sends one message for each pending vector. -/
  | msixUnmask (f : Fn) (v : BitVec 11)
  /-- VF_MBOX_SEND (R324). LAT_VFR_MBCTL.SEND sets the VF's pending bit and sends the PF mailbox vector. -/
  | vfMboxSend (v : Fn)
  /-- PF_MBOX_SEND (R324). LAT_VF_STATv.SEND sets MB_IN and sends the VF mailbox vector. -/
  | pfMboxSend (v : Fn)
  /-- LAT_STARVE_PROMOTE (R308). A master's wait at a target exceeds CYCLES and it is promoted for one grant. -/
  | latStarvePromote (t : Fin 8) (heads : List (Fin 8))
  /-- LAT_TIMEOUT_EXPIRY (R310). A granted transaction exceeds LAT_TMO, is ended with an error and raises LAT_TIMEOUT. -/
  | latTimeoutExpiry (m : Fin 8) (t : Fin 8) (wr : Bool) (x : LatWait)
  /-- LAT_DECODE_ERROR (R312). An access with no path or outside every memory region is refused and raises LAT_DECODE. -/
  | latDecodeError (m : Fin 8) (t : Fin 8) (wr : Bool) (x : LatAddr)
  /-- MASTER_RESET (R311). A master's traffic is retired with null beats, discarded data and released locks. -/
  | masterReset (m : Fin 8)
  /-- RETIRE_DONE (R311). Retirement of a master ends and its port accepts requests again. -/
  | retireDone (m : Fin 8)
  /-- DMA_START (R313). START runs the channel's descriptor image once, or sets REFUSED. -/
  | dmaStart (c : Fin 16)
  /-- DMA_CHAIN_START (R313). CHAIN_START fetches the descriptor at DMA_CH_NEXT. -/
  | dmaChainStart (c : Fin 16)
  /-- DMA_CHAIN_KICK (R321). CHAIN_KICK re-reads the last link word, is held, or is refused by state. -/
  | dmaChainKick (c : Fin 16)
  /-- DMA_ABORT (R313). ABORT ends the channel's traffic as a master reset and returns it to IDLE. -/
  | dmaAbort (c : Fin 16) (n : BitVec 32) (host : List Byte)
  /-- DMA_CLEAR (R313). CLEAR returns the channel to IDLE from IDLE_AT_EOC or ERROR. -/
  | dmaClear (c : Fin 16)
  /-- DMA_FETCH_DONE (R319). A descriptor read completes and it is checked and run or the channel enters ERROR. -/
  | dmaFetchDone (c : Fin 16) (host : List Byte)
  /-- DMA_DESC_DONE (R321). A descriptor completes, raises DMAc_DONE and the channel follows LINK or enters IDLE_AT_EOC. -/
  | dmaDescDone (c : Fin 16) (host : List Byte)
  /-- DMA_ERROR (R323). A Lattice, host or uncorrectable error ends the channel's traffic and it enters ERROR. -/
  | dmaError (c : Fin 16) (e : DmaErr) (n : BitVec 32) (host : List Byte)
  /-- CHORD_OCCURRENCE (R326). A producer occurrence reaches its channel and fires it, subject to groups, re-trigger and storm guard. -/
  | chordOccurrence
  /-- EVT_RAISE (R326). A host write of EVT_RAISE fires a channel. -/
  | evtRaise (c : Fin 64)
  /-- EVIN_EDGE (R332). A synchronised edge on an EVIN pin makes an occurrence. -/
  | evinEdge (k : Fin 4) (level : Bool)
  /-- EVOUT_PULSE_END (R329). An EVOUT pulse of WIDTH SLOW cycles ends and the consumer is no longer busy. -/
  | evoutPulseEnd (k : Fin 4)
  /-- EVT_CH_WRITE (R334). A write of EVT_CHc with EN = 1 re-enables the channel and clears its firing history. -/
  | evtChWrite (c : Fin 64) (v : W32)
  /-- FAULT_RAISE (R336). A fault source sets its FLT_STAT bit, latches info and launches its reactions. -/
  | faultRaise (n : Fin 64) (info : W32)
  /-- FLT_STAT_CLEAR (R336). A W1C write of FLT_STAT ends a source's handling window and may release ERR_N. -/
  | fltStatClear (x : MasterWrite)
  /-- FLT_FIRST_CLEAR (R337). Writing 1 to FLT_FIRST.VALID clears VALID and OVF. -/
  | fltFirstClear
  /-- FLT_SOFT (R340). A write of FLT_SOFT raises SOFT0–SOFT3. -/
  | fltSoft (mask : BitVec 4)
  /-- CE_WINDOW_END (R340). A corrected-error window ends and SRAM_CE_RATE is raised if the threshold was reached. -/
  | ceWindowEnd (store : Fin 9) (n : BitVec 32)
  /-- NMI_RESPONSE (R369). Service Firmware answers an NMI by logging it and entering SAFE where the source requires. -/
  | nmiResponse
  /-- FLT_FENCE (R343). FLT_FENCE_CTL.FENCE fences the named region, or is refused. -/
  | fltFence (region : Fin 8) (idx : Fin 64)
  /-- FENCE_TAKE_EFFECT (R343). A fence takes effect within 1 µs, parking the region and applying its effects. -/
  | fenceTakeEffect
  /-- FLT_UNFENCE (R344). FLT_FENCE_CTL.UNFENCE starts the region's resume sequence, or is refused. -/
  | fltUnfence (region : Fin 8) (idx : Fin 64)
  /-- RESUME_DONE (R344). A resume sequence completes and the region's fence lifts. -/
  | resumeDone (region : Fin 8) (idx : Fin 64)
  /-- RESUME_STEP_TIMEOUT (R344). A resume step's condition is not met by the bound and RESUME_FAIL is set. -/
  | resumeStepTimeout (region : Fin 8) (idx : Fin 64)
  /-- FREEZE_REQUEST (R346). FREEZE_N low, a Chord trigger or FLT_FRZ_CTL.SET requests freeze and the clocks stop. -/
  | freezeRequest (src : Fin 3)
  /-- FREEZE_PIN_RISE (R346). A rising edge of FREEZE_N clears HOLD. -/
  | freezePinRise
  /-- THAW (R349). The clocks restart at an aligned edge, time bases advance by D and FREEZE_TAKEN is raised. -/
  | thaw
  /-- PWR_REQ_RISE (R355). PWR_REQ rises in OFF and the power-up sequence starts with VIO_EN. -/
  | pwrReqRise (ms : BitVec 32)
  /-- RAIL_POWER_GOOD (R355). A rail reaches power good and the next power-up step starts, ending in power good and BOOT. -/
  | railPowerGood (r : Fin 10) (v : BitVec 16) (k : BitVec 16)
  /-- PWRUP_STEP_TIMEOUT (R356). A power-up step misses PG in 5 ms, the step is recorded and the device powers down to OFF. -/
  | pwrupStepTimeout
  /-- PWR_REQ_FALL (R357). PWR_REQ falls and the power-down sequence runs. -/
  | pwrReqFall
  /-- VSTBY_LOW (R357). VSTBY falls below 2.9 V and the power-down sequence runs. -/
  | vstbyLow
  /-- VSTBY_BROWNOUT (R357). VSTBY stays between 2.9 V and 3.0 V for 10 µs and VSTBY_BROWNOUT is raised. -/
  | vstbyBrownout
  /-- POWER_DOWN_DONE (R357). The power-down sequence ends and the device is in OFF. -/
  | powerDownDone
  /-- RAIL_FAULT (R358). A DPC qualifies UV, OV or OC on its rail and the hardware powers down or turns the rail off. -/
  | railFault (r : Fin 9) (kind : Fin 3) (v : BitVec 16) (k : BitVec 16)
  /-- RAIL_RESTART (R358). Writing EN = 1 restarts a VHTR or VPIC rail, refused while fault bits are set. -/
  | railRestart (n : Fin 4)
  /-- DPC_VSET0_WRITE (R354). A host write of DPC_VSET0 outside the window is refused. -/
  | dpcVset0Write (v : BitVec 16)
  /-- AVS_UPDATE (R354). Every 100 ms Service Firmware corrects VCORE from the delay monitors. -/
  | avsUpdate (k : Fin 21)
  /-- VHTR_DEMAND_REPORT (R359). A tile reports its VHTR demand and DPC4's target is updated. -/
  | vhtrDemandReport (t : Tile) (loads : List (Chan × BitVec 16)) (v : BitVec 16) (itot : BitVec 16) (ph : BitVec 16)
  /-- CAP_EXCEED_TIMEOUT (R363). VHTR current or dissipation exceeds its cap for 100 µs and PWR_OVERCURRENT is raised. -/
  | capExceedTimeout (itot : BitVec 16) (ph : BitVec 16)
  /-- BOOT_STEP_DONE (R365). A boot step completes or fails and boot proceeds, ending at READY and OPERATE. -/
  | bootStepDone (ok : Bool)
  /-- PARK (R372). The PARK command fences every tile, stops threads and clock-gates the engines. -/
  | park (slot : Fin 4)
  /-- RESUME (R372). The RESUME command reverses the gating, resumes each tile and enters OPERATE. -/
  | resume (slot : Fin 4)
  /-- SAFE (R372). The SAFE command parks the device and fences every member. -/
  | safe (slot : Fin 4)
  /-- SHUTDOWN (R368). The SHUTDOWN command posts its result and runs the power-down sequence. -/
  | shutdown (slot : Fin 4)
  /-- TEST_ENTER (R370). TEST_ENTER moves the device to TEST if every partition is in HOLD and every rotor IDLE. -/
  | testEnter (slot : Fin 4)
  /-- CARAFE_WRITE (R58). Service Firmware checks, writes and verifies Carafe entries of one tile. -/
  | carafeWrite (slot : Fin 4) (data : List W32) (retries : BitVec 16) (bad : Option Chan)
  /-- PATCH_ARB_COMMIT (R266). Blows anti-rollback fuses up to V if V is allowed. -/
  | patchArbCommit (slot : Fin 4)
  /-- LOG_READ (R368). Copies event log entries to host memory. -/
  | logRead (slot : Fin 4)
  /-- FLASH_READ (R368). Reads flash into host memory. -/
  | flashRead (slot : Fin 4)
  /-- FLASH_WRITE (R368). Erases, writes and verifies flash from host memory. -/
  | flashWrite (slot : Fin 4) (data : List Byte) (got : List Byte)
  /-- MCMD_COMPLETE (R367). A management command finishes, writes its result, clears BUSY and sends its vector. -/
  | mcmdComplete (slot : Fin 4)
  /-- CHIP_RESET (R373). RESET_N low for 1 µs resets the Control Die and boot runs again. -/
  | chipReset
  /-- CHIP_RST (R373). GLB_CTL.CHIP_RST makes a chip reset. -/
  | chipRst
  /-- PMODE_REQUEST (R374). GLB_PMODEp GO requests a partition mode change, applied in order or refused. -/
  | pmodeRequest (p : Part) (code : Fin 8)
  /-- TD_CONVERSION (R377). A tile temperature converter converts its next enabled input every 2.5 ms. -/
  | tdConversion (t : Tile) (vlo : BitVec 32) (vhi : BitVec 32) (d21 : BitVec 32) (d32 : BitVec 32)
  /-- TD_CHECK (R381). Every 10 ms the Control Die cross-checks each input, sets states and compensated values. -/
  | tdCheck
  /-- IS_READ (R383). An internal sensor is read every 1 ms and compared with its thresholds. -/
  | isRead (k : Fin 8) (v : BitVec 16)
  /-- REF_COMPENSATION (R385). Every 10 ms each tile reference is corrected for its temperature. -/
  | refCompensation (t : Tile) (v : BitVec 16)
  /-- BOSC_CORRECTION (R386). Every 10 ms the backup oscillator is corrected from IS7. -/
  | boscCorrection (err : BitVec 16) (valid : Bool)
  /-- TRIM_TILE (R390). CAL_CMD TRIM_TILE runs the boot trim steps on one tile. -/
  | trimTile (t : Tile) (x : TrimOp)
  /-- TRIM_AO (R391). CAL_CMD TRIM_AO trims offset and gain of a partition's AO channel by channel. -/
  | trimAo (p : Part) (x : TrimOp)
  /-- TRIM_MI (R390). CAL_CMD TRIM_MI trims each MI of a partition. -/
  | trimMi (p : Part) (x : TrimOp)
  /-- CAL_CMD_DONE (R390). A calibration command finishes with OK, PARTIAL, ABORTED or INVALID. -/
  | calCmdDone
  /-- TRIM_WINDOW_ACCESS (R392). A CAL_TWIN_DATA access reads or writes a trim word, refused by mode. -/
  | trimWindowAccess (wr : Bool) (v : W32)
  /-- LANE_TEST_ENABLE (R399). Setting GEN_EN or CHK_EN starts a lane test and takes its link out of service. -/
  | laneTestEnable (l : Fin 256) (v : W32)
  /-- LANE_TEST_DISABLE (R399). Clearing both enables ends a lane test and the link resumes. -/
  | laneTestDisable (l : Fin 256) (v : W32)
  /-- PCIE_LANE_TEST_TIMEOUT (R399). A PCIe lane test reaches TST_PCIE_TMO, stops and the link retrains. -/
  | pcieLaneTestTimeout
  /-- CHECKER_LOCK (R400). A checker sees 256 matching bits and enters LOCK. -/
  | checkerLock (l : Fin 256) (rx : List Bool) (line : List Bool)
  /-- CHECKER_LOSS (R400). More than 64 mismatches in 256 bits return the checker to SEARCH. -/
  | checkerLoss (l : Fin 256) (rx : List Bool) (line : List Bool)
  /-- INJ (R401). INJ inverts one bit of the generator's output. -/
  | inj (l : Fin 256)
  /-- LANE_CLR (R401). CLR zeroes ERR and BITS. -/
  | laneClr (l : Fin 256)
  /-- STIM_START (R402). START of the stimulus generator is checked and the stimulus scheduled. -/
  | stimStart (t : Tile) (v : W32)
  /-- STIM_EDGE (R402). The stimulus drives its next level or ramp step and starts or ends a mean. -/
  | stimEdge (t : Tile)
  /-- STIM_END (R403). The stimulus ends, outputs return and RESULT and DONE are set. -/
  | stimEnd (t : Tile)
  /-- STIM_ABORT (R404). ABORT ends the stimulus at once with result ABORTED. -/
  | stimAbort (t : Tile)
  /-- OS_START (R406). START of the structural test sets the tile's AO OFF and tests its sites. -/
  | osStart (t : Tile) (v : W32)
  /-- OS_DONE (R405). The structural test ends, the map is complete and the tile re-applies its Carafe and bias. -/
  | osDone (t : Tile) (x : OsRun)
  /-- OS_ABORT (R406). ABORT ends the structural test with result ABORTED. -/
  | osAbort (t : Tile)
  /-- TEST_EXIT_STOP (R396). Leaving TEST stops every running test with result ABORTED. -/
  | testExitStop
  /-- TAP_UPDATE_IR (R408). Update-IR loads an instruction, or BYPASS and DEBUG_INTRUSION while locked. -/
  | tapUpdateIr (op : Byte)
  /-- UNLOCK (R408). Update-DR of UNLOCK submits a signature for verification. -/
  | unlock (x : UnlockOp)
  /-- UNLOCK_VERIFY_DONE (R408). Signature verification ends, unlocking the TAP or counting a failure. -/
  | unlockVerifyDone (ok : Bool) (customer : Bool)
  /-- RELOCK (R408). TST_DBG.RELOCK locks the TAP. -/
  | relock
  /-- IJTAG_ACCESS (R409). An IEEE 1687 instrument access clears freeze, reads state or accesses registers and memory. -/
  | ijtagAccess (x : JtagOp)
  /-- SP_BLOCK_LOCK (R284). A sync port's receiver gains PCS block lock and RS-FEC alignment where used, and SP_STAT.LINK sets. -/
  | spBlockLock (p : Fin 2)
  /-- PCIE_LINK_TRAINED (R293). The PCIe link trains to L0 at its negotiated speed and width, and LAT_PCI_STAT reports them. -/
  | pcieLinkTrained (speed : Fin 8) (width : Fin 16)
  /-- VSTBY_POWER_UP (R355). VSTBY becomes good, the always-on region starts, its not-reset registers take their VSTBY power-up values and the device is in OFF. -/
  | vstbyPowerUp
  /-- MP_WATCHDOG_EXPIRY (R340). A management processor's watchdog runs out and raises MP_WDOG, whose block reset resets that processor as a master reset. -/
  | mpWatchdogExpiry (k : Fin 4)
  deriving DecidableEq, Repr

end Sys2Proof
end

