-- ==== Sys2Proof/Decode.lean ====
section
/-! DEFINITION. Commands that a word spells: the table of operations gives no row any bits, so no word spells one. -/

namespace Sys2Proof

/-- No row of the table has bits. -/
def decodeTableWord (_nbits _w : Nat) : Option Instr := none

end Sys2Proof
end

