-- ==== Sys2Proof/Config.lean ====
section
/-! DEFINITION. What the spec leaves to the part or the board, and the free values: constants with no body, about which nothing can be proved. -/

namespace Sys2Proof

/-- The fused device identifier (GLB_DEVID, R376). -/
opaque Config.devId : BitVec 64
/-- Phases of DPC n by the bytes of the board configuration record, whose layout the spec does not give (R364, DPC_CFGn.PHASES); before any record is applied, of none. -/
opaque Config.dpcPhases : List (BitVec 8) → Nat → BitVec 3
/-- The over-current limit of DPC n by the bytes of that record (R364, DPC_LIMn). -/
opaque Config.dpcOcl : List (BitVec 8) → Nat → BitVec 16
/-- VCORE as fused at test: 700 mV and so many steps of 5 mV (R354). -/
opaque Config.vcoreFuse : Fin 21
/-- VHTR_INIT and the configuration of VPIC n by the bytes of that record (R364). -/
opaque Config.boardVhtrInit : List (BitVec 8) → BitVec 9
opaque Config.boardVpic : List (BitVec 8) → Nat → BitVec 32
/-- The factory value of a tile word of the trim space, by tile and byte offset, and the fused tile identifier (R388). -/
opaque Config.tileTrim : Nat → Nat → BitVec 32
opaque Config.tileId : Nat → BitVec 32
/-- The microwords in the ROM of a Sequencer (true) or a Loop Engine, what patch RAM holds where nothing has been loaded, with its parity bits above bit 208, and the link bit of a microword, whose place R261 does not give. -/
opaque Config.romWord : Bool → Nat → BitVec 208
opaque Config.ramWord : Nat → BitVec 212
opaque Config.microLink : Bool → BitVec 208 → Bool
/-- What the keys of the part and of Lumevetus make of an image (R264, R265): whether SIG verifies, and the plaintext of an image whose GTAG verifies. -/
opaque Config.sigValid : List (BitVec 8) → Bool
opaque Config.gcmOpen : List (BitVec 8) → Option (List (BitVec 8))
/-- Whether a signature over the nonce and GLB_DEVID verifies with Lumevetus' debug key (false) or the customer's (true) (R408). -/
opaque Config.debugSig : Bool → BitVec 320 → BitVec 768 → Bool
/-- How the FLT_INFOs of a source stand in the 26 bits that an event log entry leaves beside the source and TB0 (R368). -/
opaque Config.logInfo : BitVec 32 → BitVec 26
/-- The capabilities of R293. -/
inductive CapId where
  | power | express | msix | sriov | serial | aer | ari | secondary | dataLink | phy16 | phy32 | margining
  deriving DecidableEq, Repr

/-- Where a capability of the PF (true) or of a VF begins in configuration space, as a number of double words (R293). -/
opaque Config.capAt : Bool → CapId → BitVec 10
/-- The factory-trimmed asymmetry of a Tile Link's sideband in ps (R274). -/
opaque Config.linkAsym : Nat → BitVec 16
/-- Values the spec leaves undefined, a fresh one for each index of State.freeCtr. -/
opaque Config.freeValue : Nat → BitVec 96

end Sys2Proof
end

