-- ==== Sys2Proof/Machine/State.lean ====
section
/-! DEFINITION. The state of the Diral 5120 as plain data, and the state right after reset. Registers stand in one sparse table; what the spec gives the part beside its registers stands in one structure for each block. -/

namespace Sys2Proof.Machine

/-- The block meets no condition under which it stops: the spec answers every access, and this reason is raised by no meaning (safe: nothing stops). -/
inductive Fault where
  | noSuchState
  deriving DecidableEq, Repr

/-- Why a command has no next state. -/
inductive Refusal where
  /-- The command has no meaning in this model yet; raised by an arm of Dispatch only. Safe: nothing follows from it. -/
  | notModelled (mnemonic : String)
  deriving DecidableEq, Repr

/-- What brings a register back to its reset value: chip reset (cd), tile re-initialisation (tile), or nothing but VSTBY power-up (aon) (R62, R373). -/
inductive Scope where
  | cd | tile | aon
  deriving DecidableEq, Repr

/-- A register of the spec's tables: its place in BAR0 (R29, R30), how often it stands (ni instances si bytes apart, nj within each), the masks of its field types (R5), and its reset value. -/
structure Reg where
  id : Nat
  addr : Nat
  bytes : Nat
  scope : Scope
  si : Nat := 0
  ni : Nat := 1
  sj : Nat := 0
  nj : Nat := 1
  rw : RWord := 0
  rwl : RWord := 0
  wo : RWord := 0
  w1c : RWord := 0
  w1s : RWord := 0
  rc : RWord := 0
  rst : Nat → Nat → RWord := fun _ _ => 0

/-- A field of a register: its lowest bit and its width (R4). -/
structure Fld where
  reg : Reg
  lo : Nat
  wd : Nat

/-- The root-derived clocks (R22): running, frozen (R347), lost (R25), or off. -/
inductive Clk where
  | running | frozen | lost | off
  deriving DecidableEq, Repr

/-- What the hardware has done to a register in the CORE cycle in hand (R6): the register before that cycle's hardware updates, the bits updated, and those of them set. -/
structure HwUpd where
  old : RWord
  mask : RWord
  set : RWord
  deriving DecidableEq, Repr

/-! ### Tiles, actuator outputs and the Carafe (01, 02) -/

/-- The supervision converter of a tile (R49): the channels that have asked for a priority reading, each with the cycle of its request, in order: the first 16 are the queue and the rest wait to enter it; the place of the background scan and of the fast list, and the share account. -/
structure Sadc where
  prio : List (Nat × Nat) := []
  bg : Nat := 0
  fast : Nat := 0
  acc : Nat := 0
  deriving DecidableEq, Repr

/-- What a tile holds beside its registers: its analogue supplies (R15), its Tile Link and the retries of the frame in hand (R17), the fence by its own watchdog and whether the tile has reported it (R17, R342), whether registers are to be re-initialised at the next training (R62) and whether they have been since the fence (R344). -/
structure TileSt where
  powered : Bool := true
  linkUp : Bool := false
  retry : Nat := 0
  badFrame : Bool := false
  wdog : Bool := false
  told : Bool := false
  needReinit : Bool := true
  sadc : Sadc := {}
  deriving DecidableEq, Repr

/-- The last write of an active register (R45): the cycle, the precedence, 1 the highest, and the code before the writes of that cycle. -/
structure LastWrite where
  cycle : Nat
  prec : Nat
  before : Nat
  deriving DecidableEq, Repr

/-- A staging word (R137). -/
structure SWord where
  ao : Nat
  state : Nat
  expl : Bool
  code : Nat
  deriving DecidableEq, Repr

/-- A write that a strobe of the same cycle comes before (R42, R216): a staging word of a partition, or a LAW.SET image for a bank, with the thread that waits for its answer and the register it goes to. -/
inductive ShdWrite where
  | word (part : Nat) (w : SWord)
  | law (part d bank : Nat) (image : List Byte)
  deriving DecidableEq, Repr

/-- What stood in a shadow register and in the two banks before the writes of a cycle, with that cycle, the writes in order, the inputs that they put on shadow focus lists with their partitions, and LE_ERR_INFO, LE_STAT and LE_OVC_LOAD around each refused LAW.SET, for a strobe in the same cycle (R42, R73, R216). -/
structure ShdOld where
  cycle : Nat
  writes : List ShdWrite
  code : Nat
  state : Nat
  staged : Bool
  qterm : Nat
  qpart : Nat
  bankA : List Byte
  bankS : List Byte
  cstaged : Bool
  started : Bool
  swept : Bool
  slot : Bool
  foc : List (Nat × Nat) := []
  errs : List (List (BitVec 96) × List (BitVec 96)) := []
  deriving DecidableEq, Repr

/-- What stood before the mode or range changes of a cycle, for a park or a strobe in the same cycle (R45): the cycle, MODE and RANGE, the partition, AO_RB.VALID, the shadow code, whether it was staged and bank S with it. -/
structure Cut where
  cycle : Nat
  mode : Nat
  range : Nat
  part : Nat
  valid : Nat
  code : Nat
  staged : Bool
  bankS : Bool
  deriving DecidableEq, Repr

/-- What the bump of an output carries (R33, R34, R37): high impedance with 100 kOhm to AGND, a voltage in steps of 10 V / 65,536, or a current in steps of 2 mA / 65,536. -/
inductive Drive where
  | hiZ
  | volt (v : Int)
  | amp (i : Nat)
  deriving DecidableEq, Repr

/-- What an actuator output holds beside its registers: the commit generation (R44), the charge term in sixteenths of a pC and the partition it counts for (R46, R137), its recent moves as (cycle, codes moved) (R50), the last active write (R45) and how many parks, commits and mode changes there have been (R391), what stood before a shadow write of this cycle (R42), and what stood before a mode or range change, for a park or a strobe in the same cycle (R45). -/
structure AoSt where
  gen : Nat := 0
  qterm : Nat := 0
  qpart : Nat := 0
  moves : List (Nat × Nat) := []
  lastW : Option LastWrite := none
  strong : Nat := 0
  shdOld : Option ShdOld := none
  cut : Option Cut := none
  deriving DecidableEq, Repr

/-- The Carafe of all tiles (R55): the 32 data bits of each entry by global AO, and the entries whose check bits do not match (two bits: uncorrectable; one bit: corrected at each read). -/
structure CarafeSt where
  entry : Map Nat := []
  ue : List Nat := []
  ce : List Nat := []
  deriving DecidableEq, Repr

/-! ### Monitor inputs and converters (03) -/

/-- What a monitor input holds beside its registers: the count of low samples (R65), the changes of its range not long past, newest first, each as the cycle at which it takes effect and the range before it (R66), the cycle of the last written range, the samples delivered towards the decimation (R76), and a hold of ranging by a stimulus (R403). -/
structure MiSt where
  low : Nat := 0
  changes : List (Nat × Nat) := []
  wrote : Option Nat := none
  decim : Nat := 0
  stim : Bool := false
  deriving DecidableEq, Repr

/-- An entry of an active focus list (R75): the input; the frames left, counted while frames run; and the cycle from which its frames run by time in a mode without them. -/
structure FocEnt where
  j : Nat
  remain : Nat
  since : Nat
  deriving DecidableEq, Repr

/-- The entries of an active focus list that have expired in a cycle (R75): the cycle, the list before them, and the channels whose focus slots were given back with them (R107). -/
structure Expired where
  cycle : Nat
  list : List FocEnt
  slots : List Nat
  deriving DecidableEq, Repr

/-- A conversion in flight (R69): the input, whether it was taken in a focus slot, the cycle of the CONV edge that started it, and the converter's sequence count then. -/
structure Flight where
  j : Nat
  foc : Bool
  conv : Nat
  seq : Nat
  deriving DecidableEq, Repr

/-- A converter (R69, R70, R71, R73, R74): the mode in force, a pass in progress and its last entry, the place in the table and the CONV edge of the last entry walked, the slot of the frame and the edge from which the frames run, the cycle at which a COMMIT delay ends, the cycle of the next timer tick, the shadow focus list as (partition, j) and the active one, what has expired in a cycle, the last CONV edge seen and what each of the last ten started, oldest first. -/
structure MadcSt where
  mode : Nat := 0
  pass : Bool := false
  len : Nat := 127
  pos : Nat := 0
  walked : Nat := 0
  slot : Nat := 0
  grid : Nat := 0
  delay : Option Nat := none
  timer : Nat := 0
  shadow : List (Nat × Nat) := []
  active : List FocEnt := []
  gone : Option Expired := none
  edge : Option Nat := none
  pipe : List (Option Flight) := []
  deriving DecidableEq, Repr

/-- A sample as delivered (R72): the code, the range it was taken in, the focus flag, the cycle its conversion started, the converter's sequence count, and its number among all samples. -/
structure Samp where
  code : Nat
  range : Nat
  focus : Bool
  conv : Nat
  seq : Nat
  serial : Nat
  deriving DecidableEq, Repr

/-- The token buckets of a tile (R72, R76), each of 16 samples. -/
structure Tokens where
  out : Nat := 16
  inb : Nat := 16
  sq : Nat := 16
  deriving DecidableEq, Repr

/-- A bias ramp (R67): where it started, in CORE cycles of 1 V/ms from 0 V, at which cycle, and its target. -/
structure Ramp where
  pos : Nat
  start : Nat
  target : Nat
  deriving DecidableEq, Repr

/-- Monitor sampling: inputs by m, converters by 8t + d, buckets by tile, samples on the way to another tile (destination, m, sample) and to a Sample Queue (queue, word), the last bias ramp by tile, the read index of each queue before its last write with that write's cycle (R78), the tokens added to each bucket by 3t + bucket, and the number of the next sample. -/
structure MonSt where
  mis : Map MiSt := []
  madcs : Map MadcSt := []
  tokens : Map Tokens := []
  fwd : List (Nat × Nat × Samp) := []
  sq : List (Nat × Nat) := []
  ramps : Map Ramp := []
  rdOld : Map (Nat × Nat) := []
  refills : Map Nat := []
  serial : Nat := 1
  deriving DecidableEq, Repr

/-! ### Loop Engines (04) -/

/-- What the engine holds for the contexts of an actuator output beside their 32 words: whether bank S is staged; for bank A the conversion start and number of the sample of its last update, the last commit instant on the tile's replica in 2^-48 ns and whether its kick has expired before its time (R92, R111, R272), the commit update still due and the samples that wait for it (R88), a focus slot held and the first focused sample seen (R107), the first update of a sweep, its ramp in Q16.16 and its end (R103), the feedback of the last update (R100), the cycle of the last tick. -/
structure CtxSt where
  staged : Bool := false
  lastConv : Option Nat := none
  lastSerial : Nat := 0
  commitT : Nat := 0
  kickOver : Bool := false
  due : Bool := false
  waiting : List Samp := []
  slot : Bool := false
  asked : Bool := false
  started : Bool := false
  ramp : Int := 0
  swept : Bool := false
  fbprev : Int := 0
  tick : Option Nat := none
  deriving DecidableEq, Repr

/-- An output update on its way to an active register (R83): the channel, the code, its generation (R44). -/
structure LoopOut where
  ao : Nat
  code : Nat
  gen : Nat
  deriving DecidableEq, Repr

/-- The Loop Engines: contexts by global AO, outputs on their way in order, and the last sample of each input delivered to the engine of a tile, by 16384t + m, the output updates of a tile since its last digest block (R253), and by tile the chip length in force before the last write of LE_DITHER with the ns of the replica at which that write applies. -/
structure LeSt where
  ctx : Map CtxSt := []
  outs : List LoopOut := []
  last : Map Samp := []
  count : Map Nat := []
  dith : Map (Nat × Nat) := []
  deriving DecidableEq, Repr

/-! ### Routing, staging and commit (05) -/

/-- A circuit (R122): output, status (0 FREE, 1 ESTABLISHED, 2 PENDING_SET, 3 PENDING_CLEAR, 4 PENDING_MOVE, 5 BROKEN), owner, commit time; the side it takes in each nested network (R126) or its hops (R128); for a pending change the ring that asked for it; and where the plan takes the committed circuit of the input away the ring that asked for that. -/
structure Circ where
  out : Nat := 0
  status : Nat := 0
  owner : Nat := 0
  noown : Bool := false
  ns : Nat := 0
  sec : Nat := 0
  sides : List Nat := []
  hops : List (Nat × Nat) := []
  req : Option Nat := none
  gone : Option (Option Nat) := none
  deriving DecidableEq, Repr

/-- A loaded topology descriptor (R116); kind 0 when none is loaded. -/
structure Desc where
  kind : Nat := 0
  logn : Nat := 0
  apc : Nat := 2
  segs : List (Nat × Nat) := []
  cells : Nat := 0
  pathBase : Nat := 0
  pathCnt : Nat := 0
  deriving DecidableEq, Repr

/-- A plan entry (R136) with the cell it belongs to, whether its AO has been reported committed, and whether it stands although its state is the committed one (R122, R208). -/
structure PlanEnt where
  ao : Nat
  state : Nat
  circ : Nat
  cell : Nat
  stg : Bool := false
  fen : Bool := false
  ref : Bool := false
  full : Bool := false
  deriving DecidableEq, Repr

/-- An entry of the collateral report (R133): kind 0 MOVED, 1 CLEARED. -/
structure Coll where
  inp : Nat
  out : Nat
  kind : Nat
  owner : Nat
  noown : Bool
  self : Bool
  aocnt : Nat
  deriving DecidableEq, Repr

/-- What a tentative group is withdrawn to (R125). -/
structure RtSnap where
  circ : Map Circ
  pcells : Map Nat
  plan : List PlanEnt
  deriving DecidableEq, Repr

/-- A circuit op (R203). -/
structure CircOp where
  inp : Nat
  out : Nat
  clr : Bool
  deriving DecidableEq, Repr

/-- A routing job (R125, R207, R208): its ring if it has a record, the record's handle, whether the ring is privileged, the policy that applies (0 ALLOW, 1 POL_SET, 2 POL_PERM), what it asks for, and the DTU that goes back when it returns (R239). -/
structure Job where
  ring : Option Nat
  handle : Option Nat
  priv : Bool
  pol : Nat
  ops : List CircOp
  perm : Option Nat
  full : Bool := false
  refund : Nat := 0
  deriving DecidableEq, Repr

/-- What routing holds for a partition: the loaded descriptor, circuits and cells as committed and with the plan applied (an unlisted circuit is FREE, an unlisted cell UNKNOWN), the plan and whether it is closed, the entries of a closed plan that are still staged for the next commit and the circuits that are BROKEN only for their sake, with whether they were to be cleared (R147), the tentative group, the collateral report, the job outstanding and whether it has its turn, the last result, a load in progress, the contexts exchanged at the last closed commit (R217), words refused by the last staging (R199) and tiles that refused the last fill (R212), after a STAGE.CACHE its library entry (R212), whether a cached plan was not staged whole and the AO that it names (R148, R159), and the last commit instant in ps of TB0 (R143). -/
structure RtPart where
  desc : Desc := {}
  com : Map Circ := []
  circ : Map Circ := []
  cells : Map Nat := []
  pcells : Map Nat := []
  plan : List PlanEnt := []
  closed : Bool := false
  carry : List PlanEnt := []
  mend : List (Nat × Bool) := []
  tent : Option RtSnap := none
  coll : List Coll := []
  job : Option Job := none
  running : Bool := false
  last : Nat := 0
  loading : Bool := false
  exch : Option (List Nat) := none
  refused : Nat := 0
  hint : Option (Option Nat) := none
  cmiss : Bool := false
  cached : List Nat := []
  fillRef : Nat := 0
  lastTc : Option Nat := none
  deriving DecidableEq, Repr

/-- A burst on its way to a tile, or the load of a cache slot in it (R137, R141): its kind 0 shadow words of a plan, 1 explicit words, 2 a cache fill, 3 a cache load by STAGE, 4 a cache load by the Rotor Engine; the words still to be processed, the AO whose words were sent and those refused so far, and whether a fill or load has been made. -/
structure Burst where
  part : Nat
  tile : Nat
  kind : Nat
  slot : Nat := 0
  words : List SWord := []
  sent : List Nat := []
  refused : List Nat := []
  ready : Bool := false
  deriving DecidableEq, Repr

/-- A slot of a tile's plan cache (R140). -/
structure CacheSlot where
  tile : Nat
  bank : Nat
  slot : Nat
  part : Nat
  words : List SWord
  deriving DecidableEq, Repr

/-- An arm held by a tile (R144, R145): the commit it belongs to, its sub-strobes (none: one strobe), the AO committed and those selected and not committed, and the next sub-strobe. -/
structure ArmSt where
  lead : Nat
  tile : Nat
  mask : Nat
  tc : Nat
  subs : Option (List (List Nat)) := none
  done : List Nat := []
  missed : List Nat := []
  next : Nat := 0
  adj : Int := 0
  deriving DecidableEq, Repr

/-- The slot that a Rotor Engine commits (R159): its number, the library entry it realises, its duration, its learning window if it learns (the opening delay and, where known, the close, in ps), the AO its plan names, whether a tile refused its load, and whether an accepted edge of SYNC_IN started it (R163). -/
structure RotFire where
  slot : Nat
  lib : Option Nat
  dur : Nat
  learn : Option (Nat × Option Nat)
  cached : List Nat
  cmiss : Bool
  own : Bool := false
  deriving DecidableEq, Repr

/-- An armed or fired commit on the Control Die (R143 to R149), under the partition that armed it: the mask, t_c in ps of TB0, the tiles whose arm message is on its way and whose reply or cancel is, the replies by tile (0 GO, 1 NOGO, 2 MISS), the sums of R362, whether its cancel deadline has been taken, whether it has been cancelled, has fired, the AO reported committed, the tiles that have reported, the slot of a commit by the Rotor Engine, and how far a forced step of TB0 has moved its instant (R272). -/
structure Commit where
  lead : Nat
  mask : Nat
  tc : Nat
  toArm : List Nat
  toReply : Map Nat := []
  replies : Map Nat := []
  toCancel : List Nat := []
  sumI : Nat := 0
  sumIV : Nat := 0
  decided : Bool := false
  cancelled : Bool := false
  fired : Bool := false
  done : List Nat := []
  missed : List Nat := []
  reported : List Nat := []
  slot : Option RotFire := none
  adj : Int := 0
  deriving DecidableEq, Repr

/-- The Route Unit and the commits: partitions, the partition served last, staging bursts in order, plan caches, arms held by tiles, commits, stages outstanding by partition, state entry bytes on their way to a mirror (offset, cycle of the write, byte), and library writes held while a routing reads them (R115). -/
structure RtuSt where
  parts : Map RtPart := []
  served : Nat := 15
  bursts : List Burst := []
  cache : List CacheSlot := []
  arms : List ArmSt := []
  commits : List Commit := []
  mirror : List (Nat × Nat × Byte) := []
  heldW : List (Nat × List Byte) := []
  deriving DecidableEq, Repr

/-! ### Rotor Engines and learning (06) -/

/-- A learning window (R166): its slot, when it opens and when it closes in ps of TB0 (none: not known yet), the cycle in which it opened, the tiles in which the slot committed, and the accumulators by AO (sum of errors and their number). -/
structure Win where
  slot : Nat
  openAt : Nat
  endAt : Option Nat
  since : Option Nat := none
  tiles : List Nat
  acc : Map (Int × Nat) := []
  deriving DecidableEq, Repr

/-- A stop that only waiting instructions ask for (R196): the flags before it, and what STOP_NOW put aside, the coming slot, the commit instants, how many are from edges, the slot-0 instants and the edges still undecided. -/
structure RotAsk where
  stopPend : Bool
  stopNow : Bool
  aside : Option (Nat × List Nat × Nat × List Nat × List Nat) := none
  deriving DecidableEq, Repr

/-- What a Rotor Engine holds beside its registers (R158 to R167): the coming slot and whether its load has been started, the tiles that were to load it, those that have acknowledged and when in 2^-48 ns, their sub-strobes or NOGO; the coming commit instants in ps of TB0, and how many of them come from accepted edges (R163, R164); the first slot instant of the run (R157) and the slot-0 instants, fired or skipped, that RTU_ROT_CYCp does not count yet (R162); consecutive skips; a STOP or STOP_NOW to be carried out; the last accepted edge with the duration of the slot it started and the last commit instant in ps; the library entry of the last slot that closed OK (R160); the slot last committed in each tile (R95, R166); windows; the edges that came before it is known whether slot 0 is loaded in time (R163); and a stop that only a waiting ROTOR.STOP.W asks for (R196). -/
structure RotSt where
  slot : Nat := 0
  loading : Bool := false
  want : List Nat := []
  loaded : List Nat := []
  ackAt : Nat := 0
  subs : Map (Option (List (List Nat))) := []
  nogo : List Nat := []
  dues : List Nat := []
  own : Nat := 0
  begun : Option Nat := none
  begins : List Nat := []
  skips : Nat := 0
  stopPend : Bool := false
  stopNow : Bool := false
  edge : Option (Nat × Nat) := none
  lastT : Option Nat := none
  lib : Option Nat := none
  tslot : Map Nat := []
  wins : List Win := []
  wait : List Nat := []
  ask : Option RotAsk := none
  deriving DecidableEq, Repr

/-! ### The Sequencers (07, 08) -/

/-- An instruction that has not completed: its destination, and what it waits for (R184, R185, R200, R209, R213 to R215, R217, R220, R222); stage holds staging instructions until their bursts are acknowledged (R211, R212). -/
inductive WaitOp where
  | time (t : RWord)
  | event (d mask : Nat) (clear : Bool) (tmo : Option RWord)
  | pop (d addr : Nat)
  | route (d : Nat)
  | arm (d : Nat) (t : RWord) (mask : Nat) (wt : Option Nat)
  | commit (d : Nat) (wt : Option Nat)
  | abort (d : Nat)
  | bar (d : Nat) (set : List Nat) (tmo : Option RWord)
  | rotor (d : Nat)
  | stage (d form : Nat)
  deriving DecidableEq, Repr

/-- The micro-state of a D2 thread (R191, R192): the microword, the iteration count, the temporaries UT0 to UT15 and TT0, TT1. -/
structure D2St where
  active : Bool := false
  upc : Nat := 0
  step : Nat := 0
  ut : Map W64 := []
  tt : Map RWord := []
  deriving DecidableEq, Repr

/-- A thread of a member (R171, R173, R174): general and time registers, the PC, the control registers by number, the instruction it waits in, a STOP and a REDIRECT awaiting the boundary; its state is SEQ_THR_STAT.STATE. -/
structure ThrSt where
  g : Map W64 := []
  t : Map RWord := []
  pc : Nat := 0
  scr : Map Nat := []
  wait : Option WaitOp := none
  stop : Bool := false
  redirect : Bool := false
  d2 : D2St := {}
  deriving DecidableEq, Repr

/-- The Sequencers: threads by 16m + h, SCR_XBUF by partition, the bytes of data memory that the host has written in a cycle, with that cycle (R176), and by partition the cycle and code of its last PART.MODE (R374). -/
structure SeqSt where
  thr : Map ThrSt := []
  xbuf : Map Nat := []
  dmHost : List (Nat × Nat) := []
  pmAt : Map (Nat × Nat) := []
  deriving DecidableEq, Repr

/-! ### Barista (09) -/

/-- A request (R227) from its arrival to its completion: its ring, port, type, tag, cost, colour and class, its deferrals, the payload bytes 0x10 to 0x3F, the extended payload, its charge: the routing jobs submitted with its record, whether DTU has gone back, the OK growths (R239), the renewal count of the port at its deferral (R238). -/
structure Req where
  ring : Nat
  port : Nat
  typ : Nat
  tag : Nat
  dtu : Nat
  ovh : Nat
  priv : Bool
  xp : Bool
  xlen : Nat
  xaddr : Nat
  payload : List Byte
  xdata : List Byte := []
  colour : Nat := 0
  cls : Nat := 0
  defers : Nat := 0
  admitted : Bool := false
  jobs : Nat := 0
  back : Bool := false
  growth : Nat := 0
  renewals : Nat := 0
  deriving DecidableEq, Repr

/-- A place in a deficit round-robin (R237). -/
structure Drr where
  deficit : Int := 0
  fresh : Bool := true
  deriving DecidableEq, Repr

/-- A read of ring entries (R225): its first index, how many, and what came back. -/
structure RingRead where
  idx : Nat
  n : Nat
  got : Option (List Byte) := none
  deriving DecidableEq, Repr

/-- A ring beside its registers (R225, R230, R234, R235, R237): reads outstanding in index order, pending requests in ring order, the meter's buckets Tc and Te or Tp and the shaper's S in 1/256 TU (none: as every untouched ring of the profile), the deficit, the last message and a message held off, a drain in progress. -/
structure RingSt where
  reads : List RingRead := []
  pend : List Req := []
  meter : Option (Nat × Nat) := none
  s : Option Int := none
  drr : Drr := {}
  lastMsg : Option Nat := none
  msgDue : Bool := false
  draining : Bool := false
  deriving DecidableEq, Repr

/-- An open or reserved record slot (R200, R232), with the data address at which its extended payload was written (R202). -/
structure Rec where
  slot : Nat
  gen : Nat
  req : Req
  isOpen : Bool
  orphan : Bool := false
  ready : Bool := false
  xa : Nat := 0
  deriving DecidableEq, Repr

/-- A partition port (R200, R232, R237, R238): the held request, whether it is blocked, the admit and deferral queues, renewals made, the time of the last one in ns, commit closes that call for one, the budget settings in force, the round order of its services by 2 class + colour, record slots and their generations. -/
structure PortSt where
  held : Option Req := none
  blocked : Bool := false
  aq : List Req := []
  dq : List Req := []
  renewals : Nat := 0
  lastRenew : Nat := 0
  due : Nat := 0
  budget : Nat := 65535
  src : Nat := 0
  slotNs : Nat := 4000
  rounds : Map (List Nat) := []
  recs : List Rec := []
  gens : Map Nat := []
  deriving DecidableEq, Repr

/-- A service (R235, R237): its shaper bucket (none: as every untouched one of the profile), the class and shaper profile in force, its places in the green and the yellow list, and the round order of its rings in either. -/
structure SvcSt where
  s : Option Int := none
  cls : Nat := 0
  sprof : Nat := 0
  drrG : Drr := {}
  drrY : Drr := {}
  ringsG : List Nat := []
  ringsY : List Nat := []
  deriving DecidableEq, Repr

/-- Barista: rings, services, ports; the buckets of rings and services that no request has touched, by meter profile and by shaper profile; the cycle of the last refill; the last SEQ of each sync port (R244); schedule frames on their way, with their port. -/
structure BrsSt where
  rings : Map RingSt := []
  svcs : Map SvcSt := []
  ports : Map PortSt := []
  mpDef : Map (Nat × Nat) := []
  spDef : Map Int := []
  refill : Nat := 0
  seq : Map Nat := []
  frames : List (Nat × List Byte) := []
  deriving DecidableEq, Repr


/-! ### Twins (10) -/

/-- What a patch load puts into a member's patch RAM and match table (R260, R264): the image identity of R254, the match entries (ROM address, patch RAM address), the microwords in order from the first patch RAM address, each with the four parity bits that the loader computes. -/
structure PatchRam where
  ident : Nat
  entries : List (Nat × Nat)
  words : List (Nat × Nat)
  deriving DecidableEq, Repr

/-- A member beside its registers: its patch RAM, empty with ROM alone, its microaddress and micro-return register (R261), its last 256 effects with their numbers (R248), the cycle of its last completed sweep (R258), the anti-rollback step of its image (R266). -/
structure MemberSt where
  patch : Option PatchRam := none
  upc : Nat := 0
  uret : Nat := 0
  replay : List (Nat × List Byte) := []
  sweepAt : Option Nat := none
  arb : Option Nat := none
  deriving DecidableEq, Repr

/-- A digest in the making (R252, R253): its CRC register, and whether comparison has not been suspended since it restarted (R254). -/
structure Dig where
  crc : W64
  live : Bool
  deriving DecidableEq, Repr

/-- A comparison that has fallen due: the digest, its partition, the mask of its ARM (0: no ARM), and Dig.live. -/
structure DigDue where
  dig : W64
  part : Nat
  mask : Nat
  live : Bool
  deriving DecidableEq, Repr

/-- A pair beside its registers (R247 to R256): LAST_SEQ, the number of the last effect that the gate passed; the cycle of the last renewal and the lease in us that runs from it; the cycle of the oldest request for a planned transfer; whether a handover point has come since; a member that has entered INSYNC while the other held the token (R250); UNRESOLVED outcomes in succession; the mismatch under diagnosis; digests by partition (0 for a Loop Engine pair) and comparisons due; the partitions whose last comparison matched; the members. -/
structure TwinSt where
  lastSeq : Nat := 0
  renewed : Nat := 0
  lease : Nat := 8
  reqAt : Option Nat := none
  hand : Bool := false
  back : Option Nat := none
  run : Nat := 0
  diag : Option DigDue := none
  digs : Map Dig := []
  dues : List DigDue := []
  matched : List Nat := []
  mems : Map MemberSt := []
  deriving DecidableEq, Repr
/-! ### Time bases (11) -/

/-- An amortised adjustment (R273): what is left of the offset in 2^-48 ns, the rate in ppm, whether it runs, the whole microseconds at which it starts and stops. -/
structure Amort where
  left : Int
  rate : Nat
  running : Bool
  startAt : Nat
  stopAt : Option Nat := none
  deriving DecidableEq, Repr

/-- A time base (R268): its value in 2^-48 ns from 0 s, the rate in force in 2^-48 ns for each CORE cycle, a rate and its instant pending (R270), a step pending with its target and instant (R271), the adjustment in hand. -/
structure TbSt where
  val : Nat := 0
  inc : Nat := 2 ^ 48
  pendInc : Option (Nat × Nat) := none
  pendStep : Option (Int × Bool × Nat) := none
  amort : Option Amort := none
  deriving DecidableEq, Repr

/-- A tile's replica of TB0 (R274, R275): how far it stands ahead of TB0 in ps, the error last found while its correction waits for the instants armed in the tile, and the cycle in which the next marker is sent. -/
structure Rep where
  dev : Int := 0
  fix : Option Int := none
  due : Nat := 0
  deriving DecidableEq, Repr

/-- The programming of a pulse output in force (R277): mode, base, polarity, START in 2^-48 ns, PERIOD and WIDTH likewise, and the first leading edge that LOAD allows. -/
structure TpoProg where
  mode : Nat := 0
  tb : Nat := 0
  pol : Nat := 0
  start : Nat := 0
  per : Nat := 0
  wid : Nat := 0
  first : Option Nat := none
  deriving DecidableEq, Repr

/-- A pulse output (R277, R278): its programming, the next leading edge and the end of the pulse in progress on its base in 2^-48 ns, and what a LOAD during the pulse has brought. -/
structure TpoSt where
  prog : TpoProg := {}
  next : Option Nat := none
  fall : Option Nat := none
  load : Option TpoProg := none
  deriving DecidableEq, Repr

/-- A capture input (R279): its FIFO of timestamps with their polarity (true: falling), and the last accepted edge in root periods. -/
structure TciSt where
  fifo : List (RWord × Bool) := []
  lastEdge : Option Nat := none
  deriving DecidableEq, Repr

/-- An edge of SYNC_IN on its way to a Rotor Engine (R280): the partition, its polarity, its timestamp in ps of TB0. -/
structure SyncEdge where
  part : Nat
  rising : Bool
  ps : Nat
  deriving DecidableEq, Repr


/-! ### Sync ports (11) -/

/-- A frame to be sent on a port (R287 to R291), without its FCS: whether it is forwarded, TSREQ, ID, OSMODE and REF of a host frame, and of a forwarded one its ingress time in 2^-48 ns and what steps of the base have moved the time since. -/
structure TxFrame where
  fwd : Bool
  bytes : List Byte
  tsreq : Bool := false
  tag : Nat := 0
  osmode : Nat := 0
  ref : RWord := 0
  ingress : Nat := 0
  steps : Int := 0
  deriving DecidableEq, Repr

/-- A transmit timestamp (R287). -/
structure TsqEnt where
  tag : Nat
  fail : Bool
  ts : RWord
  deriving DecidableEq, Repr

/-- A sync port beside its registers: frames in the order in which they became ready, forwarded frames on their way to readiness (R291), receive buffers as address and size (R285), the timestamp queue. -/
structure SpSt where
  q : List TxFrame := []
  coming : List TxFrame := []
  bufs : List (Nat × Nat) := []
  tsq : List TsqEnt := []
  deriving DecidableEq, Repr
/-! ### PCIe (12) -/

/-- What the part sends upstream: a posted write of a function, a read request of a function with its length, an MSI-X message (R301), or a completion (R303) with its status (0 successful, 1 Unsupported Request, 2 Configuration Request Retry), its EP bit and its data. -/
inductive HostMsg where
  | write (fn addr : Nat) (data : List Byte)
  | read (fn addr n : Nat)
  | msix (fn vec addr data : Nat)
  | cpl (fn status : Nat) (ep : Bool) (data : List Byte)
  deriving DecidableEq, Repr

/-- The configuration of a function that acts on its requests (R295, R301), with its Max_Read_Request_Size and Max_Payload_Size in bytes (R293), what is written into its six BAR words (R296), its AER log (R302): the uncorrectable errors seen, the errors whose severity differs from the default, those masked, and whether a correctable error was seen; ECRC generation and checking enabled; the Completion Timeout Value (0 the default range, R302); and of the PF the System Page Size and what is written into the words of VF BAR0 (R297). -/
structure FnCfg where
  bme : Bool := false
  d3 : Bool := false
  mse : Bool := false
  msixEn : Bool := false
  fmask : Bool := false
  mrrs : Nat := 512
  mps : Nat := 128
  bars : Map Nat := []
  aer : List PcieErr := []
  aerSev : List PcieErr := []
  aerCor : Bool := false
  aerMasked : List PcieErr := []
  ecrcGen : Bool := false
  ecrcChk : Bool := false
  cto : Nat := 0
  page : Nat := 0
  vfBars : Map Nat := []
  deriving DecidableEq, Repr

/-- An entry of an MSI-X table (R303). -/
structure MsixEnt where
  addr : Nat := 0
  data : Nat := 0
  mask : Bool := true
  deriving DecidableEq, Repr

/-! ### The Lattice and DMA (12) -/

/-- The Lattice: the masters that each target has granted, the last one first (R307, R309); for each target and master, the CORE cycle from which its head request waits (R308); and the channel of each class of the DMA engine that had the last turn (R322). -/
structure LatSt where
  last : Map (List Nat) := []
  since : Map Nat := []
  turn : Map Nat := []
  deriving DecidableEq, Repr

/-- What a DMA channel holds beside its registers (R313, R321, R322): the descriptor in hand, whether it came from the register image, whether the fetch in hand re-reads the link word only, and how many units of the descriptor have moved. -/
structure DmaSt where
  desc : List Byte := []
  image : Bool := false
  relink : Bool := false
  pos : Nat := 0
  deriving DecidableEq, Repr

/-! ### Events, faults, fences and freeze (13) -/

/-- A block reset a fault called for (R340). -/
inductive BlockReset where
  | fence (region idx : Nat)
  | member (pair m : Nat)
  | dmaClear (c : Nat)
  | mp (i : Nat)
  deriving DecidableEq, Repr

/-- A fence asked for: its region and index (R343), and whether its resume follows (R344). -/
structure FenceReq where
  region : Nat
  idx : Nat
  resume : Bool
  deriving DecidableEq, Repr

/-- Chord (R326 to R334), its times in SLOW cycles: occurrences on their way by producer (from 256 on: raises of channels), the last firing of each channel and its firings since EN was written, newest first, the last trigger of each consumer; the cycle of the last change of a group, the group enables at its start, the groups that channels have enabled and disabled in it; the SLOW cycle in which the pulse of each EVOUT pin ends (R329), and the levels that EVIN pins have taken during a freeze (R335). -/
structure EvtSt where
  occ : List Nat := []
  last : Map Nat := []
  hist : Map (List Nat) := []
  trig : Map Nat := []
  grpAt : Option Nat := none
  grpOld : Nat := 255
  grpOn : Nat := 0
  grpOff : Nat := 0
  pulse : Map Nat := []
  pins : Map Bool := []
  deriving DecidableEq, Repr

/-- Faults, fences and freeze: block resets and a chip reset still to be carried out, NMIs with their information and time, fences asked for, resume sequences running (region, index), commands of FLT_FENCE_CTL in progress (region, index, fence), a CLK_LOSS, the event log (R368), oldest first, the level of FREEZE_N, the frozen time in ns, the source that first held the freeze, the mode before it; the cycle in which FLT_FIRST was recorded; the raises of this cycle that met a set bit, as source, cycle and information (R336); for each store the CORE cycle at which its last window of corrected errors ended, and the cycle of the reset before (R340). -/
structure FltSt where
  brst : List BlockReset := []
  crst : Bool := false
  nmi : List (Nat × Nat × RWord) := []
  fences : List FenceReq := []
  resumes : List (Nat × Nat) := []
  cmds : List (Nat × Nat × Bool) := []
  clkLoss : Option Nat := none
  log : List (Nat × Nat × RWord) := []
  frzPin : Bool := true
  frozen : Nat := 0
  frzBy : Option Nat := none
  frzMode : Nat := 3
  firstAt : Nat := 0
  again : List (Nat × Nat × Nat) := []
  ceAt : Map Nat := []
  ceBase : Nat := 0
  deriving DecidableEq, Repr

/-! ### Power and management (14) -/

/-- A management command that has been carried out and not yet posted (R367): its code, the tile it works on, its result and data. -/
structure McmdRun where
  code : Nat
  tile : Nat
  result : Nat
  data : Nat
  deriving DecidableEq, Repr

/-- The always-on region (R355 to R360, R266): whether VIO is up; the step of power-up in progress, 0 none; the level of PWR_REQ; a failed power-up awaits a low PWR_REQ; a power-down runs; VSTBY is good; the anti-rollback counter and whether it could not be read; the VHTR target in mV and the demands of the tiles; the DPC of a failed power-up step; the cycle of the last release of chip reset; management commands carried out by slot; the VCORE that PARK has lowered; the cycle since which the load has exceeded a cap without a break (R363); and the bytes of the board configuration record last applied (R364). -/
structure PwrSt where
  vio : Bool := true
  seq : Nat := 0
  req : Bool := true
  blocked : Bool := false
  down : Bool := false
  vstby : Bool := true
  otp : Nat := 0
  otpFail : Bool := false
  vtarget : Nat := 12000
  demand : Map Nat := []
  failDpc : Option Nat := none
  bootAt : Nat := 0
  mcmd : Map McmdRun := []
  vcore : Nat := 700
  capSince : Option Nat := none
  board : List Byte := []
  deriving DecidableEq, Repr

/-! ### Temperature and calibration (15) -/

/-- Temperature (R377 to R384): the place of each tile's converter in its rotation; the latest reading of each input as a word, which the next check takes up; the inputs converted since their MODE left OFF; the inputs with a T; those found usable at the previous check; those newly OPEN; the sensors whose WARN, or CRIT, has been raised and not re-armed. -/
structure ThmSt where
  next : Map Nat := []
  raw : Map Nat := []
  conv : List Nat := []
  hasT : List Nat := []
  usable : List Nat := []
  opened : List Nat := []
  warned : List Nat := []
  crit : List Nat := []
  deriving DecidableEq, Repr

/-- A channel in its measurement by TRIM_AO (R391): the code it held, whether its HOLDREQ was set for it, how many parks, commits and mode changes had reached it, whether a measurement write was displaced, and whether the second code has been driven. -/
structure AoMeas where
  ao : Nat
  code : Nat
  held : Bool
  strong : Nat
  hit : Bool := false
  second : Bool := false
  deriving DecidableEq, Repr

/-- Calibration (R388 to R391): trim words other than their factory values by 4096 t + word; the command in hand; channels in measurement by tile; the monitor inputs whose photodiode is disconnected; of the commands in hand the tiles that have failed, those whose references have been checked, those that are trimmed, the next channel by tile, the inputs still to be trimmed, and the outputs trimmed. -/
structure CalSt where
  trim : Map Nat := []
  run : Option (Nat × Nat) := none
  meas : Map AoMeas := []
  miOff : List Nat := []
  failed : List Nat := []
  refd : List Nat := []
  trimmed : List Nat := []
  nextK : Map Nat := []
  left : List Nat := []
  aoDone : List Nat := []
  deriving DecidableEq, Repr

/-! ### Test (16) -/

/-- The samples a response entry has gathered in the level in hand (R403). -/
structure RespAcc where
  idx : Nat
  got : Nat := 0
  sum : Nat := 0
  deriving DecidableEq, Repr

/-- What an entry has gathered in the levels A and B so far (R402, R403): sum and number of samples, and whether a level ended with too few. -/
structure RespTot where
  idx : Nat
  sa : Nat := 0
  na : Nat := 0
  sb : Nat := 0
  nb : Nat := 0
  lackA : Bool := false
  lackB : Bool := false
  deriving DecidableEq, Repr

/-- A running stimulus of a tile (R402): the cycle of its last edge, the window its samples belong to (2: none), the level in hand and the levels so far; its start in ns of TB0, the edges made, the codes held before START, and the channels that a park has reached since (R404), and the inputs whose ranging it holds (R403). -/
structure StimSt where
  edge : Nat := 0
  window : Nat := 2
  acc : List RespAcc := []
  tot : List RespTot := []
  startNs : Nat := 0
  n : Nat := 0
  held : List (Nat × Nat) := []
  parked : List Nat := []
  mis : List Nat := []
  deriving DecidableEq, Repr

/-- A lane's test equipment (R398 to R401): the last 31 bits of the generator's shift register and its place in a pattern of fixed length, the bits that INJ is still to invert; the checker's shift register, how many bits have seeded it, its place, its run of matches, the bits compared in LOCK and the numbers of those that missed in the last 256; what it has counted in a cycle, with that cycle. -/
structure LaneSt where
  gen : Nat := 2 ^ 31 - 1
  genAt : Nat := 0
  inj : Nat := 0
  reg : Nat := 0
  seen : Nat := 0
  place : Nat := 0
  run : Nat := 0
  n : Nat := 0
  miss : List Nat := []
  at_ : Nat := 0
  bits : Nat := 0
  errs : Nat := 0
  deriving DecidableEq, Repr

/-- Test: running stimuli by tile; the test equipment of each lane; the cycle in which the PCIe lane test began (R399); the instruction of the TAP (R407), the nonce captured last, and a signature under verification with the nonce it answers, none where that was no longer valid (R408); the bits that generators have sent on lanes that leave the part, by lane. -/
structure TstSt where
  stim : Map StimSt := []
  lanes : Map LaneSt := []
  pcieAt : Nat := 0
  ir : Nat := 0x01
  nonce : Option (BitVec 256) := none
  verify : Option (Option (BitVec 256) × BitVec 768) := none
  sent : List (Nat × Bool) := []
  deriving DecidableEq, Repr

structure AfSt where
  tiles : Map TileSt := []
  aos : Map AoSt := []
  carafe : CarafeSt := {}
  deriving DecidableEq, Repr

/-- Time and the sync ports: bases, the replicas of TB0 by tile, SYNC_IN edges on their way to Rotor Engines, pulse outputs, capture inputs, ports, the frames the ports have put on the wire, and the levels of SYNC_IN (0) and of TCIn (1 + n) behind their filters, whether or not the clocks run (R281). -/
structure TimeSt where
  tbs : Map TbSt := []
  edges : List SyncEdge := []
  tpos : Map TpoSt := []
  tcis : Map TciSt := []
  reps : Map Rep := []
  sps : Map SpSt := []
  wire : List (Nat × List Byte) := []
  pins : Map Bool := []
  deriving DecidableEq, Repr

/-- PCIe: the link and the speed it last trained to (R399), the functions' configuration, MSI-X tables and pending bits by 2048 f + v, posted writes held (R295), requests received and not yet processed (R311, R348), and the link-downs met in a freeze, with whether VF Enable was set, whose effects on the chip come at the thaw (R347). -/
structure PciSt where
  linkUp : Bool := false
  fns : Map FnCfg := []
  msix : Map MsixEnt := []
  pba : List Nat := []
  held : List HostMsg := []
  inq : List (Nat × PcieReq) := []
  downs : List Bool := []
  trained : Nat := 0
  deriving DecidableEq, Repr

/-- What the blocks held before the hardware updates of the CORE cycle in hand, for the software reads of the cycle (R6). -/
structure Held where
  mem : List Host.Cell
  af : AfSt
  mon : MonSt
  le : LeSt
  rtu : RtuSt
  rot : Map RotSt
  seq : SeqSt
  brs : BrsSt
  twin : Map TwinSt
  tm : TimeSt
  dma : Map DmaSt
  evt : EvtSt
  flt : FltSt
  cal : CalSt
  tst : TstSt
  deriving DecidableEq, Repr

structure State where
  pending : List Instr := []
  cycle : Nat := 0
  clk : Clk := .running
  regs : Map RWord := []
  hw : Map HwUpd := []
  was : Option Held := none
  mem : List Host.Cell := []
  ueWords : List Nat := []
  freeCtr : Nat := 0
  hostOut : List HostMsg := []
  readData : Nat := 0
  latches : Map RWord := []
  af : AfSt := {}
  mon : MonSt := {}
  le : LeSt := {}
  rtu : RtuSt := {}
  rot : Map RotSt := []
  seq : SeqSt := {}
  brs : BrsSt := {}
  twin : Map TwinSt := []
  tm : TimeSt := {}
  pci : PciSt := {}
  lat : LatSt := {}
  dma : Map DmaSt := []
  evt : EvtSt := {}
  flt : FltSt := {}
  pwr : PwrSt := {}
  thm : ThmSt := {}
  cal : CalSt := {}
  tst : TstSt := {}
  deriving DecidableEq, Repr

/-- The part right after reset: every register at its reset value, nothing listed in any memory, no command waiting. -/
def State.reset : State := {}

end Sys2Proof.Machine
end

