-- ==== Sys2Proof/Machine/Regs.lean ====
section
/-! DEFINITION. The registers of the spec's tables and their fields, with addresses (R29, R30 and each block's register rule), field types (R5) and reset values. -/

namespace Sys2Proof.Machine

/-- The reactions of source n at reset (R340): 1 interrupt, 2 NMI, 4 block reset, 16 pin. -/
def reactReset (n : Nat) : Nat :=
  if n ≤ 1 || n = 3 || n = 59 then 3
  else if 8 ≤ n && n ≤ 23 || n = 53 then 17
  else if n = 24 || n = 30 || n = 31 || n = 33 || n = 50 then 19
  else if n = 35 || n = 58 then 16
  else 1

/-- The set value of DPC n at VSTBY power-up (R353 to R355): signed mV in 16 bits. -/
def dpcSet (n : Nat) : RWord :=
  match n with
  | 0 => BitVec.ofNat 96 (700 + 5 * Config.vcoreFuse.val)
  | 1 => 1800
  | 2 => 12000
  | 3 => 53536
  | 4 => 12000
  | _ => 600

/-- Sources with a block reset (R340). -/
def hasBrst (n : Nat) : Bool :=
  n ≤ 1 || n = 5 || (8 ≤ n && n ≤ 23) || n = 26 || n = 39 || n = 40 || n = 46 || n = 50

/-- The registers below this identifier are reset by chip reset. -/
def numCdRegs : Nat := 234
/-- The registers from numCdRegs to here are reset by tile re-initialisation. -/
def numTileRegs : Nat := 290

/-- MI_SQ_CTL (R80, 03). -/
def R.MI_SQ_CTL : Reg :=
  { id := 0, addr := 0x428000, bytes := 4, scope := .cd, si := 0x40000, ni := 16, rw := 0x1FFFF01, w1s := 0x2 }
def F.MI_SQ_CTL_EN : Fld := ⟨R.MI_SQ_CTL, 0, 1⟩
def F.MI_SQ_CTL_CLR : Fld := ⟨R.MI_SQ_CTL, 1, 1⟩
def F.MI_SQ_CTL_THRESH : Fld := ⟨R.MI_SQ_CTL, 8, 17⟩

/-- MI_SQ_WR (R80, 03). -/
def R.MI_SQ_WR : Reg :=
  { id := 1, addr := 0x428004, bytes := 4, scope := .cd, si := 0x40000, ni := 16 }
def F.MI_SQ_WR_WR : Fld := ⟨R.MI_SQ_WR, 0, 17⟩

/-- MI_SQ_RD (R80, 03). -/
def R.MI_SQ_RD : Reg :=
  { id := 2, addr := 0x428008, bytes := 4, scope := .cd, si := 0x40000, ni := 16, rw := 0x1FFFF }
def F.MI_SQ_RD_RD : Fld := ⟨R.MI_SQ_RD, 0, 17⟩

/-- MI_SQ_STAT (R80, 03). -/
def R.MI_SQ_STAT : Reg :=
  { id := 3, addr := 0x42800C, bytes := 4, scope := .cd, si := 0x40000, ni := 16, w1c := 0x5 }
def F.MI_SQ_STAT_OVF : Fld := ⟨R.MI_SQ_STAT, 0, 1⟩
def F.MI_SQ_STAT_ABOVE : Fld := ⟨R.MI_SQ_STAT, 1, 1⟩
def F.MI_SQ_STAT_RD_ERR : Fld := ⟨R.MI_SQ_STAT, 2, 1⟩

/-- MI_SQ_DROP (R80, 03). -/
def R.MI_SQ_DROP : Reg :=
  { id := 4, addr := 0x428010, bytes := 4, scope := .cd, si := 0x40000, ni := 16, rc := 0xFFFFFFFF }
def F.MI_SQ_DROP_CNT : Fld := ⟨R.MI_SQ_DROP, 0, 32⟩

/-- RTU_STAT (R152, 05). -/
def R.RTU_STAT : Reg :=
  { id := 5, addr := 0x200000, bytes := 4, scope := .cd, w1c := 0x6 }
def F.RTU_STAT_FENCED : Fld := ⟨R.RTU_STAT, 0, 1⟩
def F.RTU_STAT_MAP_REFUSED : Fld := ⟨R.RTU_STAT, 1, 1⟩
def F.RTU_STAT_FAULT : Fld := ⟨R.RTU_STAT, 2, 1⟩
def F.RTU_STAT_CUR_PART : Fld := ⟨R.RTU_STAT, 8, 4⟩
def F.RTU_STAT_BUSY : Fld := ⟨R.RTU_STAT, 12, 1⟩

/-- RTU_PCFG (R152, 05). -/
def R.RTU_PCFG : Reg :=
  { id := 6, addr := 0x210000, bytes := 4, scope := .cd, si := 0x100, ni := 16, rw := 0xFFF37FF, rst := fun _ _ => 0x2 }
def F.RTU_PCFG_POL_SET : Fld := ⟨R.RTU_PCFG, 0, 2⟩
def F.RTU_PCFG_POL_PERM : Fld := ⟨R.RTU_PCFG, 2, 2⟩
def F.RTU_PCFG_DEFER_MAX : Fld := ⟨R.RTU_PCFG, 4, 4⟩
def F.RTU_PCFG_SELF_EXEMPT : Fld := ⟨R.RTU_PCFG, 8, 1⟩
def F.RTU_PCFG_NOTIFY : Fld := ⟨R.RTU_PCFG, 9, 1⟩
def F.RTU_PCFG_CHG_POL : Fld := ⟨R.RTU_PCFG, 10, 1⟩
def F.RTU_PCFG_JOIN : Fld := ⟨R.RTU_PCFG, 12, 1⟩
def F.RTU_PCFG_BASE_VALID : Fld := ⟨R.RTU_PCFG, 13, 1⟩
def F.RTU_PCFG_BASE : Fld := ⟨R.RTU_PCFG, 16, 12⟩

/-- RTU_PCTL (R152, 05). -/
def R.RTU_PCTL : Reg :=
  { id := 7, addr := 0x210004, bytes := 4, scope := .cd, si := 0x100, ni := 16, w1s := 0x7 }
def F.RTU_PCTL_LOAD : Fld := ⟨R.RTU_PCTL, 0, 1⟩
def F.RTU_PCTL_PLAN_CLR : Fld := ⟨R.RTU_PCTL, 1, 1⟩
def F.RTU_PCTL_CACHE_CLR : Fld := ⟨R.RTU_PCTL, 2, 1⟩

/-- RTU_PSTAT (R152, 05). -/
def R.RTU_PSTAT : Reg :=
  { id := 8, addr := 0x210008, bytes := 4, scope := .cd, si := 0x100, ni := 16 }
def F.RTU_PSTAT_DESC_VALID : Fld := ⟨R.RTU_PSTAT, 0, 1⟩
def F.RTU_PSTAT_DESC_ERR : Fld := ⟨R.RTU_PSTAT, 1, 4⟩
def F.RTU_PSTAT_ARMED : Fld := ⟨R.RTU_PSTAT, 5, 1⟩
def F.RTU_PSTAT_LAST_RESULT : Fld := ⟨R.RTU_PSTAT, 6, 3⟩
def F.RTU_PSTAT_COMMITS : Fld := ⟨R.RTU_PSTAT, 16, 16⟩

/-- RTU_PLAN (R152, 05). -/
def R.RTU_PLAN : Reg :=
  { id := 9, addr := 0x21000C, bytes := 4, scope := .cd, si := 0x100, ni := 16 }
def F.RTU_PLAN_ENTRIES : Fld := ⟨R.RTU_PLAN, 0, 15⟩
def F.RTU_PLAN_STAGED : Fld := ⟨R.RTU_PLAN, 16, 15⟩
def F.RTU_PLAN_TENT : Fld := ⟨R.RTU_PLAN, 31, 1⟩

/-- RTU_LAST_CMT (R152, 05). -/
def R.RTU_LAST_CMT : Reg :=
  { id := 10, addr := 0x210010, bytes := 8, scope := .cd, si := 0x100, ni := 16 }
def F.RTU_LAST_CMT_NS : Fld := ⟨R.RTU_LAST_CMT, 0, 30⟩
def F.RTU_LAST_CMT_SEC : Fld := ⟨R.RTU_LAST_CMT, 32, 32⟩

/-- RTU_COLL (R152, 05). -/
def R.RTU_COLL : Reg :=
  { id := 11, addr := 0x210018, bytes := 4, scope := .cd, si := 0x100, ni := 16 }
def F.RTU_COLL_COUNT : Fld := ⟨R.RTU_COLL, 0, 11⟩
def F.RTU_COLL_WITHDRAWN : Fld := ⟨R.RTU_COLL, 11, 1⟩
def F.RTU_COLL_SELF_ONLY : Fld := ⟨R.RTU_COLL, 12, 1⟩

/-- RTU_ROT_CFG (R169, 06). -/
def R.RTU_ROT_CFG : Reg :=
  { id := 12, addr := 0x3C0000, bytes := 4, scope := .cd, si := 0x1000, ni := 16, rw := 0xFFFFFFF3, rst := fun _ _ => 0x1F40400 }
def F.RTU_ROT_CFG_SRC : Fld := ⟨R.RTU_ROT_CFG, 0, 1⟩
def F.RTU_ROT_CFG_EDGE : Fld := ⟨R.RTU_ROT_CFG, 1, 1⟩
def F.RTU_ROT_CFG_SKIP_MAX : Fld := ⟨R.RTU_ROT_CFG, 4, 4⟩
def F.RTU_ROT_CFG_LOSTN : Fld := ⟨R.RTU_ROT_CFG, 8, 8⟩
def F.RTU_ROT_CFG_SYNC_DLY : Fld := ⟨R.RTU_ROT_CFG, 16, 16⟩

/-- RTU_ROT_CTL (R169, 06). -/
def R.RTU_ROT_CTL : Reg :=
  { id := 13, addr := 0x3C0004, bytes := 4, scope := .cd, si := 0x1000, ni := 16, w1s := 0x1F }
def F.RTU_ROT_CTL_GO : Fld := ⟨R.RTU_ROT_CTL, 0, 1⟩
def F.RTU_ROT_CTL_STOP : Fld := ⟨R.RTU_ROT_CTL, 1, 1⟩
def F.RTU_ROT_CTL_STOP_NOW : Fld := ⟨R.RTU_ROT_CTL, 2, 1⟩
def F.RTU_ROT_CTL_SWAP : Fld := ⟨R.RTU_ROT_CTL, 3, 1⟩
def F.RTU_ROT_CTL_SWAP_CANCEL : Fld := ⟨R.RTU_ROT_CTL, 4, 1⟩

/-- RTU_ROT_STAT (R169, 06). -/
def R.RTU_ROT_STAT : Reg :=
  { id := 14, addr := 0x3C0008, bytes := 4, scope := .cd, si := 0x1000, ni := 16, w1c := 0x1F8000 }
def F.RTU_ROT_STAT_STATE : Fld := ⟨R.RTU_ROT_STAT, 0, 3⟩
def F.RTU_ROT_STAT_ACT_BUF : Fld := ⟨R.RTU_ROT_STAT, 3, 1⟩
def F.RTU_ROT_STAT_SWAP_PEND : Fld := ⟨R.RTU_ROT_STAT, 4, 1⟩
def F.RTU_ROT_STAT_SWAP_ERR : Fld := ⟨R.RTU_ROT_STAT, 5, 3⟩
def F.RTU_ROT_STAT_SLOT : Fld := ⟨R.RTU_ROT_STAT, 8, 6⟩
def F.RTU_ROT_STAT_SYNC_OK : Fld := ⟨R.RTU_ROT_STAT, 14, 1⟩
def F.RTU_ROT_STAT_BUF_REFUSED : Fld := ⟨R.RTU_ROT_STAT, 15, 1⟩
def F.RTU_ROT_STAT_LATE : Fld := ⟨R.RTU_ROT_STAT, 16, 1⟩
def F.RTU_ROT_STAT_NOGO : Fld := ⟨R.RTU_ROT_STAT, 17, 1⟩
def F.RTU_ROT_STAT_FAST : Fld := ⟨R.RTU_ROT_STAT, 18, 1⟩
def F.RTU_ROT_STAT_LOST : Fld := ⟨R.RTU_ROT_STAT, 19, 1⟩
def F.RTU_ROT_STAT_CACHE_ERR : Fld := ⟨R.RTU_ROT_STAT, 20, 1⟩

/-- RTU_ROT_CNT (R169, 06). -/
def R.RTU_ROT_CNT : Reg :=
  { id := 15, addr := 0x3C000C, bytes := 4, scope := .cd, si := 0x1000, ni := 16, rc := 0xFFFFFFFF }
def F.RTU_ROT_CNT_SKIPPED : Fld := ⟨R.RTU_ROT_CNT, 0, 16⟩
def F.RTU_ROT_CNT_FASTCNT : Fld := ⟨R.RTU_ROT_CNT, 16, 16⟩

/-- RTU_ROT_SKIPCYC (R169, 06). -/
def R.RTU_ROT_SKIPCYC : Reg :=
  { id := 16, addr := 0x3C0010, bytes := 4, scope := .cd, si := 0x1000, ni := 16 }
def F.RTU_ROT_SKIPCYC_N : Fld := ⟨R.RTU_ROT_SKIPCYC, 0, 32⟩

/-- RTU_ROT_CYC (R169, 06). -/
def R.RTU_ROT_CYC : Reg :=
  { id := 17, addr := 0x3C0018, bytes := 8, scope := .cd, si := 0x1000, ni := 16 }
def F.RTU_ROT_CYC_N : Fld := ⟨R.RTU_ROT_CYC, 0, 64⟩

/-- RTU_ROT_LRN (R169, 06). -/
def R.RTU_ROT_LRN : Reg :=
  { id := 18, addr := 0x3C0020, bytes := 4, scope := .cd, si := 0x1000, ni := 16, rw := 0xFFFFFFFB, w1s := 0x4, rst := fun _ _ => 0x100 }
def F.RTU_ROT_LRN_LEN : Fld := ⟨R.RTU_ROT_LRN, 0, 1⟩
def F.RTU_ROT_LRN_FRZ : Fld := ⟨R.RTU_ROT_LRN, 1, 1⟩
def F.RTU_ROT_LRN_CLR : Fld := ⟨R.RTU_ROT_LRN, 2, 1⟩
def F.RTU_ROT_LRN_GSH : Fld := ⟨R.RTU_ROT_LRN, 3, 5⟩
def F.RTU_ROT_LRN_MINN : Fld := ⟨R.RTU_ROT_LRN, 8, 8⟩
def F.RTU_ROT_LRN_GAMMA : Fld := ⟨R.RTU_ROT_LRN, 16, 16⟩

/-- RTU_ROT_LAM (R169, 06). -/
def R.RTU_ROT_LAM : Reg :=
  { id := 19, addr := 0x3C0024, bytes := 4, scope := .cd, si := 0x1000, ni := 16, rw := 0x1FFFF, rst := fun _ _ => 0x10000 }
def F.RTU_ROT_LAM_LAMBDA : Fld := ⟨R.RTU_ROT_LAM, 0, 17⟩

/-- RTU_ROT_LSTAT (R169, 06). -/
def R.RTU_ROT_LSTAT : Reg :=
  { id := 20, addr := 0x3C0028, bytes := 4, scope := .cd, si := 0x1000, ni := 16, w1c := 0x3, rc := 0xFFFF0000 }
def F.RTU_ROT_LSTAT_OVC : Fld := ⟨R.RTU_ROT_LSTAT, 0, 1⟩
def F.RTU_ROT_LSTAT_WR_REFUSED : Fld := ⟨R.RTU_ROT_LSTAT, 1, 1⟩
def F.RTU_ROT_LSTAT_CLR_BUSY : Fld := ⟨R.RTU_ROT_LSTAT, 2, 1⟩
def F.RTU_ROT_LSTAT_LOWN : Fld := ⟨R.RTU_ROT_LSTAT, 16, 16⟩

/-- RTU_ROT_BUF (R154, R169, 06). -/
def R.RTU_ROT_BUF : Reg :=
  { id := 21, addr := 0x3C0400, bytes := 4, scope := .cd, si := 0x1000, ni := 16, sj := 0x4, nj := 512, rw := 0xFFFFFFFF }
def F.RTU_ROT_BUF_VAL : Fld := ⟨R.RTU_ROT_BUF, 0, 32⟩

/-- SEQ_STAT (R194, 07). -/
def R.SEQ_STAT : Reg :=
  { id := 22, addr := 0x180000, bytes := 4, scope := .cd, si := 0x40000, ni := 2, w1c := 0x3 }
def F.SEQ_STAT_PS_REFUSED : Fld := ⟨R.SEQ_STAT, 0, 1⟩
def F.SEQ_STAT_CFG_REFUSED : Fld := ⟨R.SEQ_STAT, 1, 1⟩
def F.SEQ_STAT_HALTMAP : Fld := ⟨R.SEQ_STAT, 16, 16⟩

/-- SEQ_DMWIN_ADDR (R194, 07). -/
def R.SEQ_DMWIN_ADDR : Reg :=
  { id := 23, addr := 0x180010, bytes := 4, scope := .cd, si := 0x40000, ni := 2, rw := 0x80F3FFF8 }
def F.SEQ_DMWIN_ADDR_WORD : Fld := ⟨R.SEQ_DMWIN_ADDR, 3, 15⟩
def F.SEQ_DMWIN_ADDR_PART : Fld := ⟨R.SEQ_DMWIN_ADDR, 20, 4⟩
def F.SEQ_DMWIN_ADDR_INC : Fld := ⟨R.SEQ_DMWIN_ADDR, 31, 1⟩

/-- SEQ_DMWIN_DATA (R194, 07). -/
def R.SEQ_DMWIN_DATA : Reg :=
  { id := 24, addr := 0x180018, bytes := 8, scope := .cd, si := 0x40000, ni := 2, rw := 0xFFFFFFFFFFFFFFFF }
def F.SEQ_DMWIN_DATA_DATA : Fld := ⟨R.SEQ_DMWIN_DATA, 0, 64⟩

/-- SEQ_TRC_CTL (R194, 07). -/
def R.SEQ_TRC_CTL : Reg :=
  { id := 25, addr := 0x180020, bytes := 4, scope := .cd, si := 0x40000, ni := 2, rw := 0xFFFF }
def F.SEQ_TRC_CTL_THR_EN : Fld := ⟨R.SEQ_TRC_CTL, 0, 16⟩

/-- SEQ_TRC_WR (R194, 07). -/
def R.SEQ_TRC_WR : Reg :=
  { id := 26, addr := 0x180024, bytes := 4, scope := .cd, si := 0x40000, ni := 2, rc := 0xFFFF0000 }
def F.SEQ_TRC_WR_WR : Fld := ⟨R.SEQ_TRC_WR, 0, 11⟩
def F.SEQ_TRC_WR_WRAPS : Fld := ⟨R.SEQ_TRC_WR, 16, 16⟩

/-- SEQ_THR_CTL (R194, 07). -/
def R.SEQ_THR_CTL : Reg :=
  { id := 27, addr := 0x181000, bytes := 4, scope := .cd, si := 0x40, ni := 16, w1s := 0x7 }
def F.SEQ_THR_CTL_START : Fld := ⟨R.SEQ_THR_CTL, 0, 1⟩
def F.SEQ_THR_CTL_STOP : Fld := ⟨R.SEQ_THR_CTL, 1, 1⟩
def F.SEQ_THR_CTL_REDIRECT : Fld := ⟨R.SEQ_THR_CTL, 2, 1⟩

/-- SEQ_THR_STAT (R194, 07). -/
def R.SEQ_THR_STAT : Reg :=
  { id := 28, addr := 0x181004, bytes := 4, scope := .cd, si := 0x40000, ni := 2, sj := 0x40, nj := 16, w1c := 0x8 }
def F.SEQ_THR_STAT_STATE : Fld := ⟨R.SEQ_THR_STAT, 0, 3⟩
def F.SEQ_THR_STAT_START_REFUSED : Fld := ⟨R.SEQ_THR_STAT, 3, 1⟩
def F.SEQ_THR_STAT_CAUSE : Fld := ⟨R.SEQ_THR_STAT, 8, 8⟩

/-- SEQ_THR_PC (R194, 07). -/
def R.SEQ_THR_PC : Reg :=
  { id := 29, addr := 0x181008, bytes := 4, scope := .cd, si := 0x40, ni := 16, rw := 0x1FFFFC }
def F.SEQ_THR_PC_PC : Fld := ⟨R.SEQ_THR_PC, 2, 19⟩

/-- SEQ_THR_CODE (R194, 07). -/
def R.SEQ_THR_CODE : Reg :=
  { id := 30, addr := 0x18100C, bytes := 4, scope := .cd, si := 0x40, ni := 16, rw := 0x3FF01FF }
def F.SEQ_THR_CODE_BASE : Fld := ⟨R.SEQ_THR_CODE, 0, 9⟩
def F.SEQ_THR_CODE_SIZE : Fld := ⟨R.SEQ_THR_CODE, 16, 10⟩

/-- SEQ_THR_MODE (R194, 07). -/
def R.SEQ_THR_MODE : Reg :=
  { id := 31, addr := 0x181010, bytes := 4, scope := .cd, si := 0x40, ni := 16, rw := 0x3 }
def F.SEQ_THR_MODE_LATE_OK : Fld := ⟨R.SEQ_THR_MODE, 0, 1⟩
def F.SEQ_THR_MODE_D2 : Fld := ⟨R.SEQ_THR_MODE, 1, 1⟩

/-- SEQ_THR_NPC (R194, 07). -/
def R.SEQ_THR_NPC : Reg :=
  { id := 32, addr := 0x181014, bytes := 4, scope := .cd, si := 0x40, ni := 16, rw := 0x1FFFFC }
def F.SEQ_THR_NPC_PC : Fld := ⟨R.SEQ_THR_NPC, 2, 19⟩

/-- SEQ_THR_NCODE (R194, 07). -/
def R.SEQ_THR_NCODE : Reg :=
  { id := 33, addr := 0x181018, bytes := 4, scope := .cd, si := 0x40, ni := 16, rw := 0x3FF01FF }
def F.SEQ_THR_NCODE_BASE : Fld := ⟨R.SEQ_THR_NCODE, 0, 9⟩
def F.SEQ_THR_NCODE_SIZE : Fld := ⟨R.SEQ_THR_NCODE, 16, 10⟩

/-- SEQ_THR_SWP (R223, 08). -/
def R.SEQ_THR_SWP : Reg :=
  { id := 34, addr := 0x18101C, bytes := 4, scope := .cd, si := 0x40, ni := 16, rw := 0xFFFF, rst := fun i _ => BitVec.ofNat 96 (2 ^ i) }
def F.SEQ_THR_SWP_FMASK : Fld := ⟨R.SEQ_THR_SWP, 0, 16⟩

/-- BRS_RQ_BASE (R246, 09). -/
def R.BRS_RQ_BASE : Reg :=
  { id := 35, addr := 0x100000, bytes := 8, scope := .cd, si := 0x40, ni := 8192, rw := 0xFFFFFFFFFFFFFFC0 }
def F.BRS_RQ_BASE_BASE : Fld := ⟨R.BRS_RQ_BASE, 6, 58⟩

/-- BRS_CQ_BASE (R246, 09). -/
def R.BRS_CQ_BASE : Reg :=
  { id := 36, addr := 0x100008, bytes := 8, scope := .cd, si := 0x40, ni := 8192, rw := 0xFFFFFFFFFFFFFFC0 }
def F.BRS_CQ_BASE_BASE : Fld := ⟨R.BRS_CQ_BASE, 6, 58⟩

/-- BRS_RING_CFG (R246, 09). -/
def R.BRS_RING_CFG : Reg :=
  { id := 37, addr := 0x100010, bytes := 4, scope := .cd, si := 0x40, ni := 8192, rw := 0xFFFF7FF }
def F.BRS_RING_CFG_SVC : Fld := ⟨R.BRS_RING_CFG, 0, 9⟩
def F.BRS_RING_CFG_KIND : Fld := ⟨R.BRS_RING_CFG, 9, 1⟩
def F.BRS_RING_CFG_PRIV : Fld := ⟨R.BRS_RING_CFG, 10, 1⟩
def F.BRS_RING_CFG_OVH : Fld := ⟨R.BRS_RING_CFG, 12, 8⟩
def F.BRS_RING_CFG_MPROF : Fld := ⟨R.BRS_RING_CFG, 20, 8⟩

/-- BRS_RING_SIZE (R246, 09). -/
def R.BRS_RING_SIZE : Reg :=
  { id := 38, addr := 0x100014, bytes := 4, scope := .cd, si := 0x40, ni := 8192, rw := 0xF0F, rst := fun _ _ => 0x404 }
def F.BRS_RING_SIZE_RQ_LOG2 : Fld := ⟨R.BRS_RING_SIZE, 0, 4⟩
def F.BRS_RING_SIZE_CQ_LOG2 : Fld := ⟨R.BRS_RING_SIZE, 8, 4⟩

/-- BRS_RQ_PI (R246, 09). -/
def R.BRS_RQ_PI : Reg :=
  { id := 39, addr := 0x100018, bytes := 4, scope := .cd, si := 0x40, ni := 8192, rw := 0x7FFF }
def F.BRS_RQ_PI_PI : Fld := ⟨R.BRS_RQ_PI, 0, 15⟩

/-- BRS_RQ_CI (R246, 09). -/
def R.BRS_RQ_CI : Reg :=
  { id := 40, addr := 0x10001C, bytes := 4, scope := .cd, si := 0x40, ni := 8192 }
def F.BRS_RQ_CI_CI : Fld := ⟨R.BRS_RQ_CI, 0, 15⟩

/-- BRS_CQ_PI (R246, 09). -/
def R.BRS_CQ_PI : Reg :=
  { id := 41, addr := 0x100020, bytes := 4, scope := .cd, si := 0x40, ni := 8192, rst := fun _ _ => 0x8000 }
def F.BRS_CQ_PI_PI : Fld := ⟨R.BRS_CQ_PI, 0, 15⟩
def F.BRS_CQ_PI_PHASE : Fld := ⟨R.BRS_CQ_PI, 15, 1⟩

/-- BRS_CQ_CI (R246, 09). -/
def R.BRS_CQ_CI : Reg :=
  { id := 42, addr := 0x100024, bytes := 4, scope := .cd, si := 0x40, ni := 8192, rw := 0x7FFF }
def F.BRS_CQ_CI_CI : Fld := ⟨R.BRS_CQ_CI, 0, 15⟩

/-- BRS_RING_CTL (R246, 09). -/
def R.BRS_RING_CTL : Reg :=
  { id := 43, addr := 0x100028, bytes := 4, scope := .cd, si := 0x40, ni := 8192, rw := 0xFF01, w1s := 0x6 }
def F.BRS_RING_CTL_EN : Fld := ⟨R.BRS_RING_CTL, 0, 1⟩
def F.BRS_RING_CTL_INIT : Fld := ⟨R.BRS_RING_CTL, 1, 1⟩
def F.BRS_RING_CTL_DRAIN : Fld := ⟨R.BRS_RING_CTL, 2, 1⟩
def F.BRS_RING_CTL_ITR : Fld := ⟨R.BRS_RING_CTL, 8, 8⟩

/-- BRS_RING_STAT (R246, 09). -/
def R.BRS_RING_STAT : Reg :=
  { id := 44, addr := 0x10002C, bytes := 4, scope := .cd, si := 0x40, ni := 8192, w1c := 0x7E }
def F.BRS_RING_STAT_HALTED : Fld := ⟨R.BRS_RING_STAT, 0, 1⟩
def F.BRS_RING_STAT_DB_ERR : Fld := ⟨R.BRS_RING_STAT, 1, 1⟩
def F.BRS_RING_STAT_FETCH_ERR : Fld := ⟨R.BRS_RING_STAT, 2, 1⟩
def F.BRS_RING_STAT_XERR : Fld := ⟨R.BRS_RING_STAT, 3, 1⟩
def F.BRS_RING_STAT_CFG_REFUSED : Fld := ⟨R.BRS_RING_STAT, 4, 1⟩
def F.BRS_RING_STAT_NOVF : Fld := ⟨R.BRS_RING_STAT, 5, 1⟩
def F.BRS_RING_STAT_FQ_OVF : Fld := ⟨R.BRS_RING_STAT, 6, 1⟩
def F.BRS_RING_STAT_BUSY : Fld := ⟨R.BRS_RING_STAT, 7, 1⟩
def F.BRS_RING_STAT_OUTST : Fld := ⟨R.BRS_RING_STAT, 16, 16⟩

/-- BRS_RING_CNT (R246, 09). -/
def R.BRS_RING_CNT : Reg :=
  { id := 45, addr := 0x100030, bytes := 4, scope := .cd, si := 0x40, ni := 8192, rc := 0xFFFFFFFF }
def F.BRS_RING_CNT_POLICED : Fld := ⟨R.BRS_RING_CNT, 0, 16⟩
def F.BRS_RING_CNT_NOTICE_DROP : Fld := ⟨R.BRS_RING_CNT, 16, 16⟩

/-- BRS_RING_CFG2 (R246, 09). -/
def R.BRS_RING_CFG2 : Reg :=
  { id := 46, addr := 0x100034, bytes := 4, scope := .cd, si := 0x40, ni := 8192, rw := 0xFFFFFFFF, rst := fun _ _ => 0x4000000 }
def F.BRS_RING_CFG2_SPROF : Fld := ⟨R.BRS_RING_CFG2, 0, 8⟩
def F.BRS_RING_CFG2_VEC : Fld := ⟨R.BRS_RING_CFG2, 8, 11⟩
def F.BRS_RING_CFG2_FN : Fld := ⟨R.BRS_RING_CFG2, 19, 6⟩
def F.BRS_RING_CFG2_SP : Fld := ⟨R.BRS_RING_CFG2, 25, 1⟩
def F.BRS_RING_CFG2_RWT : Fld := ⟨R.BRS_RING_CFG2, 26, 6⟩

/-- BRS_RING_FQ (R246, 09). -/
def R.BRS_RING_FQ : Reg :=
  { id := 47, addr := 0x100038, bytes := 4, scope := .cd, si := 0x40, ni := 8192, rc := 0xFFFF0000 }
def F.BRS_RING_FQ_USED : Fld := ⟨R.BRS_RING_FQ, 0, 5⟩
def F.BRS_RING_FQ_DROP : Fld := ⟨R.BRS_RING_FQ, 16, 16⟩

/-- BRS_QUANTUM (R246, 09). -/
def R.BRS_QUANTUM : Reg :=
  { id := 48, addr := 0x800000, bytes := 4, scope := .cd, rw := 0xFFFF, rst := fun _ _ => 0x40 }
def F.BRS_QUANTUM_QUANTUM : Fld := ⟨R.BRS_QUANTUM, 0, 16⟩

/-- BRS_ETYPE (R246, 09). -/
def R.BRS_ETYPE : Reg :=
  { id := 49, addr := 0x800004, bytes := 4, scope := .cd, rw := 0xFFFF, rst := fun _ _ => 0x88B5 }
def F.BRS_ETYPE_ETYPE : Fld := ⟨R.BRS_ETYPE, 0, 16⟩

/-- BRS_STAT (R246, 09). -/
def R.BRS_STAT : Reg :=
  { id := 50, addr := 0x800008, bytes := 4, scope := .cd, w1c := 0x7 }
def F.BRS_STAT_RING_ERR : Fld := ⟨R.BRS_STAT, 0, 1⟩
def F.BRS_STAT_QUEUE_OVF : Fld := ⟨R.BRS_STAT, 1, 1⟩
def F.BRS_STAT_CFG_REFUSED : Fld := ⟨R.BRS_STAT, 2, 1⟩
def F.BRS_STAT_FIRST_RING : Fld := ⟨R.BRS_STAT, 16, 13⟩

/-- BRS_FRM_A (R246, 09). -/
def R.BRS_FRM_A : Reg :=
  { id := 51, addr := 0x800010, bytes := 4, scope := .cd, si := 0x8, ni := 2, rc := 0xFFFFFFFF }
def F.BRS_FRM_A_ACCEPTED : Fld := ⟨R.BRS_FRM_A, 0, 16⟩
def F.BRS_FRM_A_BADFRAME : Fld := ⟨R.BRS_FRM_A, 16, 16⟩

/-- BRS_FRM_B (R246, 09). -/
def R.BRS_FRM_B : Reg :=
  { id := 52, addr := 0x800014, bytes := 4, scope := .cd, si := 0x8, ni := 2, rc := 0xFFFFFFFF }
def F.BRS_FRM_B_BADRING : Fld := ⟨R.BRS_FRM_B, 0, 16⟩
def F.BRS_FRM_B_SEQ_GAP : Fld := ⟨R.BRS_FRM_B, 16, 16⟩

/-- BRS_PORT_CFG (R246, 09). -/
def R.BRS_PORT_CFG : Reg :=
  { id := 53, addr := 0x801000, bytes := 4, scope := .cd, si := 0x40, ni := 16, rw := 0x3 }
def F.BRS_PORT_CFG_EN : Fld := ⟨R.BRS_PORT_CFG, 0, 1⟩
def F.BRS_PORT_CFG_SLOT_SRC : Fld := ⟨R.BRS_PORT_CFG, 1, 1⟩

/-- BRS_PORT_BUDGET (R246, 09). -/
def R.BRS_PORT_BUDGET : Reg :=
  { id := 54, addr := 0x801004, bytes := 4, scope := .cd, si := 0x40, ni := 16, rw := 0xFFFF, rst := fun _ _ => 0xFFFF }
def F.BRS_PORT_BUDGET_TU_BUDGET : Fld := ⟨R.BRS_PORT_BUDGET, 0, 16⟩

/-- BRS_PORT_SLOT (R246, 09). -/
def R.BRS_PORT_SLOT : Reg :=
  { id := 55, addr := 0x801008, bytes := 4, scope := .cd, si := 0x40, ni := 16, rw := 0x3FFFFFFF, rst := fun _ _ => 0xFA0 }
def F.BRS_PORT_SLOT_SLOT_NS : Fld := ⟨R.BRS_PORT_SLOT, 0, 30⟩

/-- BRS_PORT_STAT (R246, 09). -/
def R.BRS_PORT_STAT : Reg :=
  { id := 56, addr := 0x80100C, bytes := 4, scope := .cd, si := 0x40, ni := 16, rst := fun _ _ => 0xFFFF }
def F.BRS_PORT_STAT_REMAIN : Fld := ⟨R.BRS_PORT_STAT, 0, 24⟩
def F.BRS_PORT_STAT_HELD : Fld := ⟨R.BRS_PORT_STAT, 24, 1⟩

/-- BRS_PORT_Q (R246, 09). -/
def R.BRS_PORT_Q : Reg :=
  { id := 57, addr := 0x801010, bytes := 4, scope := .cd, si := 0x40, ni := 16 }
def F.BRS_PORT_Q_AQ : Fld := ⟨R.BRS_PORT_Q, 0, 7⟩
def F.BRS_PORT_Q_DQ : Fld := ⟨R.BRS_PORT_Q, 8, 7⟩

/-- BRS_PORT_ADM (R246, 09). -/
def R.BRS_PORT_ADM : Reg :=
  { id := 58, addr := 0x801014, bytes := 4, scope := .cd, si := 0x40, ni := 16, rc := 0xFFFFFFFF }
def F.BRS_PORT_ADM_ADMITTED : Fld := ⟨R.BRS_PORT_ADM, 0, 32⟩

/-- BRS_PORT_CNT (R246, 09). -/
def R.BRS_PORT_CNT : Reg :=
  { id := 59, addr := 0x801018, bytes := 4, scope := .cd, si := 0x40, ni := 16, rc := 0xFFFFFFFF }
def F.BRS_PORT_CNT_OVERSIZE : Fld := ⟨R.BRS_PORT_CNT, 0, 16⟩
def F.BRS_PORT_CNT_HOLDS : Fld := ⟨R.BRS_PORT_CNT, 16, 16⟩

/-- BRS_MP_CFG (R246, 09). -/
def R.BRS_MP_CFG : Reg :=
  { id := 60, addr := 0x802000, bytes := 4, scope := .cd, si := 0x10, ni := 256, rw := 0x7 }
def F.BRS_MP_CFG_MODE : Fld := ⟨R.BRS_MP_CFG, 0, 2⟩
def F.BRS_MP_CFG_RST : Fld := ⟨R.BRS_MP_CFG, 2, 1⟩

/-- BRS_MP_CIR (R246, 09). -/
def R.BRS_MP_CIR : Reg :=
  { id := 61, addr := 0x802004, bytes := 4, scope := .cd, si := 0x10, ni := 256, rw := 0xFFFFFF }
def F.BRS_MP_CIR_CIR : Fld := ⟨R.BRS_MP_CIR, 0, 24⟩

/-- BRS_MP_PIR (R246, 09). -/
def R.BRS_MP_PIR : Reg :=
  { id := 62, addr := 0x802008, bytes := 4, scope := .cd, si := 0x10, ni := 256, rw := 0xFFFFFF }
def F.BRS_MP_PIR_PIR : Fld := ⟨R.BRS_MP_PIR, 0, 24⟩

/-- BRS_MP_BKT (R246, 09). -/
def R.BRS_MP_BKT : Reg :=
  { id := 63, addr := 0x80200C, bytes := 4, scope := .cd, si := 0x10, ni := 256, rw := 0xFFFFFFFF }
def F.BRS_MP_BKT_CBS : Fld := ⟨R.BRS_MP_BKT, 0, 16⟩
def F.BRS_MP_BKT_PBS : Fld := ⟨R.BRS_MP_BKT, 16, 16⟩

/-- BRS_SP_CFG (R246, 09). -/
def R.BRS_SP_CFG : Reg :=
  { id := 64, addr := 0x803000, bytes := 4, scope := .cd, si := 0x8, ni := 256, rw := 0xFFFF0007 }
def F.BRS_SP_CFG_MODE : Fld := ⟨R.BRS_SP_CFG, 0, 2⟩
def F.BRS_SP_CFG_RST : Fld := ⟨R.BRS_SP_CFG, 2, 1⟩
def F.BRS_SP_CFG_DEPTH : Fld := ⟨R.BRS_SP_CFG, 16, 16⟩

/-- BRS_SP_RATE (R246, 09). -/
def R.BRS_SP_RATE : Reg :=
  { id := 65, addr := 0x803004, bytes := 4, scope := .cd, si := 0x8, ni := 256, rw := 0xFFFFFF }
def F.BRS_SP_RATE_RATE : Fld := ⟨R.BRS_SP_RATE, 0, 24⟩

/-- BRS_SVC_CFG (R246, 09). -/
def R.BRS_SVC_CFG : Reg :=
  { id := 66, addr := 0x810000, bytes := 4, scope := .cd, si := 0x10, ni := 512, rw := 0xFFFFFFFF, rst := fun _ _ => 0x10100 }
def F.BRS_SVC_CFG_PORT : Fld := ⟨R.BRS_SVC_CFG, 0, 4⟩
def F.BRS_SVC_CFG_CLASS : Fld := ⟨R.BRS_SVC_CFG, 4, 2⟩
def F.BRS_SVC_CFG_BWS : Fld := ⟨R.BRS_SVC_CFG, 6, 1⟩
def F.BRS_SVC_CFG_EN : Fld := ⟨R.BRS_SVC_CFG, 7, 1⟩
def F.BRS_SVC_CFG_WEIGHT : Fld := ⟨R.BRS_SVC_CFG, 8, 8⟩
def F.BRS_SVC_CFG_BCAP : Fld := ⟨R.BRS_SVC_CFG, 16, 8⟩
def F.BRS_SVC_CFG_SPROF : Fld := ⟨R.BRS_SVC_CFG, 24, 8⟩

/-- BRS_SVC_STAT (R246, 09). -/
def R.BRS_SVC_STAT : Reg :=
  { id := 67, addr := 0x810004, bytes := 4, scope := .cd, si := 0x10, ni := 512 }
def F.BRS_SVC_STAT_BACKLOG : Fld := ⟨R.BRS_SVC_STAT, 0, 14⟩

/-- SEQ_LEASE_CFG (R267, 10). -/
def R.SEQ_LEASE_CFG : Reg :=
  { id := 68, addr := 0x180800, bytes := 4, scope := .cd, rw := 0xFF3F, rst := fun _ _ => 0x4608 }
def F.SEQ_LEASE_CFG_LEASE_US : Fld := ⟨R.SEQ_LEASE_CFG, 0, 6⟩
def F.SEQ_LEASE_CFG_PREF : Fld := ⟨R.SEQ_LEASE_CFG, 8, 1⟩
def F.SEQ_LEASE_CFG_AUTO_BACK : Fld := ⟨R.SEQ_LEASE_CFG, 9, 1⟩
def F.SEQ_LEASE_CFG_CMP_EN : Fld := ⟨R.SEQ_LEASE_CFG, 10, 1⟩
def F.SEQ_LEASE_CFG_MISC_ABORT : Fld := ⟨R.SEQ_LEASE_CFG, 11, 1⟩
def F.SEQ_LEASE_CFG_UNRES_LIMIT : Fld := ⟨R.SEQ_LEASE_CFG, 12, 4⟩

/-- LE_LEASE_CFG (R267, 10). -/
def R.LE_LEASE_CFG : Reg :=
  { id := 69, addr := 0x431000, bytes := 4, scope := .cd, si := 0x40000, ni := 16, rw := 0xFF3F, rst := fun _ _ => 0x4608 }
def F.LE_LEASE_CFG_LEASE_US : Fld := ⟨R.LE_LEASE_CFG, 0, 6⟩
def F.LE_LEASE_CFG_PREF : Fld := ⟨R.LE_LEASE_CFG, 8, 1⟩
def F.LE_LEASE_CFG_AUTO_BACK : Fld := ⟨R.LE_LEASE_CFG, 9, 1⟩
def F.LE_LEASE_CFG_CMP_EN : Fld := ⟨R.LE_LEASE_CFG, 10, 1⟩
def F.LE_LEASE_CFG_MISC_ABORT : Fld := ⟨R.LE_LEASE_CFG, 11, 1⟩
def F.LE_LEASE_CFG_UNRES_LIMIT : Fld := ⟨R.LE_LEASE_CFG, 12, 4⟩

/-- SEQ_LEASE_CTL (R267, 10). -/
def R.SEQ_LEASE_CTL : Reg :=
  { id := 70, addr := 0x180804, bytes := 4, scope := .cd, w1s := 0x1 }
def F.SEQ_LEASE_CTL_MOVE : Fld := ⟨R.SEQ_LEASE_CTL, 0, 1⟩

/-- LE_LEASE_CTL (R267, 10). -/
def R.LE_LEASE_CTL : Reg :=
  { id := 71, addr := 0x431004, bytes := 4, scope := .cd, si := 0x40000, ni := 16, w1s := 0x1 }
def F.LE_LEASE_CTL_MOVE : Fld := ⟨R.LE_LEASE_CTL, 0, 1⟩

/-- SEQ_LEASE_STAT (R267, 10). -/
def R.SEQ_LEASE_STAT : Reg :=
  { id := 72, addr := 0x180808, bytes := 4, scope := .cd, w1c := 0xC0, rst := fun _ _ => 0x12 }
def F.SEQ_LEASE_STAT_HOLDER : Fld := ⟨R.SEQ_LEASE_STAT, 0, 1⟩
def F.SEQ_LEASE_STAT_NOHOLDER : Fld := ⟨R.SEQ_LEASE_STAT, 1, 1⟩
def F.SEQ_LEASE_STAT_MOVE_PEND : Fld := ⟨R.SEQ_LEASE_STAT, 2, 1⟩
def F.SEQ_LEASE_STAT_DIAG : Fld := ⟨R.SEQ_LEASE_STAT, 3, 1⟩
def F.SEQ_LEASE_STAT_SUSP : Fld := ⟨R.SEQ_LEASE_STAT, 4, 2⟩
def F.SEQ_LEASE_STAT_MOVE_REFUSED : Fld := ⟨R.SEQ_LEASE_STAT, 6, 1⟩
def F.SEQ_LEASE_STAT_RESTART_REFUSED : Fld := ⟨R.SEQ_LEASE_STAT, 7, 1⟩
def F.SEQ_LEASE_STAT_LAST_OUT : Fld := ⟨R.SEQ_LEASE_STAT, 8, 3⟩
def F.SEQ_LEASE_STAT_LAST_PART : Fld := ⟨R.SEQ_LEASE_STAT, 16, 4⟩

/-- LE_LEASE_STAT (R267, 10). -/
def R.LE_LEASE_STAT : Reg :=
  { id := 73, addr := 0x431008, bytes := 4, scope := .cd, si := 0x40000, ni := 16, w1c := 0xC0, rst := fun _ _ => 0x12 }
def F.LE_LEASE_STAT_HOLDER : Fld := ⟨R.LE_LEASE_STAT, 0, 1⟩
def F.LE_LEASE_STAT_NOHOLDER : Fld := ⟨R.LE_LEASE_STAT, 1, 1⟩
def F.LE_LEASE_STAT_MOVE_PEND : Fld := ⟨R.LE_LEASE_STAT, 2, 1⟩
def F.LE_LEASE_STAT_DIAG : Fld := ⟨R.LE_LEASE_STAT, 3, 1⟩
def F.LE_LEASE_STAT_SUSP : Fld := ⟨R.LE_LEASE_STAT, 4, 2⟩
def F.LE_LEASE_STAT_MOVE_REFUSED : Fld := ⟨R.LE_LEASE_STAT, 6, 1⟩
def F.LE_LEASE_STAT_RESTART_REFUSED : Fld := ⟨R.LE_LEASE_STAT, 7, 1⟩
def F.LE_LEASE_STAT_LAST_OUT : Fld := ⟨R.LE_LEASE_STAT, 8, 3⟩
def F.LE_LEASE_STAT_LAST_PART : Fld := ⟨R.LE_LEASE_STAT, 16, 4⟩

/-- SEQ_CMP_CNT (R267, 10). -/
def R.SEQ_CMP_CNT : Reg :=
  { id := 74, addr := 0x18080C, bytes := 4, scope := .cd, rc := 0xFFFFFFFF }
def F.SEQ_CMP_CNT_MISMATCH : Fld := ⟨R.SEQ_CMP_CNT, 0, 16⟩
def F.SEQ_CMP_CNT_UNRES : Fld := ⟨R.SEQ_CMP_CNT, 16, 8⟩
def F.SEQ_CMP_CNT_TRANSFERS : Fld := ⟨R.SEQ_CMP_CNT, 24, 8⟩

/-- LE_CMP_CNT (R267, 10). -/
def R.LE_CMP_CNT : Reg :=
  { id := 75, addr := 0x43100C, bytes := 4, scope := .cd, si := 0x40000, ni := 16, rc := 0xFFFFFFFF }
def F.LE_CMP_CNT_MISMATCH : Fld := ⟨R.LE_CMP_CNT, 0, 16⟩
def F.LE_CMP_CNT_UNRES : Fld := ⟨R.LE_CMP_CNT, 16, 8⟩
def F.LE_CMP_CNT_TRANSFERS : Fld := ⟨R.LE_CMP_CNT, 24, 8⟩

/-- SEQ_COMPARES (R267, 10). -/
def R.SEQ_COMPARES : Reg :=
  { id := 76, addr := 0x180810, bytes := 4, scope := .cd, rc := 0xFFFFFFFF }
def F.SEQ_COMPARES_N : Fld := ⟨R.SEQ_COMPARES, 0, 32⟩

/-- LE_COMPARES (R267, 10). -/
def R.LE_COMPARES : Reg :=
  { id := 77, addr := 0x431010, bytes := 4, scope := .cd, si := 0x40000, ni := 16, rc := 0xFFFFFFFF }
def F.LE_COMPARES_N : Fld := ⟨R.LE_COMPARES, 0, 32⟩

/-- SEQ_MEMBER_CTL (R267, 10). -/
def R.SEQ_MEMBER_CTL : Reg :=
  { id := 78, addr := 0x180840, bytes := 4, scope := .cd, si := 0x40000, ni := 2, w1s := 0x1 }
def F.SEQ_MEMBER_CTL_RESTART : Fld := ⟨R.SEQ_MEMBER_CTL, 0, 1⟩

/-- LE_MEMBER_CTL (R267, 10). -/
def R.LE_MEMBER_CTL : Reg :=
  { id := 79, addr := 0x431040, bytes := 4, scope := .cd, si := 0x40000, ni := 16, sj := 0x40, nj := 2, w1s := 0x1 }
def F.LE_MEMBER_CTL_RESTART : Fld := ⟨R.LE_MEMBER_CTL, 0, 1⟩

/-- SEQ_MEMBER_STAT (R267, 10). -/
def R.SEQ_MEMBER_STAT : Reg :=
  { id := 80, addr := 0x180844, bytes := 4, scope := .cd, si := 0x40000, ni := 2 }
def F.SEQ_MEMBER_STAT_STATE : Fld := ⟨R.SEQ_MEMBER_STAT, 0, 3⟩
def F.SEQ_MEMBER_STAT_MC_CAUSE : Fld := ⟨R.SEQ_MEMBER_STAT, 8, 4⟩
def F.SEQ_MEMBER_STAT_MC_UADDR : Fld := ⟨R.SEQ_MEMBER_STAT, 16, 13⟩

/-- LE_MEMBER_STAT (R267, 10). -/
def R.LE_MEMBER_STAT : Reg :=
  { id := 81, addr := 0x431044, bytes := 4, scope := .cd, si := 0x40000, ni := 16, sj := 0x40, nj := 2 }
def F.LE_MEMBER_STAT_STATE : Fld := ⟨R.LE_MEMBER_STAT, 0, 3⟩
def F.LE_MEMBER_STAT_MC_CAUSE : Fld := ⟨R.LE_MEMBER_STAT, 8, 4⟩
def F.LE_MEMBER_STAT_MC_UADDR : Fld := ⟨R.LE_MEMBER_STAT, 16, 13⟩

/-- SEQ_HEALTH (R267, 10). -/
def R.SEQ_HEALTH : Reg :=
  { id := 82, addr := 0x180848, bytes := 4, scope := .cd, si := 0x40000, ni := 2, rst := fun _ _ => 0xFF0000 }
def F.SEQ_HEALTH_SWEEPS : Fld := ⟨R.SEQ_HEALTH, 0, 16⟩
def F.SEQ_HEALTH_AGE : Fld := ⟨R.SEQ_HEALTH, 16, 8⟩
def F.SEQ_HEALTH_FAIL : Fld := ⟨R.SEQ_HEALTH, 24, 4⟩
def F.SEQ_HEALTH_GOOD : Fld := ⟨R.SEQ_HEALTH, 31, 1⟩

/-- LE_HEALTH (R267, 10). -/
def R.LE_HEALTH : Reg :=
  { id := 83, addr := 0x431048, bytes := 4, scope := .cd, si := 0x40000, ni := 16, sj := 0x40, nj := 2, rst := fun _ _ => 0xFF0000 }
def F.LE_HEALTH_SWEEPS : Fld := ⟨R.LE_HEALTH, 0, 16⟩
def F.LE_HEALTH_AGE : Fld := ⟨R.LE_HEALTH, 16, 8⟩
def F.LE_HEALTH_FAIL : Fld := ⟨R.LE_HEALTH, 24, 4⟩
def F.LE_HEALTH_GOOD : Fld := ⟨R.LE_HEALTH, 31, 1⟩

/-- SEQ_PATCH (R267, 10). -/
def R.SEQ_PATCH : Reg :=
  { id := 84, addr := 0x18084C, bytes := 4, scope := .cd, si := 0x40000, ni := 2 }
def F.SEQ_PATCH_LEVEL : Fld := ⟨R.SEQ_PATCH, 0, 32⟩

/-- LE_PATCH (R267, 10). -/
def R.LE_PATCH : Reg :=
  { id := 85, addr := 0x43104C, bytes := 4, scope := .cd, si := 0x40000, ni := 16, sj := 0x40, nj := 2 }
def F.LE_PATCH_LEVEL : Fld := ⟨R.LE_PATCH, 0, 32⟩

/-- SEQ_PATCH_INFO (R267, 10). -/
def R.SEQ_PATCH_INFO : Reg :=
  { id := 86, addr := 0x180850, bytes := 4, scope := .cd, si := 0x40000, ni := 2 }
def F.SEQ_PATCH_INFO_ARB : Fld := ⟨R.SEQ_PATCH_INFO, 0, 7⟩
def F.SEQ_PATCH_INFO_LOADED : Fld := ⟨R.SEQ_PATCH_INFO, 7, 1⟩
def F.SEQ_PATCH_INFO_NMATCH : Fld := ⟨R.SEQ_PATCH_INFO, 8, 6⟩
def F.SEQ_PATCH_INFO_NWORDS : Fld := ⟨R.SEQ_PATCH_INFO, 16, 12⟩

/-- LE_PATCH_INFO (R267, 10). -/
def R.LE_PATCH_INFO : Reg :=
  { id := 87, addr := 0x431050, bytes := 4, scope := .cd, si := 0x40000, ni := 16, sj := 0x40, nj := 2 }
def F.LE_PATCH_INFO_ARB : Fld := ⟨R.LE_PATCH_INFO, 0, 7⟩
def F.LE_PATCH_INFO_LOADED : Fld := ⟨R.LE_PATCH_INFO, 7, 1⟩
def F.LE_PATCH_INFO_NMATCH : Fld := ⟨R.LE_PATCH_INFO, 8, 6⟩
def F.LE_PATCH_INFO_NWORDS : Fld := ⟨R.LE_PATCH_INFO, 16, 12⟩

/-- SEQ_DIGEST (R267, 10). -/
def R.SEQ_DIGEST : Reg :=
  { id := 88, addr := 0x180858, bytes := 8, scope := .cd, si := 0x40000, ni := 2 }
def F.SEQ_DIGEST_DIGEST : Fld := ⟨R.SEQ_DIGEST, 0, 64⟩

/-- LE_DIGEST (R267, 10). -/
def R.LE_DIGEST : Reg :=
  { id := 89, addr := 0x431058, bytes := 8, scope := .cd, si := 0x40000, ni := 16, sj := 0x40, nj := 2 }
def F.LE_DIGEST_DIGEST : Fld := ⟨R.LE_DIGEST, 0, 64⟩

/-- TB_CTL (R292, 11). -/
def R.TB_CTL : Reg :=
  { id := 90, addr := 0x40000, bytes := 4, scope := .cd, si := 0x100, ni := 4, rw := 0x30, w1s := 0xF, rst := fun i _ => if i = 0 then 0x20 else 0 }
def F.TB_CTL_STEP : Fld := ⟨R.TB_CTL, 0, 1⟩
def F.TB_CTL_STEP_OFF : Fld := ⟨R.TB_CTL, 1, 1⟩
def F.TB_CTL_AMORT : Fld := ⟨R.TB_CTL, 2, 1⟩
def F.TB_CTL_AMORT_STOP : Fld := ⟨R.TB_CTL, 3, 1⟩
def F.TB_CTL_FORCE : Fld := ⟨R.TB_CTL, 4, 1⟩
def F.TB_CTL_STEP_FLT : Fld := ⟨R.TB_CTL, 5, 1⟩

/-- TB_STAT (R292, 11). -/
def R.TB_STAT : Reg :=
  { id := 91, addr := 0x40004, bytes := 4, scope := .cd, si := 0x100, ni := 4, w1c := 0x1C, rc := 0xFFFF0000 }
def F.TB_STAT_STEP_BUSY : Fld := ⟨R.TB_STAT, 0, 1⟩
def F.TB_STAT_AMORT_BUSY : Fld := ⟨R.TB_STAT, 1, 1⟩
def F.TB_STAT_INC_REFUSED : Fld := ⟨R.TB_STAT, 2, 1⟩
def F.TB_STAT_STEP_REFUSED : Fld := ⟨R.TB_STAT, 3, 1⟩
def F.TB_STAT_AMORT_REFUSED : Fld := ⟨R.TB_STAT, 4, 1⟩
def F.TB_STAT_STEPS : Fld := ⟨R.TB_STAT, 16, 16⟩

/-- TB_INC (R292, 11). -/
def R.TB_INC : Reg :=
  { id := 92, addr := 0x40008, bytes := 8, scope := .cd, si := 0x100, ni := 4, rw := 0x3FFFFFFFFFFFF, rst := fun _ _ => 0x1000000000000 }
def F.TB_INC_INC : Fld := ⟨R.TB_INC, 0, 50⟩

/-- TB_NOW (R292, 11). -/
def R.TB_NOW : Reg :=
  { id := 93, addr := 0x40010, bytes := 12, scope := .cd, si := 0x100, ni := 4 }
def F.TB_NOW_VAL : Fld := ⟨R.TB_NOW, 0, 96⟩

/-- TB_SET (R292, 11). -/
def R.TB_SET : Reg :=
  { id := 94, addr := 0x40020, bytes := 12, scope := .cd, si := 0x100, ni := 4, rw := 0xFFFFFFFFFFFFFFFFFFFFFFFF }
def F.TB_SET_VAL : Fld := ⟨R.TB_SET, 0, 96⟩

/-- TB_OFF (R292, 11). -/
def R.TB_OFF : Reg :=
  { id := 95, addr := 0x40030, bytes := 8, scope := .cd, si := 0x100, ni := 4, rw := 0xFFFFFFFFFFFFFFFF }
def F.TB_OFF_OFF : Fld := ⟨R.TB_OFF, 0, 64⟩

/-- TB_AMRATE (R292, 11). -/
def R.TB_AMRATE : Reg :=
  { id := 96, addr := 0x40038, bytes := 4, scope := .cd, si := 0x100, ni := 4, rw := 0x3FF, rst := fun _ _ => 0x64 }
def F.TB_AMRATE_RATE : Fld := ⟨R.TB_AMRATE, 0, 10⟩

/-- TB_TPO_CTL (R292, 11). -/
def R.TB_TPO_CTL : Reg :=
  { id := 97, addr := 0x41000, bytes := 4, scope := .cd, si := 0x40, ni := 8, rw := 0x5F, w1s := 0x20 }
def F.TB_TPO_CTL_MODE : Fld := ⟨R.TB_TPO_CTL, 0, 2⟩
def F.TB_TPO_CTL_TB : Fld := ⟨R.TB_TPO_CTL, 2, 2⟩
def F.TB_TPO_CTL_POL : Fld := ⟨R.TB_TPO_CTL, 4, 1⟩
def F.TB_TPO_CTL_LOAD : Fld := ⟨R.TB_TPO_CTL, 5, 1⟩
def F.TB_TPO_CTL_EV : Fld := ⟨R.TB_TPO_CTL, 6, 1⟩

/-- TB_TPO_STAT (R292, 11). -/
def R.TB_TPO_STAT : Reg :=
  { id := 98, addr := 0x41004, bytes := 4, scope := .cd, si := 0x40, ni := 8, w1c := 0x1 }
def F.TB_TPO_STAT_LATE : Fld := ⟨R.TB_TPO_STAT, 0, 1⟩
def F.TB_TPO_STAT_ACTIVE : Fld := ⟨R.TB_TPO_STAT, 1, 1⟩

/-- TB_TPO_START (R292, 11). -/
def R.TB_TPO_START : Reg :=
  { id := 99, addr := 0x41008, bytes := 12, scope := .cd, si := 0x40, ni := 8, rw := 0xFFFFFFFFFFFFFFFFFFFFFFFF }
def F.TB_TPO_START_VAL : Fld := ⟨R.TB_TPO_START, 0, 96⟩

/-- TB_TPO_PER (R292, 11). -/
def R.TB_TPO_PER : Reg :=
  { id := 100, addr := 0x41018, bytes := 8, scope := .cd, si := 0x40, ni := 8, rw := 0xFFFFFFFFFFFF, rst := fun _ _ => 0x3B9ACA000000 }
def F.TB_TPO_PER_PERIOD : Fld := ⟨R.TB_TPO_PER, 0, 48⟩

/-- TB_TPO_WID (R292, 11). -/
def R.TB_TPO_WID : Reg :=
  { id := 101, addr := 0x41020, bytes := 4, scope := .cd, si := 0x40, ni := 8, rw := 0x3FFFFFFF, rst := fun _ _ => 0x64 }
def F.TB_TPO_WID_WIDTH : Fld := ⟨R.TB_TPO_WID, 0, 30⟩

/-- TB_TCI_CTL (R292, 11). -/
def R.TB_TCI_CTL : Reg :=
  { id := 102, addr := 0x42000, bytes := 4, scope := .cd, si := 0x40, ni := 8, rw := 0x1F, w1s := 0x20 }
def F.TB_TCI_CTL_EDGE : Fld := ⟨R.TB_TCI_CTL, 0, 2⟩
def F.TB_TCI_CTL_TB : Fld := ⟨R.TB_TCI_CTL, 2, 2⟩
def F.TB_TCI_CTL_EV : Fld := ⟨R.TB_TCI_CTL, 4, 1⟩
def F.TB_TCI_CTL_CLR : Fld := ⟨R.TB_TCI_CTL, 5, 1⟩

/-- TB_TCI_STAT (R292, 11). -/
def R.TB_TCI_STAT : Reg :=
  { id := 103, addr := 0x42004, bytes := 4, scope := .cd, si := 0x40, ni := 8, w1c := 0x8, rc := 0xFFFF0000 }
def F.TB_TCI_STAT_COUNT : Fld := ⟨R.TB_TCI_STAT, 0, 3⟩
def F.TB_TCI_STAT_OVF : Fld := ⟨R.TB_TCI_STAT, 3, 1⟩
def F.TB_TCI_STAT_HEDGE : Fld := ⟨R.TB_TCI_STAT, 4, 1⟩
def F.TB_TCI_STAT_DROP : Fld := ⟨R.TB_TCI_STAT, 16, 16⟩

/-- TB_TCI_TS (R292, 11). -/
def R.TB_TCI_TS : Reg :=
  { id := 104, addr := 0x42008, bytes := 12, scope := .cd, si := 0x40, ni := 8 }
def F.TB_TCI_TS_VAL : Fld := ⟨R.TB_TCI_TS, 0, 96⟩

/-- TB_SYNC_STAT (R292, 11). -/
def R.TB_SYNC_STAT : Reg :=
  { id := 105, addr := 0x43000, bytes := 4, scope := .cd, rc := 0xFFFF0000 }
def F.TB_SYNC_STAT_LEVEL : Fld := ⟨R.TB_SYNC_STAT, 0, 1⟩
def F.TB_SYNC_STAT_EDGES : Fld := ⟨R.TB_SYNC_STAT, 16, 16⟩

/-- TB_SYNC_R (R292, 11). -/
def R.TB_SYNC_R : Reg :=
  { id := 106, addr := 0x43008, bytes := 12, scope := .cd }
def F.TB_SYNC_R_VAL : Fld := ⟨R.TB_SYNC_R, 0, 96⟩

/-- TB_SYNC_F (R292, 11). -/
def R.TB_SYNC_F : Reg :=
  { id := 107, addr := 0x43018, bytes := 12, scope := .cd }
def F.TB_SYNC_F_VAL : Fld := ⟨R.TB_SYNC_F, 0, 96⟩

/-- SP_CFG (R292, 11). -/
def R.SP_CFG : Reg :=
  { id := 108, addr := 0x50000, bytes := 4, scope := .cd, si := 0x8000, ni := 2, rw := 0x7F }
def F.SP_CFG_EN : Fld := ⟨R.SP_CFG, 0, 1⟩
def F.SP_CFG_SPEED : Fld := ⟨R.SP_CFG, 1, 1⟩
def F.SP_CFG_FEC : Fld := ⟨R.SP_CFG, 2, 2⟩
def F.SP_CFG_SCHED_COPY : Fld := ⟨R.SP_CFG, 4, 1⟩
def F.SP_CFG_TB : Fld := ⟨R.SP_CFG, 5, 2⟩

/-- SP_MAXFRM (R292, 11). -/
def R.SP_MAXFRM : Reg :=
  { id := 109, addr := 0x50004, bytes := 4, scope := .cd, si := 0x8000, ni := 2, rw := 0x3FFF, rst := fun _ _ => 0x5F2 }
def F.SP_MAXFRM_MAX : Fld := ⟨R.SP_MAXFRM, 0, 14⟩

/-- SP_STAT (R292, 11). -/
def R.SP_STAT : Reg :=
  { id := 110, addr := 0x50008, bytes := 4, scope := .cd, si := 0x8000, ni := 2, w1c := 0xC }
def F.SP_STAT_LINK : Fld := ⟨R.SP_STAT, 0, 1⟩
def F.SP_STAT_FENCED : Fld := ⟨R.SP_STAT, 1, 1⟩
def F.SP_STAT_CFG_REFUSED : Fld := ⟨R.SP_STAT, 2, 1⟩
def F.SP_STAT_ONESTEP_ERR : Fld := ⟨R.SP_STAT, 3, 1⟩

/-- SP_MAC_LO (R292, 11). -/
def R.SP_MAC_LO : Reg :=
  { id := 111, addr := 0x50010, bytes := 4, scope := .cd, si := 0x8000, ni := 2, rw := 0xFFFFFFFF }
def F.SP_MAC_LO_VAL : Fld := ⟨R.SP_MAC_LO, 0, 32⟩

/-- SP_MAC_HI (R292, 11). -/
def R.SP_MAC_HI : Reg :=
  { id := 112, addr := 0x50014, bytes := 4, scope := .cd, si := 0x8000, ni := 2, rw := 0xFFFF }
def F.SP_MAC_HI_VAL : Fld := ⟨R.SP_MAC_HI, 0, 16⟩

/-- SP_MCAST (R292, 11). -/
def R.SP_MCAST : Reg :=
  { id := 113, addr := 0x50020, bytes := 8, scope := .cd, si := 0x8000, ni := 2, sj := 0x8, nj := 4, rw := 0x1FFFFFFFFFFFF }
def F.SP_MCAST_ADDR : Fld := ⟨R.SP_MCAST, 0, 48⟩
def F.SP_MCAST_EN : Fld := ⟨R.SP_MCAST, 48, 1⟩

/-- SP_TXASYM (R292, 11). -/
def R.SP_TXASYM : Reg :=
  { id := 114, addr := 0x50040, bytes := 4, scope := .cd, si := 0x8000, ni := 2, rw := 0xFFFFFFFF }
def F.SP_TXASYM_ASYM : Fld := ⟨R.SP_TXASYM, 0, 32⟩

/-- SP_RXASYM (R292, 11). -/
def R.SP_RXASYM : Reg :=
  { id := 115, addr := 0x50044, bytes := 4, scope := .cd, si := 0x8000, ni := 2, rw := 0xFFFFFFFF }
def F.SP_RXASYM_ASYM : Fld := ⟨R.SP_RXASYM, 0, 32⟩

/-- SP_TC_CTL (R292, 11). -/
def R.SP_TC_CTL : Reg :=
  { id := 116, addr := 0x50050, bytes := 4, scope := .cd, rw := 0x1 }
def F.SP_TC_CTL_EN : Fld := ⟨R.SP_TC_CTL, 0, 1⟩

/-- SP_TXR_BASE (R292, 11). -/
def R.SP_TXR_BASE : Reg :=
  { id := 117, addr := 0x50100, bytes := 8, scope := .cd, si := 0x8000, ni := 2, rw := 0xFFFFFFFFFFFFFFE0 }
def F.SP_TXR_BASE_BASE : Fld := ⟨R.SP_TXR_BASE, 5, 59⟩

/-- SP_RXR_BASE (R292, 11). -/
def R.SP_RXR_BASE : Reg :=
  { id := 118, addr := 0x50108, bytes := 8, scope := .cd, si := 0x8000, ni := 2, rw := 0xFFFFFFFFFFFFFFE0 }
def F.SP_RXR_BASE_BASE : Fld := ⟨R.SP_RXR_BASE, 5, 59⟩

/-- SP_FR_SIZE (R292, 11). -/
def R.SP_FR_SIZE : Reg :=
  { id := 119, addr := 0x50110, bytes := 4, scope := .cd, si := 0x8000, ni := 2, rw := 0xF0F, rst := fun _ _ => 0x404 }
def F.SP_FR_SIZE_TX_LOG2 : Fld := ⟨R.SP_FR_SIZE, 0, 4⟩
def F.SP_FR_SIZE_RX_LOG2 : Fld := ⟨R.SP_FR_SIZE, 8, 4⟩

/-- SP_TXR_PI (R292, 11). -/
def R.SP_TXR_PI : Reg :=
  { id := 120, addr := 0x50114, bytes := 4, scope := .cd, si := 0x8000, ni := 2, rw := 0xFFF }
def F.SP_TXR_PI_PI : Fld := ⟨R.SP_TXR_PI, 0, 12⟩

/-- SP_TXR_CI (R292, 11). -/
def R.SP_TXR_CI : Reg :=
  { id := 121, addr := 0x50118, bytes := 4, scope := .cd, si := 0x8000, ni := 2 }
def F.SP_TXR_CI_CI : Fld := ⟨R.SP_TXR_CI, 0, 12⟩

/-- SP_RXR_PI (R292, 11). -/
def R.SP_RXR_PI : Reg :=
  { id := 122, addr := 0x5011C, bytes := 4, scope := .cd, si := 0x8000, ni := 2, rw := 0xFFF }
def F.SP_RXR_PI_PI : Fld := ⟨R.SP_RXR_PI, 0, 12⟩

/-- SP_RXR_CI (R292, 11). -/
def R.SP_RXR_CI : Reg :=
  { id := 123, addr := 0x50120, bytes := 4, scope := .cd, si := 0x8000, ni := 2 }
def F.SP_RXR_CI_CI : Fld := ⟨R.SP_RXR_CI, 0, 12⟩

/-- SP_FR_CTL (R292, 11). -/
def R.SP_FR_CTL : Reg :=
  { id := 124, addr := 0x50124, bytes := 4, scope := .cd, si := 0x8000, ni := 2, rw := 0x7FF0001, w1s := 0x2 }
def F.SP_FR_CTL_EN : Fld := ⟨R.SP_FR_CTL, 0, 1⟩
def F.SP_FR_CTL_INIT : Fld := ⟨R.SP_FR_CTL, 1, 1⟩
def F.SP_FR_CTL_VEC : Fld := ⟨R.SP_FR_CTL, 16, 11⟩

/-- SP_TSQ_STAT (R292, 11). -/
def R.SP_TSQ_STAT : Reg :=
  { id := 125, addr := 0x50200, bytes := 4, scope := .cd, si := 0x8000, ni := 2, w1c := 0x20, rc := 0xFFFF0000 }
def F.SP_TSQ_STAT_COUNT : Fld := ⟨R.SP_TSQ_STAT, 0, 5⟩
def F.SP_TSQ_STAT_OVF : Fld := ⟨R.SP_TSQ_STAT, 5, 1⟩
def F.SP_TSQ_STAT_HFAIL : Fld := ⟨R.SP_TSQ_STAT, 6, 1⟩
def F.SP_TSQ_STAT_HID : Fld := ⟨R.SP_TSQ_STAT, 8, 8⟩
def F.SP_TSQ_STAT_DROP : Fld := ⟨R.SP_TSQ_STAT, 16, 16⟩

/-- SP_TSQ_TS (R292, 11). -/
def R.SP_TSQ_TS : Reg :=
  { id := 126, addr := 0x50204, bytes := 12, scope := .cd, si := 0x8000, ni := 2 }
def F.SP_TSQ_TS_VAL : Fld := ⟨R.SP_TSQ_TS, 0, 96⟩

/-- SP_RX_FRAMES (R292, 11). -/
def R.SP_RX_FRAMES : Reg :=
  { id := 127, addr := 0x50300, bytes := 4, scope := .cd, si := 0x8000, ni := 2, rc := 0xFFFFFFFF }
def F.SP_RX_FRAMES_CNT : Fld := ⟨R.SP_RX_FRAMES, 0, 32⟩

/-- SP_RX_BAD (R292, 11). -/
def R.SP_RX_BAD : Reg :=
  { id := 128, addr := 0x50304, bytes := 4, scope := .cd, si := 0x8000, ni := 2, rc := 0xFFFFFFFF }
def F.SP_RX_BAD_CNT : Fld := ⟨R.SP_RX_BAD, 0, 32⟩

/-- SP_RX_NOBUF (R292, 11). -/
def R.SP_RX_NOBUF : Reg :=
  { id := 129, addr := 0x50308, bytes := 4, scope := .cd, si := 0x8000, ni := 2, rc := 0xFFFFFFFF }
def F.SP_RX_NOBUF_CNT : Fld := ⟨R.SP_RX_NOBUF, 0, 32⟩

/-- SP_FWD_DROP (R292, 11). -/
def R.SP_FWD_DROP : Reg :=
  { id := 130, addr := 0x5030C, bytes := 4, scope := .cd, si := 0x8000, ni := 2, rc := 0xFFFFFFFF }
def F.SP_FWD_DROP_CNT : Fld := ⟨R.SP_FWD_DROP, 0, 32⟩

/-- SP_TX_FRAMES (R292, 11). -/
def R.SP_TX_FRAMES : Reg :=
  { id := 131, addr := 0x50310, bytes := 4, scope := .cd, si := 0x8000, ni := 2, rc := 0xFFFFFFFF }
def F.SP_TX_FRAMES_CNT : Fld := ⟨R.SP_TX_FRAMES, 0, 32⟩

/-- LAT_STARVE (R324, 12). -/
def R.LAT_STARVE : Reg :=
  { id := 132, addr := 0x60000, bytes := 4, scope := .cd, rw := 0xFFFF, rst := fun _ _ => 0x100 }
def F.LAT_STARVE_CYCLES : Fld := ⟨R.LAT_STARVE, 0, 16⟩

/-- LAT_TMO (R324, 12). -/
def R.LAT_TMO : Reg :=
  { id := 133, addr := 0x60004, bytes := 4, scope := .cd, rw := 0xFFFFF, rst := fun _ _ => 0x1000 }
def F.LAT_TMO_CYCLES : Fld := ⟨R.LAT_TMO, 0, 20⟩

/-- LAT_PRI (R324, 12). -/
def R.LAT_PRI : Reg :=
  { id := 134, addr := 0x60010, bytes := 4, scope := .cd, si := 0x4, ni := 8, rw := 0xFFFFFFFF, rst := fun _ _ => 0x88888888 }
def F.LAT_PRI_PRI0 : Fld := ⟨R.LAT_PRI, 0, 4⟩
def F.LAT_PRI_PRI1 : Fld := ⟨R.LAT_PRI, 4, 4⟩
def F.LAT_PRI_PRI2 : Fld := ⟨R.LAT_PRI, 8, 4⟩
def F.LAT_PRI_PRI3 : Fld := ⟨R.LAT_PRI, 12, 4⟩
def F.LAT_PRI_PRI4 : Fld := ⟨R.LAT_PRI, 16, 4⟩
def F.LAT_PRI_PRI5 : Fld := ⟨R.LAT_PRI, 20, 4⟩
def F.LAT_PRI_PRI6 : Fld := ⟨R.LAT_PRI, 24, 4⟩
def F.LAT_PRI_PRI7 : Fld := ⟨R.LAT_PRI, 28, 4⟩

/-- LAT_STAT (R324, 12). -/
def R.LAT_STAT : Reg :=
  { id := 135, addr := 0x60040, bytes := 4, scope := .cd, w1c := 0xF }
def F.LAT_STAT_DECODE : Fld := ⟨R.LAT_STAT, 0, 1⟩
def F.LAT_STAT_TIMEOUT : Fld := ⟨R.LAT_STAT, 1, 1⟩
def F.LAT_STAT_CFG_REFUSED : Fld := ⟨R.LAT_STAT, 2, 1⟩
def F.LAT_STAT_VEC_BAD : Fld := ⟨R.LAT_STAT, 3, 1⟩
def F.LAT_STAT_RETIRE : Fld := ⟨R.LAT_STAT, 8, 8⟩

/-- LAT_ERR_INFO (R324, 12). -/
def R.LAT_ERR_INFO : Reg :=
  { id := 136, addr := 0x60048, bytes := 8, scope := .cd }
def F.LAT_ERR_INFO_MASTER : Fld := ⟨R.LAT_ERR_INFO, 0, 3⟩
def F.LAT_ERR_INFO_TARGET : Fld := ⟨R.LAT_ERR_INFO, 4, 3⟩
def F.LAT_ERR_INFO_WRITE : Fld := ⟨R.LAT_ERR_INFO, 7, 1⟩
def F.LAT_ERR_INFO_KIND : Fld := ⟨R.LAT_ERR_INFO, 8, 1⟩
def F.LAT_ERR_INFO_ADDR : Fld := ⟨R.LAT_ERR_INFO, 16, 48⟩

/-- LAT_PCI_STAT (R324, 12). -/
def R.LAT_PCI_STAT : Reg :=
  { id := 137, addr := 0x60050, bytes := 4, scope := .cd, rc := 0xFFFF0000 }
def F.LAT_PCI_STAT_SPEED : Fld := ⟨R.LAT_PCI_STAT, 0, 3⟩
def F.LAT_PCI_STAT_WIDTH : Fld := ⟨R.LAT_PCI_STAT, 4, 4⟩
def F.LAT_PCI_STAT_VF_EN : Fld := ⟨R.LAT_PCI_STAT, 8, 1⟩
def F.LAT_PCI_STAT_NUMVFS : Fld := ⟨R.LAT_PCI_STAT, 9, 6⟩
def F.LAT_PCI_STAT_DOWNS : Fld := ⟨R.LAT_PCI_STAT, 16, 16⟩

/-- LAT_MBOX_PEND (R324, 12). -/
def R.LAT_MBOX_PEND : Reg :=
  { id := 138, addr := 0x60060, bytes := 8, scope := .cd, w1c := 0xFFFFFFFFFFFFFFFE }
def F.LAT_MBOX_PEND_PEND : Fld := ⟨R.LAT_MBOX_PEND, 1, 63⟩

/-- LAT_MBOX_VEC (R324, 12). -/
def R.LAT_MBOX_VEC : Reg :=
  { id := 139, addr := 0x60068, bytes := 4, scope := .cd, rw := 0x1FF }
def F.LAT_MBOX_VEC_VEC : Fld := ⟨R.LAT_MBOX_VEC, 0, 9⟩

/-- LAT_VF_RING (R324, 12). -/
def R.LAT_VF_RING : Reg :=
  { id := 140, addr := 0x61000, bytes := 4, scope := .cd, si := 0x10, ni := 64, rw := 0x7FF1FFF }
def F.LAT_VF_RING_FIRST : Fld := ⟨R.LAT_VF_RING, 0, 13⟩
def F.LAT_VF_RING_COUNT : Fld := ⟨R.LAT_VF_RING, 16, 11⟩

/-- LAT_VF_VEC (R324, 12). -/
def R.LAT_VF_VEC : Reg :=
  { id := 141, addr := 0x61004, bytes := 4, scope := .cd, si := 0x10, ni := 64, rw := 0x7FF, rst := fun _ _ => 0x18 }
def F.LAT_VF_VEC_COUNT : Fld := ⟨R.LAT_VF_VEC, 0, 11⟩

/-- LAT_VF_STAT (R324, 12). -/
def R.LAT_VF_STAT : Reg :=
  { id := 142, addr := 0x61008, bytes := 4, scope := .cd, si := 0x10, ni := 64, w1s := 0x40000 }
def F.LAT_VF_STAT_DB_BAD : Fld := ⟨R.LAT_VF_STAT, 0, 16⟩
def F.LAT_VF_STAT_FENCED : Fld := ⟨R.LAT_VF_STAT, 16, 1⟩
def F.LAT_VF_STAT_FLR_BUSY : Fld := ⟨R.LAT_VF_STAT, 17, 1⟩
def F.LAT_VF_STAT_SEND : Fld := ⟨R.LAT_VF_STAT, 18, 1⟩

/-- LAT_VF_MBIN (R324, 12). -/
def R.LAT_VF_MBIN : Reg :=
  { id := 143, addr := 0x62000, bytes := 4, scope := .cd, si := 0x80, ni := 64, sj := 0x4, nj := 16, rw := 0xFFFFFFFF }
def F.LAT_VF_MBIN_VAL : Fld := ⟨R.LAT_VF_MBIN, 0, 32⟩

/-- LAT_VF_MBOUT (R324, 12). -/
def R.LAT_VF_MBOUT : Reg :=
  { id := 144, addr := 0x62040, bytes := 4, scope := .cd, si := 0x80, ni := 64, sj := 0x4, nj := 16 }
def F.LAT_VF_MBOUT_VAL : Fld := ⟨R.LAT_VF_MBOUT, 0, 32⟩

/-- LAT_VFR_ID (R324, 12). -/
def R.LAT_VFR_ID : Reg :=
  { id := 145, addr := 0x1000F000, bytes := 4, scope := .cd, si := 0x10000, ni := 64, rst := fun i _ => BitVec.ofNat 96 i }
def F.LAT_VFR_ID_FN : Fld := ⟨R.LAT_VFR_ID, 0, 6⟩
def F.LAT_VFR_ID_COUNT : Fld := ⟨R.LAT_VFR_ID, 16, 11⟩

/-- LAT_VFR_ID2 (R324, 12). -/
def R.LAT_VFR_ID2 : Reg :=
  { id := 146, addr := 0x1000F004, bytes := 4, scope := .cd, si := 0x10000, ni := 64, rst := fun _ _ => 0x180000 }
def F.LAT_VFR_ID2_FIRST : Fld := ⟨R.LAT_VFR_ID2, 0, 13⟩
def F.LAT_VFR_ID2_VECS : Fld := ⟨R.LAT_VFR_ID2, 16, 11⟩

/-- LAT_VFR_STAT (R324, 12). -/
def R.LAT_VFR_STAT : Reg :=
  { id := 147, addr := 0x1000F008, bytes := 4, scope := .cd, si := 0x10000, ni := 64, w1c := 0x20000, rc := 0xFFFF }
def F.LAT_VFR_STAT_DB_BAD : Fld := ⟨R.LAT_VFR_STAT, 0, 16⟩
def F.LAT_VFR_STAT_FENCED : Fld := ⟨R.LAT_VFR_STAT, 16, 1⟩
def F.LAT_VFR_STAT_MB_IN : Fld := ⟨R.LAT_VFR_STAT, 17, 1⟩

/-- LAT_VFR_MBCTL (R324, 12). -/
def R.LAT_VFR_MBCTL : Reg :=
  { id := 148, addr := 0x1000F00C, bytes := 4, scope := .cd, si := 0x10000, ni := 64, rw := 0x7FF00, w1s := 0x1 }
def F.LAT_VFR_MBCTL_SEND : Fld := ⟨R.LAT_VFR_MBCTL, 0, 1⟩
def F.LAT_VFR_MBCTL_VEC : Fld := ⟨R.LAT_VFR_MBCTL, 8, 11⟩

/-- DMA_CH_DESC (R325, 12). -/
def R.DMA_CH_DESC : Reg :=
  { id := 149, addr := 0x70000, bytes := 4, scope := .cd, si := 0x100, ni := 16, sj := 0x4, nj := 16, rw := 0xFFFFFFFF }
def F.DMA_CH_DESC_VAL : Fld := ⟨R.DMA_CH_DESC, 0, 32⟩

/-- DMA_CH_CTL (R325, 12). -/
def R.DMA_CH_CTL : Reg :=
  { id := 150, addr := 0x70040, bytes := 4, scope := .cd, si := 0x100, ni := 16, w1s := 0x1F }
def F.DMA_CH_CTL_START : Fld := ⟨R.DMA_CH_CTL, 0, 1⟩
def F.DMA_CH_CTL_CHAIN_START : Fld := ⟨R.DMA_CH_CTL, 1, 1⟩
def F.DMA_CH_CTL_CHAIN_KICK : Fld := ⟨R.DMA_CH_CTL, 2, 1⟩
def F.DMA_CH_CTL_ABORT : Fld := ⟨R.DMA_CH_CTL, 3, 1⟩
def F.DMA_CH_CTL_CLEAR : Fld := ⟨R.DMA_CH_CTL, 4, 1⟩

/-- DMA_CH_CFG (R325, 12). -/
def R.DMA_CH_CFG : Reg :=
  { id := 151, addr := 0x70044, bytes := 4, scope := .cd, si := 0x100, ni := 16, rw := 0x7 }
def F.DMA_CH_CFG_PRI : Fld := ⟨R.DMA_CH_CFG, 0, 2⟩
def F.DMA_CH_CFG_CSP : Fld := ⟨R.DMA_CH_CFG, 2, 1⟩

/-- DMA_CH_STAT (R325, 12). -/
def R.DMA_CH_STAT : Reg :=
  { id := 152, addr := 0x70048, bytes := 4, scope := .cd, si := 0x100, ni := 16, w1c := 0x70, rc := 0xFFFF0000 }
def F.DMA_CH_STAT_STATE : Fld := ⟨R.DMA_CH_STAT, 0, 3⟩
def F.DMA_CH_STAT_KICK_PEND : Fld := ⟨R.DMA_CH_STAT, 3, 1⟩
def F.DMA_CH_STAT_REFUSED : Fld := ⟨R.DMA_CH_STAT, 4, 1⟩
def F.DMA_CH_STAT_WR_REFUSED : Fld := ⟨R.DMA_CH_STAT, 5, 1⟩
def F.DMA_CH_STAT_ABORTED : Fld := ⟨R.DMA_CH_STAT, 6, 1⟩
def F.DMA_CH_STAT_CODE : Fld := ⟨R.DMA_CH_STAT, 8, 4⟩
def F.DMA_CH_STAT_DONE : Fld := ⟨R.DMA_CH_STAT, 16, 16⟩

/-- DMA_CH_NEXT (R325, 12). -/
def R.DMA_CH_NEXT : Reg :=
  { id := 153, addr := 0x70050, bytes := 8, scope := .cd, si := 0x100, ni := 16, rw := 0xFFFFFFFFFFFFFFFF }
def F.DMA_CH_NEXT_VAL : Fld := ⟨R.DMA_CH_NEXT, 0, 64⟩

/-- DMA_CH_CUR (R325, 12). -/
def R.DMA_CH_CUR : Reg :=
  { id := 154, addr := 0x70058, bytes := 8, scope := .cd, si := 0x100, ni := 16 }
def F.DMA_CH_CUR_VAL : Fld := ⟨R.DMA_CH_CUR, 0, 64⟩

/-- DMA_CH_BYTES (R325, 12). -/
def R.DMA_CH_BYTES : Reg :=
  { id := 155, addr := 0x70060, bytes := 4, scope := .cd, si := 0x100, ni := 16 }
def F.DMA_CH_BYTES_BYTES : Fld := ⟨R.DMA_CH_BYTES, 0, 32⟩

/-- DMA_STAT (R325, 12). -/
def R.DMA_STAT : Reg :=
  { id := 156, addr := 0x71000, bytes := 4, scope := .cd }
def F.DMA_STAT_ERRMAP : Fld := ⟨R.DMA_STAT, 0, 16⟩
def F.DMA_STAT_ACTIVE : Fld := ⟨R.DMA_STAT, 16, 16⟩

/-- EVT_CH (R352, 13). -/
def R.EVT_CH : Reg :=
  { id := 157, addr := 0x30000, bytes := 4, scope := .cd, si := 0x10, ni := 64, rw := 0xFF1F3FFF, rst := fun _ _ => 0x8000000 }
def F.EVT_CH_PSEL : Fld := ⟨R.EVT_CH, 0, 8⟩
def F.EVT_CH_CSEL : Fld := ⟨R.EVT_CH, 8, 6⟩
def F.EVT_CH_GRP : Fld := ⟨R.EVT_CH, 16, 3⟩
def F.EVT_CH_EN : Fld := ⟨R.EVT_CH, 19, 1⟩
def F.EVT_CH_IEN : Fld := ⟨R.EVT_CH, 20, 1⟩
def F.EVT_CH_RETRIG : Fld := ⟨R.EVT_CH, 24, 8⟩

/-- EVT_VEC (R352, 13). -/
def R.EVT_VEC : Reg :=
  { id := 158, addr := 0x30004, bytes := 4, scope := .cd, si := 0x10, ni := 64, rw := 0x1FF }
def F.EVT_VEC_VEC : Fld := ⟨R.EVT_VEC, 0, 9⟩

/-- EVT_CHSTAT (R352, 13). -/
def R.EVT_CHSTAT : Reg :=
  { id := 159, addr := 0x30008, bytes := 4, scope := .cd, si := 0x10, ni := 64, w1c := 0x3, rc := 0xFFFF0000 }
def F.EVT_CHSTAT_STORM : Fld := ⟨R.EVT_CHSTAT, 0, 1⟩
def F.EVT_CHSTAT_COINC : Fld := ⟨R.EVT_CHSTAT, 1, 1⟩
def F.EVT_CHSTAT_RTRG_DROP : Fld := ⟨R.EVT_CHSTAT, 16, 16⟩

/-- EVT_FLAG (R352, 13). -/
def R.EVT_FLAG : Reg :=
  { id := 160, addr := 0x30400, bytes := 8, scope := .cd, w1c := 0xFFFFFFFFFFFFFFFF }
def F.EVT_FLAG_FLAG : Fld := ⟨R.EVT_FLAG, 0, 64⟩

/-- EVT_RAISE (R352, 13). -/
def R.EVT_RAISE : Reg :=
  { id := 161, addr := 0x30408, bytes := 4, scope := .cd, wo := 0x3F }
def F.EVT_RAISE_CH : Fld := ⟨R.EVT_RAISE, 0, 6⟩

/-- EVT_GRP (R352, 13). -/
def R.EVT_GRP : Reg :=
  { id := 162, addr := 0x3040C, bytes := 4, scope := .cd, rw := 0xFF, rst := fun _ _ => 0xFF }
def F.EVT_GRP_EN : Fld := ⟨R.EVT_GRP, 0, 8⟩

/-- EVT_STAT (R352, 13). -/
def R.EVT_STAT : Reg :=
  { id := 163, addr := 0x30410, bytes := 4, scope := .cd, w1c := 0x1 }
def F.EVT_STAT_STORM : Fld := ⟨R.EVT_STAT, 0, 1⟩
def F.EVT_STAT_STORM_CH : Fld := ⟨R.EVT_STAT, 8, 6⟩

/-- EVT_GRPCTL (R352, 13). -/
def R.EVT_GRPCTL : Reg :=
  { id := 164, addr := 0x30420, bytes := 4, scope := .cd, si := 0x4, ni := 8, rw := 0x7F7F }
def F.EVT_GRPCTL_ON_CH : Fld := ⟨R.EVT_GRPCTL, 0, 6⟩
def F.EVT_GRPCTL_ON_EN : Fld := ⟨R.EVT_GRPCTL, 6, 1⟩
def F.EVT_GRPCTL_OFF_CH : Fld := ⟨R.EVT_GRPCTL, 8, 6⟩
def F.EVT_GRPCTL_OFF_EN : Fld := ⟨R.EVT_GRPCTL, 14, 1⟩

/-- EVT_PIN (R352, 13). -/
def R.EVT_PIN : Reg :=
  { id := 165, addr := 0x30440, bytes := 4, scope := .cd, si := 0x4, ni := 4, rw := 0x3 }
def F.EVT_PIN_MODE : Fld := ⟨R.EVT_PIN, 0, 2⟩
def F.EVT_PIN_LEVEL : Fld := ⟨R.EVT_PIN, 2, 1⟩

/-- EVT_OUT (R352, 13). -/
def R.EVT_OUT : Reg :=
  { id := 166, addr := 0x30450, bytes := 4, scope := .cd, si := 0x4, ni := 4, rw := 0xFF01, rst := fun _ _ => 0x200 }
def F.EVT_OUT_POL : Fld := ⟨R.EVT_OUT, 0, 1⟩
def F.EVT_OUT_WIDTH : Fld := ⟨R.EVT_OUT, 8, 8⟩

/-- EVT_CONS (R352, 13). -/
def R.EVT_CONS : Reg :=
  { id := 167, addr := 0x30500, bytes := 4, scope := .cd, si := 0x4, ni := 64, w1c := 0x10000, rc := 0xFFFF }
def F.EVT_CONS_MISS : Fld := ⟨R.EVT_CONS, 0, 16⟩
def F.EVT_CONS_COINC : Fld := ⟨R.EVT_CONS, 16, 1⟩
def F.EVT_CONS_BUSY : Fld := ⟨R.EVT_CONS, 17, 1⟩

/-- EVT_PERM_WATCH (R352, 13). -/
def R.EVT_PERM_WATCH : Reg :=
  { id := 168, addr := 0x30600, bytes := 8, scope := .cd, si := 0x10, ni := 16, rw := 0xFFFFFFFFFFFFFFFF }
def F.EVT_PERM_WATCH_VAL : Fld := ⟨R.EVT_PERM_WATCH, 0, 64⟩

/-- EVT_PERM_RAISE (R352, 13). -/
def R.EVT_PERM_RAISE : Reg :=
  { id := 169, addr := 0x30608, bytes := 8, scope := .cd, si := 0x10, ni := 16, rw := 0xFFFFFFFFFFFFFFFF }
def F.EVT_PERM_RAISE_VAL : Fld := ⟨R.EVT_PERM_RAISE, 0, 64⟩

/-- FLT_STAT (R352, 13). -/
def R.FLT_STAT : Reg :=
  { id := 170, addr := 0x20000, bytes := 8, scope := .cd, w1c := 0xFFFFFFFFFFFFFFFF }
def F.FLT_STAT_STAT : Fld := ⟨R.FLT_STAT, 0, 64⟩

/-- FLT_FIRST (R352, 13). -/
def R.FLT_FIRST : Reg :=
  { id := 171, addr := 0x20008, bytes := 4, scope := .cd, w1c := 0x100 }
def F.FLT_FIRST_SRC : Fld := ⟨R.FLT_FIRST, 0, 6⟩
def F.FLT_FIRST_VALID : Fld := ⟨R.FLT_FIRST, 8, 1⟩
def F.FLT_FIRST_OVF : Fld := ⟨R.FLT_FIRST, 9, 1⟩

/-- FLT_FIRST_TIME (R352, 13). -/
def R.FLT_FIRST_TIME : Reg :=
  { id := 172, addr := 0x20010, bytes := 12, scope := .cd }
def F.FLT_FIRST_TIME_VAL : Fld := ⟨R.FLT_FIRST_TIME, 0, 96⟩

/-- FLT_CFG (R352, 13). -/
def R.FLT_CFG : Reg :=
  { id := 173, addr := 0x20020, bytes := 4, scope := .cd, rw := 0x101FF }
def F.FLT_CFG_VEC : Fld := ⟨R.FLT_CFG, 0, 9⟩
def F.FLT_CFG_LOCK : Fld := ⟨R.FLT_CFG, 16, 1⟩

/-- FLT_SOFT (R352, 13). -/
def R.FLT_SOFT : Reg :=
  { id := 174, addr := 0x20024, bytes := 4, scope := .cd, w1s := 0xF }
def F.FLT_SOFT_RAISE : Fld := ⟨R.FLT_SOFT, 0, 4⟩

/-- FLT_CE_THR (R352, 13). -/
def R.FLT_CE_THR : Reg :=
  { id := 175, addr := 0x2002C, bytes := 4, scope := .cd, rw := 0xFFFFFFFF, rst := fun _ _ => 0x3E80010 }
def F.FLT_CE_THR_THR : Fld := ⟨R.FLT_CE_THR, 0, 16⟩
def F.FLT_CE_THR_WIN : Fld := ⟨R.FLT_CE_THR, 16, 16⟩

/-- FLT_FENCE_CTL (R352, 13). -/
def R.FLT_FENCE_CTL : Reg :=
  { id := 176, addr := 0x20040, bytes := 4, scope := .cd, rw := 0x3F7, w1s := 0x30000 }
def F.FLT_FENCE_CTL_REGION : Fld := ⟨R.FLT_FENCE_CTL, 0, 3⟩
def F.FLT_FENCE_CTL_INDEX : Fld := ⟨R.FLT_FENCE_CTL, 4, 6⟩
def F.FLT_FENCE_CTL_FENCE : Fld := ⟨R.FLT_FENCE_CTL, 16, 1⟩
def F.FLT_FENCE_CTL_UNFENCE : Fld := ⟨R.FLT_FENCE_CTL, 17, 1⟩

/-- FLT_FENCE_STAT (R352, 13). -/
def R.FLT_FENCE_STAT : Reg :=
  { id := 177, addr := 0x20044, bytes := 4, scope := .cd, w1c := 0x6 }
def F.FLT_FENCE_STAT_BUSY : Fld := ⟨R.FLT_FENCE_STAT, 0, 1⟩
def F.FLT_FENCE_STAT_REFUSED : Fld := ⟨R.FLT_FENCE_STAT, 1, 1⟩
def F.FLT_FENCE_STAT_RESUME_FAIL : Fld := ⟨R.FLT_FENCE_STAT, 2, 1⟩

/-- FLT_FENCED_PT (R352, 13). -/
def R.FLT_FENCED_PT : Reg :=
  { id := 178, addr := 0x20048, bytes := 4, scope := .cd }
def F.FLT_FENCED_PT_PART : Fld := ⟨R.FLT_FENCED_PT, 0, 16⟩
def F.FLT_FENCED_PT_TILE : Fld := ⟨R.FLT_FENCED_PT, 16, 16⟩

/-- FLT_FENCED_X (R352, 13). -/
def R.FLT_FENCED_X : Reg :=
  { id := 179, addr := 0x2004C, bytes := 4, scope := .cd, rst := fun _ _ => 0x3 }
def F.FLT_FENCED_X_SEQ : Fld := ⟨R.FLT_FENCED_X, 0, 2⟩
def F.FLT_FENCED_X_SP : Fld := ⟨R.FLT_FENCED_X, 2, 2⟩
def F.FLT_FENCED_X_RTU : Fld := ⟨R.FLT_FENCED_X, 4, 1⟩

/-- FLT_FENCED_LE (R352, 13). -/
def R.FLT_FENCED_LE : Reg :=
  { id := 180, addr := 0x20050, bytes := 4, scope := .cd, rst := fun _ _ => 0xFFFFFFFF }
def F.FLT_FENCED_LE_LE : Fld := ⟨R.FLT_FENCED_LE, 0, 32⟩

/-- FLT_FENCED_VF (R352, 13). -/
def R.FLT_FENCED_VF : Reg :=
  { id := 181, addr := 0x20058, bytes := 8, scope := .cd }
def F.FLT_FENCED_VF_VF : Fld := ⟨R.FLT_FENCED_VF, 1, 63⟩

/-- FLT_FRZ_CTL (R352, 13). -/
def R.FLT_FRZ_CTL : Reg :=
  { id := 182, addr := 0x20080, bytes := 4, scope := .cd, rw := 0x4, w1s := 0x2, rst := fun _ _ => 0x4 }
def F.FLT_FRZ_CTL_HOLD : Fld := ⟨R.FLT_FRZ_CTL, 0, 1⟩
def F.FLT_FRZ_CTL_SET : Fld := ⟨R.FLT_FRZ_CTL, 1, 1⟩
def F.FLT_FRZ_CTL_PIN_EN : Fld := ⟨R.FLT_FRZ_CTL, 2, 1⟩

/-- FLT_FRZ_STAT (R352, 13). -/
def R.FLT_FRZ_STAT : Reg :=
  { id := 183, addr := 0x20084, bytes := 4, scope := .cd, rc := 0xFFFF0000 }
def F.FLT_FRZ_STAT_SRC : Fld := ⟨R.FLT_FRZ_STAT, 0, 2⟩
def F.FLT_FRZ_STAT_COUNT : Fld := ⟨R.FLT_FRZ_STAT, 16, 16⟩

/-- FLT_FRZ_DUR (R352, 13). -/
def R.FLT_FRZ_DUR : Reg :=
  { id := 184, addr := 0x20088, bytes := 8, scope := .cd }
def F.FLT_FRZ_DUR_DUR : Fld := ⟨R.FLT_FRZ_DUR, 0, 64⟩

/-- FLT_REACT (R352, 13). -/
def R.FLT_REACT : Reg :=
  { id := 185, addr := 0x20100, bytes := 4, scope := .cd, si := 0x4, ni := 64, rwl := 0x1F, rst := fun i _ => BitVec.ofNat 96 (reactReset i) }
def F.FLT_REACT_INT : Fld := ⟨R.FLT_REACT, 0, 1⟩
def F.FLT_REACT_NMI : Fld := ⟨R.FLT_REACT, 1, 1⟩
def F.FLT_REACT_BRST : Fld := ⟨R.FLT_REACT, 2, 1⟩
def F.FLT_REACT_CRST : Fld := ⟨R.FLT_REACT, 3, 1⟩
def F.FLT_REACT_PIN : Fld := ⟨R.FLT_REACT, 4, 1⟩

/-- FLT_INFO (R352, 13). -/
def R.FLT_INFO : Reg :=
  { id := 186, addr := 0x20200, bytes := 4, scope := .cd, si := 0x4, ni := 64 }
def F.FLT_INFO_INFO : Fld := ⟨R.FLT_INFO, 0, 32⟩

/-- TL_FSUM (R352, 13). -/
def R.TL_FSUM : Reg :=
  { id := 187, addr := 0x400100, bytes := 4, scope := .cd, si := 0x40000, ni := 16, w1c := 0x7E }
def F.TL_FSUM_CHAN : Fld := ⟨R.TL_FSUM, 0, 1⟩
def F.TL_FSUM_CARAFE : Fld := ⟨R.TL_FSUM, 1, 1⟩
def F.TL_FSUM_BIAS : Fld := ⟨R.TL_FSUM, 2, 1⟩
def F.TL_FSUM_TIME : Fld := ⟨R.TL_FSUM, 3, 1⟩
def F.TL_FSUM_LINK : Fld := ⟨R.TL_FSUM, 4, 1⟩
def F.TL_FSUM_WDOG : Fld := ⟨R.TL_FSUM, 5, 1⟩
def F.TL_FSUM_NOHOLD : Fld := ⟨R.TL_FSUM, 6, 1⟩

/-- TL_FMASK (R352, 13). -/
def R.TL_FMASK : Reg :=
  { id := 188, addr := 0x400104, bytes := 4, scope := .cd, si := 0x40000, ni := 16, rw := 0xD, rst := fun _ _ => 0x7F }
def F.TL_FMASK_CHAN : Fld := ⟨R.TL_FMASK, 0, 1⟩
def F.TL_FMASK_BIAS : Fld := ⟨R.TL_FMASK, 2, 1⟩
def F.TL_FMASK_TIME : Fld := ⟨R.TL_FMASK, 3, 1⟩

/-- TL_FSTAT (R352, 13). -/
def R.TL_FSTAT : Reg :=
  { id := 189, addr := 0x400108, bytes := 4, scope := .cd, si := 0x40000, ni := 16, w1c := 0x4 }
def F.TL_FSTAT_FENCED : Fld := ⟨R.TL_FSTAT, 0, 1⟩
def F.TL_FSTAT_RESUMING : Fld := ⟨R.TL_FSTAT, 1, 1⟩
def F.TL_FSTAT_REINIT : Fld := ⟨R.TL_FSTAT, 2, 1⟩

/-- GLB_ID (R376, 14). -/
def R.GLB_ID : Reg :=
  { id := 190, addr := 0x0, bytes := 4, scope := .cd, rst := fun _ _ => 0xB05120 }
def F.GLB_ID_PART : Fld := ⟨R.GLB_ID, 0, 16⟩
def F.GLB_ID_STEP : Fld := ⟨R.GLB_ID, 16, 8⟩

/-- GLB_DEVID (R376, 14). -/
def R.GLB_DEVID : Reg :=
  { id := 191, addr := 0x8, bytes := 8, scope := .cd, rst := fun _ _ => Config.devId.zeroExtend 96 }
def F.GLB_DEVID_DEVID : Fld := ⟨R.GLB_DEVID, 0, 64⟩

/-- GLB_MODE (R376, 14). -/
def R.GLB_MODE : Reg :=
  { id := 192, addr := 0x10, bytes := 4, scope := .cd, rst := fun _ _ => 0x2 }
def F.GLB_MODE_MODE : Fld := ⟨R.GLB_MODE, 0, 3⟩

/-- GLB_BOOT_STAT (R376, 14). -/
def R.GLB_BOOT_STAT : Reg :=
  { id := 193, addr := 0x14, bytes := 4, scope := .cd, rst := fun _ _ => 0x2 }
def F.GLB_BOOT_STAT_READY : Fld := ⟨R.GLB_BOOT_STAT, 0, 1⟩
def F.GLB_BOOT_STAT_STEP : Fld := ⟨R.GLB_BOOT_STAT, 1, 3⟩
def F.GLB_BOOT_STAT_CODE : Fld := ⟨R.GLB_BOOT_STAT, 4, 4⟩
def F.GLB_BOOT_STAT_MS : Fld := ⟨R.GLB_BOOT_STAT, 16, 16⟩

/-- GLB_CTL (R376, 14). -/
def R.GLB_CTL : Reg :=
  { id := 194, addr := 0x18, bytes := 4, scope := .cd, w1s := 0x1 }
def F.GLB_CTL_CHIP_RST : Fld := ⟨R.GLB_CTL, 0, 1⟩

/-- GLB_PMODE (R376, 14). -/
def R.GLB_PMODE : Reg :=
  { id := 195, addr := 0x100, bytes := 4, scope := .cd, si := 0x4, ni := 16, rw := 0x70, w1c := 0x100, w1s := 0x80 }
def F.GLB_PMODE_MODE : Fld := ⟨R.GLB_PMODE, 0, 3⟩
def F.GLB_PMODE_REQ : Fld := ⟨R.GLB_PMODE, 4, 3⟩
def F.GLB_PMODE_GO : Fld := ⟨R.GLB_PMODE, 7, 1⟩
def F.GLB_PMODE_REFUSED : Fld := ⟨R.GLB_PMODE, 8, 1⟩

/-- GLB_MCMD_CTL (R376, 14). -/
def R.GLB_MCMD_CTL : Reg :=
  { id := 196, addr := 0x1000, bytes := 4, scope := .cd, si := 0x80, ni := 4, rw := 0x7FF0000, w1c := 0x4, w1s := 0x1 }
def F.GLB_MCMD_CTL_GO : Fld := ⟨R.GLB_MCMD_CTL, 0, 1⟩
def F.GLB_MCMD_CTL_BUSY : Fld := ⟨R.GLB_MCMD_CTL, 1, 1⟩
def F.GLB_MCMD_CTL_OVR : Fld := ⟨R.GLB_MCMD_CTL, 2, 1⟩
def F.GLB_MCMD_CTL_VEC : Fld := ⟨R.GLB_MCMD_CTL, 16, 11⟩

/-- GLB_MCMD_RES (R376, 14). -/
def R.GLB_MCMD_RES : Reg :=
  { id := 197, addr := 0x1004, bytes := 4, scope := .cd, si := 0x80, ni := 4 }
def F.GLB_MCMD_RES_RESULT : Fld := ⟨R.GLB_MCMD_RES, 0, 8⟩
def F.GLB_MCMD_RES_DATA : Fld := ⟨R.GLB_MCMD_RES, 16, 16⟩

/-- GLB_MCMD_ARG (R376, 14). -/
def R.GLB_MCMD_ARG : Reg :=
  { id := 198, addr := 0x1040, bytes := 4, scope := .cd, si := 0x80, ni := 4, sj := 0x4, nj := 16, rw := 0xFFFFFFFF }
def F.GLB_MCMD_ARG_VAL : Fld := ⟨R.GLB_MCMD_ARG, 0, 32⟩

/-- PWR_STAT (R376, 14). -/
def R.PWR_STAT : Reg :=
  { id := 199, addr := 0x10000, bytes := 4, scope := .cd, w1c := 0xC }
def F.PWR_STAT_ICAP : Fld := ⟨R.PWR_STAT, 0, 1⟩
def F.PWR_STAT_HCAP : Fld := ⟨R.PWR_STAT, 1, 1⟩
def F.PWR_STAT_CAP_NOGO : Fld := ⟨R.PWR_STAT, 2, 1⟩
def F.PWR_STAT_CFG_REFUSED : Fld := ⟨R.PWR_STAT, 3, 1⟩
def F.PWR_STAT_VHTR_LOW : Fld := ⟨R.PWR_STAT, 4, 1⟩

/-- PWR_VHTR_CFG (R376, 14). -/
def R.PWR_VHTR_CFG : Reg :=
  { id := 200, addr := 0x10004, bytes := 4, scope := .cd, rw := 0xFFFFFF01, rst := fun _ _ => 0xFFFF0800 }
def F.PWR_VHTR_CFG_MANUAL : Fld := ⟨R.PWR_VHTR_CFG, 0, 1⟩
def F.PWR_VHTR_CFG_MARGIN : Fld := ⟨R.PWR_VHTR_CFG, 8, 8⟩
def F.PWR_VHTR_CFG_TMASK : Fld := ⟨R.PWR_VHTR_CFG, 16, 16⟩

/-- PWR_VHTR_ILIM (R376, 14). -/
def R.PWR_VHTR_ILIM : Reg :=
  { id := 201, addr := 0x10008, bytes := 4, scope := .cd, rw := 0xFFFF, rst := fun _ _ => 0x4D8 }
def F.PWR_VHTR_ILIM_ILIM : Fld := ⟨R.PWR_VHTR_ILIM, 0, 16⟩

/-- PWR_HDISS_CAP (R376, 14). -/
def R.PWR_HDISS_CAP : Reg :=
  { id := 202, addr := 0x1000C, bytes := 4, scope := .cd, rw := 0xFF, rst := fun _ _ => 0x80 }
def F.PWR_HDISS_CAP_CAP : Fld := ⟨R.PWR_HDISS_CAP, 0, 8⟩

/-- PWR_VHTR_LOAD (R376, 14). -/
def R.PWR_VHTR_LOAD : Reg :=
  { id := 203, addr := 0x10010, bytes := 4, scope := .cd }
def F.PWR_VHTR_LOAD_ITOT : Fld := ⟨R.PWR_VHTR_LOAD, 0, 16⟩
def F.PWR_VHTR_LOAD_PH : Fld := ⟨R.PWR_VHTR_LOAD, 16, 16⟩

/-- PWR_CHARGE_BUDGET (R376, 14). -/
def R.PWR_CHARGE_BUDGET : Reg :=
  { id := 204, addr := 0x10100, bytes := 4, scope := .cd, si := 0x4, ni := 16, rw := 0xFFFFFF, rst := fun _ _ => 0x7D00 }
def F.PWR_CHARGE_BUDGET_BUDGET : Fld := ⟨R.PWR_CHARGE_BUDGET, 0, 24⟩

/-- THM_TD_CFG (R394, 15). -/
def R.THM_TD_CFG : Reg :=
  { id := 205, addr := 0x80000, bytes := 4, scope := .cd, si := 0x20, ni := 64, rw := 0xFFFFFFFF, rst := fun _ _ => 0x100014 }
def F.THM_TD_CFG_MODE : Fld := ⟨R.THM_TD_CFG, 0, 2⟩
def F.THM_TD_CFG_IEXC : Fld := ⟨R.THM_TD_CFG, 2, 2⟩
def F.THM_TD_CFG_AUTO_RS : Fld := ⟨R.THM_TD_CFG, 4, 1⟩
def F.THM_TD_CFG_TBL : Fld := ⟨R.THM_TD_CFG, 5, 2⟩
def F.THM_TD_CFG_TH_EN : Fld := ⟨R.THM_TD_CFG, 7, 1⟩
def F.THM_TD_CFG_ETA : Fld := ⟨R.THM_TD_CFG, 8, 13⟩
def F.THM_TD_CFG_RS : Fld := ⟨R.THM_TD_CFG, 21, 11⟩

/-- THM_TD_NBR (R394, 15). -/
def R.THM_TD_NBR : Reg :=
  { id := 206, addr := 0x80004, bytes := 4, scope := .cd, si := 0x20, ni := 64, rw := 0x7F7F7F7F }
def F.THM_TD_NBR_N0 : Fld := ⟨R.THM_TD_NBR, 0, 6⟩
def F.THM_TD_NBR_E0 : Fld := ⟨R.THM_TD_NBR, 6, 1⟩
def F.THM_TD_NBR_N1 : Fld := ⟨R.THM_TD_NBR, 8, 6⟩
def F.THM_TD_NBR_E1 : Fld := ⟨R.THM_TD_NBR, 14, 1⟩
def F.THM_TD_NBR_N2 : Fld := ⟨R.THM_TD_NBR, 16, 6⟩
def F.THM_TD_NBR_E2 : Fld := ⟨R.THM_TD_NBR, 22, 1⟩
def F.THM_TD_NBR_N3 : Fld := ⟨R.THM_TD_NBR, 24, 6⟩
def F.THM_TD_NBR_E3 : Fld := ⟨R.THM_TD_NBR, 30, 1⟩

/-- THM_TD_THR (R394, 15). -/
def R.THM_TD_THR : Reg :=
  { id := 207, addr := 0x80008, bytes := 4, scope := .cd, si := 0x20, ni := 64, rw := 0xFFFFFFFF }
def F.THM_TD_THR_WARN : Fld := ⟨R.THM_TD_THR, 0, 16⟩
def F.THM_TD_THR_CRIT : Fld := ⟨R.THM_TD_THR, 16, 16⟩

/-- THM_TD_VAL (R394, 15). -/
def R.THM_TD_VAL : Reg :=
  { id := 208, addr := 0x8000C, bytes := 4, scope := .cd, si := 0x20, ni := 64 }
def F.THM_TD_VAL_RAW : Fld := ⟨R.THM_TD_VAL, 0, 16⟩
def F.THM_TD_VAL_T : Fld := ⟨R.THM_TD_VAL, 16, 16⟩

/-- THM_TD_STAT (R394, 15). -/
def R.THM_TD_STAT : Reg :=
  { id := 209, addr := 0x80010, bytes := 4, scope := .cd, si := 0x20, ni := 64, rst := fun _ _ => 0x3 }
def F.THM_TD_STAT_STATE : Fld := ⟨R.THM_TD_STAT, 0, 2⟩
def F.THM_TD_STAT_STALE : Fld := ⟨R.THM_TD_STAT, 2, 1⟩
def F.THM_TD_STAT_SUB : Fld := ⟨R.THM_TD_STAT, 3, 1⟩
def F.THM_TD_STAT_GOOD : Fld := ⟨R.THM_TD_STAT, 4, 4⟩
def F.THM_TD_STAT_RSM : Fld := ⟨R.THM_TD_STAT, 16, 16⟩

/-- THM_IS_VAL (R394, 15). -/
def R.THM_IS_VAL : Reg :=
  { id := 210, addr := 0x80800, bytes := 4, scope := .cd, si := 0x8, ni := 8 }
def F.THM_IS_VAL_T : Fld := ⟨R.THM_IS_VAL, 0, 16⟩

/-- THM_IS_THR (R394, 15). -/
def R.THM_IS_THR : Reg :=
  { id := 211, addr := 0x80804, bytes := 4, scope := .cd, si := 0x8, ni := 7, rw := 0xFFFFFFFF, rst := fun _ _ => 0x6E00640 }
def F.THM_IS_THR_WARN : Fld := ⟨R.THM_IS_THR, 0, 16⟩
def F.THM_IS_THR_CRIT : Fld := ⟨R.THM_IS_THR, 16, 16⟩

/-- THM_CTL (R394, 15). -/
def R.THM_CTL : Reg :=
  { id := 212, addr := 0x80900, bytes := 4, scope := .cd, rw := 0xFFFFF, rst := fun _ _ => 0x82030 }
def F.THM_CTL_SUS_THR : Fld := ⟨R.THM_CTL, 0, 8⟩
def F.THM_CTL_AGREE : Fld := ⟨R.THM_CTL, 8, 8⟩
def F.THM_CTL_CLR_N : Fld := ⟨R.THM_CTL, 16, 4⟩

/-- THM_STAT (R394, 15). -/
def R.THM_STAT : Reg :=
  { id := 213, addr := 0x80904, bytes := 4, scope := .cd, w1c := 0x1 }
def F.THM_STAT_SUS_SEEN : Fld := ⟨R.THM_STAT, 0, 1⟩
def F.THM_STAT_FIRST_SUS : Fld := ⟨R.THM_STAT, 8, 6⟩

/-- THM_BOSC (R394, 15). -/
def R.THM_BOSC : Reg :=
  { id := 214, addr := 0x80908, bytes := 4, scope := .cd }
def F.THM_BOSC_ERR : Fld := ⟨R.THM_BOSC, 0, 16⟩
def F.THM_BOSC_VALID : Fld := ⟨R.THM_BOSC, 16, 1⟩

/-- THM_TBL_R (R394, 15). -/
def R.THM_TBL_R : Reg :=
  { id := 215, addr := 0x81000, bytes := 4, scope := .cd, si := 0x100, ni := 4, sj := 0x8, nj := 32, rw := 0xFFFFFFF }
def F.THM_TBL_R_R : Fld := ⟨R.THM_TBL_R, 0, 28⟩

/-- THM_TBL_T (R394, 15). -/
def R.THM_TBL_T : Reg :=
  { id := 216, addr := 0x81004, bytes := 4, scope := .cd, si := 0x100, ni := 4, sj := 0x8, nj := 32, rw := 0xFFFF }
def F.THM_TBL_T_T : Fld := ⟨R.THM_TBL_T, 0, 16⟩

/-- CAL_VREF (R394, 15). -/
def R.CAL_VREF : Reg :=
  { id := 217, addr := 0x90000, bytes := 4, scope := .cd, rw := 0x3FFFFF, rst := fun _ _ => 0x2625A0 }
def F.CAL_VREF_VREF : Fld := ⟨R.CAL_VREF, 0, 22⟩

/-- CAL_RSET (R394, 15). -/
def R.CAL_RSET : Reg :=
  { id := 218, addr := 0x90004, bytes := 4, scope := .cd, rw := 0xFFFFFF, rst := fun _ _ => 0x989680 }
def F.CAL_RSET_RSET : Fld := ⟨R.CAL_RSET, 0, 24⟩

/-- CAL_CMD (R394, 15). -/
def R.CAL_CMD : Reg :=
  { id := 219, addr := 0x90008, bytes := 4, scope := .cd, rw := 0xFF3, w1s := 0x10000 }
def F.CAL_CMD_OP : Fld := ⟨R.CAL_CMD, 0, 2⟩
def F.CAL_CMD_PART : Fld := ⟨R.CAL_CMD, 4, 4⟩
def F.CAL_CMD_TILE : Fld := ⟨R.CAL_CMD, 8, 4⟩
def F.CAL_CMD_GO : Fld := ⟨R.CAL_CMD, 16, 1⟩

/-- CAL_STAT (R394, 15). -/
def R.CAL_STAT : Reg :=
  { id := 220, addr := 0x9000C, bytes := 4, scope := .cd, w1c := 0x70, rst := fun _ _ => 0x1 }
def F.CAL_STAT_BUSY : Fld := ⟨R.CAL_STAT, 0, 1⟩
def F.CAL_STAT_RESULT : Fld := ⟨R.CAL_STAT, 1, 3⟩
def F.CAL_STAT_TRIM_REFUSED : Fld := ⟨R.CAL_STAT, 4, 1⟩
def F.CAL_STAT_CMD_REFUSED : Fld := ⟨R.CAL_STAT, 5, 1⟩
def F.CAL_STAT_CFG_REFUSED : Fld := ⟨R.CAL_STAT, 6, 1⟩
def F.CAL_STAT_SKIPPED : Fld := ⟨R.CAL_STAT, 16, 16⟩

/-- CAL_TWIN_ADDR (R394, 15). -/
def R.CAL_TWIN_ADDR : Reg :=
  { id := 221, addr := 0x90010, bytes := 4, scope := .cd, rw := 0x8003FFFC }
def F.CAL_TWIN_ADDR_WORD : Fld := ⟨R.CAL_TWIN_ADDR, 2, 16⟩
def F.CAL_TWIN_ADDR_INC : Fld := ⟨R.CAL_TWIN_ADDR, 31, 1⟩

/-- CAL_TWIN_DATA (R394, 15). -/
def R.CAL_TWIN_DATA : Reg :=
  { id := 222, addr := 0x90014, bytes := 4, scope := .cd, rw := 0xFFFFFFFF }
def F.CAL_TWIN_DATA_DATA : Fld := ⟨R.CAL_TWIN_DATA, 0, 32⟩

/-- CAL_TSTAT (R394, 15). -/
def R.CAL_TSTAT : Reg :=
  { id := 223, addr := 0x90100, bytes := 4, scope := .cd, si := 0x4, ni := 16, w1c := 0x2 }
def F.CAL_TSTAT_VALID : Fld := ⟨R.CAL_TSTAT, 0, 1⟩
def F.CAL_TSTAT_CAL_FAIL : Fld := ⟨R.CAL_TSTAT, 1, 1⟩
def F.CAL_TSTAT_TCAL : Fld := ⟨R.CAL_TSTAT, 16, 16⟩

/-- CAL_TTEMP (R394, 15). -/
def R.CAL_TTEMP : Reg :=
  { id := 224, addr := 0x90140, bytes := 4, scope := .cd, si := 0x4, ni := 16 }
def F.CAL_TTEMP_T : Fld := ⟨R.CAL_TTEMP, 0, 16⟩

/-- TST_STAT (R410, 16). -/
def R.TST_STAT : Reg :=
  { id := 225, addr := 0xA0000, bytes := 4, scope := .cd, w1c := 0x1 }
def F.TST_STAT_REFUSED : Fld := ⟨R.TST_STAT, 0, 1⟩
def F.TST_STAT_PCIE_ACTIVE : Fld := ⟨R.TST_STAT, 1, 1⟩

/-- TST_PCIE_TMO (R410, 16). -/
def R.TST_PCIE_TMO : Reg :=
  { id := 226, addr := 0xA0004, bytes := 4, scope := .cd, rw := 0xFFFF, rst := fun _ _ => 0x3E8 }
def F.TST_PCIE_TMO_MS : Fld := ⟨R.TST_PCIE_TMO, 0, 16⟩

/-- TST_UPAT (R410, 16). -/
def R.TST_UPAT : Reg :=
  { id := 227, addr := 0xA0008, bytes := 8, scope := .cd, rw := 0xFFFFFFFFFFFFFFFF }
def F.TST_UPAT_PAT : Fld := ⟨R.TST_UPAT, 0, 64⟩

/-- TST_UPLEN (R410, 16). -/
def R.TST_UPLEN : Reg :=
  { id := 228, addr := 0xA0010, bytes := 4, scope := .cd, rw := 0x3F, rst := fun _ _ => 0x3F }
def F.TST_UPLEN_LEN : Fld := ⟨R.TST_UPLEN, 0, 6⟩

/-- TST_DBG (R410, 16). -/
def R.TST_DBG : Reg :=
  { id := 229, addr := 0xA0020, bytes := 4, scope := .cd, w1s := 0x2 }
def F.TST_DBG_UNLOCKED : Fld := ⟨R.TST_DBG, 0, 1⟩
def F.TST_DBG_RELOCK : Fld := ⟨R.TST_DBG, 1, 1⟩
def F.TST_DBG_KEY : Fld := ⟨R.TST_DBG, 2, 1⟩
def F.TST_DBG_LOCKOUT : Fld := ⟨R.TST_DBG, 3, 1⟩
def F.TST_DBG_FAILS : Fld := ⟨R.TST_DBG, 4, 4⟩

/-- TST_LCFG (R410, 16). -/
def R.TST_LCFG : Reg :=
  { id := 230, addr := 0xA1000, bytes := 4, scope := .cd, si := 0x20, ni := 256, rw := 0x7FF, w1s := 0x1800 }
def F.TST_LCFG_PAT : Fld := ⟨R.TST_LCFG, 0, 3⟩
def F.TST_LCFG_INV : Fld := ⟨R.TST_LCFG, 3, 1⟩
def F.TST_LCFG_SQN : Fld := ⟨R.TST_LCFG, 4, 4⟩
def F.TST_LCFG_GEN_EN : Fld := ⟨R.TST_LCFG, 8, 1⟩
def F.TST_LCFG_CHK_EN : Fld := ⟨R.TST_LCFG, 9, 1⟩
def F.TST_LCFG_LPBK : Fld := ⟨R.TST_LCFG, 10, 1⟩
def F.TST_LCFG_INJ : Fld := ⟨R.TST_LCFG, 11, 1⟩
def F.TST_LCFG_CLR : Fld := ⟨R.TST_LCFG, 12, 1⟩

/-- TST_LSTAT (R410, 16). -/
def R.TST_LSTAT : Reg :=
  { id := 231, addr := 0xA1004, bytes := 4, scope := .cd, si := 0x20, ni := 256, w1c := 0x4, rc := 0xFFFF0000 }
def F.TST_LSTAT_CSTATE : Fld := ⟨R.TST_LSTAT, 0, 2⟩
def F.TST_LSTAT_LOST : Fld := ⟨R.TST_LSTAT, 2, 1⟩
def F.TST_LSTAT_LOSSES : Fld := ⟨R.TST_LSTAT, 16, 16⟩

/-- TST_LERR (R410, 16). -/
def R.TST_LERR : Reg :=
  { id := 232, addr := 0xA1008, bytes := 4, scope := .cd, si := 0x20, ni := 256 }
def F.TST_LERR_ERR : Fld := ⟨R.TST_LERR, 0, 32⟩

/-- TST_LBITS (R410, 16). -/
def R.TST_LBITS : Reg :=
  { id := 233, addr := 0xA1010, bytes := 8, scope := .cd, si := 0x20, ni := 256 }
def F.TST_LBITS_BITS : Fld := ⟨R.TST_LBITS, 0, 64⟩

/-- AO_CFG (R61, 02). -/
def R.AO_CFG : Reg :=
  { id := 234, addr := 0x410000, bytes := 4, scope := .tile, si := 0x40000, ni := 16, sj := 0x4, nj := 1280, rw := 0x3FFFFF, rst := fun _ _ => 0x640 }
def F.AO_CFG_MODE : Fld := ⟨R.AO_CFG, 0, 2⟩
def F.AO_CFG_RANGE : Fld := ⟨R.AO_CFG, 2, 1⟩
def F.AO_CFG_EN : Fld := ⟨R.AO_CFG, 3, 1⟩
def F.AO_CFG_CLOAD : Fld := ⟨R.AO_CFG, 4, 8⟩
def F.AO_CFG_ILIM : Fld := ⟨R.AO_CFG, 12, 2⟩
def F.AO_CFG_TOLSEL : Fld := ⟨R.AO_CFG, 14, 2⟩
def F.AO_CFG_PART : Fld := ⟨R.AO_CFG, 16, 4⟩
def F.AO_CFG_OWNED : Fld := ⟨R.AO_CFG, 20, 1⟩
def F.AO_CFG_OPENCHK : Fld := ⟨R.AO_CFG, 21, 1⟩

/-- AO_SHD (R61, 02). -/
def R.AO_SHD : Reg :=
  { id := 235, addr := 0x412000, bytes := 4, scope := .tile, si := 0x40000, ni := 16, sj := 0x4, nj := 1280 }
def F.AO_SHD_CODE : Fld := ⟨R.AO_SHD, 0, 16⟩
def F.AO_SHD_STAGED : Fld := ⟨R.AO_SHD, 16, 1⟩
def F.AO_SHD_STATE : Fld := ⟨R.AO_SHD, 17, 2⟩

/-- AO_ACT (R61, 02). -/
def R.AO_ACT : Reg :=
  { id := 236, addr := 0x414000, bytes := 4, scope := .tile, si := 0x40000, ni := 16, sj := 0x4, nj := 1280 }
def F.AO_ACT_CODE : Fld := ⟨R.AO_ACT, 0, 16⟩

/-- AO_DIR (R61, 02). -/
def R.AO_DIR : Reg :=
  { id := 237, addr := 0x416000, bytes := 4, scope := .tile, si := 0x40000, ni := 16, sj := 0x4, nj := 1280, wo := 0xFFFF }
def F.AO_DIR_CODE : Fld := ⟨R.AO_DIR, 0, 16⟩

/-- AO_RB (R61, 02). -/
def R.AO_RB : Reg :=
  { id := 238, addr := 0x418000, bytes := 4, scope := .tile, si := 0x40000, ni := 16, sj := 0x4, nj := 1280 }
def F.AO_RB_READING : Fld := ⟨R.AO_RB, 0, 16⟩
def F.AO_RB_VALID : Fld := ⟨R.AO_RB, 16, 1⟩
def F.AO_RB_FAILED : Fld := ⟨R.AO_RB, 17, 1⟩

/-- AO_STAT (R61, 02). -/
def R.AO_STAT : Reg :=
  { id := 239, addr := 0x41A000, bytes := 4, scope := .tile, si := 0x40000, ni := 16, sj := 0x4, nj := 1280, w1c := 0x3, rst := fun _ _ => 0x10 }
def F.AO_STAT_LIMIT : Fld := ⟨R.AO_STAT, 0, 1⟩
def F.AO_STAT_FAULT : Fld := ⟨R.AO_STAT, 1, 1⟩
def F.AO_STAT_CAUSE : Fld := ⟨R.AO_STAT, 2, 2⟩
def F.AO_STAT_PARKED : Fld := ⟨R.AO_STAT, 4, 1⟩
def F.AO_STAT_STAGED : Fld := ⟨R.AO_STAT, 5, 1⟩
def F.AO_STAT_FAILCNT : Fld := ⟨R.AO_STAT, 6, 3⟩
def F.AO_STAT_BLANKED : Fld := ⟨R.AO_STAT, 9, 1⟩

/-- AO_SUP_CTL (R61, 02). -/
def R.AO_SUP_CTL : Reg :=
  { id := 240, addr := 0x41C000, bytes := 4, scope := .tile, si := 0x40000, ni := 16, rw := 0xFF3F07, rst := fun _ _ => 0x540001 }
def F.AO_SUP_CTL_SUP_EN : Fld := ⟨R.AO_SUP_CTL, 0, 1⟩
def F.AO_SUP_CTL_FAST_SHARE : Fld := ⟨R.AO_SUP_CTL, 1, 2⟩
def F.AO_SUP_CTL_FAST_CNT : Fld := ⟨R.AO_SUP_CTL, 8, 6⟩
def F.AO_SUP_CTL_BLANK_V : Fld := ⟨R.AO_SUP_CTL, 16, 4⟩
def F.AO_SUP_CTL_BLANK_I : Fld := ⟨R.AO_SUP_CTL, 20, 4⟩

/-- AO_TILE_STAT (R61, 02). -/
def R.AO_TILE_STAT : Reg :=
  { id := 241, addr := 0x41C010, bytes := 4, scope := .tile, si := 0x40000, ni := 16, w1c := 0x7 }
def F.AO_TILE_STAT_CFG_ERR : Fld := ⟨R.AO_TILE_STAT, 0, 1⟩
def F.AO_TILE_STAT_OWN_ERR : Fld := ⟨R.AO_TILE_STAT, 1, 1⟩
def F.AO_TILE_STAT_DIR_REFUSED : Fld := ⟨R.AO_TILE_STAT, 2, 1⟩
def F.AO_TILE_STAT_FLT_CNT : Fld := ⟨R.AO_TILE_STAT, 16, 11⟩

/-- AO_TOL (R61, 02). -/
def R.AO_TOL : Reg :=
  { id := 242, addr := 0x41C020, bytes := 4, scope := .tile, si := 0x40000, ni := 16, sj := 0x4, nj := 4, rw := 0x3FFFFFF, rst := fun _ _ => 0x1050100 }
def F.AO_TOL_WIN : Fld := ⟨R.AO_TOL, 0, 16⟩
def F.AO_TOL_THR : Fld := ⟨R.AO_TOL, 16, 8⟩
def F.AO_TOL_CONFIRM : Fld := ⟨R.AO_TOL, 24, 2⟩

/-- AO_FAST (R61, 02). -/
def R.AO_FAST : Reg :=
  { id := 243, addr := 0x41C100, bytes := 4, scope := .tile, si := 0x40000, ni := 16, sj := 0x4, nj := 32, rw := 0x7FF }
def F.AO_FAST_CHAN : Fld := ⟨R.AO_FAST, 0, 11⟩

/-- AO_FLT_SUM (R61, 02). -/
def R.AO_FLT_SUM : Reg :=
  { id := 244, addr := 0x41E000, bytes := 4, scope := .tile, si := 0x40000, ni := 16, sj := 0x4, nj := 40 }
def F.AO_FLT_SUM_MAP : Fld := ⟨R.AO_FLT_SUM, 0, 32⟩

/-- AO_LIM_SUM (R61, 02). -/
def R.AO_LIM_SUM : Reg :=
  { id := 245, addr := 0x41E100, bytes := 4, scope := .tile, si := 0x40000, ni := 16, sj := 0x4, nj := 40 }
def F.AO_LIM_SUM_MAP : Fld := ⟨R.AO_LIM_SUM, 0, 32⟩

/-- CAR_ENTRY (R61, 02). -/
def R.CAR_ENTRY : Reg :=
  { id := 246, addr := 0x404000, bytes := 4, scope := .tile, si := 0x40000, ni := 16, sj := 0x4, nj := 1280 }
def F.CAR_ENTRY_PARK_CODE : Fld := ⟨R.CAR_ENTRY, 0, 16⟩
def F.CAR_ENTRY_MODE : Fld := ⟨R.CAR_ENTRY, 16, 2⟩
def F.CAR_ENTRY_RANGE : Fld := ⟨R.CAR_ENTRY, 18, 1⟩
def F.CAR_ENTRY_CE : Fld := ⟨R.CAR_ENTRY, 30, 1⟩
def F.CAR_ENTRY_UE : Fld := ⟨R.CAR_ENTRY, 31, 1⟩

/-- CAR_STAT (R61, 02). -/
def R.CAR_STAT : Reg :=
  { id := 247, addr := 0x407000, bytes := 4, scope := .tile, si := 0x40000, ni := 16, w1c := 0x4 }
def F.CAR_STAT_READY : Fld := ⟨R.CAR_STAT, 0, 1⟩
def F.CAR_STAT_BUSY : Fld := ⟨R.CAR_STAT, 1, 1⟩
def F.CAR_STAT_UE_SEEN : Fld := ⟨R.CAR_STAT, 2, 1⟩
def F.CAR_STAT_FIRST_UE : Fld := ⟨R.CAR_STAT, 16, 11⟩

/-- CAR_CE_CNT (R61, 02). -/
def R.CAR_CE_CNT : Reg :=
  { id := 248, addr := 0x407008, bytes := 4, scope := .tile, si := 0x40000, ni := 16, rc := 0xFFFF }
def F.CAR_CE_CNT_CNT : Fld := ⟨R.CAR_CE_CNT, 0, 16⟩

/-- CAR_UE_CNT (R61, 02). -/
def R.CAR_UE_CNT : Reg :=
  { id := 249, addr := 0x40700C, bytes := 4, scope := .tile, si := 0x40000, ni := 16, rc := 0xFFFF }
def F.CAR_UE_CNT_CNT : Fld := ⟨R.CAR_UE_CNT, 0, 16⟩

/-- MI_CFG (R80, 03). -/
def R.MI_CFG : Reg :=
  { id := 250, addr := 0x420000, bytes := 4, scope := .tile, si := 0x40000, ni := 16, sj := 0x4, nj := 1024, rw := 0x1F1FFF, rst := fun _ _ => 0x3 }
def F.MI_CFG_RANGE : Fld := ⟨R.MI_CFG, 0, 2⟩
def F.MI_CFG_AUTO : Fld := ⟨R.MI_CFG, 2, 1⟩
def F.MI_CFG_HOLD : Fld := ⟨R.MI_CFG, 3, 1⟩
def F.MI_CFG_SQSEL : Fld := ⟨R.MI_CFG, 4, 4⟩
def F.MI_CFG_SQEN : Fld := ⟨R.MI_CFG, 8, 1⟩
def F.MI_CFG_DECIM : Fld := ⟨R.MI_CFG, 9, 4⟩
def F.MI_CFG_PART : Fld := ⟨R.MI_CFG, 16, 4⟩
def F.MI_CFG_OWNED : Fld := ⟨R.MI_CFG, 20, 1⟩

/-- MI_LAST (R80, 03). -/
def R.MI_LAST : Reg :=
  { id := 251, addr := 0x421000, bytes := 4, scope := .tile, si := 0x40000, ni := 16, sj := 0x4, nj := 1024, rst := fun _ _ => 0x3000 }
def F.MI_LAST_SAMPLE : Fld := ⟨R.MI_LAST, 0, 12⟩
def F.MI_LAST_RANGE : Fld := ⟨R.MI_LAST, 12, 2⟩
def F.MI_LAST_FOCUS : Fld := ⟨R.MI_LAST, 14, 1⟩
def F.MI_LAST_SAT : Fld := ⟨R.MI_LAST, 15, 1⟩
def F.MI_LAST_RSETTLE : Fld := ⟨R.MI_LAST, 16, 1⟩
def F.MI_LAST_SEQ : Fld := ⟨R.MI_LAST, 17, 3⟩

/-- MI_BIAS (R80, 03). -/
def R.MI_BIAS : Reg :=
  { id := 252, addr := 0x422000, bytes := 4, scope := .tile, si := 0x40000, ni := 16, rw := 0xFF }
def F.MI_BIAS_CODE : Fld := ⟨R.MI_BIAS, 0, 8⟩
def F.MI_BIAS_IBIAS : Fld := ⟨R.MI_BIAS, 16, 8⟩

/-- MI_TILE_STAT (R80, 03). -/
def R.MI_TILE_STAT : Reg :=
  { id := 253, addr := 0x422010, bytes := 4, scope := .tile, si := 0x40000, ni := 16, w1c := 0x3B }
def F.MI_TILE_STAT_OWN_ERR : Fld := ⟨R.MI_TILE_STAT, 0, 1⟩
def F.MI_TILE_STAT_BIAS_OVL : Fld := ⟨R.MI_TILE_STAT, 1, 1⟩
def F.MI_TILE_STAT_BIAS_RAMP : Fld := ⟨R.MI_TILE_STAT, 2, 1⟩
def F.MI_TILE_STAT_FWD_DROP : Fld := ⟨R.MI_TILE_STAT, 3, 1⟩
def F.MI_TILE_STAT_SQ_RATE_DROP : Fld := ⟨R.MI_TILE_STAT, 4, 1⟩
def F.MI_TILE_STAT_FOCUS_OVF : Fld := ⟨R.MI_TILE_STAT, 5, 1⟩

/-- MI_FOCUS_CTL (R80, 03). -/
def R.MI_FOCUS_CTL : Reg :=
  { id := 254, addr := 0x422040, bytes := 4, scope := .tile, si := 0x40000, ni := 16, rw := 0xFFFFFFF, rst := fun _ _ => 0x200000 }
def F.MI_FOCUS_CTL_PEN : Fld := ⟨R.MI_FOCUS_CTL, 0, 16⟩
def F.MI_FOCUS_CTL_FLEN : Fld := ⟨R.MI_FOCUS_CTL, 16, 12⟩

/-- MI_SCAN_CTL (R80, 03). -/
def R.MI_SCAN_CTL : Reg :=
  { id := 255, addr := 0x422100, bytes := 4, scope := .tile, si := 0x40000, ni := 16, sj := 0x10, nj := 8, rw := 0xFFFFFFF3, rst := fun _ _ => 0x7F00 }
def F.MI_SCAN_CTL_MODE : Fld := ⟨R.MI_SCAN_CTL, 0, 2⟩
def F.MI_SCAN_CTL_TPART : Fld := ⟨R.MI_SCAN_CTL, 4, 4⟩
def F.MI_SCAN_CTL_LEN : Fld := ⟨R.MI_SCAN_CTL, 8, 8⟩
def F.MI_SCAN_CTL_DELAY : Fld := ⟨R.MI_SCAN_CTL, 16, 16⟩

/-- MI_SCAN_PER (R80, 03). -/
def R.MI_SCAN_PER : Reg :=
  { id := 256, addr := 0x422104, bytes := 4, scope := .tile, si := 0x40000, ni := 16, sj := 0x10, nj := 8, rw := 0xFFFFFFFF, rst := fun _ _ => 0x80 }
def F.MI_SCAN_PER_PERIOD : Fld := ⟨R.MI_SCAN_PER, 0, 32⟩

/-- MI_SCAN_STAT (R80, 03). -/
def R.MI_SCAN_STAT : Reg :=
  { id := 257, addr := 0x422108, bytes := 4, scope := .tile, si := 0x40000, ni := 16, sj := 0x10, nj := 8, rc := 0xFFF00000 }
def F.MI_SCAN_STAT_POS : Fld := ⟨R.MI_SCAN_STAT, 0, 8⟩
def F.MI_SCAN_STAT_SEQ : Fld := ⟨R.MI_SCAN_STAT, 8, 3⟩
def F.MI_SCAN_STAT_ACTIVE : Fld := ⟨R.MI_SCAN_STAT, 11, 1⟩
def F.MI_SCAN_STAT_FCNT : Fld := ⟨R.MI_SCAN_STAT, 12, 5⟩
def F.MI_SCAN_STAT_TRIG_MISS : Fld := ⟨R.MI_SCAN_STAT, 20, 6⟩
def F.MI_SCAN_STAT_FOCUS_OVF : Fld := ⟨R.MI_SCAN_STAT, 26, 6⟩

/-- MI_SCAN (R80, 03). -/
def R.MI_SCAN : Reg :=
  { id := 258, addr := 0x424000, bytes := 4, scope := .tile, si := 0x40000, ni := 16, sj := 0x4, nj := 2048, rw := 0xFF, rst := fun _ j => BitVec.ofNat 96 (j % 128) }
def F.MI_SCAN_I : Fld := ⟨R.MI_SCAN, 0, 7⟩
def F.MI_SCAN_IDLE : Fld := ⟨R.MI_SCAN, 7, 1⟩

/-- MI_FOC (R80, 03). -/
def R.MI_FOC : Reg :=
  { id := 259, addr := 0x426000, bytes := 4, scope := .tile, si := 0x40000, ni := 16, sj := 0x4, nj := 128 }
def F.MI_FOC_J : Fld := ⟨R.MI_FOC, 0, 10⟩
def F.MI_FOC_VALID : Fld := ⟨R.MI_FOC, 10, 1⟩
def F.MI_FOC_REMAIN : Fld := ⟨R.MI_FOC, 16, 12⟩

/-- LE_CTL (R113, 04). -/
def R.LE_CTL : Reg :=
  { id := 260, addr := 0x430000, bytes := 4, scope := .tile, si := 0x40000, ni := 16, rw := 0x3, rst := fun _ _ => 0x3 }
def F.LE_CTL_RUN : Fld := ⟨R.LE_CTL, 0, 1⟩
def F.LE_CTL_RAIL_FLT : Fld := ⟨R.LE_CTL, 1, 1⟩

/-- LE_BUDGET (R113, 04). -/
def R.LE_BUDGET : Reg :=
  { id := 261, addr := 0x430004, bytes := 4, scope := .tile, si := 0x40000, ni := 16, rst := fun _ _ => 0x730000 }
def F.LE_BUDGET_BUDGET : Fld := ⟨R.LE_BUDGET, 0, 24⟩

/-- LE_LOAD_CUR (R113, 04). -/
def R.LE_LOAD_CUR : Reg :=
  { id := 262, addr := 0x430008, bytes := 4, scope := .tile, si := 0x40000, ni := 16 }
def F.LE_LOAD_CUR_LOAD : Fld := ⟨R.LE_LOAD_CUR, 0, 24⟩

/-- LE_LOAD_PRO (R113, 04). -/
def R.LE_LOAD_PRO : Reg :=
  { id := 263, addr := 0x43000C, bytes := 4, scope := .tile, si := 0x40000, ni := 16 }
def F.LE_LOAD_PRO_LOAD : Fld := ⟨R.LE_LOAD_PRO, 0, 24⟩

/-- LE_FOCUS (R113, 04). -/
def R.LE_FOCUS : Reg :=
  { id := 264, addr := 0x430010, bytes := 4, scope := .tile, si := 0x40000, ni := 16, rw := 0xFFFF }
def F.LE_FOCUS_SLOTS : Fld := ⟨R.LE_FOCUS, 0, 8⟩
def F.LE_FOCUS_FCOST : Fld := ⟨R.LE_FOCUS, 8, 8⟩

/-- LE_FOCUS_STAT (R113, 04). -/
def R.LE_FOCUS_STAT : Reg :=
  { id := 265, addr := 0x430014, bytes := 4, scope := .tile, si := 0x40000, ni := 16, rc := 0xFFFF0000 }
def F.LE_FOCUS_STAT_USED : Fld := ⟨R.LE_FOCUS_STAT, 0, 8⟩
def F.LE_FOCUS_STAT_DENY : Fld := ⟨R.LE_FOCUS_STAT, 16, 16⟩

/-- LE_DITHER (R113, 04). -/
def R.LE_DITHER : Reg :=
  { id := 266, addr := 0x430018, bytes := 4, scope := .tile, si := 0x40000, ni := 16, rw := 0xFFFF, rst := fun _ _ => 0x80 }
def F.LE_DITHER_DCHIP : Fld := ⟨R.LE_DITHER, 0, 16⟩
def F.LE_DITHER_CHIP : Fld := ⟨R.LE_DITHER, 16, 7⟩

/-- LE_STAT (R113, 04). -/
def R.LE_STAT : Reg :=
  { id := 267, addr := 0x430020, bytes := 4, scope := .tile, si := 0x40000, ni := 16, w1c := 0x3F }
def F.LE_STAT_OVERCOMMIT : Fld := ⟨R.LE_STAT, 0, 1⟩
def F.LE_STAT_LAW_ERR : Fld := ⟨R.LE_STAT, 1, 1⟩
def F.LE_STAT_WR_REFUSED : Fld := ⟨R.LE_STAT, 2, 1⟩
def F.LE_STAT_TONE_CLASH : Fld := ⟨R.LE_STAT, 3, 1⟩
def F.LE_STAT_RESTART_REFUSED : Fld := ⟨R.LE_STAT, 4, 1⟩
def F.LE_STAT_RAIL : Fld := ⟨R.LE_STAT, 5, 1⟩

/-- LE_ERR_INFO (R113, 04). -/
def R.LE_ERR_INFO : Reg :=
  { id := 268, addr := 0x430024, bytes := 4, scope := .tile, si := 0x40000, ni := 16 }
def F.LE_ERR_INFO_K : Fld := ⟨R.LE_ERR_INFO, 0, 11⟩
def F.LE_ERR_INFO_BANK : Fld := ⟨R.LE_ERR_INFO, 11, 1⟩
def F.LE_ERR_INFO_SRC : Fld := ⟨R.LE_ERR_INFO, 12, 2⟩
def F.LE_ERR_INFO_CODE : Fld := ⟨R.LE_ERR_INFO, 16, 4⟩

/-- LE_OVC_LOAD (R113, 04). -/
def R.LE_OVC_LOAD : Reg :=
  { id := 269, addr := 0x430028, bytes := 4, scope := .tile, si := 0x40000, ni := 16 }
def F.LE_OVC_LOAD_LOAD : Fld := ⟨R.LE_OVC_LOAD, 0, 24⟩

/-- LE_CMD (R113, 04). -/
def R.LE_CMD : Reg :=
  { id := 270, addr := 0x430030, bytes := 4, scope := .tile, si := 0x40000, ni := 16, wo := 0x7FF000F }
def F.LE_CMD_OP : Fld := ⟨R.LE_CMD, 0, 4⟩
def F.LE_CMD_K : Fld := ⟨R.LE_CMD, 16, 11⟩

/-- LE_LOCK_SUM (R113, 04). -/
def R.LE_LOCK_SUM : Reg :=
  { id := 271, addr := 0x430100, bytes := 4, scope := .tile, si := 0x40000, ni := 16, sj := 0x4, nj := 40 }
def F.LE_LOCK_SUM_MAP : Fld := ⟨R.LE_LOCK_SUM, 0, 32⟩

/-- LE_RAIL_SUM (R113, 04). -/
def R.LE_RAIL_SUM : Reg :=
  { id := 272, addr := 0x430200, bytes := 4, scope := .tile, si := 0x40000, ni := 16, sj := 0x4, nj := 40 }
def F.LE_RAIL_SUM_MAP : Fld := ⟨R.LE_RAIL_SUM, 0, 32⟩

/-- LE_FAULT_SUM (R113, 04). -/
def R.LE_FAULT_SUM : Reg :=
  { id := 273, addr := 0x430300, bytes := 4, scope := .tile, si := 0x40000, ni := 16, sj := 0x4, nj := 40 }
def F.LE_FAULT_SUM_MAP : Fld := ⟨R.LE_FAULT_SUM, 0, 32⟩

/-- AO_QSUM (R153, 05). -/
def R.AO_QSUM : Reg :=
  { id := 274, addr := 0x41F000, bytes := 4, scope := .tile, si := 0x40000, ni := 16, sj := 0x4, nj := 16 }
def F.AO_QSUM_Q : Fld := ⟨R.AO_QSUM, 0, 24⟩

/-- AO_CMT_STAT (R153, 05). -/
def R.AO_CMT_STAT : Reg :=
  { id := 275, addr := 0x41F040, bytes := 4, scope := .tile, si := 0x40000, ni := 16, w1c := 0x70, rc := 0xFFFF0000 }
def F.AO_CMT_STAT_NSUB : Fld := ⟨R.AO_CMT_STAT, 0, 4⟩
def F.AO_CMT_STAT_NOGO : Fld := ⟨R.AO_CMT_STAT, 4, 1⟩
def F.AO_CMT_STAT_CANCELLED : Fld := ⟨R.AO_CMT_STAT, 5, 1⟩
def F.AO_CMT_STAT_MISS : Fld := ⟨R.AO_CMT_STAT, 6, 1⟩
def F.AO_CMT_STAT_STAGE_DROP : Fld := ⟨R.AO_CMT_STAT, 16, 16⟩

/-- AO_PC_STAT (R153, 05). -/
def R.AO_PC_STAT : Reg :=
  { id := 276, addr := 0x41F080, bytes := 4, scope := .tile, si := 0x40000, ni := 16, sj := 0x4, nj := 4, w1c := 0x2000000 }
def F.AO_PC_STAT_PLANS : Fld := ⟨R.AO_PC_STAT, 0, 7⟩
def F.AO_PC_STAT_WORDS : Fld := ⟨R.AO_PC_STAT, 8, 17⟩
def F.AO_PC_STAT_FULL : Fld := ⟨R.AO_PC_STAT, 25, 1⟩

/-- TL_TSTAT (R292, 11). -/
def R.TL_TSTAT : Reg :=
  { id := 277, addr := 0x400200, bytes := 4, scope := .tile, si := 0x40000, ni := 16, w1c := 0x2 }
def F.TL_TSTAT_VALID : Fld := ⟨R.TL_TSTAT, 0, 1⟩
def F.TL_TSTAT_TIME_ERR : Fld := ⟨R.TL_TSTAT, 1, 1⟩
def F.TL_TSTAT_ERR : Fld := ⟨R.TL_TSTAT, 16, 16⟩

/-- TST_STIM_CTL (R410, 16). -/
def R.TST_STIM_CTL : Reg :=
  { id := 278, addr := 0x408000, bytes := 4, scope := .tile, si := 0x40000, ni := 16, rw := 0xFFFFFF03, w1s := 0xC, rst := fun _ _ => 0x3F0A6400 }
def F.TST_STIM_CTL_WAVE : Fld := ⟨R.TST_STIM_CTL, 0, 2⟩
def F.TST_STIM_CTL_START : Fld := ⟨R.TST_STIM_CTL, 2, 1⟩
def F.TST_STIM_CTL_ABORT : Fld := ⟨R.TST_STIM_CTL, 3, 1⟩
def F.TST_STIM_CTL_HOLD : Fld := ⟨R.TST_STIM_CTL, 8, 8⟩
def F.TST_STIM_CTL_DELAY : Fld := ⟨R.TST_STIM_CTL, 16, 8⟩
def F.TST_STIM_CTL_NAVG : Fld := ⟨R.TST_STIM_CTL, 24, 8⟩

/-- TST_STIM_STAT (R410, 16). -/
def R.TST_STIM_STAT : Reg :=
  { id := 279, addr := 0x408004, bytes := 4, scope := .tile, si := 0x40000, ni := 16, w1c := 0x2 }
def F.TST_STIM_STAT_BUSY : Fld := ⟨R.TST_STIM_STAT, 0, 1⟩
def F.TST_STIM_STAT_DONE : Fld := ⟨R.TST_STIM_STAT, 1, 1⟩
def F.TST_STIM_STAT_RESULT : Fld := ⟨R.TST_STIM_STAT, 2, 2⟩

/-- TST_STIM_CYC (R410, 16). -/
def R.TST_STIM_CYC : Reg :=
  { id := 280, addr := 0x408008, bytes := 4, scope := .tile, si := 0x40000, ni := 16, rw := 0xFFFF, rst := fun _ _ => 0x10 }
def F.TST_STIM_CYC_NCYC : Fld := ⟨R.TST_STIM_CYC, 0, 16⟩

/-- TST_SE0 (R410, 16). -/
def R.TST_SE0 : Reg :=
  { id := 281, addr := 0x408100, bytes := 4, scope := .tile, si := 0x40000, ni := 16, sj := 0x8, nj := 32, rw := 0x87FF }
def F.TST_SE0_K : Fld := ⟨R.TST_SE0, 0, 11⟩
def F.TST_SE0_EN : Fld := ⟨R.TST_SE0, 15, 1⟩

/-- TST_SE1 (R410, 16). -/
def R.TST_SE1 : Reg :=
  { id := 282, addr := 0x408104, bytes := 4, scope := .tile, si := 0x40000, ni := 16, sj := 0x8, nj := 32, rw := 0xFFFFFFFF }
def F.TST_SE1_CODE_A : Fld := ⟨R.TST_SE1, 0, 16⟩
def F.TST_SE1_CODE_B : Fld := ⟨R.TST_SE1, 16, 16⟩

/-- TST_RE0 (R410, 16). -/
def R.TST_RE0 : Reg :=
  { id := 283, addr := 0x408200, bytes := 4, scope := .tile, si := 0x40000, ni := 16, sj := 0x10, nj := 32, rw := 0x7FF }
def F.TST_RE0_J : Fld := ⟨R.TST_RE0, 0, 10⟩
def F.TST_RE0_EN : Fld := ⟨R.TST_RE0, 10, 1⟩

/-- TST_RE1 (R410, 16). -/
def R.TST_RE1 : Reg :=
  { id := 284, addr := 0x408204, bytes := 4, scope := .tile, si := 0x40000, ni := 16, sj := 0x10, nj := 32, rw := 0xFFF0FFF }
def F.TST_RE1_LO : Fld := ⟨R.TST_RE1, 0, 12⟩
def F.TST_RE1_HI : Fld := ⟨R.TST_RE1, 16, 12⟩

/-- TST_RE2 (R410, 16). -/
def R.TST_RE2 : Reg :=
  { id := 285, addr := 0x408208, bytes := 4, scope := .tile, si := 0x40000, ni := 16, sj := 0x10, nj := 32, rw := 0xFFF0FFF }
def F.TST_RE2_LO : Fld := ⟨R.TST_RE2, 0, 12⟩
def F.TST_RE2_HI : Fld := ⟨R.TST_RE2, 16, 12⟩

/-- TST_RE3 (R410, 16). -/
def R.TST_RE3 : Reg :=
  { id := 286, addr := 0x40820C, bytes := 4, scope := .tile, si := 0x40000, ni := 16, sj := 0x10, nj := 32 }
def F.TST_RE3_MEAN_A : Fld := ⟨R.TST_RE3, 0, 12⟩
def F.TST_RE3_MEAN_B : Fld := ⟨R.TST_RE3, 16, 12⟩
def F.TST_RE3_PASS_A : Fld := ⟨R.TST_RE3, 28, 1⟩
def F.TST_RE3_PASS_B : Fld := ⟨R.TST_RE3, 29, 1⟩
def F.TST_RE3_DONE : Fld := ⟨R.TST_RE3, 30, 1⟩
def F.TST_RE3_NOSAMP : Fld := ⟨R.TST_RE3, 31, 1⟩

/-- TST_OS_CTL (R410, 16). -/
def R.TST_OS_CTL : Reg :=
  { id := 287, addr := 0x408400, bytes := 4, scope := .tile, si := 0x40000, ni := 16, rw := 0xFFFF00, w1s := 0x3, rst := fun _ _ => 0xA1400 }
def F.TST_OS_CTL_START : Fld := ⟨R.TST_OS_CTL, 0, 1⟩
def F.TST_OS_CTL_ABORT : Fld := ⟨R.TST_OS_CTL, 1, 1⟩
def F.TST_OS_CTL_KELV_MAX : Fld := ⟨R.TST_OS_CTL, 8, 8⟩
def F.TST_OS_CTL_RS_THR : Fld := ⟨R.TST_OS_CTL, 16, 8⟩

/-- TST_OS_STAT (R410, 16). -/
def R.TST_OS_STAT : Reg :=
  { id := 288, addr := 0x408404, bytes := 4, scope := .tile, si := 0x40000, ni := 16, w1c := 0x2 }
def F.TST_OS_STAT_BUSY : Fld := ⟨R.TST_OS_STAT, 0, 1⟩
def F.TST_OS_STAT_DONE : Fld := ⟨R.TST_OS_STAT, 1, 1⟩
def F.TST_OS_STAT_RESULT : Fld := ⟨R.TST_OS_STAT, 2, 2⟩
def F.TST_OS_STAT_NFAIL : Fld := ⟨R.TST_OS_STAT, 16, 13⟩

/-- TST_OS_MAP (R410, 16). -/
def R.TST_OS_MAP : Reg :=
  { id := 289, addr := 0x409000, bytes := 4, scope := .tile, si := 0x40000, ni := 16, sj := 0x4, nj := 400 }
def F.TST_OS_MAP_MAP : Fld := ⟨R.TST_OS_MAP, 0, 32⟩

/-- CAR_WR_CNT (R61, 02). -/
def R.CAR_WR_CNT : Reg :=
  { id := 290, addr := 0x407010, bytes := 4, scope := .aon, si := 0x40000, ni := 16 }
def F.CAR_WR_CNT_CNT : Fld := ⟨R.CAR_WR_CNT, 0, 32⟩

/-- FLT_RST_CAUSE (R352, 13). -/
def R.FLT_RST_CAUSE : Reg :=
  { id := 291, addr := 0x20028, bytes := 4, scope := .aon, w1c := 0x40 }
def F.FLT_RST_CAUSE_SRC : Fld := ⟨R.FLT_RST_CAUSE, 0, 6⟩
def F.FLT_RST_CAUSE_VALID : Fld := ⟨R.FLT_RST_CAUSE, 6, 1⟩

/-- PWR_SEQ_CFG (R376, 14). -/
def R.PWR_SEQ_CFG : Reg :=
  { id := 292, addr := 0x10020, bytes := 4, scope := .aon, rw := 0x1FF, rst := fun _ _ => 0x15C }
def F.PWR_SEQ_CFG_VHTR_INIT : Fld := ⟨R.PWR_SEQ_CFG, 0, 9⟩

/-- PWR_SEQ_STAT (R376, 14). -/
def R.PWR_SEQ_STAT : Reg :=
  { id := 293, addr := 0x10024, bytes := 4, scope := .aon, w1c := 0x10 }
def F.PWR_SEQ_STAT_FAIL_STEP : Fld := ⟨R.PWR_SEQ_STAT, 0, 4⟩
def F.PWR_SEQ_STAT_VALID : Fld := ⟨R.PWR_SEQ_STAT, 4, 1⟩

/-- PWR_VPIC_CFG (R376, 14). -/
def R.PWR_VPIC_CFG : Reg :=
  { id := 294, addr := 0x10030, bytes := 4, scope := .aon, si := 0x4, ni := 3, rw := 0xFFFFFFFF }
def F.PWR_VPIC_CFG_VSET : Fld := ⟨R.PWR_VPIC_CFG, 0, 8⟩
def F.PWR_VPIC_CFG_DELAY : Fld := ⟨R.PWR_VPIC_CFG, 8, 4⟩
def F.PWR_VPIC_CFG_ORDER : Fld := ⟨R.PWR_VPIC_CFG, 12, 2⟩
def F.PWR_VPIC_CFG_FOF : Fld := ⟨R.PWR_VPIC_CFG, 14, 1⟩
def F.PWR_VPIC_CFG_EN : Fld := ⟨R.PWR_VPIC_CFG, 15, 1⟩
def F.PWR_VPIC_CFG_PMASK : Fld := ⟨R.PWR_VPIC_CFG, 16, 16⟩

/-- DPC_CFG (R376, 14). -/
def R.DPC_CFG : Reg :=
  { id := 295, addr := 0x11000, bytes := 4, scope := .aon, si := 0x40, ni := 8, rw := 0x1, rst := fun i _ => BitVec.ofNat 96 ((if i < 5 then 1 else 0) + 2 * (Config.dpcPhases [] i).toNat) }
def F.DPC_CFG_EN : Fld := ⟨R.DPC_CFG, 0, 1⟩
def F.DPC_CFG_PHASES : Fld := ⟨R.DPC_CFG, 1, 3⟩

/-- DPC_VSET (R376, 14). -/
def R.DPC_VSET : Reg :=
  { id := 296, addr := 0x11004, bytes := 4, scope := .aon, si := 0x40, ni := 8, rw := 0xFFFF, rst := fun i _ => dpcSet i }
def F.DPC_VSET_VSET : Fld := ⟨R.DPC_VSET, 0, 16⟩

/-- DPC_STAT (R376, 14). -/
def R.DPC_STAT : Reg :=
  { id := 297, addr := 0x11008, bytes := 4, scope := .aon, si := 0x40, ni := 8, w1c := 0x1C }
def F.DPC_STAT_ON : Fld := ⟨R.DPC_STAT, 0, 1⟩
def F.DPC_STAT_PG : Fld := ⟨R.DPC_STAT, 1, 1⟩
def F.DPC_STAT_UV : Fld := ⟨R.DPC_STAT, 2, 1⟩
def F.DPC_STAT_OV : Fld := ⟨R.DPC_STAT, 3, 1⟩
def F.DPC_STAT_OC : Fld := ⟨R.DPC_STAT, 4, 1⟩

/-- DPC_MEAS (R376, 14). -/
def R.DPC_MEAS : Reg :=
  { id := 298, addr := 0x1100C, bytes := 4, scope := .aon, si := 0x40, ni := 8 }
def F.DPC_MEAS_V : Fld := ⟨R.DPC_MEAS, 0, 16⟩
def F.DPC_MEAS_I : Fld := ⟨R.DPC_MEAS, 16, 16⟩

/-- DPC_LIM (R376, 14). -/
def R.DPC_LIM : Reg :=
  { id := 299, addr := 0x11010, bytes := 4, scope := .aon, si := 0x40, ni := 8, rw := 0xFFFF, rst := fun i _ => (Config.dpcOcl [] i).zeroExtend 96 }
def F.DPC_LIM_OCL : Fld := ⟨R.DPC_LIM, 0, 16⟩

/-- THM_IS7_THR (R394, 15). -/
def R.THM_IS7_THR : Reg :=
  { id := 300, addr := 0x8083C, bytes := 4, scope := .aon, rw := 0xFFFFFFFF, rst := fun _ _ => 0x6E00640 }
def F.THM_IS7_THR_WARN : Fld := ⟨R.THM_IS7_THR, 0, 16⟩
def F.THM_IS7_THR_CRIT : Fld := ⟨R.THM_IS7_THR, 16, 16⟩

def regList0 : List Reg :=
  [R.MI_SQ_CTL, R.MI_SQ_WR, R.MI_SQ_RD, R.MI_SQ_STAT, R.MI_SQ_DROP, R.RTU_STAT, R.RTU_PCFG, R.RTU_PCTL, R.RTU_PSTAT, R.RTU_PLAN, R.RTU_LAST_CMT, R.RTU_COLL, R.RTU_ROT_CFG, R.RTU_ROT_CTL, R.RTU_ROT_STAT, R.RTU_ROT_CNT, R.RTU_ROT_SKIPCYC, R.RTU_ROT_CYC, R.RTU_ROT_LRN, R.RTU_ROT_LAM, R.RTU_ROT_LSTAT, R.RTU_ROT_BUF, R.SEQ_STAT, R.SEQ_DMWIN_ADDR, R.SEQ_DMWIN_DATA, R.SEQ_TRC_CTL, R.SEQ_TRC_WR, R.SEQ_THR_CTL, R.SEQ_THR_STAT, R.SEQ_THR_PC, R.SEQ_THR_CODE, R.SEQ_THR_MODE, R.SEQ_THR_NPC, R.SEQ_THR_NCODE, R.SEQ_THR_SWP, R.BRS_RQ_BASE, R.BRS_CQ_BASE, R.BRS_RING_CFG, R.BRS_RING_SIZE, R.BRS_RQ_PI]
def regList1 : List Reg :=
  [R.BRS_RQ_CI, R.BRS_CQ_PI, R.BRS_CQ_CI, R.BRS_RING_CTL, R.BRS_RING_STAT, R.BRS_RING_CNT, R.BRS_RING_CFG2, R.BRS_RING_FQ, R.BRS_QUANTUM, R.BRS_ETYPE, R.BRS_STAT, R.BRS_FRM_A, R.BRS_FRM_B, R.BRS_PORT_CFG, R.BRS_PORT_BUDGET, R.BRS_PORT_SLOT, R.BRS_PORT_STAT, R.BRS_PORT_Q, R.BRS_PORT_ADM, R.BRS_PORT_CNT, R.BRS_MP_CFG, R.BRS_MP_CIR, R.BRS_MP_PIR, R.BRS_MP_BKT, R.BRS_SP_CFG, R.BRS_SP_RATE, R.BRS_SVC_CFG, R.BRS_SVC_STAT, R.SEQ_LEASE_CFG, R.LE_LEASE_CFG, R.SEQ_LEASE_CTL, R.LE_LEASE_CTL, R.SEQ_LEASE_STAT, R.LE_LEASE_STAT, R.SEQ_CMP_CNT, R.LE_CMP_CNT, R.SEQ_COMPARES, R.LE_COMPARES, R.SEQ_MEMBER_CTL, R.LE_MEMBER_CTL]
def regList2 : List Reg :=
  [R.SEQ_MEMBER_STAT, R.LE_MEMBER_STAT, R.SEQ_HEALTH, R.LE_HEALTH, R.SEQ_PATCH, R.LE_PATCH, R.SEQ_PATCH_INFO, R.LE_PATCH_INFO, R.SEQ_DIGEST, R.LE_DIGEST, R.TB_CTL, R.TB_STAT, R.TB_INC, R.TB_NOW, R.TB_SET, R.TB_OFF, R.TB_AMRATE, R.TB_TPO_CTL, R.TB_TPO_STAT, R.TB_TPO_START, R.TB_TPO_PER, R.TB_TPO_WID, R.TB_TCI_CTL, R.TB_TCI_STAT, R.TB_TCI_TS, R.TB_SYNC_STAT, R.TB_SYNC_R, R.TB_SYNC_F, R.SP_CFG, R.SP_MAXFRM, R.SP_STAT, R.SP_MAC_LO, R.SP_MAC_HI, R.SP_MCAST, R.SP_TXASYM, R.SP_RXASYM, R.SP_TC_CTL, R.SP_TXR_BASE, R.SP_RXR_BASE, R.SP_FR_SIZE]
def regList3 : List Reg :=
  [R.SP_TXR_PI, R.SP_TXR_CI, R.SP_RXR_PI, R.SP_RXR_CI, R.SP_FR_CTL, R.SP_TSQ_STAT, R.SP_TSQ_TS, R.SP_RX_FRAMES, R.SP_RX_BAD, R.SP_RX_NOBUF, R.SP_FWD_DROP, R.SP_TX_FRAMES, R.LAT_STARVE, R.LAT_TMO, R.LAT_PRI, R.LAT_STAT, R.LAT_ERR_INFO, R.LAT_PCI_STAT, R.LAT_MBOX_PEND, R.LAT_MBOX_VEC, R.LAT_VF_RING, R.LAT_VF_VEC, R.LAT_VF_STAT, R.LAT_VF_MBIN, R.LAT_VF_MBOUT, R.LAT_VFR_ID, R.LAT_VFR_ID2, R.LAT_VFR_STAT, R.LAT_VFR_MBCTL, R.DMA_CH_DESC, R.DMA_CH_CTL, R.DMA_CH_CFG, R.DMA_CH_STAT, R.DMA_CH_NEXT, R.DMA_CH_CUR, R.DMA_CH_BYTES, R.DMA_STAT, R.EVT_CH, R.EVT_VEC, R.EVT_CHSTAT]
def regList4 : List Reg :=
  [R.EVT_FLAG, R.EVT_RAISE, R.EVT_GRP, R.EVT_STAT, R.EVT_GRPCTL, R.EVT_PIN, R.EVT_OUT, R.EVT_CONS, R.EVT_PERM_WATCH, R.EVT_PERM_RAISE, R.FLT_STAT, R.FLT_FIRST, R.FLT_FIRST_TIME, R.FLT_CFG, R.FLT_SOFT, R.FLT_CE_THR, R.FLT_FENCE_CTL, R.FLT_FENCE_STAT, R.FLT_FENCED_PT, R.FLT_FENCED_X, R.FLT_FENCED_LE, R.FLT_FENCED_VF, R.FLT_FRZ_CTL, R.FLT_FRZ_STAT, R.FLT_FRZ_DUR, R.FLT_REACT, R.FLT_INFO, R.TL_FSUM, R.TL_FMASK, R.TL_FSTAT, R.GLB_ID, R.GLB_DEVID, R.GLB_MODE, R.GLB_BOOT_STAT, R.GLB_CTL, R.GLB_PMODE, R.GLB_MCMD_CTL, R.GLB_MCMD_RES, R.GLB_MCMD_ARG, R.PWR_STAT]
def regList5 : List Reg :=
  [R.PWR_VHTR_CFG, R.PWR_VHTR_ILIM, R.PWR_HDISS_CAP, R.PWR_VHTR_LOAD, R.PWR_CHARGE_BUDGET, R.THM_TD_CFG, R.THM_TD_NBR, R.THM_TD_THR, R.THM_TD_VAL, R.THM_TD_STAT, R.THM_IS_VAL, R.THM_IS_THR, R.THM_CTL, R.THM_STAT, R.THM_BOSC, R.THM_TBL_R, R.THM_TBL_T, R.CAL_VREF, R.CAL_RSET, R.CAL_CMD, R.CAL_STAT, R.CAL_TWIN_ADDR, R.CAL_TWIN_DATA, R.CAL_TSTAT, R.CAL_TTEMP, R.TST_STAT, R.TST_PCIE_TMO, R.TST_UPAT, R.TST_UPLEN, R.TST_DBG, R.TST_LCFG, R.TST_LSTAT, R.TST_LERR, R.TST_LBITS, R.AO_CFG, R.AO_SHD, R.AO_ACT, R.AO_DIR, R.AO_RB, R.AO_STAT]
def regList6 : List Reg :=
  [R.AO_SUP_CTL, R.AO_TILE_STAT, R.AO_TOL, R.AO_FAST, R.AO_FLT_SUM, R.AO_LIM_SUM, R.CAR_ENTRY, R.CAR_STAT, R.CAR_CE_CNT, R.CAR_UE_CNT, R.MI_CFG, R.MI_LAST, R.MI_BIAS, R.MI_TILE_STAT, R.MI_FOCUS_CTL, R.MI_SCAN_CTL, R.MI_SCAN_PER, R.MI_SCAN_STAT, R.MI_SCAN, R.MI_FOC, R.LE_CTL, R.LE_BUDGET, R.LE_LOAD_CUR, R.LE_LOAD_PRO, R.LE_FOCUS, R.LE_FOCUS_STAT, R.LE_DITHER, R.LE_STAT, R.LE_ERR_INFO, R.LE_OVC_LOAD, R.LE_CMD, R.LE_LOCK_SUM, R.LE_RAIL_SUM, R.LE_FAULT_SUM, R.AO_QSUM, R.AO_CMT_STAT, R.AO_PC_STAT, R.TL_TSTAT, R.TST_STIM_CTL, R.TST_STIM_STAT]
def regList7 : List Reg :=
  [R.TST_STIM_CYC, R.TST_SE0, R.TST_SE1, R.TST_RE0, R.TST_RE1, R.TST_RE2, R.TST_RE3, R.TST_OS_CTL, R.TST_OS_STAT, R.TST_OS_MAP, R.CAR_WR_CNT, R.FLT_RST_CAUSE, R.PWR_SEQ_CFG, R.PWR_SEQ_STAT, R.PWR_VPIC_CFG, R.DPC_CFG, R.DPC_VSET, R.DPC_STAT, R.DPC_MEAS, R.DPC_LIM, R.THM_IS7_THR]

/-- Every register of the spec, in the order of the identifiers. -/
def regList : List Reg :=
  regList0 ++ regList1 ++ regList2 ++ regList3 ++ regList4 ++ regList5 ++ regList6 ++ regList7

end Sys2Proof.Machine
end

