-- ==== Sys2Proof/Machine/Ops.lean ====
section
/-! DEFINITION. The named operations over tables, registers and memories, the time bases as read, messages to the host, and the raise of a fault. -/

namespace Sys2Proof.Machine

/-- An outcome of a command. -/
abbrev Out := Host.Outcome State Fault Refusal

/-! ### Sparse tables -/

/-- The value under a key, or the default. -/
def Map.look {α : Type} (m : Map α) (k : Nat) (d : α) : α :=
  match m with
  | [] => d
  | (k', v) :: t => if k' = k then v else Map.look t k d

/-- The value under a key, if there is one. -/
def Map.find {α : Type} (m : Map α) (k : Nat) : Option α :=
  match m with
  | [] => none
  | (k', v) :: t => if k' = k then some v else Map.find t k

/-- Puts a value under a key. -/
def Map.ins {α : Type} (m : Map α) (k : Nat) (v : α) : Map α :=
  match m with
  | [] => [(k, v)]
  | (k', v') :: t =>
    if k < k' then (k, v) :: (k', v') :: t
    else if k = k' then (k, v) :: t
    else (k', v') :: Map.ins t k v

/-- Removes a key. -/
def Map.del {α : Type} (m : Map α) (k : Nat) : Map α :=
  m.filter (fun e => e.1 ≠ k)

/-- Applies a function to the value under a key. -/
def Map.upd {α : Type} (m : Map α) (k : Nat) (d : α) (f : α → α) : Map α :=
  Map.ins m k (f (Map.look m k d))

/-! ### Memories: cells in one canonical form, an unlisted byte reads 0 (log entry 1) -/

/-- The canonical form: addresses strictly rising, no cell equal to what an unlisted address reads as. -/
abbrev Memory.wf (m : List Host.Cell) : Prop :=
  m.Pairwise (fun a b => a.1 < b.1) ∧ ∀ c ∈ m, c.2 ≠ 0

/-- One byte. [DESIGN CHOICE: log 1] -/
def Memory.rd (m : List Host.Cell) (a : Nat) : Byte :=
  match m with
  | [] => 0
  | (k, v) :: t => if k = a then v else Memory.rd t a

/-- Puts a byte other than 0 into its place. -/
def Memory.ins (m : List Host.Cell) (a : Nat) (b : Byte) : List Host.Cell :=
  match m with
  | [] => [(a, b)]
  | (k, v) :: t =>
    if a < k then (a, b) :: (k, v) :: t
    else if a = k then (a, b) :: t
    else (k, v) :: Memory.ins t a b

/-- Writes one byte; writing 0 unlists the address. [DESIGN CHOICE: log 1] -/
def Memory.wr (m : List Host.Cell) (a : Nat) (b : Byte) : List Host.Cell :=
  if b = 0 then m.filter (fun c => c.1 ≠ a) else Memory.ins m a b

/-- Writes bytes from an address on. -/
def Memory.wrBytes (m : List Host.Cell) (a : Nat) (bs : List Byte) : List Host.Cell :=
  match bs with
  | [] => m
  | b :: t => Memory.wrBytes (Memory.wr m a b) (a + 1) t

/-- n bytes from an address on. -/
def Memory.rdBytes (m : List Host.Cell) (a n : Nat) : List Byte :=
  (List.range n).map (fun i => Memory.rd m (a + i))

/-- Bytes as one number, the lowest-addressed byte least significant (R4). -/
def leNat (bs : List Byte) : Nat :=
  match bs with
  | [] => 0
  | b :: t => b.toNat + 256 * leNat t

/-- A number as n bytes, least significant first (R4). -/
def leBytes (n v : Nat) : List Byte :=
  match n with
  | 0 => []
  | n + 1 => BitVec.ofNat 8 v :: leBytes n (v / 256)

def State.rdN (s : State) (a n : Nat) : Nat := leNat (Memory.rdBytes s.mem a n)
/-- The uncorrectable words left when n bytes from an address on have been written anew: a word written whole is good again. [DEDUCED: log 134] -/
def ueLeft (ws : List Nat) (a n : Nat) : List Nat := ws.filter (fun w => w < a || a + n < w + 8)
/-- [DEDUCED: log 134] -/
def State.wrN (s : State) (a n v : Nat) : State := { s with mem := Memory.wrBytes s.mem a (leBytes n v), ueWords := ueLeft s.ueWords a n }
def State.rdBs (s : State) (a n : Nat) : List Byte := Memory.rdBytes s.mem a n
/-- [DEDUCED: log 134] -/
def State.wrBs (s : State) (a : Nat) (bs : List Byte) : State := { s with mem := Memory.wrBytes s.mem a bs, ueWords := ueLeft s.ueWords a bs.length }

/-! Where the memories of the part stand in the one list of cells. BAR2 (R31) stands at its own offsets. -/

/-- [DESIGN CHOICE: log 1] -/
def progBase : Nat := 0
/-- [DESIGN CHOICE: log 1] -/
def mapBase : Nat := 0x1000000
def ctxABase : Nat := 0x2000000
def ctxSBase : Nat := 0x2400000
def repBase : Nat := 0x2800000
def sqBase : Nat := 0x3000000
/-- Data memory of partition p (R176). [DESIGN CHOICE: log 1] -/
def dmBase (p : Nat) : Nat := 0x100000000 + p * 0x40000
/-- Trace buffer of a member (R187). [DESIGN CHOICE: log 1] -/
def trcBase (m : Nat) : Nat := 0x200000000 + m * 0x10000
/-- Flash (R364). [DESIGN CHOICE: log 1] -/
def flashBase : Nat := 0x400000000
/-- Management memory (R19). [DESIGN CHOICE: log 1] -/
def mgmtBase : Nat := 0x500000000
/-- A tile's mirror of the state entries of the Map Store (R121), at the offsets of the Map Store. [DESIGN CHOICE: log 1] -/
def mirrorBase : Nat := 0x600000000

/-! ### Numbers -/

/-- A number of w bits in two's complement. -/
def toSigned (w v : Nat) : Int := if v % 2 ^ w < 2 ^ (w - 1) then ((v % 2 ^ w : Nat) : Int) else ((v % 2 ^ w : Nat) : Int) - 2 ^ w
/-- A whole number as w bits in two's complement. -/
def ofSigned (w : Nat) (i : Int) : Nat := (i % (2 ^ w : Int)).toNat
/-- A whole number brought between two bounds. -/
def clampI (lo hi i : Int) : Int := if i < lo then lo else if hi < i then hi else i
def b2n (b : Bool) : Nat := if b then 1 else 0
/-- Bits lo to lo + w - 1 of a number. -/
def bitsOf (v lo w : Nat) : Nat := v / 2 ^ lo % 2 ^ w
def bitOf (v i : Nat) : Bool := v / 2 ^ i % 2 = 1
def orBit (v i : Nat) : Nat := if bitOf v i then v else v + 2 ^ i
def clrBit (v i : Nat) : Nat := if bitOf v i then v - 2 ^ i else v
def setBitTo (v i : Nat) (b : Bool) : Nat := if b then orBit v i else clrBit v i
def absDiff (a b : Nat) : Nat := if a ≤ b then b - a else a - b
/-- The positions of the bits set below n. -/
def bitList (v n : Nat) : List Nat := (List.range n).filter (bitOf v)
/-- Applies a step for each element in turn. -/
def State.each {α : Type} (s : State) (l : List α) (f : State → α → State) : State := l.foldl f s
/-- Applies a step if a condition holds. -/
def State.when (s : State) (c : Bool) (f : State → State) : State := if c then f s else s

/-! ### Registers -/

/-- The key of an instance of a register. -/
def Reg.key (r : Reg) (i j : Nat) : Nat := (r.id * 16384 + i) * 4096 + j

/-- A register as it stands: its reset value until it is written. -/
def State.word (s : State) (r : Reg) (i : Nat := 0) (j : Nat := 0) : RWord := Map.look s.regs (r.key i j) (r.rst i j)
/-- What the hardware has done to a register in this cycle, nothing at first (R6). -/
def State.hwOf (s : State) (r : Reg) (i : Nat := 0) (j : Nat := 0) : HwUpd :=
  (Map.find s.hw (r.key i j)).getD { old := s.word r i j, mask := 0, set := 0 }
/-- The register before this cycle's hardware updates, as a software read returns it (R6). [DESIGN CHOICE: log 14] -/
def State.seen (s : State) (r : Reg) (i : Nat := 0) (j : Nat := 0) : RWord := (s.hwOf r i j).old
/-- What the blocks hold. -/
def State.held (s : State) : Held :=
  ⟨s.mem, s.af, s.mon, s.le, s.rtu, s.rot, s.seq, s.brs, s.twin, s.tm, s.dma, s.evt, s.flt, s.cal, s.tst⟩
/-- The registers before this cycle's hardware updates. -/
def State.regsBefore (s : State) : Map RWord := s.hw.foldl (fun m e => Map.ins m e.1 e.2.old) s.regs
/-- The part before this cycle's hardware updates, as a software read sees it (R6); before the first cycle has begun, as it stands. [DESIGN CHOICE: log 14] -/
def State.before (s : State) : State :=
  let h := s.was.getD s.held
  { s with
    regs := s.regsBefore, hw := [], mem := h.mem, af := h.af, mon := h.mon, le := h.le, rtu := h.rtu, rot := h.rot, seq := h.seq
    brs := h.brs, twin := h.twin, tm := h.tm, dma := h.dma, evt := h.evt, flt := h.flt, cal := h.cal, tst := h.tst }
/-- A hardware update of the bits of a mask (R6): noted for the software accesses of the cycle. -/
def State.hwWord (s : State) (r : Reg) (w mask : RWord) (i : Nat := 0) (j : Nat := 0) : State :=
  let h := s.hwOf r i j
  { s with regs := Map.ins s.regs (r.key i j) w, hw := Map.ins s.hw (r.key i j) { h with mask := h.mask ||| mask, set := (h.set &&& ~~~mask) ||| (w &&& mask) } }
def State.setWord (s : State) (r : Reg) (w : RWord) (i : Nat := 0) (j : Nat := 0) : State := s.hwWord r w (BitVec.allOnes 96) i j
/-- A software write of a register (R6): the register as it then stands, and as it would stand without this cycle's hardware updates. -/
def State.swWord (s : State) (r : Reg) (w old : RWord) (i : Nat := 0) (j : Nat := 0) : State :=
  { s with
    regs := Map.ins s.regs (r.key i j) w
    hw := match Map.find s.hw (r.key i j) with
      | some h => Map.ins s.hw (r.key i j) { h with old := old }
      | none => s.hw }

/-! ### Latches of wide registers (R8, R269) -/

/-- The upper words that a read of word 0 latches for a master. -/
def latchKey (m key : Nat) : Nat := key * 16 + m
def State.setLatch (s : State) (m key : Nat) (v : RWord) : State := { s with latches := Map.ins s.latches (latchKey m key) v }
def dropLatch (m key : Nat) (s : State) : State := { s with latches := Map.del s.latches (latchKey m key) }

/-- A master writes a register of more than one word: its latch is released (R8). -/
def State.wideWritten (s : State) (m : Nat) (r : Reg) (i : Nat := 0) (j : Nat := 0) : State := dropLatch m (r.key i j) s

/-! ### Fields -/

/-- The mask of w bits from bit lo on. -/
def fieldMask (lo w : Nat) : RWord := (BitVec.ofNat 96 (2 ^ w - 1)) <<< lo
def getField (x : RWord) (lo w : Nat) : Nat := (x >>> lo).toNat % 2 ^ w
def setField (x : RWord) (lo w v : Nat) : RWord :=
  (x &&& ~~~ fieldMask lo w) ||| (BitVec.ofNat 96 (v % 2 ^ w) <<< lo)

/-- A field as a number. -/
def State.g (s : State) (f : Fld) (i : Nat := 0) (j : Nat := 0) : Nat := getField (s.word f.reg i j) f.lo f.wd
/-- A one-bit field. -/
def State.on (s : State) (f : Fld) (i : Nat := 0) (j : Nat := 0) : Bool := s.g f i j = 1
/-- Sets a field, keeping the register's other bits. -/
def State.put (s : State) (f : Fld) (v : Nat) (i : Nat := 0) (j : Nat := 0) : State :=
  s.hwWord f.reg (setField (s.word f.reg i j) f.lo f.wd v) (fieldMask f.lo f.wd) i j
/-- A software write of a field, over which a hardware update of its cycle stands (R6). [DESIGN CHOICE: log 14] -/
def State.sput (s : State) (f : Fld) (v : Nat) (i : Nat := 0) (j : Nat := 0) : State :=
  let h := s.hwOf f.reg i j
  let w := s.word f.reg i j
  s.swWord f.reg (if h.mask &&& fieldMask f.lo f.wd = 0 then setField w f.lo f.wd v else w) (setField h.old f.lo f.wd v) i j
/-- A software write of a field that stands over a hardware update of its cycle, where a rule says so. [DESIGN CHOICE: log 14] -/
def State.over (s : State) (f : Fld) (v : Nat) (i : Nat := 0) (j : Nat := 0) : State :=
  s.swWord f.reg (setField (s.word f.reg i j) f.lo f.wd v) (setField (s.seen f.reg i j) f.lo f.wd v) i j
/-- The hardware sets bits of a field, and no other bit of it counts as set (R6). -/
def State.setBits (s : State) (f : Fld) (v : Nat) (i : Nat := 0) (j : Nat := 0) : State :=
  let b := setField 0 f.lo f.wd v
  s.hwWord f.reg (s.word f.reg i j ||| b) b i j
/-- The hardware clears bits of a field. -/
def State.clrBits (s : State) (f : Fld) (v : Nat) (i : Nat := 0) (j : Nat := 0) : State :=
  let b := setField 0 f.lo f.wd v
  s.hwWord f.reg (s.word f.reg i j &&& ~~~b) b i j
/-- Software clears bits of a W1C field (R6): one that the hardware sets in the same cycle ends set. -/
def State.w1c (s : State) (f : Fld) (v : Nat := 1) (i : Nat := 0) (j : Nat := 0) : State :=
  let h := s.hwOf f.reg i j
  let bits := setField 0 f.lo f.wd v
  s.swWord f.reg (s.word f.reg i j &&& ~~~ (bits &&& ~~~ h.set)) (h.old &&& ~~~ bits) i j
def State.putB (s : State) (f : Fld) (b : Bool) (i : Nat := 0) (j : Nat := 0) : State := s.put f (b2n b) i j
/-- Adds to a counter field that saturates at all ones. -/
def State.sat (s : State) (f : Fld) (i : Nat := 0) (j : Nat := 0) (n : Nat := 1) : State :=
  s.put f (min (s.g f i j + n) (2 ^ f.wd - 1)) i j
/-- Adds to a counter field that wraps. -/
def State.inc (s : State) (f : Fld) (i : Nat := 0) (j : Nat := 0) (n : Nat := 1) : State :=
  s.put f (s.g f i j + n) i j
/-- A field of the tile register of a global actuator output a (R9). -/
def State.ga (s : State) (f : Fld) (a : Nat) : Nat := s.g f (a / 1280) (a % 1280)
def State.ona (s : State) (f : Fld) (a : Nat) : Bool := s.on f (a / 1280) (a % 1280)
def State.pa (s : State) (f : Fld) (v a : Nat) : State := s.put f v (a / 1280) (a % 1280)

/-- The tile of an actuator output, and its channel (R9). -/
def aoTile (a : Nat) : Nat := a / 1280
def aoChan (a : Nat) : Nat := a % 1280
/-- The tile of a monitor input, its place in the tile, and its converter (R9). -/
def miTile (m : Nat) : Nat := m / 1024
def miPos (m : Nat) : Nat := m % 1024
def miMadc (m : Nat) : Nat := m % 8

/-! ### The blocks' own state -/

def State.tl (s : State) (t : Nat) : TileSt := Map.look s.af.tiles t {}
def State.updTl (s : State) (t : Nat) (f : TileSt → TileSt) : State := { s with af.tiles := Map.upd s.af.tiles t {} f }
def State.aoSt (s : State) (a : Nat) : AoSt := Map.look s.af.aos a {}
def State.updAo (s : State) (a : Nat) (f : AoSt → AoSt) : State := { s with af.aos := Map.upd s.af.aos a {} f }
def State.tb (s : State) (b : Nat) : TbSt := Map.look s.tm.tbs b {}
def State.updTb (s : State) (b : Nat) (f : TbSt → TbSt) : State := { s with tm.tbs := Map.upd s.tm.tbs b {} f }
/-- What amortisation adds to each CORE cycle, in 2^-48 ns, rounded down. [DEDUCED: log 106] -/
def TbSt.extra (x : TbSt) : Nat :=
  match x.amort with
  | some a => if a.running then x.inc * a.rate / 1000000 else 0
  | none => 0

/-- The rate in force, amortisation included. [DEDUCED: log 106] -/
def TbSt.rate (x : TbSt) : Nat :=
  match x.amort with
  | some a => if a.left = 0 then x.inc else if a.left < 0 then x.inc - x.extra else x.inc + x.extra
  | none => x.inc
def State.fn (s : State) (f : Nat) : FnCfg := Map.look s.pci.fns f {}
def State.updFn (s : State) (f : Nat) (g : FnCfg → FnCfg) : State := { s with pci.fns := Map.upd s.pci.fns f {} g }

/-- A fresh free value: a constant nobody knows, and the counter moved on (log entry 6). [DESIGN CHOICE: log 6] -/
def State.fresh (s : State) : RWord := Config.freeValue s.freeCtr
/-- [DESIGN CHOICE: log 6] -/
def State.bump (s : State) : State := { s with freeCtr := s.freeCtr + 1 }

/-! ### Time (R268) -/

/-- One nanosecond, one microsecond and one second in the units of a time base, 2^-48 ns. -/
def nsU : Nat := 2 ^ 48
def usU : Nat := 1000 * 2 ^ 48
def secU : Nat := 10 ^ 9 * 2 ^ 48
/-- The seconds wrap from 2^48 - 1 to 0. -/
def tbWrap : Nat := 2 ^ 48 * secU
/-- A time in 2^-48 ns in the layout of R173, with its base number. -/
def tvOf (u b : Nat) : RWord :=
  BitVec.ofNat 96 (u / secU % 2 ^ 48 * 2 ^ 48 + u % secU / nsU * 2 ^ 18 + u % nsU / 2 ^ 32 * 4 + b % 4)
/-- The 2^-48 ns of a time value; seconds, nanoseconds and fraction of R173. -/
def tvUnits (v : RWord) : Nat :=
  getField v 48 48 * secU + getField v 18 30 * nsU + getField v 2 16 * 2 ^ 32
/-- A base as it stands, in 2^-48 ns, and as a time value. -/
def State.tbVal (s : State) (b : Nat) : Nat := (s.tb b).val
def State.tbNow (s : State) (b : Nat) : RWord := tvOf (s.tbVal b) b
/-- TB0 in whole nanoseconds. -/
def State.tb0ns (s : State) : Nat := s.tbVal 0 / nsU

/-- A tile's replica of TB0 (R274): it takes every change of TB0 at the same instant, and stands apart from it by what its last alignment left. [DESIGN CHOICE: log 9] -/
def State.rep (s : State) (t : Nat) : Rep := Map.look s.tm.reps t {}
/-- [DESIGN CHOICE: log 9] -/
def State.replicaU (s : State) (t : Nat) : Nat := ((s.tbVal 0 : Int) + (s.rep t).dev * 2 ^ 48 / 1000).toNat
/-- In whole nanoseconds. -/
def State.replica (s : State) (t : Nat) : Nat := s.replicaU t / nsU

/-! ### Messages to the host (R295, R301) -/

/-- A VF is fenced (R305, R343). -/
def State.vfFenced (s : State) (v : Nat) : Bool := v != 0 && bitOf (s.g F.FLT_FENCED_VF_VF) (v - 1)
/-- Upstream requests of a function are issued while Bus Master Enable is 1 and it is not in D3hot (R295); a fenced VF issues none (R305). -/
def State.mayPost (s : State) (f : Nat) : Bool := (s.fn f).bme && !(s.fn f).d3 && s.pci.linkUp && s.clk == .running && !s.vfFenced f

def State.postWrite (s : State) (f addr : Nat) (data : List Byte) : State :=
  if s.mayPost f then { s with hostOut := s.hostOut ++ [.write f addr data] }
  else { s with pci.held := s.pci.held ++ [.write f addr data] }

/-- Bytes from an address on, each at its address. -/
def atAddr (a : Nat) (bs : List Byte) : List (Nat × Byte) := (List.range bs.length).zipWith (fun i b => (a + i, b)) bs

/-- The run at an address with its bytes reversed and their number, and the bytes still to come, as runs of consecutive addresses of at most m bytes, none across a 4 KiB boundary. -/
def runsFrom (m a : Nat) (bs : List Byte) (n : Nat) (l : List (Nat × Byte)) : List (Nat × List Byte) :=
  match l with
  | [] => [(a, bs.reverse)]
  | (x, b) :: rest =>
    if x = a + n && n != m && x % 4096 != 0 then runsFrom m a (b :: bs) (n + 1) rest
    else (a, bs.reverse) :: runsFrom m x [b] 1 rest

/-- Bytes at addresses of the host's memory as requests of at most m bytes, counted from the first, none across a 4 KiB boundary (R225, R293, R317). [DEDUCED: log 232] -/
def hostRuns (m : Nat) (l : List (Nat × Byte)) : List (Nat × List Byte) :=
  match l with
  | [] => []
  | (x, b) :: rest => runsFrom m x [b] 1 rest

/-- Posted writes of bytes, split at Max_Payload_Size. [DEDUCED: log 232] -/
def State.postLong (s : State) (f a : Nat) (bs : List Byte) : State := (hostRuns (s.fn f).mps (atAddr a bs)).foldl (fun s r => s.postWrite f r.1 r.2) s

/-- Read requests of a function for some addresses, split at Max_Read_Request_Size. [DEDUCED: log 232] -/
def State.readReqs (s : State) (f : Nat) (l : List (Nat × Byte)) : State :=
  { s with hostOut := s.hostOut ++ (hostRuns (s.fn f).mrrs l).map (fun r => .read f r.1 r.2.length) }
/-- Of n bytes from an address on. -/
def State.readReq (s : State) (f a n : Nat) : State := s.readReqs f (atAddr a (List.replicate n 0))

/-- A target of the Lattice grants a master, whose head request waits no longer (R307 to R309). [DESIGN CHOICE: log 123] -/
def State.grant (s : State) (t m : Nat) : State :=
  { s with
    lat.last := Map.ins s.lat.last t (m :: (Map.look s.lat.last t []).filter (· != m))
    lat.since := Map.del s.lat.since (8 * t + m) }

/-- The vectors of a function (R300). -/
def State.vecCount (s : State) (f : Nat) : Nat := if f = 0 then 512 else s.g F.LAT_VF_VEC_COUNT f
def msixKey (f v : Nat) : Nat := f * 2048 + v
def State.msixEnt (s : State) (f v : Nat) : MsixEnt := Map.look s.pci.msix (msixKey f v) {}
/-- A message leaves at once only while MSI-X Enable and Bus Master Enable are 1 and neither mask is set (R301). -/
def State.msixOpen (s : State) (f v : Nat) : Bool :=
  s.mayPost f && (s.fn f).msixEn && !(s.fn f).fmask && !(s.msixEnt f v).mask

/-- A message for vector v of function f (R301): sent, kept as a pending bit, or out of range. -/
def State.msix (s : State) (f v : Nat) : State :=
  if s.vecCount f ≤ v then s.put F.LAT_STAT_VEC_BAD 1
  else if s.msixOpen f v then
    { s with hostOut := s.hostOut ++ [.msix f v (s.msixEnt f v).addr (s.msixEnt f v).data] }
  else { s with pci.pba := if s.pci.pba.contains (msixKey f v) then s.pci.pba else s.pci.pba ++ [msixKey f v] }

/-! ### Faults (R336 to R342) -/

def State.fltOn (s : State) (n : Nat) : Bool := bitOf (s.g F.FLT_STAT_STAT) n
/-- ERR_N is held low while a set source has its PIN reaction (R339), or CLK_LOSS holds it (R341). -/
def State.errN (s : State) : Bool :=
  s.clk != .off && ((List.range 64).any (fun n => s.fltOn n && s.on F.FLT_REACT_PIN n)
    || (s.flt.clkLoss.isSome && s.on F.FLT_REACT_PIN 35))

/-- The block reset of a source (R340): a fence and its resume, a RESTART, a CLEAR or a processor's reset, left for the step that takes it up. -/
def brstOf (n info : Nat) : List BlockReset :=
  if n ≤ 1 then [.member 0 n]
  else if n = 5 then [.member (1 + info % 16) (bitsOf info 4 1)]
  else if 8 ≤ n && n ≤ 23 then [.fence 1 (n - 8)]
  else if n = 26 then [.fence 6 0]
  else if n = 39 || n = 40 then [.fence 4 (n - 39)]
  else if n = 46 then [.dmaClear (info % 16)]
  else if n = 50 then [.mp (info % 4)]
  else []

/-- FLT_FIRST and FLT_FIRST_TIME (R337): of the sources of one cycle the lowest-numbered is kept. [DESIGN CHOICE: log 14] -/
def State.fltFirst (s : State) (n : Nat) : State :=
  if s.on F.FLT_FIRST_VALID then
    (s.put F.FLT_FIRST_OVF 1).when (s.flt.firstAt = s.cycle && n < s.g F.FLT_FIRST_SRC) (fun s => s.put F.FLT_FIRST_SRC n)
  else { (s.put F.FLT_FIRST_VALID 1).put F.FLT_FIRST_SRC n |>.put F.FLT_FIRST_TIME_VAL (s.tbNow 0).toNat with flt.firstAt := s.cycle }

/-- The reactions of a source whose bit has been set (R336, R338): interrupt, NMI, block reset, chip reset; ERR_N follows FLT_STAT. -/
def State.react (s : State) (n info : Nat) : State :=
  let s := s.when (s.on F.FLT_REACT_INT n) (fun s => s.msix 0 (s.g F.FLT_CFG_VEC))
  let s := s.when (s.on F.FLT_REACT_NMI n) (fun s => { s with flt.nmi := s.flt.nmi ++ [(n, info, s.tbNow 0)] })
  let s := s.when (s.on F.FLT_REACT_BRST n && hasBrst n) (fun s => { s with flt.brst := s.flt.brst ++ brstOf n info })
  s.when (s.on F.FLT_REACT_CRST n) (fun s =>
    { (s.put F.FLT_RST_CAUSE_SRC n |>.put F.FLT_RST_CAUSE_VALID 1) with flt.crst := true })

/-- The bit of a source is set, FLT_INFOn latched and the reactions launched (R336). -/
def State.launch (s : State) (n info : Nat) : State :=
  let w := s.word R.FLT_STAT
  let bit := BitVec.ofNat 96 (2 ^ n)
  ((s.hwWord R.FLT_STAT (w ||| bit) bit).put F.FLT_INFO_INFO info n |>.fltFirst n).react n info

/-- Source n is raised with its information (R336): launched, or inside its handling window lost, unless a clearing write in the same cycle finds it. The collector's clock is derived from the root: while that is lost nothing is raised (R25, R341). -/
def State.raise (s : State) (n : Nat) (info : Nat := 0) : State :=
  if s.clk = .lost then s
  else if s.fltOn n then { s with flt.again := s.flt.again.filter (fun e => e.2.1 = s.cycle && e.1 != n) ++ [(n, s.cycle, info)] }
  else s.launch n info

/-- An uncorrectable error of a function (R302): logged in its AER status, and raised. [DEDUCED: log 139] -/
def State.uncorr (s : State) (f : Nat) (e : PcieErr) : State :=
  (s.updFn f (fun c => { c with aer := if c.aer.contains e then c.aer else c.aer ++ [e] })).raise 42 f

/-- The severity of an error by default. [PRESUMED: log 239] -/
def fatalErr (e : PcieErr) : Bool := e == .dataLink || e == .overflow || e == .malformed
/-- The severity of an error at a function (R302). [PRESUMED: log 239] -/
def FnCfg.fatal (c : FnCfg) (e : PcieErr) : Bool := fatalErr e != c.aerSev.contains e

/-- A read that the 5120 issued fails (R302): a timeout and a poisoned completion are errors of the function that asked. [DEDUCED: log 139] -/
def State.readFails (s : State) (f : Nat) (e : HostErr) : State :=
  match e with
  | .timeout => s.uncorr f .timeout
  | .poisoned => s.uncorr f .poisoned
  | .ur | .ca => s

/-- A bit of a tile's fault summary, which the Control Die holds, is set; a change from 0 to 1 that TL_FMASK enables raises TILE_FAULT (R342). -/
def State.fsum (s : State) (t bit : Nat) : State :=
  let old := (s.word R.TL_FSUM t).toNat
  if bitOf old bit || s.clk = .lost then s
  else
    let s := s.hwWord R.TL_FSUM (BitVec.ofNat 96 (orBit old bit)) (BitVec.ofNat 96 (2 ^ bit)) t
    if bitOf (s.word R.TL_FMASK t).toNat bit then s.raise (8 + t) (orBit old bit) else s

/-- A producer makes an occurrence (R328); its channels see it at CHORD_OCCURRENCE. -/
def State.occur (s : State) (psel : Nat) : State := { s with evt.occ := s.evt.occ ++ [psel] }

/-- The device mode (GLB_MODE, R370). -/
def State.mode (s : State) : Nat := s.g F.GLB_MODE_MODE
/-- In PARK, TEST and SAFE threads are STOPPED and Barista completes arrivals FENCED; in PARK and SAFE the engines are clock-gated (R371, R372). [DEDUCED: log 175] -/
def State.quiet (s : State) : Bool := s.mode = 1 || s.mode = 4 || s.mode = 6
def State.engGated (s : State) : Bool := s.mode = 1 || s.mode = 6
/-- The mode of a partition (GLB_PMODEp.MODE, R374). -/
def State.pmode (s : State) (p : Nat) : Nat := s.g F.GLB_PMODE_MODE p
def State.partFenced (s : State) (p : Nat) : Bool := bitOf (s.g F.FLT_FENCED_PT_PART) p
/-- A tile is fenced by its fence unit, or by its own watchdog until the Control Die unfences it (R17). [DEDUCED: log 22] -/
def State.tileFenced (s : State) (t : Nat) : Bool := bitOf (s.g F.FLT_FENCED_PT_TILE) t || (s.tl t).wdog

/-- A register write of a root-clocked block takes place only while the clocks run (R25, R347). -/
def State.gated (s : State) (s' : State) : State := if s.clk = Clk.running then s' else s

end Sys2Proof.Machine
end

