-- ==== Sys2Proof/Machine/Ctx.lean ====
section
/-! DEFINITION. The loop context (R84): its fields in the memory window, which of them the engine writes (R86), the conditions of its states (R110), the loads (R106), the checks of a unit (R90) and how a unit is applied. -/

namespace Sys2Proof.Machine

/-- A field of a loop context: byte offset of its word, lowest bit, width (R84). -/
structure CFld where
  off : Nat
  lo : Nat
  wd : Nat

namespace C
def SP : CFld := ⟨0x00, 0, 24⟩
def LAW : CFld := ⟨0x04, 0, 3⟩
def SIGN : CFld := ⟨0x04, 3, 1⟩
def TSRC : CFld := ⟨0x04, 4, 1⟩
def FOK : CFld := ⟨0x04, 5, 1⟩
def CARRYI : CFld := ⟨0x04, 6, 1⟩
def HOLDREQ : CFld := ⟨0x04, 7, 1⟩
def MC : CFld := ⟨0x04, 8, 3⟩
def OUTSEL : CFld := ⟨0x04, 11, 1⟩
def LINKEN : CFld := ⟨0x04, 12, 1⟩
def MININT : CFld := ⟨0x04, 16, 16⟩
def MI1 : CFld := ⟨0x08, 0, 14⟩
def MI2 : CFld := ⟨0x08, 16, 14⟩
def LINKK : CFld := ⟨0x0C, 0, 11⟩
def KP : CFld := ⟨0x10, 0, 16⟩
def KPSH : CFld := ⟨0x10, 16, 5⟩
def KI : CFld := ⟨0x14, 0, 16⟩
def KISH : CFld := ⟨0x14, 16, 5⟩
def LO : CFld := ⟨0x18, 0, 16⟩
def HI : CFld := ⟨0x18, 16, 16⟩
def IMAX : CFld := ⟨0x1C, 0, 31⟩
def I : CFld := ⟨0x20, 0, 32⟩
def FF_BASE : CFld := ⟨0x24, 0, 16⟩
def KCOEF : CFld := ⟨0x24, 16, 16⟩
def KHOLD : CFld := ⟨0x28, 0, 8⟩
def KRSH : CFld := ⟨0x28, 8, 4⟩
def KICK0 : CFld := ⟨0x28, 16, 16⟩
def TREF : CFld := ⟨0x2C, 0, 16⟩
def KTH : CFld := ⟨0x2C, 16, 16⟩
def DTONE : CFld := ⟨0x30, 0, 6⟩
def DAMP : CFld := ⟨0x30, 8, 8⟩
def TDSEL : CFld := ⟨0x30, 16, 6⟩
def RTAO : CFld := ⟨0x34, 0, 15⟩
def RTEN : CFld := ⟨0x34, 15, 1⟩
def LTOL : CFld := ⟨0x38, 0, 16⟩
def LOCKN : CFld := ⟨0x38, 16, 8⟩
def RAILN : CFld := ⟨0x38, 24, 8⟩
def YMIN : CFld := ⟨0x3C, 0, 24⟩
def XTK (n : Nat) : CFld := ⟨0x40 + 4 * n, 0, 11⟩
def XTEN (n : Nat) : CFld := ⟨0x40 + 4 * n, 11, 1⟩
def XTC (n : Nat) : CFld := ⟨0x40 + 4 * n, 16, 16⟩
def ACC : CFld := ⟨0x60, 0, 32⟩
def ACCN : CFld := ⟨0x64, 0, 16⟩
def MCNT : CFld := ⟨0x64, 16, 10⟩
def FBOUT : CFld := ⟨0x68, 0, 16⟩
def UOUT : CFld := ⟨0x68, 16, 16⟩
def STATE : CFld := ⟨0x6C, 0, 3⟩
def RSIDE : CFld := ⟨0x6C, 3, 1⟩
def XREF : CFld := ⟨0x6C, 4, 1⟩
def LCNT : CFld := ⟨0x6C, 8, 8⟩
def RCNT : CFld := ⟨0x6C, 16, 8⟩
def UPDCNT : CFld := ⟨0x70, 0, 32⟩
def DARKCNT : CFld := ⟨0x74, 0, 16⟩
def FOCCNT : CFld := ⟨0x74, 16, 16⟩
def CAP_U : CFld := ⟨0x78, 0, 16⟩
def NLEFT : CFld := ⟨0x78, 16, 16⟩
def CAP_Y : CFld := ⟨0x7C, 0, 24⟩
end C

/-- Where a context stands in BAR2 (R31): bank 0 is A, bank 1 is S. -/
def ctxAddr (bank a : Nat) : Nat := (if bank = 0 then ctxABase else ctxSBase) + a * 128

/-- A field of a context, as a number and as a signed number. -/
def State.cg (s : State) (bank a : Nat) (f : CFld) : Nat := bitsOf (s.rdN (ctxAddr bank a + f.off) 4) f.lo f.wd
def State.cgS (s : State) (bank a : Nat) (f : CFld) : Int := toSigned f.wd (s.cg bank a f)
def State.con (s : State) (bank a : Nat) (f : CFld) : Bool := s.cg bank a f = 1
/-- Sets a field of a context, keeping the word's other bits. -/
def State.cp (s : State) (bank a : Nat) (f : CFld) (v : Nat) : State :=
  let w := s.rdN (ctxAddr bank a + f.off) 4
  s.wrN (ctxAddr bank a + f.off) 4 (w - bitsOf w f.lo f.wd * 2 ^ f.lo + v % 2 ^ f.wd * 2 ^ f.lo)
def State.cpS (s : State) (bank a : Nat) (f : CFld) (v : Int) : State := s.cp bank a f (ofSigned f.wd v)

/-- A converter of a tile. -/
def State.md (s : State) (t d : Nat) : MadcSt := Map.look s.mon.madcs (8 * t + d) {}
/-- The input stands on an active focus list. -/
def State.miFocused (s : State) (m : Nat) : Bool := (s.md (miTile m) (miMadc m)).active.any (fun e => e.j = miPos m)

def State.cs (s : State) (a : Nat) : CtxSt := Map.look s.le.ctx a {}
def State.updCs (s : State) (a : Nat) (f : CtxSt → CtxSt) : State := { s with le.ctx := Map.upd s.le.ctx a {} f }

/-- The bits of a byte of a context that only the engine writes (R86): KICK0, and the fields from 0x60 on but not the reserved bits between them (R84). -/
def engineBits (o : Nat) : Byte :=
  if o = 0x2A || o = 0x2B then 0xFF
  else if o < 0x60 || o = 0x6F || o = 0x7F then 0
  else if o = 0x67 then 0x03
  else if o = 0x6C then 0x1F
  else 0xFF

/-- The mode of a partition as the tiles see it: outside OPERATE every partition is taken as in HOLD (R2, R374, R395), but in FREEZE, which holds what the tiles do (R347), GLB_PMODE.MODE goes on to count. [DESIGN CHOICE: log 7] -/
def State.pm (s : State) (p : Nat) : Nat := if s.mode = 3 || s.mode = 5 then s.pmode p else 0

/-- The contexts of bank b that name channel k of tile t as their outer loop (R104), in ascending k. -/
def State.innersOf (s : State) (bank t k : Nat) : List Nat :=
  (List.range 1280).filter (fun i => s.con bank (t * 1280 + i) C.LINKEN && s.cg bank (t * 1280 + i) C.LINKK = k)

/-- The monitors a context references (R90). [DEDUCED: log 29] -/
def State.ctxMis (s : State) (bank a : Nat) : List Nat :=
  if s.cg bank a C.LAW = 0 then []
  else if s.cg bank a C.LAW = 2 then [s.cg bank a C.MI1, s.cg bank a C.MI2]
  else [s.cg bank a C.MI1]

/-- An input owned by a partition. -/
def State.miOwned (s : State) (m p : Nat) : Bool :=
  s.on F.MI_CFG_OWNED (miTile m) (miPos m) && s.g F.MI_CFG_PART (miTile m) (miPos m) = p

/-- XREF: a referenced monitor is not owned by the partition of the channel (R84). -/
def State.xref (s : State) (a : Nat) : Bool :=
  s.ona F.AO_CFG_OWNED a && (s.ctxMis 0 a).any (fun m => !s.miOwned m (s.ga F.AO_CFG_PART a))

/-- A context runs in SEEKING, LOCKED or RAILED (R83). -/
def State.ctxRunning (s : State) (a : Nat) : Bool :=
  let st := s.cg 0 a C.STATE
  s.ona F.AO_CFG_OWNED a && (st = 1 || st = 2 || st = 3)

/-- A cause of HELD stands (R110). -/
def State.heldCause (s : State) (a : Nat) : Bool :=
  let p := s.ga F.AO_CFG_PART a
  let law := s.cg 0 a C.LAW
  law = 0 || s.con 0 a C.HOLDREQ || !s.on F.LE_CTL_RUN (aoTile a) || s.pm p = 0 || !s.ona F.AO_CFG_OWNED a
    || s.ga F.AO_CFG_MODE a = 0 || !s.ona F.AO_CFG_EN a || (law = 5 && s.pm p != 3)
    || (law = 3 && !(s.innersOf 0 (aoTile a) (aoChan a)).any (fun k => s.ctxRunning (aoTile a * 1280 + k)))
    || s.xref a || (s.cs a).swept

/-- No member of the Loop Engine pair of a channel's tile holds the token: no field that the engine writes is written (R247, R257). [DESIGN CHOICE: log 244] -/
def State.leNone (s : State) (a : Nat) : Bool := s.g F.LE_LEASE_STAT_NOHOLDER (aoTile a) = 1

/-- The state of a context follows the causes of HELD (R110): FAULT stays, a cause gives HELD, its end gives SEEKING; the engine writes it, and XREF, while its pair has a holder (R247). [DESIGN CHOICE: log 244] -/
def State.ctxSettle (s : State) (a : Nat) : State :=
  let s := s.when (!s.leNone a) (fun s => s.cp 0 a C.XREF (b2n (s.xref a)))
  if s.cg 0 a C.STATE = 4 || s.leNone a then s
  else if s.heldCause a then s.cp 0 a C.STATE 0
  else if s.cg 0 a C.STATE = 0 then s.cp 0 a C.STATE 1
  else s

/-- The outer loop that the active context of a channel names (R104). -/
def State.outerOf (s : State) (a : Nat) : Option Nat :=
  if s.con 0 a C.LINKEN && s.cg 0 a C.LINKK < 1280 then some (aoTile a * 1280 + s.cg 0 a C.LINKK) else none
/-- An outer loop, if there is one, follows its causes of HELD. -/
def State.outerSettle (s : State) (o : Option Nat) : State :=
  match o with
  | some x => s.ctxSettle x
  | none => s

/-- The context of a channel and, after it, the outer loop it names. -/
def State.ctxRefresh (s : State) (a : Nat) : State :=
  let s := s.ctxSettle a
  s.outerSettle (s.outerOf a)

/-- A context enters FAULT (R110): FBOUT becomes 0; its outer loop follows. -/
def State.ctxFault (s : State) (a : Nat) : State :=
  let s := ((s.cp 0 a C.STATE 4).cp 0 a C.FBOUT 0).updCs a (fun c => { c with due := false, waiting := [] })
  s.outerSettle (s.outerOf a)

/-- The owned channels: OWNED resets to 0, so each has a listed AO_CFG. -/
def State.ownedAos (s : State) : List Nat :=
  s.regs.filterMap (fun e =>
    if e.1 / 67108864 = R.AO_CFG.id && getField e.2 20 1 = 1 then some (e.1 / 4096 % 16384 * 1280 + e.1 % 4096) else none)
/-- The channels owned by a partition, and those of a tile. -/
def State.ownedBy (s : State) (p : Nat) : List Nat := s.ownedAos.filter (fun a => s.ga F.AO_CFG_PART a = p)
def aosOfTile (t : Nat) : List Nat := (List.range 1280).map (fun k => t * 1280 + k)

def State.refreshPart (s : State) (p : Nat) : State := s.each (s.ownedBy p) State.ctxRefresh
def State.refreshTile (s : State) (t : Nat) : State := s.each (aosOfTile t) State.ctxRefresh
/-- Every context that references a monitor, in any tile, whose channel is owned. -/
def State.refreshMi (s : State) (m : Nat) : State :=
  s.each (s.ownedAos.filter (fun a => (s.ctxMis 0 a).contains m)) State.ctxRefresh

/-- The first uncorrectable word among n bytes from an address on. [DEDUCED: log 41] -/
def State.ueIn (s : State) (addr n : Nat) : Option Nat := s.ueWords.find? (fun w => addr / 8 * 8 ≤ w && w < addr + n)
/-- SRAM_UE with the store and the index of the 64-bit word (R340). [DEDUCED: log 41] -/
def State.sramUe (s : State) (store idx : Nat) : State := s.raise 24 (store + idx % 2 ^ 21 * 256)

/-! ### Cost and load (R98, R106, R108) -/

def State.learning (s : State) (p : Nat) : Bool := s.on F.RTU_ROT_LRN_LEN p

/-- The bank whose context counts for a channel: in the prospective load a staged context replaces the active one (R108). [DESIGN CHOICE: log 250] -/
def State.loadBank (s : State) (pro : Bool) (a : Nat) : Nat := if pro && (s.cs a).staged then 1 else 0

/-- The cost of one update of a channel's context in lane-cycles (R98), in the current or the prospective load, with learning enabled for the partitions that lrn names; its outer loop is the one that counts in the same load. -/
def State.ctxCost (s : State) (pro : Bool) (a : Nat) (lrn : Nat → Bool) : Nat :=
  let bank := s.loadBank pro a
  let law := s.cg bank a C.LAW
  let base := if law = 1 then 10 else if law = 2 then 16 else if law = 3 then 12 else if law = 4 then 3 else if law = 5 then 8 else 0
  if law = 5 || base = 0 then base
  else
    base + (if s.cg bank a C.KTH = 0 then 0 else 2)
      + ((List.range 8).filter (fun n => s.con bank a (C.XTEN n))).length
      + (if s.cg bank a C.DAMP = 0 then 0 else 1)
      + (if s.con bank a C.LINKEN && s.cg bank a C.LINKK < 1280
            && s.cg (s.loadBank pro (aoTile a * 1280 + s.cg bank a C.LINKK)) (aoTile a * 1280 + s.cg bank a C.LINKK) C.LAW = 3 then 2 else 0)
      + (if s.con bank a C.RTEN then 2 + (if lrn (s.ga F.AO_CFG_PART a) then 3 else 0) else 0)

def ceilDiv (n d : Nat) : Nat := if d = 0 then 0 else (n + d - 1) / d

/-- The outer ratio M (R84). -/
def State.outerM (s : State) (bank a : Nat) : Nat := 16 * 2 ^ s.cg bank a C.MC

/-- The charge of one context in 1/256 lane-cycle per us, rounded up (R106). An outer that two inner contexts name in one load is charged once, at the rate of the lowest channel. [DESIGN CHOICE: log 249] -/
def State.ctxCharge (s : State) (pro : Bool) (lrn : Nat → Bool) (a : Nat) : Nat :=
  let b := s.loadBank pro a
  let law := s.cg b a C.LAW
  if !s.ona F.AO_CFG_OWNED a || law = 0 then 0
  else
    let t := aoTile a
    let inner := (List.range 1280).find? (fun i =>
      let x := t * 1280 + i
      s.con (s.loadBank pro x) x C.LINKEN && s.cg (s.loadBank pro x) x C.LINKK = aoChan a)
    match inner with
    | some i =>
      let x := t * 1280 + i
      let bx := s.loadBank pro x
      ceilDiv (s.ctxCost pro a lrn * 64000) (s.cg bx x C.MININT * s.outerM bx x)
    | none => if law = 3 then 0 else ceilDiv (s.ctxCost pro a lrn * 64000) (s.cg b a C.MININT)

/-- The focus reserve in 1/256 lane-cycle per us; SLOTS above 128 acts as 128 (R106). -/
def focusReserve (slots fcost : Nat) : Nat := min slots 128 * fcost * 4000

/-- The load of a tile, current or prospective (R106, R108). -/
def State.loadWith (s : State) (pro : Bool) (t : Nat) (lrn : Nat → Bool) : Nat :=
  ((s.ownedAos.filter (fun a => aoTile a = t)).map (s.ctxCharge pro lrn)).sum + focusReserve (s.g F.LE_FOCUS_SLOTS t) (s.g F.LE_FOCUS_FCOST t)
def State.load (s : State) (pro : Bool) (t : Nat) : Nat := s.loadWith pro t s.learning
/-- The usable budget: 29,440 lane-cycles per us (R106). -/
def leBudget : Nat := 29440 * 256

/-! ### Units (R90, R105, R108, R109) -/

/-- Who writes a context; the numbers are those of LE_ERR_INFO.SRC. -/
def srcHost : Nat := 0
def srcStaging : Nat := 1
def srcLawSet : Nat := 2
def srcReg : Nat := 3

def State.leErr (s : State) (a bank src code : Nat) : State :=
  let t := aoTile a
  let s := if src = srcReg then s else (s.put F.LE_ERR_INFO_K (aoChan a) t).put F.LE_ERR_INFO_BANK bank t
  (s.put F.LE_ERR_INFO_SRC src t).put F.LE_ERR_INFO_CODE code t

/-- LE_OVERCOMMIT with the tile and LE_ERR_INFO[15:0] (R340). -/
def State.leOvercommit (s : State) (t load : Nat) : State :=
  ((s.put F.LE_STAT_OVERCOMMIT 1 t).put F.LE_OVC_LOAD_LOAD load t).raise 6 (t + (s.word R.LE_ERR_INFO t).toNat % 65536 * 65536)

/-- The check of R90 that a unit fails, as LE_ERR_INFO.CODE; s holds the unit as it would stand, law says whether it writes LAW. [DEDUCED: log 37; DESIGN CHOICE: log 215, 216] -/
def State.unitCheck (s : State) (bank a : Nat) (lawWritten : Bool) : Option Nat :=
  let law := s.cg bank a C.LAW
  let p := s.ga F.AO_CFG_PART a
  let t := aoTile a
  let k := s.cg bank a C.LINKK
  let outer := t * 1280 + k
  if law ≥ 6 || s.cg bank a C.MC = 7 then some 1
  else if law != 0 && s.cg bank a C.MININT < 16 then some 1
  else if s.ona F.AO_CFG_OWNED a && (s.ctxMis bank a).any (fun m =>
      s.on F.MI_CFG_OWNED (miTile m) (miPos m) && s.g F.MI_CFG_PART (miTile m) (miPos m) != p) then some 2
  else if s.con bank a C.LINKEN && (k ≥ 1280 || k = aoChan a || !s.ona F.AO_CFG_OWNED outer
      || s.ga F.AO_CFG_PART outer != p || s.con bank outer C.LINKEN
      || (s.innersOf bank t k).any (fun i => i != aoChan a) || law = 3) then some 3
  else if (List.range 8).any (fun n => s.con bank a (C.XTEN n) && s.cg bank a (C.XTK n) ≥ 1280) then some 1
  else if lawWritten && law = 5 && s.pm p != 3 then some 4
  else none

/-- A neighbour in the same bank has dither of the same tone (R105). -/
def State.toneClash (s : State) (bank a : Nat) : Bool :=
  s.cg bank a C.DAMP != 0 && (List.range 8).any (fun n =>
    let x := aoTile a * 1280 + s.cg bank a (C.XTK n)
    s.con bank a (C.XTEN n) && s.cg bank x C.DAMP != 0 && s.cg bank x C.DTONE = s.cg bank a C.DTONE)

/-- Writes bytes of one context; the bits that only the engine writes keep their value, and reserved bits are stored as written (R84, R86). -/
def State.ctxBytes (s : State) (bank a off : Nat) (bs : List Byte) : State :=
  match bs with
  | [] => s
  | b :: t =>
    State.ctxBytes (if 128 ≤ off then s
      else
        let k := ctxAddr bank a + off
        { s with mem := Memory.wr s.mem k ((Memory.rd s.mem k &&& engineBits off) ||| (b &&& ~~~engineBits off)) }) bank a (off + 1) t

/-- One unit (R90): the bytes of one context from one writer, checked and applied whole; true if it was applied. A bank S unit from staging or LAW.SET marks the context staged; any unit in bank A starts its sweep anew. [DEDUCED: log 37; DESIGN CHOICE: log 39, 216, 219, 243, 250] -/
def State.ctxUnit (s : State) (bank a off : Nat) (bs : List Byte) (src : Nat) (mark : Bool) : State × Bool :=
  let t := aoTile a
  let s1 := s.ctxBytes bank a off bs
  let s1 := if mark then s1.updCs a (fun c => { c with staged := true }) else s1
  match s1.unitCheck bank a (src != srcStaging && off ≤ 4 && 4 < off + bs.length) with
  | some code => ((s.leErr a bank src code).put F.LE_STAT_LAW_ERR 1 t, false)
  | none =>
    if s1.load false t > leBudget || s1.load true t > leBudget then
      ((s.leErr a bank src 0).leOvercommit t (max (s1.load false t) (s1.load true t)), false)
    else
      let s2 := if s1.toneClash bank a then (s1.leErr a bank src 5).put F.LE_STAT_TONE_CLASH 1 t else s1
      let s2 := if bank = 0 then (s2.updCs a (fun c => { c with swept := false, started := false, slot := c.slot && s2.miFocused (s2.cg 0 a C.MI1) })).ctxRefresh a |>.outerSettle (s.outerOf a) else s2
      (s2, true)

/-- The conditions under which a context leaves FAULT (R112). -/
def State.mayRestart (s : State) (a : Nat) : Bool :=
  s.ona F.AO_CFG_OWNED a && !s.ona F.AO_STAT_FAULT a && !s.tileFenced (aoTile a) && !s.partFenced (s.ga F.AO_CFG_PART a)

end Sys2Proof.Machine
end

