-- ==== Sys2Proof/Machine/TwinOps.lean ====
section
/-! DEFINITION. What other blocks need of the twin pairs (10): members and their states, the suspension of comparison, digests, a member going OFFLINE, and the retirement of a master's traffic (R311). -/

namespace Sys2Proof.Machine

/-- Retirement of a master's traffic begins (R311): its port takes nothing new until RETIRE_DONE. [DESIGN CHOICE: log 123] -/
def State.masterReset (s : State) (m : Nat) : State := s.put F.LAT_STAT_RETIRE (orBit (s.g F.LAT_STAT_RETIRE) m)

/-- GLB_BOOT_STAT.CODE records the first failure of a boot (R366). [DEDUCED: log 165] -/
def State.bootFail (s : State) (code : Nat) : State := if s.g F.GLB_BOOT_STAT_CODE = 0 then s.put F.GLB_BOOT_STAT_CODE code else s

/-- A fence is asked for (R343); it takes effect at FENCE_TAKE_EFFECT, and then its resume starts if the block reset has one (R344). A region already fenced stays as it is, and with a resume the resume starts. [DEDUCED: log 158] -/
def State.askFence (s : State) (region idx : Nat) (resume : Bool) : State :=
  { s with flt.fences := s.flt.fences ++ [⟨region, idx, resume⟩] }

/-! Twin pairs: the Sequencers' registers for pair 0, those of tile t for pair 1 + t (R267). -/

def State.pg (s : State) (fs fl : Fld) (x : Nat) : Nat := if x = 0 then s.g fs 0 else s.g fl (x - 1)
def State.pp (s : State) (fs fl : Fld) (v x : Nat) : State := if x = 0 then s.put fs v 0 else s.put fl v (x - 1)
def State.psat (s : State) (fs fl : Fld) (x : Nat) : State := if x = 0 then s.sat fs 0 else s.sat fl (x - 1)
def State.mg (s : State) (fs fl : Fld) (x m : Nat) : Nat := if x = 0 then s.g fs m else s.g fl (x - 1) m
def State.mp (s : State) (fs fl : Fld) (v x m : Nat) : State := if x = 0 then s.put fs v m else s.put fl v (x - 1) m

def State.noHolder (s : State) (x : Nat) : Bool := s.pg F.SEQ_LEASE_STAT_NOHOLDER F.LE_LEASE_STAT_NOHOLDER x = 1
def State.holder (s : State) (x : Nat) : Nat := s.pg F.SEQ_LEASE_STAT_HOLDER F.LE_LEASE_STAT_HOLDER x
/-- The member holds the token of its pair (R247). -/
def State.holds (s : State) (x m : Nat) : Bool := !s.noHolder x && s.holder x = m
def State.mstate (s : State) (x m : Nat) : Nat := s.mg F.SEQ_MEMBER_STAT_STATE F.LE_MEMBER_STAT_STATE x m
/-- A member's state; GOOD follows it (R258). -/
def State.setMstate (s : State) (x m v : Nat) : State :=
  let s := if s.mstate x m = v then s else s.mp F.SEQ_HEALTH_GOOD F.LE_HEALTH_GOOD (b2n (v = 4)) x m
  s.mp F.SEQ_MEMBER_STAT_STATE F.LE_MEMBER_STAT_STATE v x m
/-- A member's fence bit: FLT_FENCED_X.SEQ, FLT_FENCED_LE (R343). -/
def State.setMemberFenced (s : State) (x m : Nat) (b : Bool) : State :=
  if x = 0 then s.put F.FLT_FENCED_X_SEQ (setBitTo (s.g F.FLT_FENCED_X_SEQ) m b)
  else s.put F.FLT_FENCED_LE_LE (setBitTo (s.g F.FLT_FENCED_LE_LE) (2 * (x - 1) + m) b)
def State.memberFenced (s : State) (x m : Nat) : Bool :=
  if x = 0 then bitOf (s.g F.FLT_FENCED_X_SEQ) m else bitOf (s.g F.FLT_FENCED_LE_LE) (2 * (x - 1) + m)

def State.tw (s : State) (x : Nat) : TwinSt := Map.look s.twin x {}
def State.updTw (s : State) (x : Nat) (f : TwinSt → TwinSt) : State := { s with twin := Map.upd s.twin x {} f }
/-- The identity of the image in a member (R254); none with ROM alone. -/
def State.ident (s : State) (x m : Nat) : Option Nat := (Map.look (s.tw x).mems m {}).patch.map (fun p => p.ident)

/-- The reason for which comparison is suspended (R254): 1 no INSYNC standby, 2 patch levels differ, 3 CMP_EN = 0, 0 none. -/
def State.suspReason (s : State) (x : Nat) : Nat :=
  if s.noHolder x || s.mstate x (1 - s.holder x) != 4 || s.mstate x (s.holder x) != 4 then 1
  else if s.mg F.SEQ_PATCH_LEVEL F.LE_PATCH_LEVEL x 0 != s.mg F.SEQ_PATCH_LEVEL F.LE_PATCH_LEVEL x 1 || s.ident x 0 != s.ident x 1 then 2
  else if s.pg F.SEQ_LEASE_CFG_CMP_EN F.LE_LEASE_CFG_CMP_EN x = 0 then 3
  else 0

/-! ### The pair's own state -/


/-- SUSP follows its reasons; a digest that a suspension meets is not compared (R254). -/
def State.suspSync (s : State) (x : Nat) : State :=
  let r := s.suspReason x
  let s := s.pp F.SEQ_LEASE_STAT_SUSP F.LE_LEASE_STAT_SUSP r x
  if r = 0 then s else s.updTw x (fun w => { w with digs := w.digs.map (fun e => (e.1, { e.2 with live := false })) })

/-- The end of a requested MOVE, made or withdrawn (R250). -/
def State.moveEnd (s : State) (x : Nat) : State :=
  (s.pp F.SEQ_LEASE_STAT_MOVE_PEND F.LE_LEASE_STAT_MOVE_PEND 0 x).pp F.SEQ_LEASE_CTL_MOVE F.LE_LEASE_CTL_MOVE 0 x

/-- A member leaves INSYNC: a MOVE to it is withdrawn, a diagnostic ends, and so does what it may take back. [DEDUCED: log 95] -/
def State.leaveSync (s : State) (x m : Nat) : State :=
  if s.mstate x m != 4 then s
  else
    let s := if s.holds x m then s else s.moveEnd x
    let s := s.pp F.SEQ_LEASE_STAT_DIAG F.LE_LEASE_STAT_DIAG 0 x
    s.updTw x (fun w => { w with diag := none, back := if w.back = some m then none else w.back })

/-- A member enters a state other than INSYNC (R251); a Sequencer that goes OFFLINE has its traffic retired (R311). -/
def State.memberTo (s : State) (x m v : Nat) : State :=
  let s := s.leaveSync x m
  let s := if x = 0 && v ≤ 1 && 2 ≤ s.mstate x m then s.masterReset (2 + m) else s
  (s.setMstate x m v).suspSync x

/-! ### Resume sequences (R344) -/

/-- The commands of FLT_FENCE_CTL in progress; BUSY shows them. [DEDUCED: log 155] -/
def State.setCmds (s : State) (l : List (Nat × Nat × Bool)) : State :=
  { s with flt.cmds := l }.putB F.FLT_FENCE_STAT_BUSY (!l.isEmpty)
/-- [DEDUCED: log 155] -/
def State.endCmd (s : State) (region idx : Nat) (fence : Bool) : State := s.setCmds (s.flt.cmds.filter (fun c => c ≠ (region, idx, fence)))

def State.resuming (s : State) (region idx : Nat) : Bool := s.flt.resumes.contains (region, idx)

/-- A resume sequence ends, with or without success. -/
def State.endResume (s : State) (region idx : Nat) : State :=
  if !s.resuming region idx then s
  else
    let s := { s with flt.resumes := s.flt.resumes.erase (region, idx) }
    (s.when (region = 1) (fun s => s.put F.TL_FSTAT_RESUMING 0 idx)).endCmd region idx false

/-- A step of a resume fails (R344): RESUME_FAIL, and the region stays fenced. -/
def State.resumeFails (s : State) (region idx : Nat) : State :=
  if s.resuming region idx then (s.endResume region idx).put F.FLT_FENCE_STAT_RESUME_FAIL 1 else s

/-- The region and INDEX of a member (R343). -/
def memRegion (x : Nat) : Nat := if x = 0 then 2 else 3
def memIndex (x m : Nat) : Nat := if x = 0 then m else 2 * (x - 1) + m

/-- A member becomes OFFLINE, which fences it (R251, R343); a resume that has brought it so far has failed (R344). [DEDUCED: log 95, 156] -/
def State.memberOff (s : State) (x m : Nat) : State := ((s.memberTo x m 0).setMemberFenced x m true).resumeFails (memRegion x) (memIndex x m)

/-- A member is INSYNC and fenced no longer (R251): its resume has ended (R344). -/
def State.memberUp (s : State) (x m : Nat) : State := ((s.setMstate x m 4).setMemberFenced x m false).endResume (memRegion x) (memIndex x m)

/-- MC_CAUSE and MC_UADDR (R262). -/
def State.setCause (s : State) (x m cause : Nat) : State := s.mp F.SEQ_MEMBER_STAT_MC_CAUSE F.LE_MEMBER_STAT_MC_CAUSE cause x m
def State.setUaddr (s : State) (x m ua : Nat) : State := s.mp F.SEQ_MEMBER_STAT_MC_UADDR F.LE_MEMBER_STAT_MC_UADDR ua x m

/-- RESTART of a member (R251): a member that is OFFLINE or INSYNC without the token becomes OFFLINE and starts LOADING; the holder is refused. -/
def State.restartMember (s : State) (x m : Nat) : State :=
  if s.holds x m then s.pp F.SEQ_LEASE_STAT_RESTART_REFUSED F.LE_LEASE_STAT_RESTART_REFUSED 1 x
  else if s.mstate x m = 0 || s.mstate x m = 4 then (s.memberOff x m).memberTo x m 1
  else s

/-! ### Digests (R252, R253) -/

/-- One bit and one byte of the CRC-64 with polynomial 0x42F0E1EBA9EA3693, without reflection. -/
def crcBit (c : W64) : W64 := if c.msb then (c <<< 1) ^^^ 0x42F0E1EBA9EA3693 else c <<< 1
def crcByte (c : W64) (b : Byte) : W64 := (List.range 8).foldl (fun c _ => crcBit c) (c ^^^ (b.setWidth 64 <<< 56))
def crcBytes (c : W64) (bs : List Byte) : W64 := bs.foldl crcByte c
/-- The initial value of all ones. -/
def crcInit : W64 := BitVec.allOnes 64

/-- The gate passes an effect of the holder (R248): in beats of 16 bytes, each with the next effect number, which the members in step keep in their replay buffers. [DESIGN CHOICE: log 93] -/
def State.passBeats (s : State) (x k : Nat) (bs : List Byte) : State :=
  match k with
  | 0 => s
  | k + 1 =>
    let n := ((s.tw x).lastSeq + 1) % 2 ^ 32
    let keep (y : MemberSt) : MemberSt := { y with replay := (y.replay ++ [(n, bs.take 16)]).drop (y.replay.length - 255) }
    let s := s.updTw x (fun w => { w with lastSeq := n, mems := ([0, 1].filter (fun m => s.mstate x m = 4)).foldl (fun l m => Map.upd l m {} keep) w.mems })
    State.passBeats s x k (bs.drop 16)
/-- [DESIGN CHOICE: log 93] -/
def State.passEffect (s : State) (x : Nat) (bs : List Byte) : State := s.passBeats x ((bs.length + 15) / 16) bs

def State.dig (s : State) (x p : Nat) : Dig := Map.look (s.tw x).digs p ⟨crcInit, s.suspReason x = 0⟩
/-- An effect whose bytes join the digest of a partition, or of a Loop Engine pair, passes the gate. [DEDUCED: log 72] -/
def State.feed (s : State) (x p : Nat) (bs : List Byte) : State :=
  let s := s.passEffect x bs
  let d := s.dig x p
  s.updTw x (fun w => { w with digs := Map.ins w.digs p ⟨crcBytes d.crc bs, d.live⟩ })

/-- The standby may take the token back as the preferred member. [DEDUCED: log 99] -/
def State.mayTakeBack (s : State) (x m : Nat) : Bool :=
  s.pg F.SEQ_LEASE_CFG_AUTO_BACK F.LE_LEASE_CFG_AUTO_BACK x = 1 && s.pg F.SEQ_LEASE_CFG_PREF F.LE_LEASE_CFG_PREF x = m

/-- A planned transfer is wanted: a MOVE waits, or the standby has come into step and may take the token back (R250). [DEDUCED: log 99] -/
def State.moveWanted (s : State) (x : Nat) : Bool :=
  s.pg F.SEQ_LEASE_STAT_MOVE_PEND F.LE_LEASE_STAT_MOVE_PEND x = 1 || ((s.tw x).back = some (1 - s.holder x) && s.mayTakeBack x (1 - s.holder x))

/-- A handover point of a pair (R250): where a planned transfer is wanted it can be made; a take-back that is not wanted now has had its point. [DEDUCED: log 98, 99] -/
def State.handPoint (s : State) (x : Nat) : State :=
  if s.moveWanted x then s.updTw x (fun w => if w.reqAt.isSome then { w with hand := true } else w)
  else s.updTw x (fun w => { w with reqAt := none, back := none })

/-- A comparison falls due, and the digest restarts (R252, R253); none is made while comparison is suspended or a diagnostic runs (R254, R256). The end of a block of a Loop Engine pair that is not compared is a handover point (R250). -/
def State.digestDue (s : State) (x p mask : Nat) : State :=
  let d := s.dig x p
  let open' := s.suspReason x = 0
  let diag := (s.tw x).diag.isSome
  let fresh : Dig := ⟨crcInit, open'⟩
  let due : List DigDue := if d.live && open' && !diag then [⟨~~~ d.crc, p, mask, d.live⟩] else []
  let s := s.updTw x (fun w => { w with dues := w.dues ++ due, digs := Map.ins w.digs p fresh, matched := w.matched.filter (fun q => q ≠ p) })
  if x != 0 && !open' then s.handPoint x else s

end Sys2Proof.Machine
end

