-- ==== Sys2Proof/Machine/Settle.lean ====
section
/-! DEFINITION. What ends a command: the block resets and the chip reset that its faults called for (R338, R340, R373), and the clock gate. -/

namespace Sys2Proof.Machine

/-- The number of the register that a key belongs to, and its first index. -/
def keyReg (k : Nat) : Nat := k / 67108864
def keyIdx (k : Nat) : Nat := k / 4096 % 16384

/-- An access refused by the Lattice (R312): LAT_DECODE, and LAT_ERR_INFO keeps the first. -/
def State.latDecode (s : State) (m t : Nat) (wr : Bool) (addr : Nat) : State :=
  let s := if s.on F.LAT_STAT_DECODE then s
    else (((s.put F.LAT_ERR_INFO_MASTER m).put F.LAT_ERR_INFO_TARGET t).putB F.LAT_ERR_INFO_WRITE wr).put F.LAT_ERR_INFO_KIND 0
      |>.put F.LAT_ERR_INFO_ADDR addr
  (s.put F.LAT_STAT_DECODE 1).raise 45 (m + 16 * t)

/-- The state of a DMA channel; ERRMAP and ACTIVE follow it (R313). -/
def State.setDma (s : State) (c v : Nat) : State :=
  ((s.put F.DMA_CH_STAT_STATE v c).put F.DMA_STAT_ERRMAP (setBitTo (s.g F.DMA_STAT_ERRMAP) c (v = 4))).put
    F.DMA_STAT_ACTIVE (setBitTo (s.g F.DMA_STAT_ACTIVE) c (v = 1 || v = 2))

/-- CLEAR of a DMA channel (R313): from IDLE_AT_EOC or ERROR to IDLE. -/
def State.dmaClear (s : State) (c : Nat) : State :=
  let st := s.g F.DMA_CH_STAT_STATE c
  if st = 3 || st = 4 then s.setDma c 0 else s

/-- The source of CLK_LOSS is set after the chip reset that follows it, with its information, and its other reactions launch (R341). [DEDUCED: log 160] -/
def State.afterClkLoss (s : State) (why : Option Nat) : State :=
  match why with
  | none => s
  | some w => s.raise 35 w

/-- Chip reset (R373): the Control Die starts anew at boot step 1; the always-on region, the rails, the Carafe, flash, fuses and the level of FREEZE_N keep what they hold; a tile keeps its registers and outputs until its first training (R62). The memories keep their contents until boot step 2 initialises them (log entry 8). [DEDUCED: log 8, 160, 189; PRESUMED: log 59] -/
def State.chipReset (s : State) : State :=
  let keepRegs := s.regs.filter (fun e => numCdRegs ≤ keyReg e.1)
  let r := State.reset
  { r with
    pending := s.pending
    cycle := s.cycle
    clk := if s.clk = Clk.off then Clk.off else Clk.running
    regs := if Map.look s.tm.pins 0 false then Map.ins keepRegs (R.TB_SYNC_STAT.key 0 0) 1 else keepRegs
    mem := s.mem
    ueWords := s.ueWords
    hostOut := s.hostOut
    freeCtr := s.freeCtr
    af := { s.af with tiles := (List.range 16).map (fun t => (t, { s.tl t with linkUp := false, retry := 0, badFrame := false, needReinit := true })) }
    mon := { r.mon with mis := s.mon.mis, madcs := s.mon.madcs, ramps := s.mon.ramps, refills := s.mon.refills }
    flt := { r.flt with log := s.flt.log, frzPin := s.flt.frzPin, ceBase := s.cycle }
    tm := { r.tm with wire := s.tm.wire, pins := s.tm.pins }
    brs := { r.brs with refill := s.cycle }
    pwr := { s.pwr with demand := [], bootAt := s.cycle, mcmd := [] } }.afterClkLoss s.flt.clkLoss

/-- One block reset that a fault called for (R340). -/
def State.doBrst (s : State) (b : BlockReset) : State :=
  match b with
  | .fence region idx => s.askFence region idx true
  | .member x m => s.restartMember x m
  | .dmaClear c => s.dmaClear c
  | .mp _ => s.masterReset 4

/-- The end of a command: its block resets, then the chip reset if a reaction asked for one. -/
def State.settle (s : State) : State :=
  let s := s.each s.flt.brst State.doBrst
  let s := { s with flt.brst := [] }
  if s.flt.crst then s.chipReset else s

/-- A command that has run. -/
def fin (s : State) : Out := .next s.settle

/-- A command of a root-clocked block: while those clocks stand still nothing happens (R25, R347). [DEDUCED: log 103, 159] -/
def clocked (s : State) (f : State → State) : Out := if s.clk = Clk.running then fin (f s) else .next s

end Sys2Proof.Machine
end

