-- ==== Sys2Proof/Machine/Ao.lean ====
section
/-! DEFINITION. Tiles, actuator outputs and the Carafe (01, 02). -/

namespace Sys2Proof.Machine

/-! ### The active register -/

/-- What the bump of a channel carries under a code (R33, R34, R37): nothing while the channel is OFF or disabled, its tile has no supplies or is in its structural test (R405); in I-mode 0 mA until VHTR is good and whenever it is not. -/
def State.driveOf (s : State) (a code : Nat) : Drive :=
  let hi := s.ga F.AO_CFG_RANGE a = 1
  if !(s.tl (aoTile a)).powered || s.on F.TST_OS_STAT_BUSY (aoTile a) || s.ga F.AO_CFG_MODE a = 0 || !s.ona F.AO_CFG_EN a then .hiZ
  else if s.ga F.AO_CFG_MODE a = 1 then .volt (if hi then (code : Int) else ((code : Int) - 32768) * 2)
  else if !s.on F.DPC_STAT_PG 4 then .amp 0
  else .amp (if hi then 10 * code else code)
/-- Under its active code. -/
def State.drive (s : State) (a : Nat) : Drive := s.driveOf a (s.ga F.AO_ACT_CODE a)
/-- The current that a bump carries, in steps of 2 mA / 65,536. -/
def Drive.steps (d : Drive) : Nat :=
  match d with
  | .amp i => i
  | .hiZ => 0
  | .volt _ => 0

/-- Zero output in the coding of R33: 0x8000 for bipolar V, else 0 (R39). -/
def zeroCode (mode range : Nat) : Nat := if mode = 1 && range = 0 then 0x8000 else 0

/-- A write of an active register with its precedence (R45: 1 park, 2 commit, 3 mode or range change, 4 direct, 5 loop): a write of higher precedence in the same CORE cycle stands; true if this one is applied. [DESIGN CHOICE: log 14; DEDUCED: log 177] -/
def State.actBlocked (s : State) (a prec : Nat) : Bool :=
  match (s.aoSt a).lastW with
  | some w => w.cycle = s.cycle && w.prec < prec
  | none => false

/-- The write of this cycle that a further one finds at an active register. -/
def State.wroteNow (s : State) (a : Nat) : Option LastWrite := (s.aoSt a).lastW.filter (fun w => w.cycle = s.cycle)

/-- The active code that writes of this cycle of lower precedence start from. -/
def State.actBefore (s : State) (a : Nat) : Nat :=
  match s.wroteNow a with
  | some w => w.before
  | none => s.ga F.AO_ACT_CODE a

/-- A write of an active register (R45): of those of one cycle the one of highest precedence counts, and a direct write that it displaces sets DIR_REFUSED. The code moves once, from what stood before the cycle. -/
def State.actWrite (s : State) (a code prec : Nat) : State :=
  if s.actBlocked a prec then s
  else
    let before := s.actBefore a
    let d := absDiff before code
    let s := s.when ((s.wroteNow a).any (fun w => w.prec = 4 && prec < 4)) (fun s => s.put F.AO_TILE_STAT_DIR_REFUSED 1 (aoTile a))
    let s := (s.pa F.AO_ACT_CODE code a).pa F.AO_STAT_PARKED (b2n (prec = 1)) a
    s.updAo a (fun x => { x with
      lastW := some ⟨s.cycle, prec, before⟩
      strong := if prec ≤ 3 then x.strong + 1 else x.strong
      moves :=
        let old := x.moves.filter (fun m => m.1 != s.cycle && s.cycle ≤ m.1 + 16000)
        if d = 0 then old else (s.cycle, d) :: old })

/-- The staged value of a channel is discarded: STAGED and its copy, the charge term (R137), the staged context. -/
def State.unstage (s : State) (a : Nat) : State :=
  let x := s.aoSt a
  let s := if x.qterm = 0 then s else s.put F.AO_QSUM_Q (s.g F.AO_QSUM_Q (aoTile a) x.qpart - x.qterm) (aoTile a) x.qpart
  ((s.pa F.AO_SHD_STAGED 0 a).pa F.AO_STAT_STAGED 0 a).updAo a (fun x => { x with qterm := 0, shdOld := none })
    |>.updCs a (fun c => { c with staged := false })

/-- The CHAN bit of a tile's fault summary follows AO_STAT.FAULT (R342). -/
def State.chanSum (s : State) (t : Nat) : State :=
  if (aosOfTile t).any (fun a => s.ona F.AO_STAT_FAULT a) then s.fsum t 0
  else s.put F.TL_FSUM_CHAN 0 t

/-- The Carafe entry of a channel as the tile reads it (R55). -/
def State.carafe (s : State) (a : Nat) : Nat := Map.look s.af.carafe.entry a 0

/-- The mode or range changes of this very cycle, which a park or a strobe comes before (R45). -/
def State.cutNow (s : State) (a : Nat) : Option Cut := (s.aoSt a).cut.filter (fun c => c.cycle = s.cycle)

/-- Such changes leave no trace (R45): MODE, RANGE, AO_RB.VALID and the shadow code stand as before them. -/
def State.undoCut (s : State) (a : Nat) : State :=
  match s.cutNow a with
  | none => s
  | some c =>
    (((s.pa F.AO_CFG_MODE c.mode a).pa F.AO_CFG_RANGE c.range a).pa F.AO_RB_VALID c.valid a).pa F.AO_SHD_CODE c.code a
      |>.updAo a (fun x => { x with cut := none })

/-- A park during a stimulus: the generator writes no further code to the channel (R404). -/
def State.stimParked (s : State) (a : Nat) : State :=
  { s with tst.stim := s.tst.stim.map (fun e => if e.1 = aoTile a then (e.1, { e.2 with parked := aoChan a :: e.2.parked }) else e) }

/-- The Carafe entry of a channel is applied (R56, R57): mode, range, enable and active code, STAGED cleared; an uncorrectable entry turns the channel OFF and faults it, and the code stands as before the cycle. During a structural test the channel stays OFF (R405). [DEDUCED: log 18] -/
def State.park (s : State) (a : Nat) : State :=
  let t := aoTile a
  let s := ((s.undoCut a).unstage a).stimParked a
  if s.af.carafe.ue.contains a then
    let s := s.when (s.ga F.AO_CFG_MODE a != 0) (fun s => s.pa F.AO_RB_VALID 0 a)
    let s := ((s.pa F.AO_CFG_MODE 0 a).actWrite a (s.actBefore a) 1).sat F.CAR_UE_CNT_CNT t
    let s := if s.on F.CAR_STAT_UE_SEEN t then s
      else (s.put F.CAR_STAT_UE_SEEN 1 t).put F.CAR_STAT_FIRST_UE (aoChan a) t
    let s := ((s.pa F.AO_STAT_FAULT 1 a).pa F.AO_STAT_CAUSE 3 a).ctxFault a
    (s.fsum t 1).fsum t 0
  else
    let s := if s.af.carafe.ce.contains a then s.sat F.CAR_CE_CNT_CNT t else s
    let e := s.carafe a
    let mode := if s.on F.TST_OS_STAT_BUSY t then 0 else bitsOf e 16 2
    let s := s.when (s.ga F.AO_CFG_MODE a != mode || s.ga F.AO_CFG_RANGE a != bitsOf e 18 1) (fun s => s.pa F.AO_RB_VALID 0 a)
    let s := ((s.pa F.AO_CFG_MODE mode a).pa F.AO_CFG_RANGE (bitsOf e 18 1) a).pa F.AO_CFG_EN (b2n (mode != 0)) a
    s.actWrite a (bitsOf e 0 16) 1

/-- A channel faults (R53). -/
def State.chanFault (s : State) (a cause : Nat) : State :=
  let s := ((s.pa F.AO_STAT_FAULT 1 a).pa F.AO_STAT_CAUSE cause a).ctxFault a
  (s.park a).fsum (aoTile a) 0

/-- Every channel of a tile parks, and its contexts enter FAULT (R343, region 1). -/
def State.parkTile (s : State) (t : Nat) : State := s.each (aosOfTile t) (fun s a => (s.park a).ctxFault a)

/-! ### The supervision queue (R49) -/

def State.updSadc (s : State) (t : Nat) (f : Sadc → Sadc) : State := s.updTl t (fun x => { x with sadc := f x.sadc })

/-- A request joins the line of channel and cycle: behind earlier ones, and among those of its cycle behind lower k (R49). [DESIGN CHOICE: log 14] -/
def lineUp (k c : Nat) (l : List (Nat × Nat)) : List (Nat × Nat) :=
  match l with
  | [] => [(k, c)]
  | e :: t => if e.2 = c && k < e.1 then (k, c) :: e :: t else e :: lineUp k c t

/-- A channel asks for a priority reading: it enters the queue of 16, or waits for room in the order of the requests. -/
def State.sadcAsk (s : State) (a : Nat) : State :=
  s.updSadc (aoTile a) (fun q => if q.prio.any (fun e => e.1 = aoChan a) then q else { q with prio := lineUp (aoChan a) s.cycle q.prio })

/-- A channel that the SADC converts: MODE not OFF and EN = 1 (R37). [DEDUCED: log 198] -/
def State.supervised (s : State) (t k : Nat) : Bool := s.g F.AO_CFG_MODE t k != 0 && s.on F.AO_CFG_EN t k

/-- The fast-list entry at or after a position that names a channel to convert, with its position (R49). -/
def State.fastPick (s : State) (t pos cnt : Nat) : Option (Nat × Nat) :=
  let order := (List.range cnt).map (fun i => (pos + i) % cnt)
  (order.find? (fun i => s.g F.AO_FAST_CHAN t i < 1280 && s.supervised t (s.g F.AO_FAST_CHAN t i))).map
    (fun i => (i, s.g F.AO_FAST_CHAN t i))

/-- The next channel of the background scan, in order of k. -/
def State.bgPick (s : State) (t pos : Nat) : Option Nat :=
  ((List.range 1280).map (fun i => (pos + i) % 1280)).find? (s.supervised t)

/-- What the SADC converts next: the channel and whether it comes from the priority queue; with the places moved on. [DEDUCED: log 19; DESIGN CHOICE: log 211] -/
def State.sadcNext (s : State) (t : Nat) : State × Option (Nat × Bool) :=
  let q := (s.tl t).sadc
  match q.prio.find? (fun e => s.supervised t e.1) with
  | some e => (s.updSadc t (fun q => { q with prio := q.prio.erase e }), some (e.1, true))
  | none =>
    if !s.on F.AO_SUP_CTL_SUP_EN t then (s, none)
    else
      let share := s.g F.AO_SUP_CTL_FAST_SHARE t
      let cnt := min (s.g F.AO_SUP_CTL_FAST_CNT t) 32
      let bg (s : State) : State × Option (Nat × Bool) :=
        match s.bgPick t q.bg with
        | some k => (s.updSadc t (fun q => { q with bg := k + 1 }), some (k, false))
        | none => (s, none)
      if 4 ≤ q.acc + share then
        match s.fastPick t (q.fast % max cnt 1) cnt with
        | some (i, k) => (s.updSadc t (fun q => { q with acc := q.acc + share - 4, fast := i + 1 }), some (k, false))
        | none => bg (s.updSadc t (fun q => { q with acc := q.acc + share - 4 }))
      else bg (s.updSadc t (fun q => { q with acc := q.acc + share }))

/-- The tolerance set of a channel. -/
def State.tol (s : State) (f : Fld) (a : Nat) : Nat := s.g f (aoTile a) (s.ga F.AO_CFG_TOLSEL a)

/-- The active code moved by more than the window within the blanking time (R50). [DESIGN CHOICE: log 17] -/
def State.blanked (s : State) (a : Nat) : Bool :=
  let time := if s.ga F.AO_CFG_MODE a = 1 then 250 * s.g F.AO_SUP_CTL_BLANK_V (aoTile a) else 1000 * s.g F.AO_SUP_CTL_BLANK_I (aoTile a)
  (s.aoSt a).moves.any (fun m => s.cycle ≤ m.1 + time && s.tol F.AO_TOL_WIN a < m.2)

/-- The commanded voltage is at least 1 V in size (R33, R51). -/
def atLeast1V (range code : Nat) : Bool := if range = 0 then 65536 ≤ absDiff code 32768 * 20 else 65536 ≤ code * 10

/-- The cause for which a compared reading fails (R51): 0 DRIFT, 1 SHORT, 2 OPEN. aux is the measured current in uA (V-mode) or voltage in mV (I-mode), lim the limit comparator. -/
def State.failCause (s : State) (a reading aux : Nat) (lim : Bool) : Option Nat :=
  let act := s.ga F.AO_ACT_CODE a
  let off := s.tol F.AO_TOL_WIN a < absDiff reading act
  let low := aux < s.tol F.AO_TOL_THR a * 10
  if s.ga F.AO_CFG_MODE a = 1 then
    if off && lim then some 1
    else if off then some 0
    else if s.ona F.AO_CFG_OPENCHK a && atLeast1V (s.ga F.AO_CFG_RANGE a) act && low then some 2
    else none
  else if 0x28F ≤ act && lim then some 2
  else if 0x28F ≤ act && low then some 1
  else if off then some 0
  else none

/-- A reading is compared (R51, R52). -/
def State.compareReading (s : State) (a reading aux : Nat) (lim : Bool) : State :=
  match s.failCause a reading aux lim with
  | none => (s.pa F.AO_RB_FAILED 0 a).pa F.AO_STAT_FAILCNT 0 a
  | some c =>
    let n := min (s.ga F.AO_STAT_FAILCNT a + 1) (s.tol F.AO_TOL_CONFIRM a + 1)
    let s := ((s.pa F.AO_RB_FAILED 1 a).pa F.AO_STAT_FAILCNT n a).sadcAsk a
    if n = s.tol F.AO_TOL_CONFIRM a + 1 then s.chanFault a c else s

/-- A conversion of the SADC (R48 to R52, R54). -/
def sadcConvert (t reading aux : Nat) (lim : Bool) (s : State) : State :=
  match s.sadcNext t with
  | (s, none) => s
  | (s, some (k, prio)) =>
    let a := t * 1280 + k
    let s := (s.pa F.AO_RB_READING reading a).pa F.AO_RB_VALID 1 a
    if s.ona F.AO_STAT_FAULT a then s
    else if prio then s.compareReading a reading aux lim
    else if s.blanked a then s.pa F.AO_STAT_BLANKED 1 a
    else (s.pa F.AO_STAT_BLANKED 0 a).compareReading a reading aux lim

def execSadcConversion (t : Tile) (reading : BitVec 16) (aux : Nat) (lim : Bool) (s : State) : Out :=
  clocked s (sadcConvert t reading.toNat aux lim)

/-- R47: the flag is set and the channel enters the priority queue; a channel that is OFF or disabled has no driver to limit. -/
def execLimitQualified (a : Ao) (s : State) : Out :=
  clocked s (fun s => if s.supervised (aoTile a) (aoChan a) then (s.pa F.AO_STAT_LIMIT 1 a).sadcAsk a else s)

/-- A write of 1 to AO_STAT.FAULT releases the channel (R54). -/
def releaseFault (a : Nat) (s : State) : State :=
  if s.ona F.AO_STAT_FAULT a then
    ((s.pa F.AO_STAT_FAULT 0 a).pa F.AO_STAT_FAILCNT 0 a).sadcAsk a |>.chanSum (aoTile a)
  else s

def execFaultRelease (a : Ao) (s : State) : Out := clocked s (releaseFault a)

/-! ### Configuration and direct writes -/

/-- What stands before the mode or range changes of this cycle. -/
def State.cutOf (s : State) (a : Nat) : Cut :=
  (s.cutNow a).getD ⟨s.cycle, s.ga F.AO_CFG_MODE a, s.ga F.AO_CFG_RANGE a, s.ga F.AO_CFG_PART a, s.ga F.AO_RB_VALID a, s.ga F.AO_SHD_CODE a, s.ona F.AO_SHD_STAGED a, (s.cs a).staged⟩

/-- A mode or range change (R39): both codes take zero output of the new setting, STAGED clears, and the readings so far no longer stand. After a park or a commit of its cycle it leaves no trace (R45). [DESIGN CHOICE: log 240] -/
def State.modeChange (s : State) (a mode range : Nat) : State :=
  if s.actBlocked a 3 then s
  else
    let c := s.cutOf a
    let s := ((s.over F.AO_CFG_MODE mode (aoTile a) (aoChan a)).over F.AO_CFG_RANGE range (aoTile a) (aoChan a)).unstage a
    let z := zeroCode mode range
    (((s.pa F.AO_SHD_CODE z a).pa F.AO_RB_VALID 0 a).actWrite a z 3).updAo a (fun x => { x with cut := some c })

/-- A write of AO_CFG (R38 to R40), in the layout of the register; during a structural test the channel stays OFF (R405). [DEDUCED: log 20; DESIGN CHOICE: log 240] -/
def aoCfgWrite (a v : Nat) (s : State) : State :=
  let t := aoTile a
  let old (f : Fld) := s.ga f a
  let new (f : Fld) := bitsOf v f.lo f.wd
  let structural := [F.AO_CFG_MODE, F.AO_CFG_RANGE, F.AO_CFG_EN, F.AO_CFG_ILIM, F.AO_CFG_PART, F.AO_CFG_OWNED].any
    (fun f => old f != new f)
  let pm := s.pm (old F.AO_CFG_PART)
  let cfgErr := new F.AO_CFG_MODE = 3 || (structural && old F.AO_CFG_OWNED = 1 && (pm = 1 || pm = 2))
  let ownErr := old F.AO_CFG_OWNED = 1 && new F.AO_CFG_OWNED = 1 && old F.AO_CFG_PART != new F.AO_CFG_PART
  if cfgErr || ownErr then
    (s.when cfgErr (fun s => s.put F.AO_TILE_STAT_CFG_ERR 1 t)).when ownErr (fun s => s.put F.AO_TILE_STAT_OWN_ERR 1 t)
  else
    let change := old F.AO_CFG_MODE != new F.AO_CFG_MODE || old F.AO_CFG_RANGE != new F.AO_CFG_RANGE
    let s := s.when change (fun s => s.modeChange a (if s.on F.TST_OS_STAT_BUSY t then 0 else new F.AO_CFG_MODE) (new F.AO_CFG_RANGE))
    let s := s.each [F.AO_CFG_EN, F.AO_CFG_CLOAD, F.AO_CFG_ILIM, F.AO_CFG_TOLSEL, F.AO_CFG_PART, F.AO_CFG_OWNED, F.AO_CFG_OPENCHK]
      (fun s f => s.sput f (new f) t (aoChan a))
    let s := s.when (old F.AO_CFG_OWNED = 1 && new F.AO_CFG_OWNED = 0) (fun s =>
      { s.park a with le.outs := s.le.outs.filter (fun o => o.ao != a) })
    s.ctxRefresh a

def execAoCfgWrite (a : Ao) (v : W32) (s : State) : Out := clocked s (aoCfgWrite a v.toNat)

/-- Current or dissipation exceeds its cap: a write that would raise the current of an I-mode output is discarded (R363). [DEDUCED: log 21] -/
def State.capped (s : State) (a code : Nat) : Bool :=
  (s.on F.PWR_STAT_ICAP || s.on F.PWR_STAT_HCAP) && s.ga F.AO_CFG_MODE a = 2 && s.ga F.AO_ACT_CODE a < code

/-- A write of AO_DIR (R43, R45, R363). [DEDUCED: log 21] -/
def aoDirWrite (a code : Nat) (s : State) : State :=
  let p := s.ga F.AO_CFG_PART a
  let ok := s.ona F.AO_CFG_OWNED a && (s.pm p = 3 || s.pm p = 4) && !s.ona F.AO_STAT_FAULT a
    && !s.tileFenced (aoTile a) && !s.partFenced p && !s.cal.meas.any (fun e => e.2.ao = a)
  if !ok || s.actBlocked a 4 then s.put F.AO_TILE_STAT_DIR_REFUSED 1 (aoTile a)
  else if s.capped a code then s
  else s.actWrite a code 4

def execAoDirWrite (a : Ao) (code : BitVec 16) (s : State) : Out := clocked s (aoDirWrite a code.toNat)

/-- The oldest loop output on its way reaches its tile (R43 to R45, R83, R247, R363). [DEDUCED: log 21] -/
def loopArrive (s : State) : State :=
  match s.le.outs with
  | [] => s
  | o :: rest =>
    let s := { s with le.outs := rest }
    let ok := s.ona F.AO_CFG_OWNED o.ao && o.gen = (s.aoSt o.ao).gen && !s.ona F.AO_STAT_FAULT o.ao && !s.tileFenced (aoTile o.ao)
      && !s.partFenced (s.ga F.AO_CFG_PART o.ao) && !s.noHolder (1 + aoTile o.ao) && !s.capped o.ao o.code
    if ok then s.actWrite o.ao o.code 5 else s

def execLoopOutputArrival (s : State) : Out := clocked s loopArrive

/-! ### Tiles and their links (R15 to R17, R56, R62, R67) -/

/-- The bias on its way (R67), in cycles of the 1 V/ms ramp: 12 mV take 12,000 cycles. -/
def biasPos (r : Ramp) (now : Nat) : Nat :=
  if r.pos ≤ r.target then min r.target (r.pos + (now - r.start)) else max r.target (r.pos - (now - r.start))
def biasTarget (code : Nat) : Nat := 12000 * min code 250
def State.ramp (s : State) (t : Nat) : Ramp := Map.look s.mon.ramps t ⟨0, 0, 0⟩

/-- The bias of a tile ramps towards a code (R67). [DEDUCED: log 30] -/
def State.biasTo (s : State) (t code : Nat) : State :=
  let r := s.ramp t
  let now := biasPos r s.cycle
  { s with mon.ramps := Map.ins s.mon.ramps t ⟨now, s.cycle, biasTarget code⟩ }.putB F.MI_TILE_STAT_BIAS_RAMP (now != biasTarget code) t

/-- A temperature input is OFF: MODE 0, or 3 (R377, R394). -/
def State.tdOff (s : State) (n : Nat) : Bool := s.g F.THM_TD_CFG_MODE n = 0 || s.g F.THM_TD_CFG_MODE n = 3

/-- While a tile's link is down, or the tile is re-initialised, its temperature inputs are STALE (R380). [DEDUCED: log 181] -/
def State.staleTds (s : State) (t : Nat) : State :=
  s.each ((List.range 4).filter (fun i => !s.tdOff (4 * t + i))) (fun s i => s.put F.THM_TD_STAT_STALE 1 (4 * t + i))

/-- The codes that stand at the outputs of a tile, and when they last moved, through a re-initialisation (R62): of a channel whose entry is uncorrectable nothing stands. -/
def State.keepsAct (s : State) (t k : Nat) : Bool := keyReg k = R.AO_ACT.id && keyIdx k = t && !s.af.carafe.ue.contains (1280 * t + k % 4096)

/-- The tile registers and what stands beside them take their reset values, every Carafe entry is applied, trims return to their factory values (R56, R62, R80, R388), the bias ramps to 0 V (R67), and TL_FSTAT.REINIT reports it. [DEDUCED: log 30, 92, 189] -/
def State.tileReinit (s : State) (t : Nat) : State :=
  let keep (k : Nat) : Bool := s.keepsAct t k || keyReg k < numCdRegs || numTileRegs ≤ keyReg k || keyIdx k != t
  let s := { s with
    regs := s.regs.filter (fun e => keep e.1)
    cal.trim := s.cal.trim.filter (fun e => e.1 / 4096 ≠ t)
    af := { s.af with aos := s.af.aos.map (fun (e : Nat × AoSt) => if aoTile e.1 = t then (e.1, ({ moves := e.2.moves, lastW := e.2.lastW, strong := e.2.strong } : AoSt)) else e) }
    mon := { s.mon with
      mis := s.mon.mis.filter (fun e => miTile e.1 ≠ t)
      madcs := s.mon.madcs.filter (fun e => e.1 / 8 ≠ t)
      tokens := Map.ins s.mon.tokens t {}
      fwd := s.mon.fwd.filter (fun e => e.1 ≠ t) }
    le := { s.le with ctx := s.le.ctx.map (fun (e : Nat × CtxSt) => (e.1, if miTile (s.cg 0 e.1 C.MI1) = t then { e.2 with slot := false } else e.2)), last := s.le.last.filter (fun e => e.1 / 16384 ≠ t), outs := s.le.outs.filter (fun o => aoTile o.ao ≠ t), dith := Map.del s.le.dith t }
    rtu := { s.rtu with cache := s.rtu.cache.filter (fun c => c.tile ≠ t), arms := s.rtu.arms.filter (fun c => c.tile ≠ t) } }
  let s := s.updTl t (fun x => { x with sadc := {}, needReinit := false })
  let s := (s.each (aosOfTile t) State.park).chanSum t
  let s := s.put F.CAR_STAT_READY 1 t |>.put F.TL_FSTAT_REINIT 1 t |>.refreshTile t |>.staleTds t
  ((s.biasTo t 0).put F.CAL_TSTAT_VALID 0 t).raise 57 t

/-- A tile's analogue supplies become good (R15, R62): its outputs come from high impedance to the park codes, which is no step of a code, and its bias stands at 0 V (R67). [DEDUCED: log 30] -/
def State.tileOn (s : State) (t : Nat) : State :=
  let s := { s.updTl t (fun x => { x with powered := true }) with mon.ramps := Map.del s.mon.ramps t, af.aos := s.af.aos.map (fun (e : Nat × AoSt) => if aoTile e.1 = t then (e.1, ({ strong := e.2.strong } : AoSt)) else e) }
  s.each (aosOfTile t) (fun s a => s.pa F.AO_ACT_CODE (bitsOf (s.carafe a) 0 16) a)

def execTilePowerUp (t : Tile) (s : State) : Out := fin ((s.tileOn t).tileReinit t)

/-- The Control Die takes a tile's link down (R17): TILE_FAULT with LINK, and the replica is no longer VALID (R275). -/
def State.linkDown (s : State) (t : Nat) : State :=
  ((s.updTl t (fun x => { x with linkUp := false, badFrame := false, retry := 0 })).put F.TL_TSTAT_VALID 0 t |>.staleTds t).fsum t 4

/-- A frame of the Tile Link fails its CRC: its retry is due (R16, R17). -/
def execTileLinkCrcFail (t : Tile) (s : State) : Out :=
  clocked s (fun s => if (s.tl t).linkUp && !(s.tl t).badFrame then s.updTl t (fun x => { x with badFrame := true, retry := 0 }) else s)

end Sys2Proof.Machine
end

