-- ==== Sys2Proof/Machine/BrsOps.lean ====
section
/-! DEFINITION. What Barista does for other blocks: completions, notices and their messages (R226, R228, R230), a request's charge (R239), its records (R200). -/

namespace Sys2Proof.Machine

def State.ring (s : State) (n : Nat) : RingSt := Map.look s.brs.rings n {}
def State.updRing (s : State) (n : Nat) (f : RingSt → RingSt) : State := { s with brs.rings := Map.upd s.brs.rings n {} f }
def State.port (s : State) (p : Nat) : PortSt := Map.look s.brs.ports p {}
/-- BRS_PORT_STAT.HELD and BRS_PORT_Q show the port. -/
def State.updPort (s : State) (p : Nat) (f : PortSt → PortSt) : State :=
  let s := { s with brs.ports := Map.upd s.brs.ports p {} f }
  let x := s.port p
  ((s.putB F.BRS_PORT_STAT_HELD x.held.isSome p).put F.BRS_PORT_Q_AQ x.aq.length p).put F.BRS_PORT_Q_DQ x.dq.length p

/-- The sizes of a ring's two rings; logarithms below 4 act as 4 (R225). -/
def State.rqLen (s : State) (n : Nat) : Nat := 2 ^ max 4 (s.g F.BRS_RING_SIZE_RQ_LOG2 n)
def State.cqLen (s : State) (n : Nat) : Nat := 2 ^ max 4 (s.g F.BRS_RING_SIZE_CQ_LOG2 n)
def State.ringFn (s : State) (n : Nat) : Nat := s.g F.BRS_RING_CFG2_FN n
/-- Completions written and not yet consumed: U of R226. -/
def State.cqUsed (s : State) (n : Nat) : Nat :=
  (s.g F.BRS_CQ_PI_PI n + s.cqLen n - s.g F.BRS_CQ_CI_CI n % s.cqLen n) % s.cqLen n
/-- Requests fetched and not yet completed: O of R226. -/
def State.outst (s : State) (n : Nat) : Nat := s.g F.BRS_RING_STAT_OUTST n
def State.setOutst (s : State) (n v : Nat) : State := (s.put F.BRS_RING_STAT_OUTST v n).putB F.BRS_RING_STAT_BUSY (v != 0) n
/-- The entries that a ring's reads cover: each has its completion place from the read on (R226). [DEDUCED: log 226] -/
def State.inFlight (s : State) (n : Nat) : Nat := ((s.ring n).reads.map (fun r => r.n)).sum
/-- A further completion place is free (R226). [DEDUCED: log 226] -/
def State.cqRoom (s : State) (n : Nat) : Bool := s.cqUsed n + s.outst n + s.inFlight n < s.cqLen n - 1

/-- The message of a completion write (R230): at once, or left to the end of the hold-off. [DESIGN CHOICE: log 133] -/
def State.ringMsg (s : State) (n : Nat) : State :=
  let itr := s.g F.BRS_RING_CTL_ITR n
  let held := match (s.ring n).lastMsg with
    | some c => itr != 0 && s.cycle < c + 1000 * itr
    | none => false
  if held then s.updRing n (fun r => { r with msgDue := true })
  else (s.updRing n (fun r => { r with lastMsg := some s.cycle, msgDue := false })).msix (s.ringFn n) (s.g F.BRS_RING_CFG2_VEC n)

/-- Sixteen bytes into the completion ring (R228): the index moves on, PHASE inverts at each wrap. -/
def State.cqWrite (s : State) (n w0 w1 w2 w3 : Nat) : State :=
  let pi := s.g F.BRS_CQ_PI_PI n
  let ph := s.g F.BRS_CQ_PI_PHASE n
  let base := 64 * s.g F.BRS_CQ_BASE_BASE n
  let bytes := leBytes 4 w0 ++ leBytes 4 (setBitTo w1 9 (ph = 1)) ++ leBytes 4 w2 ++ leBytes 4 w3
  let s := (s.postWrite (s.ringFn n) (base + 16 * pi) bytes).grant 7 5
  let wrap := s.cqLen n ≤ pi + 1
  ((s.put F.BRS_CQ_PI_PI (if wrap then 0 else pi + 1) n).put F.BRS_CQ_PI_PHASE (if wrap then 1 - ph else ph) n).ringMsg n

/-- A completion (R228, R229); the request is no longer outstanding. -/
def State.complete (s : State) (n tag status tu result defers : Nat) : State :=
  (s.setOutst n (s.outst n - 1)).cqWrite n tag (status % 256 + tu % 65536 * 65536) result (defers % 16)

/-- A notice (R135, R226): kind 0 MOVED, 1 CLEARED, 2 BROKEN, with a time in ns of TB0. -/
def State.notice (s : State) (n inp out kind t : Nat) : State :=
  if s.cqRoom n then
    s.cqWrite n (inp % 1024 + out % 1024 * 65536 + kind * 67108864) 256 (t % 10 ^ 9) (t / 10 ^ 9 % 2 ^ 32)
  else (s.sat F.BRS_RING_CNT_NOTICE_DROP n).put F.BRS_RING_STAT_NOVF 1 n

/-- BRS_RING_ERR with its ring (R340); BRS_STAT keeps the first one. -/
def State.ringErr (s : State) (n : Nat) : State :=
  let s := if s.on F.BRS_STAT_RING_ERR then s else (s.put F.BRS_STAT_RING_ERR 1).put F.BRS_STAT_FIRST_RING n
  s.raise 48 n

/-- BRS_QUEUE_OVF (R340). [DEDUCED: log 89] -/
def State.queueOvf (s : State) (info : Nat) : State := (s.put F.BRS_STAT_QUEUE_OVF 1).raise 49 info

/-! ### The slot budget (R238, R239) -/

/-- [DEDUCED: log 87] -/
def State.remain (s : State) (p : Nat) : Int := toSigned 24 (s.g F.BRS_PORT_STAT_REMAIN p)
/-- [DEDUCED: log 87] -/
def State.setRemain (s : State) (p : Nat) (r : Int) : State := s.put F.BRS_PORT_STAT_REMAIN (ofSigned 24 r) p

/-- The TU of a request's completion (R239): OVH and the OK growths if any job was submitted, else what it declared. -/
def Req.charge (r : Req) : Nat := if !r.admitted then 0 else if r.jobs = 0 then r.dtu + r.ovh else r.ovh + r.growth
/-- What the remainder of its port still bears of a request: its DTU until its first job returns, OVH, and the OK growths. [DEDUCED: log 227] -/
def Req.borne (r : Req) : Nat := if !r.admitted then 0 else (if r.back then 0 else r.dtu) + r.ovh + r.growth

/-- A completion that Barista makes itself: TU and RESULT are 0, the charge borne is refunded (R231, R239). -/
def State.selfComplete (s : State) (r : Req) (status : Nat) : State :=
  let s := s.when r.admitted (fun s => s.setRemain r.port (s.remain r.port + r.borne))
  s.complete r.ring r.tag status 0 0 r.defers

/-! ### Records (R200) -/

/-- HANDLE: the slot and its generation. -/
def Rec.handle (x : Rec) : Nat := x.slot + x.gen % 4096 * 16
/-- [DEDUCED: log 70] -/
def State.findRec (s : State) (p handle : Nat) : Option Rec :=
  (s.port p).recs.find? (fun x => x.isOpen && x.handle = handle)
def State.setRec (s : State) (p : Nat) (x : Rec) : State :=
  s.updPort p (fun y => { y with recs := y.recs.map (fun z => if z.slot = x.slot then x else z) })
def State.dropRec (s : State) (p slot : Nat) : State :=
  s.updPort p (fun y => { y with recs := y.recs.filter (fun z => z.slot ≠ slot) })
/-- Bit h: slot h is open (SCR_OPEN). -/
def State.openMask (s : State) (p : Nat) : Nat := ((s.port p).recs.filter (fun x => x.isOpen)).foldl (fun v x => orBit v x.slot) 0

end Sys2Proof.Machine
end

