-- ==== Sys2Proof/Machine/Fabric.lean ====
section
/-! DEFINITION. The fabrics (R117, R118) and the routing procedure of a Beneš network (R126), as functions of circuits alone. -/

namespace Sys2Proof.Machine

/-- The ports and the cells of a descriptor (R116 to R118). -/
def Desc.ports (d : Desc) : Nat := 2 ^ d.logn
def Desc.positions (d : Desc) : Nat := (2 * d.logn - 1) * 2 ^ (d.logn - 1)
def Desc.cellCount (d : Desc) : Nat :=
  if d.kind = 1 then d.positions else if d.kind = 2 then 2 * d.positions else if d.kind = 3 then d.cells else 0

/-- Entry n of the AO list that the segments form (R118). -/
def segEntry (segs : List (Nat × Nat)) (n : Nat) : Option Nat :=
  match segs with
  | [] => none
  | (f, c) :: t => if n < c then some (f + n) else segEntry t (n - c)
/-- The place of an AO in that list. -/
def segIndex (segs : List (Nat × Nat)) (a : Nat) : Option Nat :=
  match segs with
  | [] => none
  | (f, c) :: t => if f ≤ a && a < f + c then some (a - f) else (segIndex t a).map (· + c)
/-- The AO that drive a cell, in the order of its members. -/
def Desc.members (d : Desc) (c : Nat) : List Nat := (List.range d.apc).filterMap (fun m => segEntry d.segs (d.apc * c + m))
/-- The cell of an AO. -/
def Desc.cellOf (d : Desc) (a : Nat) : Option Nat := (segIndex d.segs a).map (· / d.apc)

/-! ### The procedure of R126 -/

/-- A circuit in the network: its ports and the side it takes at each level, as far as it has been added; 0 is the upper sub-network. -/
structure Route where
  i : Nat
  o : Nat
  sides : List Nat
  deriving DecidableEq, Repr

/-- The circuit is carried by the sub-network that a prefix of sides leads to. -/
def Route.within (r : Route) (pre : List Nat) : Bool := pre.length < r.sides.length && r.sides.take pre.length = pre
def Route.side (r : Route) (l : Nat) : Nat := r.sides.getD l 0
/-- Its input and output in local numbering at level l. -/
def Route.li (r : Route) (l : Nat) : Nat := r.i / 2 ^ l
def Route.lo (r : Route) (l : Nat) : Nat := r.o / 2 ^ l
def flip1 (n : Nat) : Nat := if n % 2 = 0 then n + 1 else n - 1

/-- The circuit on the other port of the first-stage cell, or of the last-stage cell, of a circuit. -/
def firstMate (rs : List Route) (pre : List Nat) (r : Route) : Option Route :=
  rs.find? (fun q => q.within pre && q.li pre.length = flip1 (r.li pre.length))
def lastMate (rs : List Route) (pre : List Nat) (r : Route) : Option Route :=
  rs.find? (fun q => q.within pre && q.lo pre.length = flip1 (r.lo pre.length))

def modRoute (rs : List Route) (i : Nat) (f : Route → Route) : List Route := rs.map (fun q => if q.i = i then f q else q)
def setSide (rs : List Route) (i l x : Nat) : List Route :=
  modRoute rs i (fun q => { q with sides := q.sides.take l ++ [x] ++ q.sides.drop (l + 1) })
/-- The cells in the old sub-network are released. -/
def release (rs : List Route) (i l : Nat) : List Route := modRoute rs i (fun q => { q with sides := q.sides.take (l + 1) })

/-- The loop of R126: y moves to side 1 - x, the circuit on the other port of its first-stage cell to side x, and on from there; answers the circuits moved, in order. -/
def chaseLoop (fuel : Nat) (rs : List Route) (pre : List Nat) (x : Nat) (y : Route) : List Route × List Nat :=
  match fuel with
  | 0 => (rs, [])
  | n + 1 =>
    let rs := setSide rs y.i pre.length (1 - x)
    match firstMate rs pre y with
    | none => (rs, [y.i])
    | some z =>
      let rs := setSide rs z.i pre.length x
      match lastMate rs pre z with
      | none => (rs, [y.i, z.i])
      | some y' =>
        let r := chaseLoop n rs pre x y'
        (r.1, y.i :: z.i :: r.2)

/-- The side for a new circuit and what the loop moves (R126). -/
def chooseSide (rs : List Route) (pre : List Nat) (r : Route) : Nat × List Route × List Nat :=
  let l := pre.length
  match firstMate rs pre r, lastMate rs pre r with
  | none, none => (0, rs, [])
  | some a, none => (1 - a.side l, rs, [])
  | none, some b => (1 - b.side l, rs, [])
  | some a, some b =>
    let x := 1 - a.side l
    if a.side l = b.side l then (x, rs, [])
    else
      let m := chaseLoop (rs.length + 1) rs pre x b
      (x, m.1, m.2)

/-- Adds circuit i, whose sides so far lead to a sub-network with k levels below it (R126); the second part gathers the circuits moved, in order. -/
def addRoute (k : Nat) (st : List Route × List Nat) (i : Nat) : List Route × List Nat :=
  match k with
  | 0 => st
  | k + 1 =>
    match st.1.find? (fun q => q.i = i) with
    | none => st
    | some r =>
      let pre := r.sides
      let c := chooseSide st.1 pre r
      let rs := setSide c.2.1 i pre.length c.1
      let rs := c.2.2.foldl (fun rs j => release rs j pre.length) rs
      let st := c.2.2.foldl (fun st j => addRoute k st j) (rs, st.2 ++ c.2.2)
      addRoute k st i

/-- A new circuit from i to o in the whole fabric. -/
def addCircuit (logn : Nat) (rs : List Route) (i o : Nat) : List Route × List Nat :=
  addRoute (logn - 1) (rs ++ [⟨i, o, []⟩], []) i

/-! ### Paths (R117, R118) -/

/-- The first row of the sub-network that a route has reached at level l. -/
def rowBase (logn : Nat) (sides : List Nat) (l : Nat) : Nat :=
  ((List.range l).map (fun j => sides.getD j 0 * 2 ^ (logn - j - 2))).sum

/-- A position on a path: the cell, the port entered and the port left. -/
structure Hop where
  pos : Nat
  inp : Nat
  out : Nat

/-- The positions of a path (R117): the first stages, the middle stage, the last stages. -/
def benesPath (logn i o : Nat) (sides : List Nat) : List Hop :=
  let half := 2 ^ (logn - 1)
  let first := (List.range (logn - 1)).map (fun l =>
    (⟨l * half + rowBase logn sides l + i / 2 ^ (l + 1), i / 2 ^ l % 2, sides.getD l 0⟩ : Hop))
  let mid : Hop := ⟨(logn - 1) * half + rowBase logn sides (logn - 1), i / 2 ^ (logn - 1) % 2, o / 2 ^ (logn - 1) % 2⟩
  let last := (List.range (logn - 1)).map (fun l =>
    (⟨(2 * logn - 2 - l) * half + rowBase logn sides l + o / 2 ^ (l + 1), sides.getD l 0, o / 2 ^ l % 2⟩ : Hop))
  first ++ [mid] ++ last.reverse

/-- The cells of a path with their states (R118). -/
def Desc.pathCells (d : Desc) (i o : Nat) (sides : List Nat) (hops : List (Nat × Nat)) : List (Nat × Nat) :=
  if d.kind = 1 then (benesPath d.logn i o sides).map (fun h => (h.pos, if h.inp = h.out then 0 else 1))
  else if d.kind = 2 then (benesPath d.logn i o sides).map (fun h => (2 * h.pos + h.inp, if h.inp = h.out then 0 else 1))
  else hops

/-! ### Whole permutations (R129) -/

/-- Routes the connected inputs in ascending order, from an empty fabric. -/
def compileMap (logn : Nat) (pm : List (Nat × Nat)) : List Route :=
  pm.foldl (fun rs e => (addCircuit logn rs e.1 e.2).1) []

/-- The cell states of a compiled permutation; a cell without a circuit is BAR, or IDLE in a dilated fabric. -/
def Desc.compiled (d : Desc) (rs : List Route) : Map Nat :=
  let idle := (List.range d.cellCount).map (fun c => (c, if d.kind = 2 then 2 else 0))
  rs.foldl (fun m r => (d.pathCells r.i r.o r.sides []).foldl (fun m e => Map.ins m e.1 e.2) m) idle

end Sys2Proof.Machine
end

