-- ==== Sys2Proof/Machine/Route.lean ====
section
/-! DEFINITION. The Map Store, topology descriptors, the permutation library and the Route Unit (05: R114 to R136). -/

namespace Sys2Proof.Machine

/-! ### A partition's routing state -/

def State.rp (s : State) (p : Nat) : RtPart := Map.look s.rtu.parts p {}
/-- Puts a partition's routing state; RTU_PLANp and RTU_COLLp.COUNT show it. -/
def State.setRp (s : State) (p : Nat) (r : RtPart) : State :=
  let s := { s with rtu.parts := Map.ins s.rtu.parts p r }
  (((s.put F.RTU_PLAN_ENTRIES r.plan.length p).put F.RTU_PLAN_STAGED (r.plan.filter (fun e => e.stg)).length p).putB
    F.RTU_PLAN_TENT r.tent.isSome p).put F.RTU_COLL_COUNT (min 1024 r.coll.length) p
def State.updRp (s : State) (p : Nat) (f : RtPart → RtPart) : State := s.setRp p (f (s.rp p))

/-- A circuit of the pending state and of the committed state; FREE where nothing is listed. -/
def RtPart.cir (r : RtPart) (i : Nat) : Circ := Map.look r.circ i {}
def RtPart.cem (r : RtPart) (i : Nat) : Circ := Map.look r.com i {}
/-- The circuit uses its ports: ESTABLISHED, PENDING_SET, PENDING_MOVE or BROKEN. -/
def Circ.live (c : Circ) : Bool := c.status = 1 || c.status = 2 || c.status = 4 || c.status = 5
def RtPart.routes (r : RtPart) : List Route := (r.circ.filter (fun e => e.2.live)).map (fun e => ⟨e.1, e.2.out, e.2.sides⟩)

/-- A plan entry as its 32-bit word (R136). -/
def PlanEnt.word (e : PlanEnt) : Nat :=
  e.ao % 2 ^ 15 + e.state % 4 * 2 ^ 15 + b2n e.stg * 2 ^ 17 + b2n e.fen * 2 ^ 18 + b2n e.ref * 2 ^ 19 + e.circ % 2 ^ 10 * 2 ^ 22
/-- An entry of the collateral report as its two words (R133). -/
def Coll.words (c : Coll) : Nat :=
  c.inp % 2 ^ 10 + c.out % 2 ^ 10 * 2 ^ 16 + c.kind % 8 * 2 ^ 26
    + (c.owner % 2 ^ 13 + b2n c.noown * 2 ^ 13 + b2n c.self * 2 ^ 14 + c.aocnt % 2 ^ 16 * 2 ^ 16) * 2 ^ 32

/-- A word of the two regions of the RTU block that show the collateral reports and the plans (R152), by its offset in BAR0. -/
def State.rtuRegion (s : State) (a : Nat) : Option Nat :=
  let collBase := 0x240000
  let planBase := 0x280000
  if collBase ≤ a && a < collBase + 16 * 0x2000 then
    let r := s.rp ((a - collBase) / 0x2000)
    let o := (a - collBase) % 0x2000
    some (match r.coll[o / 8]? with
      | some c => bitsOf c.words (32 * (o / 4 % 2)) 32
      | none => 0)
  else if planBase ≤ a && a < planBase + 16 * 0x14000 then
    let r := s.rp ((a - planBase) / 0x14000)
    some (match r.plan[(a - planBase) % 0x14000 / 4]? with
      | some e => e.word
      | none => 0)
  else none

/-- The plan is emptied and the pending states revert to the committed ones. -/
def RtPart.revert (r : RtPart) : RtPart := { r with plan := [], closed := false, carry := [], mend := [], tent := none, circ := r.com, pcells := r.cells }
/-- A closed plan is replaced by an empty one at the next job, STAGE or PLAN.CLR (R136). -/
def RtPart.openPlan (r : RtPart) : RtPart := if r.closed then { r with plan := [], closed := false, carry := [], mend := [] } else r

/-! ### The Map Store (R114, R115, R122) -/

/-- A circuit as its 16 bytes (R122). -/
def Circ.bytes (c : Circ) : List Byte :=
  leBytes 4 (c.out + c.status * 65536) ++ leBytes 4 (c.owner + b2n c.noown * 8192) ++ leBytes 4 c.ns ++ leBytes 4 c.sec

/-- A byte of BAR2 as it is read: the circuit tables show the Route Unit's state. -/
def State.bar2Byte (s : State) (a : Nat) : Byte :=
  if mapBase + 0x10000 ≤ a && a < mapBase + 0x50000 then
    let o := a - mapBase - 0x10000
    ((s.rp (o / 0x4000)).cir (o % 0x4000 / 16)).bytes.getD (o % 16) 0
  else Memory.rd s.mem a
def State.bar2Bytes (s : State) (a n : Nat) : List Byte := (List.range n).map (fun i => s.bar2Byte (a + i))

/-- A bit of a library directory entry (R123). -/
def dirBase : Nat := mapBase + 0x600000
def poolBase : Nat := mapBase + 0x800000
def State.dirG (s : State) (e off lo w : Nat) : Nat := bitsOf (s.rdN (dirBase + e * 16 + off) 4) lo w
def State.libValid (s : State) (e : Nat) : Bool := s.dirG e 0 13 1 = 1
def State.libCompiled (s : State) (e : Nat) : Bool := s.dirG e 0 14 1 = 1
def State.setCompiled (s : State) (e : Nat) (b : Bool) : State :=
  s.wrN (dirBase + e * 16) 4 (setBitTo (s.rdN (dirBase + e * 16) 4) 14 b)
/-- The bytes of an entry's record: first and one past the last, in the pool. -/
def State.libSpan (s : State) (e : Nat) : Nat × Nat :=
  (s.dirG e 4 0 17 * 64, (s.dirG e 4 0 17 + s.dirG e 8 0 17) * 64)

/-- The entries whose COMPILED bit is set. -/
def State.compiledEntries (s : State) : List Nat :=
  (s.mem.filter (fun c => dirBase ≤ c.1 && c.1 < dirBase + 0x10000 && c.1 % 16 = 1 && bitOf c.2.toNat 6)).map (fun c => (c.1 - dirBase) / 16)

/-- A host write to a byte of the pool clears COMPILED of every entry whose record holds it (R115). -/
def State.poolTouched (s : State) (off : Nat) : State :=
  s.each s.compiledEntries (fun s e => if (s.libSpan e).1 ≤ off && off < (s.libSpan e).2 then s.setCompiled e false else s)

/-- A record lies in the path range of a loaded TABLE descriptor whose partition is not in HOLD (R115). -/
def State.pathLocked (s : State) (r : Nat) : Bool :=
  (List.range 16).any (fun p =>
    let d := (s.rp p).desc
    d.kind = 3 && s.pm p != 0 && d.pathBase ≤ r && r < d.pathBase + d.pathCnt)

/-- Whether the Map Store takes a host write of a byte (R115); none where the offset is unused. [DEDUCED: log 50] -/
def State.mapAccepts (s : State) (off : Nat) : Option Bool :=
  if off < 0x10000 then some (s.pm (off / 0x1000) = 0)
  else if off < 0x50000 then some false
  else if 0x100000 ≤ off && off < 0x240000 then
    let a := (off - 0x100000) / 64
    let m := s.pm (s.ga F.AO_CFG_PART a)
    some (!s.ona F.AO_CFG_OWNED a || m = 0 || m = 3 || m = 4)
  else if 0x400000 ≤ off && off < 0x600000 then some (!s.pathLocked ((off - 0x400000) / 64))
  else if 0x600000 ≤ off && off < 0x610000 then some true
  else if 0x800000 ≤ off && off < 0x1000000 then some true
  else none

/-- A tile that a frame can reach: its link is up and it is not fenced. -/
def State.live (s : State) (t : Nat) : Bool := (s.tl t).linkUp && !s.tileFenced t

/-- One byte written by the host to the Map Store (R115, R121). -/
def State.mapByte (s : State) (off : Nat) (b : Byte) : State :=
  match s.mapAccepts off with
  | none => s.latDecode 0 3 true (mapBase + off)
  | some false => s.put F.RTU_STAT_MAP_REFUSED 1
  | some true =>
    let s := { s with mem := Memory.wr s.mem (mapBase + off) b }
    if 0x100000 ≤ off && off < 0x240000 then { s with rtu.mirror := s.rtu.mirror ++ [(off, s.cycle, b)] }
    else if 0x600000 ≤ off && off < 0x610000 then s.setCompiled ((off - 0x600000) / 16) false
    else if 0x800000 ≤ off then s.poolTouched (off - 0x800000)
    else s

/-- [DEDUCED: log 50] -/
def State.mapBytes (s : State) (off : Nat) (bs : List Byte) : State :=
  match bs with
  | [] => s
  | b :: t => State.mapBytes (s.mapByte off b) (off + 1) t

/-- The library entry that the routing in progress reads (R115). -/
def State.readingEntry (s : State) : Option Nat :=
  ((s.rtu.parts.filter (fun e => e.2.running)).map (fun e => e.2.job.bind (fun j => j.perm))).findSome? id

/-- A write meets the entry or record that a routing is reading. -/
def State.libBusy (s : State) (off n : Nat) : Bool :=
  match s.readingEntry with
  | none => false
  | some e =>
    let lo := 0x800000 + (s.libSpan e).1
    let hi := 0x800000 + (s.libSpan e).2
    (off < 0x600000 + e * 16 + 16 && 0x600000 + e * 16 < off + n) || (off < hi && lo < off + n)

/-- A host write to the Map Store at an offset takes place (R115). [DEDUCED: log 50] -/
def State.mapStore (s : State) (off : Nat) (bs : List Byte) : State :=
  let all := (List.range bs.length).all (fun i => s.mapAccepts (off + i) = some true)
  (s.mapBytes off bs).when all (fun s => { s with ueWords := ueLeft s.ueWords (mapBase + off) bs.length })

/-- A host write to the Map Store (R115): held while a routing reads what it writes. -/
def mapStoreWrite (off : Nat) (bs : List Byte) (s : State) : State :=
  if s.libBusy off bs.length then { s with rtu.heldW := s.rtu.heldW ++ [(off, bs)] } else s.mapStore off bs

def execMapStoreWrite (off : BitVec 24) (bs : List Byte) (s : State) : Out := clocked s (fun s => mapStoreWrite off.toNat bs (s.grant 3 0))

/-! ### The state mirror (R120, R121) -/

/-- A byte of a tile's mirror: a write counts from 2 us after it was made (R121). -/
def State.mirrorByte (s : State) (off : Nat) : Byte :=
  match (s.rtu.mirror.filter (fun e => e.1 = off && e.2.1 + 2000 ≤ s.cycle)).getLast? with
  | some e => e.2.2
  | none => Memory.rd s.mem (mirrorBase + off)
/-- Word w of state entry n of an AO, from the mirror (R120). -/
def State.stateWord (s : State) (a n w : Nat) : Nat :=
  leNat ((List.range 4).map (fun i => s.mirrorByte (0x100000 + a * 64 + n * 16 + w * 4 + i)))

/-- The oldest write on its way is applied to the mirror of its tile, unless that tile is to receive its whole mirror again (R121). -/
def stateMirrorApply (s : State) : State :=
  match s.rtu.mirror with
  | [] => s
  | (off, c, b) :: rest =>
    if s.cycle < c + 2000 then s
    else
      let s := { s with rtu.mirror := rest }
      if s.live (aoTile ((off - 0x100000) / 64)) then { s with mem := Memory.wr s.mem (mirrorBase + off) b } else s

def execStateMirrorApply (s : State) : Out := clocked s stateMirrorApply

/-- The whole mirror of a tile is sent again (R121, R344). -/
def State.mirrorSync (s : State) (t : Nat) : State :=
  let lo := 0x100000 + t * 1280 * 64
  let inT (off : Nat) : Bool := lo ≤ off && off < lo + 1280 * 64
  let s := { s with
    rtu.mirror := s.rtu.mirror.filter (fun e => !inT e.1)
    mem := s.mem.filter (fun c => !(mirrorBase ≤ c.1 && inT (c.1 - mirrorBase))) }
  s.each (s.mem.filter (fun c => mapBase ≤ c.1 && inT (c.1 - mapBase))) (fun s c =>
    { s with mem := Memory.wr s.mem (mirrorBase + (c.1 - mapBase)) c.2 })

/-! ### The library (R123, R124) -/

/-- The port map of a record: connected inputs with their outputs. -/
def State.portMap (s : State) (e n : Nat) : List (Nat × Nat) :=
  ((List.range n).map (fun i => (i, s.rdN (poolBase + (s.libSpan e).1 + 2 * i) 2))).filter (fun x => x.2 != 0xFFFF)

def roundUp (n d : Nat) : Nat := ceilDiv n d * d
/-- The least record length in units of 64 bytes (R123). -/
def recordUnits (ports cells : Nat) : Nat := ceilDiv (roundUp (2 * ports) 64 + ceilDiv cells 4) 64

def distinct (l : List Nat) : Bool :=
  match l with
  | [] => true
  | a :: t => !t.contains a && distinct t

/-- The checks of R124 on an entry for a descriptor. -/
def State.libOk (s : State) (d : Desc) (e : Nat) : Bool :=
  let n := s.dirG e 0 0 11
  let kind := s.dirG e 0 11 2
  let pm := s.portMap e n
  s.libValid e && (d.kind = 1 || d.kind = 2) && kind = d.kind && n = d.ports
    && (s.libSpan e).2 ≤ 0x800000 && recordUnits n d.cellCount ≤ s.dirG e 8 0 17
    && pm.all (fun x => x.2 < n) && distinct (pm.map (fun x => x.2))

/-- Where the cell vector of an entry stands, and its cell c. -/
def State.vecAddr (s : State) (e n : Nat) : Nat := poolBase + (s.libSpan e).1 + roundUp (2 * n) 64
def State.vecCells (s : State) (e : Nat) (d : Desc) : Map Nat :=
  (List.range d.cellCount).map (fun c => (c, bitsOf (s.rdN (s.vecAddr e d.ports + c / 4) 1) (2 * (c % 4)) 2))

/-- Four cells as a byte of the vector. -/
def packCells (v : Map Nat) (i : Nat) : Byte :=
  BitVec.ofNat 8 (Map.look v (4 * i) 0 + 4 * Map.look v (4 * i + 1) 0 + 16 * Map.look v (4 * i + 2) 0 + 64 * Map.look v (4 * i + 3) 0)

/-- Compiles an entry (R124, R129): its cell vector is written and COMPILED set. -/
def State.compile (s : State) (d : Desc) (e : Nat) : State :=
  if s.libCompiled e then s
  else
    let v := d.compiled (compileMap d.logn (s.portMap e d.ports))
    (s.wrBs (s.vecAddr e d.ports) ((List.range (ceilDiv d.cellCount 4)).map (packCells v))).setCompiled e true

/-- The circuits of an entry, all ESTABLISHED and without owner (R119, R160). -/
def State.libCircuits (s : State) (d : Desc) (e : Nat) : Map Circ :=
  (compileMap d.logn (s.portMap e d.ports)).foldl
    (fun m r => Map.ins m r.i { out := r.o, status := 1, noown := true, sides := r.sides }) []

/-- Circuits and cells taken from an entry, or all FREE and UNKNOWN (R119, R160, R212). -/
def State.libState (s : State) (p : Nat) (e : Option Nat) : State :=
  let d := (s.rp p).desc
  match e with
  | some e =>
    if s.libOk d e && s.libCompiled e then
      let c := s.libCircuits d e
      let v := s.vecCells e d
      s.updRp p (fun r => { r with com := c, circ := c, cells := v, pcells := v })
    else s.updRp p (fun r => { r with com := [], circ := [], cells := [], pcells := [] })
  | none => s.updRp p (fun r => { r with com := [], circ := [], cells := [], pcells := [] })

/-! ### Plan caches (R140, R141) -/

/-- AO_PC_STATg follows the slots of a tile; one that was filled with nothing is not in use. [DEDUCED: log 49] -/
def State.pcSync (s : State) (t : Nat) : State :=
  s.each (List.range 4) (fun s g =>
    let l := s.rtu.cache.filter (fun c => c.tile = t && c.bank = g)
    (s.put F.AO_PC_STAT_PLANS (l.filter (fun c => !c.words.isEmpty)).length t g).put F.AO_PC_STAT_WORDS ((l.map (fun c => c.words.length)).sum) t g)

/-- A partition's slots are cleared in every tile. -/
def State.cacheClear (s : State) (p : Nat) : State :=
  let s := { s with rtu.cache := s.rtu.cache.filter (fun c => c.part ≠ p) }
  s.each (List.range 16) State.pcSync

def execRtuCacheClr (p : Part) (s : State) : Out := clocked s (fun s => s.cacheClear p.val)

/-- PLAN_CLR of the register (R152): refused unless the partition is in HOLD. -/
def rtuPlanClr (p : Nat) (s : State) : State := if s.pm p = 0 then s.updRp p RtPart.revert else s

def execRtuPlanClr (p : Part) (s : State) : Out := clocked s (rtuPlanClr p.val)

/-! ### Descriptors (R116, R119) -/

def State.descAt (s : State) (p : Nat) : Desc :=
  let w (o : Nat) : Nat := s.rdN (mapBase + p * 0x1000 + o) 4
  { kind := bitsOf (w 0) 0 2, logn := bitsOf (w 0) 4 4, apc := bitsOf (w 0) 8 3
    segs := (List.range (min 16 (bitsOf (w 4) 0 5))).map (fun i => (bitsOf (w (0x10 + 8 * i)) 0 15, bitsOf (w (0x10 + 8 * i)) 16 15))
    cells := bitsOf (w 4) 16 16, pathBase := bitsOf (w 8) 0 15, pathCnt := bitsOf (w 0xC) 0 16 }

/-- Two segments share an AO; one of count 0 has none. -/
def segsOverlap (l : List (Nat × Nat)) : Bool :=
  match l with
  | [] => false
  | (f, c) :: t => t.any (fun x => 0 < c && 0 < x.2 && f < x.1 + x.2 && x.1 < f + c) || segsOverlap t

/-- The first check of R119 that a descriptor fails; 0 none. -/
def State.descErr (s : State) (p : Nat) (d : Desc) : Nat :=
  let nseg := bitsOf (s.rdN (mapBase + p * 0x1000 + 4) 4) 0 5
  let tot := (d.segs.map (fun x => x.2)).sum
  if 3 < d.kind then 1
  else if d.logn < 1 || 10 < d.logn then 2
  else if (d.apc != 2 && d.apc != 4) || (d.apc = 4 && 512 < d.ports) then 3
  else if nseg < 1 || 16 < nseg || d.segs.any (fun x => 20480 < x.1 + x.2) || segsOverlap d.segs then 4
  else if d.segs.any (fun x => (List.range x.2).any (fun i => !(s.ona F.AO_CFG_OWNED (x.1 + i) && s.ga F.AO_CFG_PART (x.1 + i) = p))) then 5
  else if tot < (if d.kind = 3 then d.cells else d.cellCount) * d.apc then 6
  else if d.kind = 3 && (d.cells < 1 || 9728 < d.cells || 32768 < d.pathBase + d.pathCnt) then 7
  else if s.on F.RTU_PCFG_BASE_VALID p && !(s.libOk d (s.g F.RTU_PCFG_BASE p) && s.libCompiled (s.g F.RTU_PCFG_BASE p)) then 8
  else 0

/-- LOAD (R119): accepted only in HOLD; it empties the plan, clears the cache slots, frees the circuits. -/
def rtuLoad (p : Nat) (s : State) : State :=
  if s.pm p != 0 then s.put F.RTU_STAT_MAP_REFUSED 1
  else
    let s := s.put F.RTU_PSTAT_DESC_VALID 0 p
    (s.updRp p (fun r => { r with loading := true, desc := {}, com := [], circ := [], cells := [], pcells := [], plan := [], closed := false, carry := [], mend := [], tent := none, hint := none, cached := [], cmiss := false })).cacheClear p

def execRtuLoad (p : Part) (s : State) : Out := clocked s (rtuLoad p.val)

/-- The load completes (R119). -/
def rtuLoadDone (p : Nat) (s : State) : State :=
  if !(s.rp p).loading || s.engGated then s
  else
    let d := s.descAt p
    let s := (s.updRp p (fun r => { r with loading := false })).grant 3 6
    if d.kind = 0 then s.put F.RTU_PSTAT_DESC_ERR 0 p
    else
      let e := s.descErr p d
      if e != 0 then s.put F.RTU_PSTAT_DESC_ERR e p
      else
        let s := (s.put F.RTU_PSTAT_DESC_ERR 0 p).put F.RTU_PSTAT_DESC_VALID 1 p
        let s := s.updRp p (fun r => { r with desc := d })
        if s.on F.RTU_PCFG_BASE_VALID p then s.libState p (some (s.g F.RTU_PCFG_BASE p)) else s

def execRtuLoadDone (p : Part) (s : State) : Out := clocked s (rtuLoadDone p.val)

/-! ### A routing (R125 to R129) -/

/-- The status of a circuit that keeps its ports, against the committed one: where its path is the committed one the status is too, else PENDING_MOVE; where the plan sets it, PENDING_SET. [DEDUCED: log 44] -/
def liveStatus (com c : Circ) : Nat :=
  if com.live && com.out = c.out && c.gone.isNone then (if com.sides = c.sides && com.hops = c.hops then com.status else 4) else 2

/-- What is left of a circuit that a job takes away: PENDING_CLEAR where the input has a committed circuit, with the ring that took that away, else nothing. [DEDUCED: log 44] -/
def takenAway (com c : Circ) (ring : Option Nat) : Circ :=
  if com.live then { com with status := 3, req := ring, gone := some (c.gone.getD ring) } else {}

/-- What a routing works on: the pending circuits, the circuits moved in order, those to be emitted in order (with whether every cell is), and those that lost their path. -/
structure RtWork where
  circ : Map Circ
  moved : List Nat := []
  emit : List (Nat × Bool) := []
  lost : List (Nat × Circ) := []

def RtWork.cir (w : RtWork) (i : Nat) : Circ := Map.look w.circ i {}
def RtWork.routes (w : RtWork) : List Route := (w.circ.filter (fun e => e.2.live)).map (fun e => ⟨e.1, e.2.out, e.2.sides⟩)

/-- A clear (R125); none where it names another ring's circuit. [DESIGN CHOICE: log 43; DEDUCED: log 46] -/
def clearOp (com : Map Circ) (ring : Option Nat) (priv : Bool) (w : RtWork) (i : Nat) : Option RtWork :=
  let c := w.cir i
  if !c.live then some w
  else if !c.noown && ring != some c.owner && !priv then none
  else
    some { w with circ := Map.ins w.circ i (takenAway (Map.look com i {}) c ring), lost := w.lost ++ [(i, c)], emit := w.emit.filter (fun e => e.1 ≠ i) }

/-- The routes after a set, put back into the circuits: a circuit that moved takes its new path. -/
def applyRoutes (com : Map Circ) (ring : Option Nat) (w : RtWork) (rs : List Route) (mv : List Nat) : RtWork :=
  mv.foldl (fun w j =>
    match rs.find? (fun q => q.i = j) with
    | none => w
    | some q =>
      let c := w.cir j
      let n := { c with sides := q.sides, req := ring }
      let n := { n with status := if c.status = 2 then 2 else liveStatus (Map.look com j {}) n }
      { w with circ := Map.ins w.circ j n, lost := w.lost ++ [(j, c)]
               moved := if w.moved.contains j then w.moved else w.moved ++ [j]
               emit := w.emit.filter (fun e => e.1 ≠ j) ++ [(j, false)] }) w

/-- The first record of a TABLE partition's path range for a pair of ports (R128). -/
def State.pathRecord (s : State) (d : Desc) (i o : Nat) : Option (List (Nat × Nat)) :=
  let at' (r off : Nat) : Nat := s.rdN (mapBase + 0x400000 + r * 64 + off) 2
  ((List.range d.pathCnt).find? (fun n => at' (d.pathBase + n) 0 = i && at' (d.pathBase + n) 2 = o)).map (fun n =>
    let r := d.pathBase + n
    (List.range (min 28 (at' r 4))).map (fun h => (bitsOf (at' r (8 + 2 * h)) 0 14, bitsOf (at' r (8 + 2 * h)) 14 2)))

/-- A hop names a cell that another pending circuit holds in a different state (R128). -/
def hopsClash (w : RtWork) (hops : List (Nat × Nat)) : Bool :=
  w.circ.any (fun e => e.2.live && e.2.hops.any (fun h => hops.any (fun x => x.1 = h.1 && x.2 != h.2)))

/-- A set (R125, R126, R128); the error is a result code of R131. [DEDUCED: log 42, 44, 46; DESIGN CHOICE: log 43] -/
def State.setOp (s : State) (d : Desc) (com : Map Circ) (ring : Option Nat) (w : RtWork) (i o : Nat) : Except Nat RtWork :=
  let c := w.cir i
  let own := match ring with
    | some r => r
    | none => 0
  if c.status = 1 && c.out = o then .ok w
  else if c.status = 5 && c.out = o && !c.noown && ring = some c.owner then
    .ok { w with circ := Map.ins w.circ i { c with status := 2, req := ring }, emit := w.emit.filter (fun e => e.1 ≠ i) ++ [(i, true)] }
  else if c.live || w.circ.any (fun e => e.2.live && e.2.out = o) then .error 2
  else if d.kind = 3 then
    match s.pathRecord d i o with
    | none => .error 5
    | some hops =>
      if hopsClash w hops then .error 5
      else
        let n : Circ := { out := o, status := 2, owner := own, noown := ring.isNone, hops := hops, req := ring, gone := c.gone }
        .ok { w with circ := Map.ins w.circ i n, emit := w.emit.filter (fun e => e.1 ≠ i) ++ [(i, false)] }
  else
    let r := addCircuit d.logn w.routes i o
    let w := applyRoutes com ring w r.1 r.2
    let sides := match r.1.find? (fun q => q.i = i) with
      | some q => q.sides
      | none => []
    let n : Circ := { out := o, status := 2, owner := own, noown := ring.isNone, sides := sides, req := ring, gone := c.gone }
    .ok { w with circ := Map.ins w.circ i n, emit := w.emit.filter (fun e => e.1 ≠ i) ++ [(i, false)] }

/-- All clears in list order, then all sets in list order (R125). -/
def clearAll (com : Map Circ) (ring : Option Nat) (priv : Bool) (w : RtWork) (l : List CircOp) : Except Nat RtWork :=
  match l with
  | [] => .ok w
  | x :: t =>
    match clearOp com ring priv w x.inp with
    | none => .error 3
    | some w => clearAll com ring priv w t

def State.setAll (s : State) (d : Desc) (com : Map Circ) (ring : Option Nat) (w : RtWork) (l : List CircOp) : Except Nat RtWork :=
  match l with
  | [] => .ok w
  | x :: t =>
    match s.setOp d com ring w x.inp x.out with
    | .error e => .error e
    | .ok w => s.setAll d com ring w t

/-! ### The plan builder (R127, R128, R136) -/

/-- A cell that a plan is to put into a state: the input that caused it, and whether its entries are made whatever the cell's state. -/
structure CellReq where
  cell : Nat
  state : Nat
  cause : Nat
  force : Bool := false
  full : Bool := false

/-- The cells that an incremental job needs: the paths of circuits moved and set; in a dilated fabric, IDLE for the cells that have lost their circuit (R127, R128). -/
def Desc.cellReqs (d : Desc) (w : RtWork) : List CellReq :=
  let on := w.emit.flatMap (fun e =>
    let c := w.cir e.1
    (d.pathCells e.1 c.out c.sides c.hops).map (fun x => (⟨x.1, x.2, e.1, e.2, false⟩ : CellReq)))
  if d.kind != 2 then on
  else
    let used := (w.circ.filter (fun e => e.2.live)).flatMap (fun e => (d.pathCells e.1 e.2.out e.2.sides e.2.hops).map (fun x => x.1))
    on ++ w.lost.flatMap (fun e =>
      ((d.pathCells e.1 e.2.out e.2.sides e.2.hops).filter (fun x => !used.contains x.1)).map (fun x => (⟨x.1, 2, e.1, false, false⟩ : CellReq)))

/-- An entry joins a plan (R136): it replaces one of the same AO; one whose state equals the committed state is removed, unless it is of the full form (R208) or re-emitted (R122). [DEDUCED: log 45] -/
def planAdd (plan : List PlanEnt) (com : Option Nat) (e : PlanEnt) : List PlanEnt :=
  if !e.full && com = some e.state then plan.filter (fun x => x.ao ≠ e.ao)
  else if plan.any (fun x => x.ao = e.ao) then plan.map (fun x => if x.ao = e.ao then e else x)
  else plan ++ [e]

/-- What the plan builder has made so far: plan, pending cells, and the entries made for each input. -/
structure PlanWork where
  plan : List PlanEnt
  pcells : Map Nat
  made : List Nat := []

/-- A cell's new state enters the plan (R127): an entry for each of its members, with the circuit that caused it; a cell that already has that state is passed over, so of two circuits the first in emit order is the cause. [DEDUCED: log 45; DESIGN CHOICE: log 252] -/
def Desc.planCell (d : Desc) (cells : Map Nat) (w : PlanWork) (q : CellReq) : PlanWork :=
  if !q.force && !q.full && Map.find w.pcells q.cell = some q.state then w
  else
    let ms := d.members q.cell
    { plan := ms.foldl (fun pl a => planAdd pl (Map.find cells q.cell) { ao := a, state := q.state, circ := q.cause, cell := q.cell, full := q.full || q.force }) w.plan
      pcells := Map.ins w.pcells q.cell q.state
      made := if !q.force && !q.full && Map.find cells q.cell = some q.state then w.made else w.made ++ ms.map (fun _ => q.cause) }

/-! ### Jobs (R125, R129 to R134) -/

/-- What a job comes to before its policy is applied: a result code of R131 and, when OK, the partition's new state and the report. -/
structure JobOut where
  part : RtPart
  coll : List Coll

def sortColl (l : List Coll) : List Coll :=
  (List.range 1024).flatMap (fun i => l.filter (fun c => c.inp = i))

/-- An incremental job (R125 to R128). -/
def State.routeOps (s : State) (r : RtPart) (j : Job) : Except Nat JobOut :=
  let d := r.desc
  if j.ops.any (fun x => d.ports ≤ x.inp || (!x.clr && d.ports ≤ x.out)) then .error 4
  else
    match clearAll r.com j.ring j.priv { circ := r.circ } (j.ops.filter (fun x => x.clr)) with
    | .error e => .error e
    | .ok w =>
      match s.setAll d r.com j.ring w (j.ops.filter (fun x => !x.clr)) with
      | .error e => .error e
      | .ok w =>
        let pw := (d.cellReqs w).foldl (d.planCell r.cells) { plan := r.plan, pcells := r.pcells }
        let est (i : Nat) : Bool := (r.cem i).status = 1 && ((r.cir i).status = 1 || (r.cir i).status = 4)
        let coll := (w.moved.filter est).map (fun i =>
          let c := r.cir i
          { inp := i, out := c.out, kind := 0, owner := c.owner, noown := c.noown, self := !c.noown && j.ring = some c.owner
            aocnt := (pw.made.filter (fun x => x = i)).length : Coll })
        .ok { part := { r with circ := w.circ, plan := pw.plan, pcells := pw.pcells }, coll := sortColl coll }

/-- The circuits after PERM_APPLY (R129): the port map, owned by the requesting ring; without a ring, by none. -/
def permCircuits (r : RtPart) (ring : Option Nat) (rs : List Route) : Map Circ :=
  let own := match ring with
    | some n => n
    | none => 0
  let away := r.circ.map (fun e => (e.1, takenAway (r.cem e.1) e.2 ring))
  rs.foldl (fun m q =>
    let k := r.cem q.i
    let c := r.cir q.i
    let n : Circ := { out := q.o, owner := own, noown := ring.isNone, ns := k.ns, sec := k.sec, sides := q.sides, req := ring
                      gone := if c.gone.isNone && c.live && c.out = q.o then none else (takenAway k c ring).gone }
    Map.ins m q.i { n with status := if k.status = 5 then 2 else liveStatus k n }) away

/-- PERM_APPLY of an entry that passed its checks and is compiled (R129, R208); dflt is the CIRC of entries whose cell carries no circuit, which the spec does not state (log entry 6); of two circuits through a cell the one from the lower input is its cause. [DESIGN CHOICE: log 252] -/
def State.routePerm (s : State) (r : RtPart) (j : Job) (e dflt : Nat) : JobOut :=
  let d := r.desc
  let rs := compileMap d.logn (s.portMap e d.ports)
  let vec := s.vecCells e d
  let cause := rs.foldl (fun m q => (d.pathCells q.i q.o q.sides []).foldl (fun m x => if (Map.find m x.1).isSome then m else Map.ins m x.1 q.i) m) ([] : Map Nat)
  let reqs := vec.map (fun x => (⟨x.1, x.2, Map.look cause x.1 dflt, false, j.full⟩ : CellReq))
  let pw := reqs.foldl (d.planCell r.cells) { plan := r.plan, pcells := r.pcells }
  let coll := (r.circ.filter (fun c => c.2.live)).filterMap (fun c =>
    let self := !c.2.noown && j.ring = some c.2.owner
    let mk (k n : Nat) : Coll := { inp := c.1, out := c.2.out, kind := k, owner := c.2.owner, noown := c.2.noown, self := self, aocnt := n }
    match rs.find? (fun q => q.i = c.1 && q.o = c.2.out) with
    | some q => if q.sides = c.2.sides then none else some (mk 0 (pw.made.filter (fun x => x = c.1)).length)
    | none => if self || c.2.noown then none else some (mk 1 0))
  { part := { r with circ := permCircuits r j.ring rs, plan := pw.plan, pcells := pw.pcells }, coll := sortColl coll }

/-- The policy in force for a job (R134): 0 ALLOW, 1 DEFER, 2 and 3 REJECT. -/
def State.policy (s : State) (p : Nat) (j : Job) : Nat :=
  if j.pol = 1 then s.g F.RTU_PCFG_POL_SET p else if j.pol = 2 then s.g F.RTU_PCFG_POL_PERM p else 0

/-- The job has routed: its plan must fit, its collateral must be allowed (R131, R133, R134). [DESIGN CHOICE: log 43] -/
def State.judge (s : State) (p : Nat) (j : Job) (r : RtPart) (o : JobOut) : State × Nat :=
  if 20480 < o.part.plan.length then (s, 6)
  else
    let counted := if s.on F.RTU_PCFG_SELF_EXEMPT p then o.coll.filter (fun c => !c.self) else o.coll
    let s := s.putB F.RTU_COLL_SELF_ONLY (!o.coll.isEmpty && o.coll.all (fun c => c.self)) p
    if s.policy p j = 0 || counted.isEmpty then
      (s.setRp p { o.part with coll := o.coll, tent := some { circ := r.circ, pcells := r.pcells, plan := r.plan } }, 0)
    else ((s.put F.RTU_COLL_WITHDRAWN 1 p).updRp p (fun x => { x with coll := o.coll }), 1)

/-- A job's whole outcome (R124, R125, R131, R132). [DESIGN CHOICE: log 43] -/
def State.runJob (s : State) (p : Nat) (j : Job) : State × Nat :=
  let r := s.rp p
  if s.pm p = 2 then (s, 9)
  else if s.partFenced p then (s, 8)
  else if r.desc.kind = 0 then (s, 7)
  else
    match j.perm with
    | none =>
      if s.on F.RTU_STAT_FENCED then (s, 8)
      else
        match s.routeOps r j with
        | .error e => (s, e)
        | .ok o => s.judge p j r o
    | some e =>
      if !s.libOk r.desc e then (s, 11)
      else if s.on F.RTU_STAT_FENCED && !s.libCompiled e then (s, 10)
      else
        let s := s.compile r.desc e
        let o := s.routePerm r j e (s.fresh.toNat % 1024)
        s.bump.judge p j r o

/-- A routing job is submitted (R239): the first one of a record brings back the DTU of its request when it returns. -/
def State.countJob (s : State) (p : Nat) (j : Job) : State × Job :=
  match j.handle.bind (s.findRec p) with
  | none => (s, j)
  | some x =>
    (s.setRec p { x with req := { x.req with jobs := x.req.jobs + 1 } }, { j with refund := if x.req.jobs = 0 && !x.orphan then x.req.dtu else 0 })

/-- A routing job returns (R239): the refund it brings, and the plan's growth of an OK result, whether its record is still open or not. [DEDUCED: log 227] -/
def State.jobCharge (s : State) (p : Nat) (j : Job) (ok : Bool) (growth : Nat) : State :=
  let g := if ok then growth else 0
  let s := s.setRemain p (s.remain p + j.refund - g)
  match j.handle.bind (s.findRec p) with
  | none => s
  | some x => s.setRec p { x with req := { x.req with back := true, growth := x.req.growth + g } }

/-- A request of a record ends and its whole charge is refunded: an outstanding job of it brings no refund any more. [DEDUCED: log 227] -/
def State.noRefund (s : State) (p handle : Nat) : State :=
  s.updRp p (fun r => { r with job := r.job.map (fun j => if j.handle = some handle then { j with refund := 0 } else j) })

/-- A job has its result (R209, R239). -/
def State.endJob (s : State) (p : Nat) (j : Job) (res growth : Nat) : State :=
  (s.updRp p (fun r => { r with job := none, running := false, last := res })).jobCharge p j (res = 0) growth

/-- The Route Unit takes the next waiting job, round-robin by partition (R130), unless it is clock-gated (R371). -/
def routeJobStart (s : State) : State :=
  if s.on F.RTU_STAT_BUSY || s.engGated then s
  else
    match ((List.range 16).map (fun i => (s.rtu.served + 1 + i) % 16)).find? (fun p => (s.rp p).job.isSome) with
    | none => s
    | some p =>
      let s := { s with rtu.served := p }
      ((s.put F.RTU_STAT_BUSY 1).put F.RTU_STAT_CUR_PART p).updRp p (fun r => { r.openPlan with running := true })

def execRouteJobStart (s : State) : Out := clocked s routeJobStart

/-- Library writes held during the routing land (R115). -/
def State.releaseHeld (s : State) : State :=
  let l := s.rtu.heldW
  { s with rtu.heldW := [] }.each l (fun s w => s.mapStore w.1 w.2)

/-- The job in its turn returns (R125, R131, R132); bad: the Route Unit finds an inconsistency in itself. [DEDUCED: log 175] -/
def routeJobDone (bad : Bool) (s : State) : State :=
  let p := s.g F.RTU_STAT_CUR_PART
  let r := s.rp p
  match r.job with
  | none => s
  | some j =>
    if !r.running || s.engGated then s
    else
      let before := r.plan.length
      let out := if bad then ((s.put F.RTU_STAT_FAULT 1).raise 26 p, 8) else s.runJob p j
      let growth := (out.1.rp p).plan.length - before
      ((out.1.endJob p j out.2 growth).put F.RTU_STAT_BUSY 0).releaseHeld

def execRouteJobDone (bad : Bool) (s : State) : Out := clocked s (routeJobDone bad)

/-- A new job of a partition ends what the last one left: the report goes, its group is final, a closed plan is emptied (R125, R133, R136). [DEDUCED: log 79] -/
def State.newJob (s : State) (p : Nat) : State :=
  ((s.put F.RTU_COLL_WITHDRAWN 0 p).put F.RTU_COLL_SELF_ONLY 0 p).updRp p (fun r => { r.openPlan with coll := [], tent := none })

/-- A job that returns as it is submitted, with a result (R207). -/
def State.failJob (s : State) (p : Nat) (j : Job) (res : Nat) : State :=
  let r := (s.newJob p).countJob p j
  r.1.endJob p r.2 res 0

/-- A job is submitted (R125, R132, R207): in ROTOR, or an op list while the Route Unit is fenced, it returns at once. [DESIGN CHOICE: log 43; DEDUCED: log 77, 79] -/
def State.submit (s : State) (p : Nat) (j : Job) : State :=
  let r := (s.newJob p).countJob p j
  let s := r.1
  let j := r.2
  let now (res : Nat) : State := s.endJob p j res 0
  if s.pm p = 2 then now 9
  else if s.partFenced p || (s.on F.RTU_STAT_FENCED && j.perm.isNone) then now 8
  else s.updRp p (fun r => { r with job := some j })

end Sys2Proof.Machine
end

