-- ==== Sys2Proof/Machine/Barista.lean ====
section
/-! DEFINITION. Barista (09: R224 to R246): rings, metering, shaping, arbitration, slot budgets, ending a ring, schedule frames. -/

namespace Sys2Proof.Machine

/-! ### Profiles and buckets (R234 to R236) -/

def State.ringSvc (s : State) (n : Nat) : Nat := s.g F.BRS_RING_CFG_SVC n
def State.svcPort (s : State) (v : Nat) : Nat := s.g F.BRS_SVC_CFG_PORT v
def State.ringPort (s : State) (n : Nat) : Nat := s.svcPort (s.ringSvc n)
def State.svc (s : State) (v : Nat) : SvcSt := Map.look s.brs.svcs v {}
def State.updSvc (s : State) (v : Nat) (f : SvcSt → SvcSt) : State := { s with brs.svcs := Map.upd s.brs.svcs v {} f }

/-- CBS, and PBS or EBS, in 1/256 TU. -/
def State.mpDepth (s : State) (i : Nat) : Nat × Nat := (256 * s.g F.BRS_MP_BKT_CBS i, 256 * s.g F.BRS_MP_BKT_PBS i)
def State.spDepth (s : State) (i : Nat) : Int := 256 * (s.g F.BRS_SP_CFG_DEPTH i : Int)

/-- The buckets of a ring's meter, and of the shapers of a ring and of a service. -/
def State.meterOf (s : State) (n : Nat) : Nat × Nat :=
  (s.ring n).meter.getD (Map.look s.brs.mpDef (s.g F.BRS_RING_CFG_MPROF n) (0, 0))
def State.ringS (s : State) (n : Nat) : Int := (s.ring n).s.getD (Map.look s.brs.spDef (s.g F.BRS_RING_CFG2_SPROF n) 0)
def State.svcS (s : State) (v : Nat) : Int := (s.svc v).s.getD (Map.look s.brs.spDef (s.svc v).sprof 0)

/-- The meter buckets after 1 us (R234). -/
def State.meterFill (s : State) (i : Nat) (b : Nat × Nat) : Nat × Nat :=
  let d := s.mpDepth i
  let mode := s.g F.BRS_MP_CFG_MODE i
  let t := b.1 + s.g F.BRS_MP_CIR_CIR i
  if mode = 1 then (min d.1 t, if d.1 < t then min d.2 (b.2 + (t - d.1)) else b.2)
  else if mode = 2 then (min d.1 t, min d.2 (b.2 + s.g F.BRS_MP_PIR_PIR i))
  else b

/-- A shaper bucket after 1 us (R235). -/
def State.shapeFill (s : State) (i : Nat) (b : Int) : Int :=
  if s.g F.BRS_SP_CFG_MODE i = 1 then min (s.spDepth i) (b + (s.g F.BRS_SP_RATE_RATE i : Int)) else b

/-- A shaper lets its ring or service take part (R235). -/
def State.shapeOpen (s : State) (i : Nat) (b : Int) : Bool := s.g F.BRS_SP_CFG_MODE i != 1 || 0 < b

/-- The test of a request of cost c (R234): 0 green, 1 yellow, 2 red, and the buckets after it. -/
def State.meterTest (s : State) (i c : Nat) (b : Nat × Nat) : Nat × (Nat × Nat) :=
  let q := 256 * c
  let mode := s.g F.BRS_MP_CFG_MODE i
  if mode = 1 then (if q ≤ b.1 then (0, (b.1 - q, b.2)) else if q ≤ b.2 then (1, (b.1, b.2 - q)) else (2, b))
  else if mode = 2 then (if b.2 < q then (2, b) else if b.1 < q then (1, (b.1, b.2 - q)) else (0, (b.1 - q, b.2 - q)))
  else (0, b)

/-! ### Eligibility and round order (R237) -/

/-- A ring is eligible in the pass of its head's colour. [DEDUCED: log 82] -/
def State.ringElig (s : State) (n colour : Nat) : Bool :=
  (match (s.ring n).pend with
    | r :: _ => r.colour = colour
    | [] => false) && s.shapeOpen (s.g F.BRS_RING_CFG2_SPROF n) (s.ringS n)

def SvcSt.rings (x : SvcSt) (colour : Nat) : List Nat := if colour = 0 then x.ringsG else x.ringsY
def SvcSt.setRings (x : SvcSt) (colour : Nat) (l : List Nat) : SvcSt := if colour = 0 then { x with ringsG := l } else { x with ringsY := l }
/-- [DEDUCED: log 81] -/
def SvcSt.drr (x : SvcSt) (colour : Nat) : Drr := if colour = 0 then x.drrG else x.drrY
def SvcSt.setDrr (x : SvcSt) (colour : Nat) (d : Drr) : SvcSt := if colour = 0 then { x with drrG := d } else { x with drrY := d }

/-- A service is eligible in a colour (R237). [DEDUCED: log 82] -/
def State.svcElig (s : State) (v colour : Nat) : Bool :=
  s.on F.BRS_SVC_CFG_EN v && s.shapeOpen (s.svc v).sprof (s.svcS v) && !((s.svc v).rings colour).isEmpty

/-- The settings of a service that wait for its next quantum come into force (R246); another shaper profile starts full (R236). [DEDUCED: log 84] -/
def State.svcTake (s : State) (v : Nat) : State :=
  let p := s.g F.BRS_SVC_CFG_SPROF v
  s.updSvc v (fun x =>
    let x := { x with cls := s.g F.BRS_SVC_CFG_CLASS v }
    if x.sprof = p then x else { x with sprof := p, s := some (s.spDepth p) })

/-- The round order of a service's rings in a colour follows eligibility: who is not eligible leaves with deficit 0, who has become so joins at the end. [DEDUCED: log 81] -/
def State.syncRings (s : State) (v colour : Nat) : State :=
  let old := (s.svc v).rings colour
  let elig := (s.brs.rings.filter (fun e => s.ringSvc e.1 = v && s.ringElig e.1 colour)).map (fun e => e.1)
  let gone := old.filter (fun n => !elig.contains n)
  let s := s.each gone (fun s n => if s.ringElig n (1 - colour) then s else s.updRing n (fun r => { r with drr := {} }))
  s.updSvc v (fun x => x.setRings colour (old.filter (fun n => elig.contains n) ++ elig.filter (fun n => !old.contains n)))

/-- The round order of a port's services in a class and colour. [DEDUCED: log 81] -/
def State.syncSvcs (s : State) (p cls colour : Nat) : State :=
  let key := 2 * cls + colour
  let old := Map.look (s.port p).rounds key []
  let elig := (s.brs.svcs.filter (fun e => s.svcPort e.1 = p && e.2.cls = cls && s.svcElig e.1 colour)).map (fun e => e.1)
  let gone := old.filter (fun v => !elig.contains v)
  let s := s.each gone (fun s v => s.updSvc v (fun x => x.setDrr colour {}))
  s.updPort p (fun x => { x with rounds := Map.ins x.rounds key (old.filter (fun v => elig.contains v) ++ elig.filter (fun v => !old.contains v)) })

/-- Round orders and backlogs after anything that may have changed eligibility. [DEDUCED: log 84] -/
def State.syncRounds (s : State) : State :=
  let vs := (s.brs.rings.map (fun e => s.ringSvc e.1)).eraseDups
  let all := vs ++ ((s.brs.svcs.map (fun e => e.1)).filter (fun v => !vs.contains v))
  let s := s.each all (fun s v =>
    let s := (s.syncRings v 0).syncRings v 1
    let n := ((s.svc v).ringsG ++ (s.svc v).ringsY).length
    (s.when (n = 0) (fun s => s.svcTake v)).put F.BRS_SVC_STAT_BACKLOG n v)
  s.each ((all.map s.svcPort).eraseDups) (fun s p => s.each (List.range 8) (fun s k => s.syncSvcs p (k / 2) (k % 2)))

/-! ### The picks (R237) -/

def rotate (l : List Nat) : List Nat := match l with
  | [] => []
  | a :: t => t ++ [a]

/-- [DEDUCED: log 83] -/
def State.quantum (s : State) : Nat := max 1 (s.g F.BRS_QUANTUM_QUANTUM)
def Req.cost (r : Req) : Nat := r.dtu + r.ovh

/-- How many times a member that needs cost takes its quantum of q before it is picked, at most. -/
def drrRounds (cost deficit : Int) (q : Nat) : Nat := (cost - deficit).toNat / q + 2
/-- Rotations that suffice for a pick among members that need so many rounds each: the selection is the one of repeated rotation, even where many rounds are needed (R237). -/
def drrFuel (rounds : List Nat) : Nat := (rounds.foldl max 0 + 1) * rounds.length + 1

def State.ringQuantum (s : State) (n : Nat) : Nat := max 1 (s.g F.BRS_RING_CFG2_RWT n) * s.quantum
/-- The rotations of the ring-level pick of a service. -/
def State.ringFuel (s : State) (v colour : Nat) : Nat :=
  drrFuel (((s.svc v).rings colour).map (fun n => drrRounds (((s.ring n).pend.head?.map Req.cost).getD 0 : Nat) (s.ring n).drr.deficit (s.ringQuantum n)))

/-- The ring-level pick within a service. -/
def State.ringPick (s : State) (fuel v colour : Nat) : State × Option Req :=
  match fuel with
  | 0 => (s, none)
  | k + 1 =>
    match (s.svc v).rings colour with
    | [] => (s, none)
    | n :: _ =>
      match (s.ring n).pend with
      | [] => (s, none)
      | r :: _ =>
        let q := s.ringQuantum n
        let d := (s.ring n).drr
        let d := if d.fresh then { deficit := d.deficit + q, fresh := false : Drr } else d
        let s := s.updRing n (fun x => { x with drr := d })
        if (r.cost : Int) ≤ d.deficit then (s, some r)
        else
          let s := s.updRing n (fun x => { x with drr := { d with fresh := true } })
          State.ringPick (s.updSvc v (fun x => x.setRings colour (rotate (x.rings colour)))) k v colour

/-- The quantum of a service (R237): weighted by its eligible rings with BWS = 1. -/
def State.svcQuantum (s : State) (v colour : Nat) : Nat :=
  let n := ((s.svc v).rings colour).length
  max 1 (s.g F.BRS_SVC_CFG_WEIGHT v) * (if s.on F.BRS_SVC_CFG_BWS v then min n (max 1 (s.g F.BRS_SVC_CFG_BCAP v)) else 1) * s.quantum
/-- The rotations of the service-level pick: the cost of a service is that of the request its ring-level pick returns. -/
def State.svcFuel (s : State) (p key : Nat) : Nat :=
  let colour := key % 2
  drrFuel ((Map.look (s.port p).rounds key []).map (fun v =>
    drrRounds (((s.ringPick (s.ringFuel v colour) v colour).2.map Req.cost).getD 0 : Nat) ((s.svc v).drr colour).deficit (s.svcQuantum v colour)))

/-- The service-level pick within a class and colour of a port. -/
def State.svcPick (s : State) (fuel p key : Nat) : State × Option Req :=
  match fuel with
  | 0 => (s, none)
  | k + 1 =>
    let colour := key % 2
    match Map.look (s.port p).rounds key [] with
    | [] => (s, none)
    | v :: _ =>
      let d := (s.svc v).drr colour
      let s := if d.fresh then s.svcTake v else s
      let d := if d.fresh then { deficit := d.deficit + s.svcQuantum v colour, fresh := false : Drr } else d
      let s := s.updSvc v (fun x => x.setDrr colour d)
      match s.ringPick (s.ringFuel v colour) v colour with
      | (s, none) => (s, none)
      | (s, some r) =>
        if (r.cost : Int) ≤ d.deficit then (s, some r)
        else
          let s := s.updSvc v (fun x => x.setDrr colour { d with fresh := true })
          State.svcPick (s.updPort p (fun x => { x with rounds := Map.ins x.rounds key (rotate (Map.look x.rounds key [])) })) k p key

/-- An eligible ring of the port has a green head (R237); its service need not be eligible. [DEDUCED: log 82] -/
def State.greenHead (s : State) (p : Nat) : Bool :=
  s.brs.rings.any (fun e => s.ringPort e.1 = p && s.ringElig e.1 0)

/-- The pick of a port: a yellow request only while no eligible ring has a green head, the classes in order (R237). [DEDUCED: log 81] -/
def State.portPick (s : State) (p : Nat) : State × Option Req :=
  match (if s.greenHead p then [0, 2, 4, 6] else [1, 3, 5, 7]).find? (fun k => !(Map.look (s.port p).rounds k []).isEmpty) with
  | none => (s, none)
  | some k => s.svcPick (s.svcFuel p k) p k

/-! ### Requests (R227, R231) -/

/-- The word of an entry at an offset. -/
def entryWord (bs : List Byte) (off : Nat) : Nat := leNat ((bs.drop off).take 4)

/-- An entry as a request; host names a host ring. -/
def State.toReq (s : State) (n : Nat) (bs xdata : List Byte) : Req :=
  let w0 := entryWord bs 0
  let w2 := entryWord bs 8
  { ring := n, port := s.ringPort n, typ := bitsOf w0 0 8, tag := entryWord bs 4, dtu := bitsOf w2 0 16, ovh := s.g F.BRS_RING_CFG_OVH n
    priv := s.on F.BRS_RING_CFG_PRIV n, xp := bitOf w0 8, xlen := bitsOf w2 16 16, xaddr := leNat ((bs.drop 0x38).take 8)
    payload := (bs.drop 16).take 48, xdata := xdata, cls := s.g F.BRS_SVC_CFG_CLASS (s.ringSvc n) }

/-- XEN of a partition (R199, R202). -/
def State.xen (s : State) (p : Nat) : Bool := bitOf (Map.look s.seq.xbuf p 0) 18

/-- The first rule of R231: the entry is malformed or not permitted. -/
def State.badEntry (s : State) (r : Req) (bs : List Byte) : Bool :=
  bitsOf (entryWord bs 0) 9 23 != 0 || bitsOf (entryWord bs 12) 13 19 != 0 || r.typ = 0 || 7 < r.typ
    || (if r.xp then r.xlen % 4 != 0 || r.xlen < 4 || 4096 < r.xlen else r.xlen != 0)
    || (r.xp && (r.typ = 3 || r.typ = 6)) || (r.typ = 4 && !r.priv) || (r.xp && !s.xen r.port)

/-- The frame queue of a frame ring is its pending requests (BRS_RING_FQ). -/
def State.fqSync (s : State) (n : Nat) : State :=
  if s.on F.BRS_RING_CFG_KIND n then s.put F.BRS_RING_FQ_USED (s.ring n).pend.length n else s

/-- An entry is examined (R231): completed by Barista, or pending with its colour; in PARK, TEST and SAFE arrivals complete FENCED (R371). -/
def State.examine (s : State) (n : Nat) (bs xdata : List Byte) : State :=
  let r := s.toReq n bs xdata
  let s := s.setOutst n (s.outst n + 1)
  if s.badEntry r bs then s.selfComplete r 8
  else if s.partFenced r.port || s.quiet then s.selfComplete r 5
  else if (s.port r.port).budget < r.cost then (s.sat F.BRS_PORT_CNT_OVERSIZE r.port).selfComplete r 2
  else
    let i := s.g F.BRS_RING_CFG_MPROF n
    let t := s.meterTest i r.cost (s.meterOf n)
    if t.1 = 2 then (s.sat F.BRS_RING_CNT_POLICED n).selfComplete r 1
    else (s.updRing n (fun x => { x with meter := some t.2, pend := x.pend ++ [{ r with colour := t.1 }] })).fqSync n

/-! ### Doorbells and fetching (R225, R226) -/

def rqDoorbell (n v : Nat) (s : State) : State :=
  let pi := v % 32768
  if s.on F.BRS_RING_CFG_KIND n then s
  else if s.rqLen n ≤ pi then (s.put F.BRS_RING_STAT_DB_ERR 1 n).ringErr n
  else s.sput F.BRS_RQ_PI_PI pi n

def execRqDoorbell (n : Ring) (v : W32) (s : State) : Out := clocked s (rqDoorbell n.val v.toNat)

def cqDoorbell (n v : Nat) (s : State) : State :=
  let ci := v % 32768
  if s.cqLen n ≤ ci then (s.put F.BRS_RING_STAT_DB_ERR 1 n).ringErr n else s.sput F.BRS_CQ_CI_CI ci n

def execCqDoorbell (n : Ring) (v : W32) (s : State) : Out := clocked s (cqDoorbell n.val v.toNat)

/-- The index after the reads issued. -/
def State.nextIdx (s : State) (n : Nat) : Nat := match (s.ring n).reads.getLast? with
  | some r => (r.idx + r.n) % s.rqLen n
  | none => s.g F.BRS_RQ_CI_CI n

/-- How many entries the next read covers (R225, R226, R295): available, with a completion place each, within Max_Read_Request_Size, the end of the ring and a 4 KiB boundary. [DEDUCED: log 226] -/
def State.readLen (s : State) (n : Nat) : Nat :=
  let i := s.nextIdx n
  let avail := (s.g F.BRS_RQ_PI_PI n + s.rqLen n - i) % s.rqLen n
  let room := s.cqLen n - 1 - (s.cqUsed n + s.outst n + s.inFlight n)
  let page := 64 - (64 * s.g F.BRS_RQ_BASE_BASE n / 64 + i) % 64
  min (min avail room) (min (max 1 ((s.fn (s.ringFn n)).mrrs / 64)) (min page (s.rqLen n - i)))

/-- The places of the reads that are outstanding: nothing has come back for them (R225). -/
def openReads (l : List RingRead) : List Nat := (List.range l.length).filter (fun i => (l[i]?).any (fun r => r.got.isNone))

/-- How many requests a read of n bytes from an address on takes. -/
def State.readCount (s : State) (f a n : Nat) : Nat := (hostRuns (s.fn f).mrrs (atAddr a (List.replicate n 0))).length
/-- The payload reads of a port that are outstanding. -/
def State.xpOpen (s : State) (p : Nat) : Nat :=
  (((s.port p).recs.filter (fun y => !y.isOpen && !y.ready && !s.on F.BRS_RING_CFG_KIND y.req.ring)).map
    (fun y => s.readCount (s.ringFn y.req.ring) y.req.xaddr y.req.xlen)).sum
/-- The outstanding non-posted requests: entry reads and payload reads; what DMA asks for comes back with its own command. -/
def State.nonPosted (s : State) : Nat :=
  (s.brs.rings.map (fun e => (openReads e.2.reads).length)).sum + ((List.range 16).map s.xpOpen).sum
/-- At most 256 non-posted requests are outstanding (R293). -/
def State.readRoom (s : State) (n : Nat) : Bool := s.nonPosted + n ≤ 256

def ringFetchIssue (n : Nat) (s : State) : State :=
  let ok := s.on F.BRS_RING_CTL_EN n && !s.on F.BRS_RING_CFG_KIND n && !s.on F.BRS_RING_STAT_HALTED n && !(s.ring n).draining
    && s.mayPost (s.ringFn n) && (openReads (s.ring n).reads).length < 4 && s.readRoom 1 && s.mode != 2
  let k := s.readLen n
  if ok && k != 0 then
    ((s.readReq (s.ringFn n) (64 * s.g F.BRS_RQ_BASE_BASE n + 64 * s.nextIdx n) (64 * k)).grant 7 5).updRing n
      (fun r => { r with reads := r.reads ++ [⟨s.nextIdx n, k, none⟩] })
  else s

def execRingFetchIssue (n : Ring) (s : State) : Out := clocked s (ringFetchIssue n.val)

/-- The entries of a list of bytes are examined one by one. -/
def State.examineAll (s : State) (n k : Nat) (bs : List Byte) : State :=
  match k with
  | 0 => s
  | k + 1 => State.examineAll (s.examine n (bs.take 64) []) n k (bs.drop 64)

/-- Reads that have completed are examined in index order, and CI follows (R225). -/
def State.examineReads (s : State) (fuel n : Nat) : State :=
  match fuel with
  | 0 => s
  | f + 1 =>
    match (s.ring n).reads with
    | [] => s
    | r :: rest =>
      match r.got with
      | none => s
      | some bs =>
        let s := s.updRing n (fun x => { x with reads := rest })
        let s := s.put F.BRS_RQ_CI_CI ((r.idx + r.n) % s.rqLen n) n
        State.examineReads (s.examineAll n r.n bs) f n

/-- The k-th outstanding read of a ring returns its bytes. [DEDUCED: log 86] -/
def entryArrival (n k : Nat) (bs : List Byte) (s : State) : State :=
  match (openReads (s.ring n).reads)[k]? with
  | none => s
  | some i =>
    let s := s.updRing n (fun x => { x with reads := x.reads.modify i (fun r => { r with got := some bs }) })
    (s.examineReads (s.ring n).reads.length n).syncRounds

def execEntryArrival (n : Ring) (k : Fin 4) (bs : List Byte) (s : State) : Out := clocked s (entryArrival n.val k.val bs)

/-- The k-th outstanding read fails (R231, R302): nothing from there on is fetched until INIT. [DEDUCED: log 86] -/
def ringFetchError (n k : Nat) (e : HostErr) (s : State) : State :=
  match (openReads (s.ring n).reads)[k]? with
  | none => s
  | some i =>
    let s := s.updRing n (fun x => { x with reads := x.reads.take i })
    (((s.put F.BRS_RING_STAT_HALTED 1 n).put F.BRS_RING_STAT_FETCH_ERR 1 n).ringErr n).readFails (s.ringFn n) e

def execRingFetchError (n : Ring) (x : FetchErr) (s : State) : Out := clocked s (ringFetchError n.val x.read.val x.err)

/-! ### Refill and profile writes (R234 to R236) -/

/-- Every 1,000 CORE cycles all buckets are refilled. -/
def meterRefill (s : State) : State :=
  if s.cycle < s.brs.refill + 1000 then s
  else
    let rings := s.brs.rings.map (fun e => (e.1, { e.2 with
      meter := e.2.meter.map (s.meterFill (s.g F.BRS_RING_CFG_MPROF e.1))
      s := e.2.s.map (s.shapeFill (s.g F.BRS_RING_CFG2_SPROF e.1)) }))
    let svcs := s.brs.svcs.map (fun e => (e.1, { e.2 with s := e.2.s.map (s.shapeFill e.2.sprof) }))
    let mp := s.brs.mpDef.map (fun e => (e.1, s.meterFill e.1 e.2))
    let sp := s.brs.spDef.map (fun e => (e.1, s.shapeFill e.1 e.2))
    { s with brs := { s.brs with rings := rings, svcs := svcs, mpDef := mp, spDef := sp, refill := s.brs.refill + 1000 } }.syncRounds

def execMeterRefill (s : State) : Out := clocked s meterRefill

/-- Every bucket that uses a meter profile is set, full or zero as RST says (R236). -/
def State.mpSet (s : State) (i : Nat) : State :=
  let b := if s.on F.BRS_MP_CFG_RST i then (0, 0) else s.mpDepth i
  let rings := s.brs.rings.map (fun e => (e.1, if s.g F.BRS_RING_CFG_MPROF e.1 = i then { e.2 with meter := some b } else e.2))
  { s with brs.rings := rings, brs.mpDef := Map.ins s.brs.mpDef i b }

/-- A write of register w of meter profile i: 0 CFG, 1 CIR, 2 PIR, 3 BKT. -/
def mprofWrite (i w v : Nat) (s : State) : State :=
  let old := (s.g F.BRS_MP_CFG_MODE i, s.mpDepth i)
  let fs := if w = 0 then [F.BRS_MP_CFG_MODE, F.BRS_MP_CFG_RST] else if w = 1 then [F.BRS_MP_CIR_CIR] else if w = 2 then [F.BRS_MP_PIR_PIR] else [F.BRS_MP_BKT_CBS, F.BRS_MP_BKT_PBS]
  let s := s.each fs (fun s f => s.sput f (bitsOf v f.lo f.wd) i)
  -- an untouched ring needs a bucket of its own kind from here on, so that refills reach it
  let s := { s with brs.mpDef := Map.upd s.brs.mpDef i (0, 0) id }
  if old = (s.g F.BRS_MP_CFG_MODE i, s.mpDepth i) then s else s.mpSet i

def execMprofWrite (i : Byte) (w : Fin 4) (v : W32) (s : State) : Out := clocked s (mprofWrite i.toNat w.val v.toNat)

def State.spSet (s : State) (i : Nat) : State :=
  let b := if s.on F.BRS_SP_CFG_RST i then 0 else s.spDepth i
  let rings := s.brs.rings.map (fun e => (e.1, if s.g F.BRS_RING_CFG2_SPROF e.1 = i then { e.2 with s := some b } else e.2))
  let svcs := s.brs.svcs.map (fun e => (e.1, if e.2.sprof = i then { e.2 with s := some b } else e.2))
  { s with brs := { s.brs with rings := rings, svcs := svcs, spDef := Map.ins s.brs.spDef i b } }

/-- A write of register w of shaper profile i: 0 CFG, 1 RATE. -/
def sprofWrite (i w v : Nat) (s : State) : State :=
  let old := (s.g F.BRS_SP_CFG_MODE i, s.spDepth i)
  let fs := if w = 0 then [F.BRS_SP_CFG_MODE, F.BRS_SP_CFG_RST, F.BRS_SP_CFG_DEPTH] else [F.BRS_SP_RATE_RATE]
  let s := s.each fs (fun s f => s.sput f (bitsOf v f.lo f.wd) i)
  let s := { s with brs.spDef := Map.upd s.brs.spDef i 0 id }
  (if old = (s.g F.BRS_SP_CFG_MODE i, s.spDepth i) then s else s.spSet i).syncRounds

def execSprofWrite (i : Byte) (w : Fin 2) (v : W32) (s : State) : Out := clocked s (sprofWrite i.toNat w.val v.toNat)

/-- A write of BRS_SVC_CFG (R246). [DEDUCED: log 84] -/
def svcCfgWrite (v x : Nat) (s : State) : State :=
  let f := F.BRS_SVC_CFG_PORT
  if s.on F.BRS_SVC_CFG_EN v && bitsOf x f.lo f.wd != s.g f v then s.put F.BRS_STAT_CFG_REFUSED 1
  else
    let s := s.each [F.BRS_SVC_CFG_PORT, F.BRS_SVC_CFG_CLASS, F.BRS_SVC_CFG_BWS, F.BRS_SVC_CFG_EN, F.BRS_SVC_CFG_WEIGHT, F.BRS_SVC_CFG_BCAP, F.BRS_SVC_CFG_SPROF]
      (fun s f => s.sput f (bitsOf x f.lo f.wd) v)
    (s.updSvc v id).syncRounds

def execSvcCfgWrite (v : Fin 512) (x : W32) (s : State) : Out := clocked s (svcCfgWrite v.val x.toNat)

/-! ### Admission and renewal (R232, R238) -/

/-- A request leaves the place it was taken from. [DEDUCED: log 90] -/
def State.takeReq (s : State) (p : Nat) (r : Req) : State :=
  let s := s.updPort p (fun x => { x with held := none, dq := if x.dq.head? = some r then x.dq.drop 1 else x.dq })
  if (s.ring r.ring).pend.head? = some r then (s.updRing r.ring (fun x => { x with pend := x.pend.drop 1 })).fqSync r.ring else s

/-- The shapers' floor (R235). -/
def shaperFloor : Int := -65535 * 256

/-- Admission charges the shapers and the deficits of the request's ring and service (R235, R237). -/
def State.chargeReq (s : State) (r : Req) : State :=
  let v := s.ringSvc r.ring
  let c : Int := r.cost
  let s := s.updRing r.ring (fun x => { x with
    s := some (max shaperFloor (s.ringS r.ring - 256 * c))
    drr := if ((s.svc v).rings r.colour).contains r.ring then { x.drr with deficit := x.drr.deficit - c } else x.drr })
  s.updSvc v (fun x =>
    let x := { x with s := some (max shaperFloor (s.svcS v - 256 * c)) }
    if (Map.look (s.port r.port).rounds (2 * x.cls + r.colour) []).contains v then x.setDrr r.colour { (x.drr r.colour) with deficit := (x.drr r.colour).deficit - c } else x)

/-- The request a port takes next: the one held, the head of the deferral queue once a renewal has followed its deferral, else the pick. [DEDUCED: log 90] -/
def State.nextReq (s : State) (p : Nat) : State × Option Req :=
  let x := s.port p
  match x.held with
  | some r => (s, some r)
  | none =>
    match x.dq with
    | r :: _ => if r.renewals < x.renewals then (s, some r) else s.portPick p
    | [] => s.portPick p

/-- [DEDUCED: log 90] -/
def admitStep (p : Nat) (s : State) : State :=
  let x := s.port p
  if !s.on F.BRS_PORT_CFG_EN p || x.blocked || 64 ≤ x.aq.length then s
  else
    match (s.syncRounds).nextReq p with
    | (s, none) => s
    | (s, some r) =>
      if r.xp && !s.xen p then ((s.takeReq p r).selfComplete r 8).syncRounds
      else if (s.port p).budget < r.cost then (((s.takeReq p r).sat F.BRS_PORT_CNT_OVERSIZE p).selfComplete r 2).syncRounds
      else if s.remain p < r.cost then (s.sat F.BRS_PORT_CNT_HOLDS p).updPort p (fun x => { x with held := some r, blocked := true })
      else
        let s := ((s.setRemain p (s.remain p - r.cost)).chargeReq { r with port := p }).takeReq p r
        let s := s.sat F.BRS_PORT_ADM_ADMITTED p
        (s.updPort p (fun x => { x with aq := x.aq ++ [{ r with port := p, admitted := true, cls := (s.svc (s.ringSvc r.ring)).cls }] })).syncRounds

def execAdmitStep (p : Part) (s : State) : Out := clocked s (admitStep p.val)

/-- The settings in force from a renewal on. -/
def State.slotSettings (s : State) (p : Nat) : State :=
  let b := s.g F.BRS_PORT_BUDGET_TU_BUDGET p
  let src := s.g F.BRS_PORT_CFG_SLOT_SRC p
  let ns := max 1000 (s.g F.BRS_PORT_SLOT_SLOT_NS p)
  s.updPort p (fun x => { x with budget := b, src := src, slotNs := ns, renewals := x.renewals + 1, lastRenew := s.tb0ns, blocked := false })

/-- A renewal is due (R238). [DEDUCED: log 88] -/
def State.renewDue (s : State) (p : Nat) : Bool :=
  let x := s.port p
  if x.src = 0 then x.lastRenew / x.slotNs < s.tb0ns / x.slotNs else 0 < x.due || x.lastRenew + x.slotNs ≤ s.tb0ns

/-- [DEDUCED: log 88] -/
def budgetRenewal (p : Nat) (s : State) : State :=
  if !s.on F.BRS_PORT_CFG_EN p || !s.renewDue p then s
  else
    let s := (s.slotSettings p).updPort p (fun x => { x with due := x.due - 1 })
    s.setRemain p ((s.port p).budget + min (s.remain p) 0)

def execBudgetRenewal (p : Part) (s : State) : Out := clocked s (budgetRenewal p.val)

/-- A write of BRS_PORT_CFG: EN from 0 to 1 makes a renewal at once, without debt (R238). -/
def portEnable (p v : Nat) (s : State) : State :=
  let was := s.on F.BRS_PORT_CFG_EN p
  let s := (s.sput F.BRS_PORT_CFG_EN (bitsOf v 0 1) p).sput F.BRS_PORT_CFG_SLOT_SRC (bitsOf v 1 1) p
  if !was && bitOf v 0 then
    let s := (s.slotSettings p).updPort p (fun x => { x with due := 0 })
    s.setRemain p (s.port p).budget
  else s

def execPortEnable (p : Part) (v : W32) (s : State) : Out := clocked s (portEnable p.val v.toNat)

/-- The lowest-numbered slot that is neither open nor reserved (R200, R232). -/
def PortSt.freeSlot (x : PortSt) : Option Nat := (List.range 16).find? (fun h => !x.recs.any (fun r => r.slot = h))

/-- A payload comes with its frame, or is read from the host while its function may issue requests and they find room (R232, R293, R295). -/
def State.xpCan (s : State) (r : Req) : Bool :=
  s.on F.BRS_RING_CFG_KIND r.ring || (s.mayPost (s.ringFn r.ring) && s.readRoom (s.readCount (s.ringFn r.ring) r.xaddr r.xlen))
def State.xpRead (s : State) (r : Req) : State :=
  if s.on F.BRS_RING_CFG_KIND r.ring then s else (s.readReq (s.ringFn r.ring) r.xaddr r.xlen).grant 7 5

/-- The head of the admit queue has its slot reserved and its payload read (R232). -/
def xpPayloadFetch (p : Nat) (s : State) : State :=
  let x := s.port p
  match x.aq, x.freeSlot with
  | r :: _, some h =>
    if r.xp && !x.recs.any (fun y => !y.isOpen) && s.xpCan r then
      (s.xpRead r).updPort p (fun x => { x with recs := x.recs ++ [{ slot := h, gen := 0, req := r, isOpen := false }] })
    else s
  | _, _ => s

def execXpPayloadFetch (p : Part) (s : State) : Out := clocked s (xpPayloadFetch p.val)

/-- The payload area of a slot (R202). -/
def State.xpAddr (s : State) (p h : Nat) : Nat := bitsOf (Map.look s.seq.xbuf p 0) 16 2 * 65536 + h * 4096

/-- The payload is written, or its read fails (R232, R302); a frame's payload came with it. -/
def xpPayloadWritten (p : Nat) (err : Option HostErr) (bs : List Byte) (s : State) : State :=
  let x := s.port p
  match x.recs.find? (fun y => !y.isOpen && !y.ready) with
  | none => s
  | some y =>
    let frame := s.on F.BRS_RING_CFG_KIND y.req.ring
    match if frame then none else err with
    | none =>
      let data := (if frame then y.req.xdata else bs).take y.req.xlen
      ((s.grant 4 5).wrBs (dmBase p + s.xpAddr p y.slot) data).setRec p { y with ready := true, xa := s.xpAddr p y.slot }
    | some e =>
      let s := s.updPort p (fun x => { x with recs := x.recs.filter (fun z => z.slot ≠ y.slot), aq := x.aq.drop 1 })
      ((s.selfComplete y.req 8).put F.BRS_RING_STAT_XERR 1 y.req.ring).readFails (s.ringFn y.req.ring) e

def execXpPayloadWritten (p : Part) (err : Option HostErr) (bs : List Byte) (s : State) : Out := clocked s (xpPayloadWritten p.val err bs)

/-- The hold-off of a ring's messages ends (R230). -/
def itrHoldoffExpiry (n : Nat) (s : State) : State :=
  match (s.ring n).lastMsg with
  | none => s
  | some c =>
    if (s.ring n).msgDue && c + 1000 * s.g F.BRS_RING_CTL_ITR n ≤ s.cycle then
      (s.updRing n (fun r => { r with lastMsg := some s.cycle, msgDue := false })).msix (s.ringFn n) (s.g F.BRS_RING_CFG2_VEC n)
    else s

def execItrHoldoffExpiry (n : Ring) (s : State) : Out := clocked s (itrHoldoffExpiry n.val)

/-! ### Fences and the end of a ring (R241, R242) -/

/-- Requests completed by Barista with one status. -/
def State.completeAll (s : State) (l : List Req) (status : Nat) : State := s.each l (fun s r => s.selfComplete r status)

/-- A fence of a partition completes all its requests FENCED (R206, R241). -/
def State.fencePort (s : State) (p : Nat) : State :=
  let x := s.port p
  let heldFree := match x.held with
    | some r => if (s.ring r.ring).pend.head? = some r || x.dq.head? = some r then [] else [r]
    | none => []
  let pend := s.brs.rings.flatMap (fun e => if s.ringPort e.1 = p then e.2.pend else [])
  let rings : Map RingSt := s.brs.rings.map (fun e => (e.1, if s.ringPort e.1 = p then { e.2 with pend := [] } else e.2))
  let s := { s with brs.rings := rings }
  let s := s.updPort p (fun x => { x with held := none, aq := [], dq := [], recs := [] })
  let s := s.each x.recs (fun s y => s.noRefund p y.handle)
  let opens := (x.recs.filter (fun y => y.isOpen && !y.orphan)).map (fun y => y.req)
  let s := s.completeAll (opens ++ x.aq ++ heldFree ++ x.dq ++ pend) 5
  (s.each (s.brs.rings.map (fun e => e.1)) (fun s n => s.fqSync n)).syncRounds

/-- The requests of a ring that a port has admitted, holds or has deferred leave it, and its open records are orphaned; answers the requests to be completed. [DEDUCED: log 91] -/
def State.drainPort (s : State) (n p : Nat) : State × List Req :=
  let x := s.port p
  let mine (l : List Req) : List Req := l.filter (fun r => r.ring = n)
  let other (l : List Req) : List Req := l.filter (fun r => r.ring ≠ n)
  let opens := x.recs.filter (fun y => y.isOpen && !y.orphan && y.req.ring = n)
  ((s.each opens (fun s y => s.noRefund p y.handle)).updPort p (fun x => { x with
    aq := other x.aq
    dq := other x.dq
    held := x.held.filter (fun r => r.ring ≠ n)
    recs := (x.recs.filter (fun y => y.isOpen || y.req.ring ≠ n)).map (fun y => if y.isOpen && y.req.ring = n then { y with orphan := true } else y) }),
   mine x.aq ++ mine x.dq ++ opens.map (fun y => y.req))

/-- A drain starts (R242): what is fetched and not in an open record completes ABORTED, open records too, and they are orphaned. [DEDUCED: log 91, 141] -/
def State.drainRing (s : State) (n : Nat) : State :=
  let pend := (s.ring n).pend
  let s := s.updRing n (fun r => { r with pend := [], reads := [], draining := true })
  let r := ((s.brs.ports.map (fun e => e.1)).foldl (fun (r : State × List Req) p =>
    let d := r.1.drainPort n p
    (d.1, r.2 ++ d.2)) (s, []))
  ((r.1.completeAll (r.2 ++ pend) 9).fqSync n).syncRounds

def ringDrain (n : Nat) (s : State) : State := if (s.ring n).draining then s else s.drainRing n

def execRingDrain (n : Ring) (s : State) : Out := clocked s (ringDrain n.val)

def ringDrainDone (n : Nat) (s : State) : State :=
  if (s.ring n).draining then (s.put F.BRS_RING_CTL_EN 0 n).updRing n (fun r => { r with draining := false }) else s

def execRingDrainDone (n : Ring) (s : State) : Out := clocked s (ringDrainDone n.val)

/-- EN and ITR of BRS_RING_CTL. -/
def ringEnWrite (n v : Nat) (s : State) : State := (s.sput F.BRS_RING_CTL_EN (bitsOf v 0 1) n).sput F.BRS_RING_CTL_ITR (bitsOf v 8 8) n

def execRingEnWrite (n : Ring) (v : W32) (s : State) : Out := clocked s (ringEnWrite n.val v.toNat)

/-- A write of BRS_RING_CTL that carries INIT (R242): INIT acts first, on EN and BUSY as they stood. [DEDUCED: log 86] -/
def ringInit (n v : Nat) (s : State) : State :=
  let s :=
    if s.on F.BRS_RING_CTL_EN n || s.on F.BRS_RING_STAT_BUSY n then s.put F.BRS_RING_STAT_CFG_REFUSED 1 n
    else
      let s := s.updRing n (fun r => { r with reads := [] })
      let s := ((s.put F.BRS_RQ_PI_PI 0 n).put F.BRS_RQ_CI_CI 0 n).put F.BRS_CQ_PI_PI 0 n |>.put F.BRS_CQ_CI_CI 0 n
      (s.put F.BRS_CQ_PI_PHASE 1 n).put F.BRS_RING_STAT_HALTED 0 n
  ringEnWrite n v s

def execRingInit (n : Ring) (v : W32) (s : State) : Out := clocked s (ringInit n.val v.toNat)

/-- A write of register w of a ring: 0 RQ_BASE, 1 CQ_BASE, 2 CFG, 3 CFG2, 4 SIZE (R242); another profile starts full (R236). -/
def ringCfgWrite (n w v : Nat) (s : State) : State :=
  if s.on F.BRS_RING_CTL_EN n || s.on F.BRS_RING_STAT_BUSY n then s.put F.BRS_RING_STAT_CFG_REFUSED 1 n
  else
    let mp := s.g F.BRS_RING_CFG_MPROF n
    let sp := s.g F.BRS_RING_CFG2_SPROF n
    let fs :=
      if w = 0 then [F.BRS_RQ_BASE_BASE] else if w = 1 then [F.BRS_CQ_BASE_BASE]
      else if w = 2 then [F.BRS_RING_CFG_SVC, F.BRS_RING_CFG_KIND, F.BRS_RING_CFG_PRIV, F.BRS_RING_CFG_OVH, F.BRS_RING_CFG_MPROF]
      else if w = 3 then [F.BRS_RING_CFG2_SPROF, F.BRS_RING_CFG2_VEC, F.BRS_RING_CFG2_FN, F.BRS_RING_CFG2_SP, F.BRS_RING_CFG2_RWT]
      else [F.BRS_RING_SIZE_RQ_LOG2, F.BRS_RING_SIZE_CQ_LOG2]
    let s := s.each fs (fun s f => s.sput f (bitsOf v f.lo f.wd) n)
    let mp' := s.g F.BRS_RING_CFG_MPROF n
    let sp' := s.g F.BRS_RING_CFG2_SPROF n
    let s := if mp = mp' then s else s.updRing n (fun r => { r with meter := some (s.mpDepth mp') })
    if sp = sp' then s else s.updRing n (fun r => { r with s := some (s.spDepth sp') })

/-- The two bases are registers of 64 bits: a write releases its master's latch (R8). -/
def ringCfgBy (n w m v : Nat) (s : State) : State :=
  ringCfgWrite n w v (if w = 0 then s.wideWritten m R.BRS_RQ_BASE n else if w = 1 then s.wideWritten m R.BRS_CQ_BASE n else s)

def execRingCfgWrite (n : Ring) (w : Fin 5) (x : MasterWrite) (s : State) : Out := clocked s (ringCfgBy n.val w.val x.m.val x.v.toNat)

/-! ### Schedule frames (R243, R244) -/

/-- The entries of a frame with their extended payloads; none where they run past its end. [DEDUCED: log 85] -/
def frameEntries (k : Nat) (bs : List Byte) : Option (List (List Byte × List Byte)) :=
  match k with
  | 0 => some []
  | k + 1 =>
    let e := bs.take 64
    let x := if bitOf (entryWord e 0) 8 then bitsOf (entryWord e 8) 16 16 else 0
    if bs.length < 64 + x then none
    else (frameEntries k (bs.drop (64 + x))).map (fun l => (e, (bs.drop 64).take x) :: l)

/-- One entry of a frame from a sync port. -/
def State.frameEntry (s : State) (sp : Nat) (e : List Byte × List Byte) : State :=
  let n := bitsOf (entryWord e.1 12) 0 13
  if !s.on F.BRS_RING_CFG_KIND n || !s.on F.BRS_RING_CTL_EN n || (s.ring n).draining || s.g F.BRS_RING_CFG2_SP n != sp then s.sat F.BRS_FRM_B_BADRING sp
  else if 16 ≤ (s.ring n).pend.length || !s.cqRoom n then
    ((s.sat F.BRS_RING_FQ_DROP n).put F.BRS_RING_STAT_FQ_OVF 1 n).queueOvf n
  else (s.inc F.BRS_RQ_CI_CI n).examine n e.1 e.2

/-- The oldest schedule frame on its way is handled (R244). [DEDUCED: log 85] -/
def schedFrame (s : State) : State :=
  match s.brs.frames with
  | [] => s
  | (sp, bs) :: rest =>
    let s := { s with brs.frames := rest }
    let w := entryWord bs 0
    let cnt := bitsOf w 8 8
    let ok := 8 ≤ bs.length && bitsOf w 0 8 = 1 && cnt != 0 && cnt ≤ 128 && entryWord bs 4 = 0
    match (if ok then frameEntries cnt (bs.drop 8) else none) with
    | none => s.sat F.BRS_FRM_A_BADFRAME sp
    | some es =>
      let seq := bitsOf w 16 16
      let gap := match Map.find s.brs.seq sp with
        | some q => seq != (q + 1) % 65536
        | none => false
      let s := s.when gap (fun s => s.sat F.BRS_FRM_B_SEQ_GAP sp)
      let s := { s with brs.seq := Map.ins s.brs.seq sp seq }.sat F.BRS_FRM_A_ACCEPTED sp
      (s.each es (fun s e => s.frameEntry sp e)).syncRounds

def execSchedFrame (s : State) : Out := clocked s schedFrame

end Sys2Proof.Machine
end

