-- ==== Sys2Proof/Machine/Monitor.lean ====
section
/-! DEFINITION. Monitor inputs, converters, settle-focused sampling and Sample Queues (03). -/

namespace Sys2Proof.Machine

def State.mi (s : State) (m : Nat) : MiSt := Map.look s.mon.mis m {}
def State.updMi (s : State) (m : Nat) (f : MiSt → MiSt) : State := { s with mon.mis := Map.upd s.mon.mis m {} f }
def State.updMd (s : State) (t d : Nat) (f : MadcSt → MadcSt) : State :=
  { s with mon.madcs := Map.upd s.mon.madcs (8 * t + d) {} f }
def State.tok (s : State) (t : Nat) : Tokens := Map.look s.mon.tokens t {}
def State.updTok (s : State) (t : Nat) (f : Tokens → Tokens) : State := { s with mon.tokens := Map.upd s.mon.tokens t {} f }
/-- A field of an input's register, by global number. -/
def State.gm (s : State) (f : Fld) (m : Nat) : Nat := s.g f (miTile m) (miPos m)
def State.onm (s : State) (f : Fld) (m : Nat) : Bool := s.on f (miTile m) (miPos m)
def State.pmi (s : State) (f : Fld) (v m : Nat) : State := s.put f v (miTile m) (miPos m)

/-- The next edge of the CONV clock (R22). -/
def State.convEdge (s : State) : Nat := (s.cycle / 4 + 1) * 4
/-- The converters run in every mode but FREEZE, and in BOOT after step 5 (R371). -/
def State.madcRuns (s : State) : Bool := s.mode != 2 || 5 < s.g F.GLB_BOOT_STAT_STEP

/-! ### Front end (R63 to R68) -/

/-- The changes of a range with one more, from cur to r, that takes effect at a CONV edge: those of one edge are one change, and none where the range comes back (R66). [DESIGN CHOICE: log 204] -/
def addChange (l : List (Nat × Nat)) (edge cur r : Nat) : List (Nat × Nat) :=
  match l with
  | c :: rest => if c.1 = edge then (if c.2 = r then rest else l) else (edge, cur) :: l
  | [] => [(edge, cur)]

/-- A range change (R66): it takes effect at the next CONV edge, and the count of low samples restarts, for a written one too. -/
def State.moveRange (s : State) (m r : Nat) : State :=
  s.updMi m (fun x => { x with
    changes := addChange (x.changes.filter (fun c => s.cycle < c.1 + 440)) s.convEdge (s.gm F.MI_CFG_RANGE m) r
    low := 0 })
/-- A written range, which stands over an automatic move of its cycle (R66). [DESIGN CHOICE: log 204] -/
def State.setRange (s : State) (m r : Nat) : State := (s.moveRange m r).over F.MI_CFG_RANGE r (miTile m) (miPos m)

/-- Automatic ranging is held (R65, R403). -/
def State.rangeHeld (s : State) (m : Nat) : Bool := s.onm F.MI_CFG_HOLD m || s.miFocused m || (s.mi m).stim

/-- An automatic move (R65); a range written in the same cycle stands, and the count of low samples restarts (R66). -/
def State.autoMove (s : State) (m r : Nat) : State :=
  if (s.mi m).wrote = some s.cycle then s.updMi m (fun x => { x with low := 0 }) else (s.moveRange m r).pmi F.MI_CFG_RANGE r m

/-- Range evaluation after a sample (R65): none while AUTO = 0, and four low samples count only in a row of evaluated ones. [DEDUCED: log 205] -/
def State.autoRange (s : State) (m code range : Nat) : State :=
  let cur := s.gm F.MI_CFG_RANGE m
  if !s.onm F.MI_CFG_AUTO m || range != cur || s.rangeHeld m then s
  else if 0xFC0 ≤ code then if cur < 3 then s.autoMove m (cur + 1) else s.updMi m (fun x => { x with low := 0 })
  else if code ≤ 0x14F then
    if 3 ≤ (s.mi m).low && 0 < cur then s.autoMove m (cur - 1)
    else s.updMi m (fun x => { x with low := min (x.low + 1) 4 })
  else s.updMi m (fun x => { x with low := 0 })

/-- A write of MI_CFG (R64, R66), in the layout of the register. [DEDUCED: log 205] -/
def miCfgWrite (m v : Nat) (s : State) : State :=
  let old (f : Fld) := s.gm f m
  let new (f : Fld) := bitsOf v f.lo f.wd
  let pm := s.pm (old F.MI_CFG_PART)
  let own := old F.MI_CFG_OWNED != new F.MI_CFG_OWNED || old F.MI_CFG_PART != new F.MI_CFG_PART
  let refused := old F.MI_CFG_OWNED = 1 && own
    && ((pm = 1 || pm = 2) || (new F.MI_CFG_OWNED = 1 && old F.MI_CFG_PART != new F.MI_CFG_PART))
  if refused then s.put F.MI_TILE_STAT_OWN_ERR 1 (miTile m)
  else
    let s := s.when (old F.MI_CFG_RANGE != new F.MI_CFG_RANGE) (fun s => s.setRange m (new F.MI_CFG_RANGE))
    let s := s.updMi m (fun x => { x with
      wrote := some s.cycle
      low := if new F.MI_CFG_AUTO = 0 || (old F.MI_CFG_HOLD = 1 && new F.MI_CFG_HOLD = 0) then 0 else x.low })
    let s := s.each [F.MI_CFG_AUTO, F.MI_CFG_HOLD, F.MI_CFG_SQSEL, F.MI_CFG_SQEN, F.MI_CFG_DECIM, F.MI_CFG_PART, F.MI_CFG_OWNED]
      (fun s f => s.sput f (new f) (miTile m) (miPos m))
    s.when own (fun s => s.refreshMi m)

def execMiCfgWrite (m : Mi) (v : W32) (s : State) : Out := clocked s (miCfgWrite m v.toNat)

/-- In a structural test the bias stays at 0 V until its end (R405). -/
def miBiasWrite (t code : Nat) (s : State) : State :=
  let s := s.sput F.MI_BIAS_CODE code t
  if s.on F.TST_OS_STAT_BUSY t then s else s.biasTo t code

def execMiBiasWrite (t : Tile) (code : Byte) (s : State) : Out := clocked s (miBiasWrite t.val code.toNat)

/-- The new bias is reached; ibias is the current then measured. -/
def execBiasRampDone (t : Tile) (ibias : Byte) (s : State) : Out :=
  clocked s (fun s =>
    if biasPos (s.ramp t) s.cycle = (s.ramp t).target then
      (s.put F.MI_TILE_STAT_BIAS_RAMP 0 t).put F.MI_BIAS_IBIAS ibias.toNat t
    else s)

/-- Demand above 200 mA for 10 us (R68): the current stands at 200 mA, and no output parks. -/
def execBiasOverload (t : Tile) (s : State) : Out :=
  clocked s (fun s => ((s.put F.MI_TILE_STAT_BIAS_OVL 1 t).put F.MI_BIAS_IBIAS 200 t).fsum t 2)

/-! ### Delivery (R72, R76) -/

/-- A sample reaches the engine of a tile; one of the primary monitor of a context whose commit update is due waits for it (R88). -/
def State.deliver (s : State) (t m : Nat) (x : Samp) : State :=
  let x := { x with serial := s.mon.serial }
  { s with
    le := { s.le with
      last := Map.ins s.le.last (16384 * t + m) x
      ctx := s.le.ctx.map (fun e => (e.1, if e.2.due && aoTile e.1 = t && s.cg 0 e.1 C.MI1 = m then { e.2 with waiting := e.2.waiting ++ [x] } else e.2)) }
    mon.serial := s.mon.serial + 1 }

/-- The other tiles that hold a context referencing an input (R72). [DEDUCED: log 29] -/
def State.needers (s : State) (m : Nat) : List Nat :=
  (List.range 16).filter (fun t => t != miTile m && s.ownedAos.any (fun a => aoTile a = t && (s.ctxMis 0 a).contains m))

/-- What a tile sends through the Control Die reaches it: none is forwarded of a tile that is fenced or whose link is lost (R343, R345). [DEDUCED: log 234] -/
def State.forwards (s : State) (t : Nat) : Bool := !s.tileFenced t && (s.tl t).linkUp

/-- A sample leaves for another tile if the outbound bucket has a token; samples on their way keep the order in which they left. [DESIGN CHOICE: log 206] -/
def State.forward (s : State) (m dest : Nat) (x : Samp) : State :=
  let t := miTile m
  if !s.forwards t then s
  else if (s.tok t).out = 0 then s.put F.MI_TILE_STAT_FWD_DROP 1 t
  else { s.updTok t (fun k => { k with out := k.out - 1 }) with mon.fwd := s.mon.fwd ++ [(dest, m, x)] }

/-- The Sample Queue word of a sample (R77). -/
def sqWord (m : Nat) (x : Samp) : Nat :=
  m * 2 ^ 18 + x.range * 2 ^ 16 + b2n x.focus * 2 ^ 15 + x.seq % 8 * 2 ^ 12 + x.code % 4096

/-- A copy to the Sample Queue (R76): one delivered sample in 2^DECIM, a token for each; samples count while SQEN = 1. [DEDUCED: log 27; DESIGN CHOICE: log 207] -/
def State.sqCopy (s : State) (m : Nat) (x : Samp) : State :=
  let t := miTile m
  if !s.onm F.MI_CFG_SQEN m then s
  else
    let n := (s.mi m).decim + 1
    if n < 2 ^ s.gm F.MI_CFG_DECIM m then s.updMi m (fun y => { y with decim := n })
    else
      let s := s.updMi m (fun y => { y with decim := 0 })
      if (s.tok t).sq = 0 then s.put F.MI_TILE_STAT_SQ_RATE_DROP 1 t
      else { s.updTok t (fun k => { k with sq := k.sq - 1 }) with mon.sq := s.mon.sq ++ [(s.gm F.MI_CFG_SQSEL m, sqWord m x)] }

/-- The range a conversion that started at a cycle was taken in, and whether it fell into the 400 ns of a change (R65, R66). -/
def State.convRange (s : State) (m conv : Nat) : Nat :=
  match (s.mi m).changes.reverse.find? (fun c => conv < c.1) with
  | some c => c.2
  | none => s.gm F.MI_CFG_RANGE m
/-- [DEDUCED: log 190] -/
def State.settling (s : State) (m conv : Nat) : Bool := (s.mi m).changes.any (fun c => c.1 ≤ conv && conv < c.1 + 400)

/-- A response entry of a running stimulus takes the sample (R403). -/
def State.stimSample (s : State) (m code : Nat) : State :=
  let t := miTile m
  match Map.find s.tst.stim t with
  | none => s
  | some st =>
    let hit (r : Nat) : Bool := s.on F.TST_RE0_EN t r && s.g F.TST_RE0_J t r = miPos m
    let navg := s.g F.TST_STIM_CTL_NAVG t + 1
    if s.cycle < st.edge + 1000 * s.g F.TST_STIM_CTL_DELAY t || st.window = 2 then s
    else
      let add (x : RespAcc) (r : Nat) : RespAcc :=
        if x.idx = r && hit r && x.got < navg then { x with got := x.got + 1, sum := x.sum + code } else x
      { s with tst.stim := Map.ins s.tst.stim t { st with acc := st.acc.map (fun x => add x x.idx) } }

/-- The result of a conversion is available (R69, R72): it stands in MI_LAST, and unless it is withheld it is delivered, forwarded, copied and evaluated for its range. [DEDUCED: log 190, 209] -/
def State.convert (s : State) (t : Nat) (c : Flight) (code : Nat) (sat : Bool) : State :=
  let m := t * 1024 + c.j
  let x : Samp := ⟨if sat then 0xFFF else code, s.convRange m c.conv, c.foc, c.conv, c.seq, 0⟩
  let held := s.settling m c.conv || s.on F.TST_OS_STAT_BUSY t || s.cal.miOff.contains m
  let s := s.put F.MI_LAST_SAMPLE x.code t c.j |>.put F.MI_LAST_RANGE x.range t c.j |>.putB F.MI_LAST_FOCUS c.foc t c.j
    |>.putB F.MI_LAST_SAT sat t c.j |>.putB F.MI_LAST_RSETTLE held t c.j |>.put F.MI_LAST_SEQ x.seq t c.j
  if held then s
  else
    let s := s.deliver t m x
    let s := s.each (s.needers m) (fun s dest => s.forward m dest x)
    ((s.sqCopy m x).stimSample m x.code).autoRange m x.code x.range

/-- A pass starts at entry 0 with the next sequence count (R70). [DEDUCED: log 23] -/
def State.startPass (s : State) (t d : Nat) : State :=
  (s.updMd t d (fun x => { x with pass := true, pos := 0, len := s.g F.MI_SCAN_CTL_LEN t d })).put F.MI_SCAN_STAT_SEQ
    (s.g F.MI_SCAN_STAT_SEQ t d + 1) t d

/-- The end of a frame counts for every active entry (R75). -/
def frameEnd (l : List FocEnt) : List FocEnt := l.map (fun e => { e with remain := e.remain - 1 })

def State.timerPeriod (s : State) (t d : Nat) : Nat := 4 * max 1 (s.g F.MI_SCAN_PER_PERIOD t d)

/-- The frames an entry has left (R74, R75): counted while frames run, by their time in the other modes. [DEDUCED: log 26; DESIGN CHOICE: log 208] -/
def State.focusLeft (s : State) (mode : Nat) (e : FocEnt) : Nat :=
  if mode = 0 then e.remain else (e.since + 64 * e.remain - max e.since s.cycle + 63) / 64

/-- The CONV edge at which a converter starts its next conversion. -/
def State.nextEdge (s : State) (t d : Nat) : Nat := if s.cycle % 4 = 0 && (s.md t d).edge != some s.cycle then s.cycle else s.convEdge

/-- The mode written takes effect: FREE and TIMER start a pass at once (R71). The frame that leaving FREE cuts short does not count; its entries run on by time, and in FREE by frames again. [DESIGN CHOICE: log 208] -/
def State.takeMode (s : State) (t d : Nat) : State :=
  let new := s.g F.MI_SCAN_CTL_MODE t d
  let old := (s.md t d).mode
  let s := s.updMd t d (fun x => { x with
    mode := new, pass := false, delay := none, slot := 0
    active := if (old = 0) = (new = 0) then x.active
      else x.active.map (fun e => { e with remain := s.focusLeft old e, since := s.convEdge }) })
  if new = 0 then s.startPass t d
  else if new = 1 && old != 1 then (s.updMd t d (fun x => { x with timer := s.nextEdge t d + s.timerPeriod t d })).startPass t d
  else s

/-- The pass has walked its last entry, which occupies its CONV clock to the end (R70). -/
def State.passOver (s : State) (t d : Nat) : Bool :=
  let x := s.md t d
  x.pass && x.len < x.pos && x.walked + 4 ≤ s.cycle

/-- The end of a pass: the pending MODE and LEN take effect (R70). -/
def scanPassEnd (t d : Nat) (s : State) : State :=
  let x := s.md t d
  if s.passOver t d then
    if x.mode = s.g F.MI_SCAN_CTL_MODE t d && x.mode != 0 then s.updMd t d (fun y => { y with pass := false })
    else if x.mode = 0 && s.g F.MI_SCAN_CTL_MODE t d = 0 then s.startPass t d
    else s.takeMode t d
  else s

/-- In FREE mode a converter without a pass begins one: so the first pass after reset starts (R70, R71). [DEDUCED: log 23] -/
def State.freeRun (s : State) (t d : Nat) : State := s.when ((s.md t d).mode = 0 && !(s.md t d).pass) (fun s => s.startPass t d)

/-- An entry has had its frames (R74, R75). -/
def State.focusOver (s : State) (mode : Nat) (e : FocEnt) : Bool := s.focusLeft mode e = 0

/-- A context whose primary monitor has left the active list gives its focus slot back (R107). [DEDUCED: log 35] -/
def State.releaseSlots (s : State) (m : Nat) : State :=
  { s with le.ctx := s.le.ctx.map (fun e => (e.1, if s.cg 0 e.1 C.MI1 = m then { e.2 with slot := false } else e.2)) }

/-- The channels with a focus slot whose primary monitor is an input. -/
def State.slotsOf (s : State) (m : Nat) : List Nat := (s.le.ctx.filter (fun e => e.2.slot && s.cg 0 e.1 C.MI1 = m)).map (fun e => e.1)

/-- What has expired of an active list in this cycle. -/
def State.goneNow (s : State) (t d : Nat) : Expired :=
  let x := s.md t d
  (x.gone.filter (fun g => g.cycle = s.cycle)).getD ⟨s.cycle, x.active, []⟩

/-- The entries that have had their frames leave the active list, which closes up (R75). [DEDUCED: log 26] -/
def focusExpiry (t d : Nat) (s : State) : State :=
  let x := s.md t d
  let gone := x.active.filter (s.focusOver x.mode)
  let old := s.goneNow t d
  let s := s.updMd t d (fun x => { x with
    active := x.active.filter (fun e => !s.focusOver x.mode e)
    gone := some { old with slots := old.slots ++ gone.flatMap (fun e => s.slotsOf (t * 1024 + e.j)) } })
  s.each gone (fun s e => (s.updMi (t * 1024 + e.j) (fun y => { y with low := 0 })).releaseSlots (t * 1024 + e.j))

/-- What a converter's next table entry starts at this CONV edge; an IDLE entry uses its clock without converting (R70). -/
def State.background (s : State) (t d : Nat) : State × Option Flight :=
  let x := s.md t d
  if !x.pass || x.len < x.pos then (s, none)
  else
    let e := 256 * d + x.pos
    let s := s.updMd t d (fun x => { x with pos := x.pos + 1, walked := s.cycle })
    (s, if s.on F.MI_SCAN_IDLE t e then none else some ⟨8 * s.g F.MI_SCAN_I t e + d, false, s.cycle, s.g F.MI_SCAN_STAT_SEQ t d⟩)

/-- A tick of the TIMER mode (R71): it starts a pass, or is counted while one runs. -/
def scanTimerTick (t d : Nat) (s : State) : State :=
  let x := s.md t d
  if x.mode != 1 || s.cycle < x.timer || !s.madcRuns then s
  else
    let s := (scanPassEnd t d s).updMd t d (fun y => { y with timer := y.timer + s.timerPeriod t d })
    if (s.md t d).pass then s.sat F.MI_SCAN_STAT_TRIG_MISS t d else s.startPass t d

/-- The delay of the COMMIT mode has ended (R71): its pass starts. -/
def scanDelayExpiry (t d : Nat) (s : State) : State :=
  match (s.md t d).delay with
  | some due => if due ≤ s.cycle then (s.updMd t d (fun x => { x with delay := none })).startPass t d else s
  | none => s

/-- What a converter starts at a CONV edge (R70, R71, R74): a trigger due starts its pass there, and in FREE mode with F active entries slots 0 to F - 1 of each frame of 16 convert them, from the first edge after the strobe on. [DEDUCED: log 209] -/
def State.startConv (s : State) (t d : Nat) : State × Option Flight :=
  let s := scanDelayExpiry t d (scanTimerTick t d s)
  let s := scanPassEnd t d (s.freeRun t d)
  let s := s.when ((s.md t d).slot = 0) (focusExpiry t d)
  let x := s.md t d
  if x.mode != 0 || x.active.isEmpty || s.cycle < x.grid then s.background t d
  else
    let r : State × Option Flight := match x.active[x.slot]? with
      | some e => (s, some ⟨e.j, true, s.cycle, s.g F.MI_SCAN_STAT_SEQ t d⟩)
      | none => s.background t d
    (r.1.updMd t d (fun y =>
      if y.slot = 15 then { y with slot := 0, active := frameEnd y.active } else { y with slot := y.slot + 1 }), r.2)

/-- One CONV edge of a converter (R22, R69), every fourth CORE cycle: a conversion may start, and the one that started at the tenth edge before has its result, of which code and sat tell; table, LEN, MODE and focus act where a conversion starts. [DEDUCED: log 209] -/
def madcSample (t d code : Nat) (sat : Bool) (s : State) : State :=
  if !s.madcRuns || s.cycle % 4 != 0 || (s.md t d).edge = some s.cycle then s
  else
    let r := s.startConv t d
    let pipe := (r.1.md t d).pipe ++ [r.2]
    if pipe.length ≤ 10 then r.1.updMd t d (fun x => { x with edge := some s.cycle, pipe := pipe })
    else
      let s := r.1.updMd t d (fun x => { x with edge := some s.cycle, pipe := pipe.tail })
      match pipe.head? with
      | some (some c) => s.convert t c code sat
      | _ => s

def execMadcSample (t : Tile) (d : Madc) (code : BitVec 12) (sat : Bool) (s : State) : Out :=
  clocked s (madcSample t d code.toNat sat)

/-- The oldest forwarded sample reaches its tile, if both links still carry it; the inbound bucket limits it too (R72, R345). [DEDUCED: log 234] -/
def forwardArrive (s : State) : State :=
  match s.mon.fwd with
  | [] => s
  | (t, m, x) :: rest =>
    let s := { s with mon.fwd := rest }
    if !(s.tl t).linkUp || !s.forwards (miTile m) then s
    else if (s.tok t).inb = 0 then s.put F.MI_TILE_STAT_FWD_DROP 1 t
    else (s.updTok t (fun k => { k with inb := k.inb - 1 })).deliver t m x

def execSampleForwardArrival (s : State) : Out := clocked s forwardArrive

/-- A bucket gains one token, up to 16, no oftener than every 15.625 ns (R72, R76): 0 outbound, 1 inbound, 2 Sample Queue. [DESIGN CHOICE: log 28] -/
def tokenRefill (t b : Nat) (s : State) : State :=
  let n := Map.look s.mon.refills (3 * t + b) 0 + 1
  if 8 * s.cycle < 125 * n then s
  else
    let s := { s with mon.refills := Map.ins s.mon.refills (3 * t + b) n }
    s.updTok t (fun k =>
      if b = 0 then { k with out := min 16 (k.out + 1) }
      else if b = 1 then { k with inb := min 16 (k.inb + 1) }
      else { k with sq := min 16 (k.sq + 1) })

def execFwdTokenRefill (t : Tile) (b : Fin 3) (s : State) : Out := clocked s (tokenRefill t b)

/-! ### Sample Queues (R76 to R79) -/

def sqSize : Nat := 131072
/-- The fill level of a queue (R79). -/
def State.sqFill (s : State) (q : Nat) : Nat := (s.g F.MI_SQ_WR_WR q + sqSize - s.g F.MI_SQ_RD_RD q) % sqSize
/-- RD as it stood at the start of the cycle (R78). -/
def State.sqRdStart (s : State) (q : Nat) : Nat :=
  match Map.find s.mon.rdOld q with
  | some (c, rd) => if c = s.cycle then rd else s.g F.MI_SQ_RD_RD q
  | none => s.g F.MI_SQ_RD_RD q

/-- The oldest copy reaches its queue (R76, R78, R79): copies arrive in the order of their results. [DESIGN CHOICE: log 206] -/
def sqArrive (s : State) : State :=
  match s.mon.sq with
  | [] => s
  | (q, w) :: rest =>
    let s := { s with mon.sq := rest }
    let wr := s.g F.MI_SQ_WR_WR q
    if !s.on F.MI_SQ_CTL_EN q then s
    else if (wr + 1) % sqSize = s.sqRdStart q then (s.put F.MI_SQ_STAT_OVF 1 q).sat F.MI_SQ_DROP_CNT q
    else
      let thr := s.g F.MI_SQ_CTL_THRESH q
      let before := s.sqFill q
      let s := (s.wrN (sqBase + q * 0x80000 + wr * 4) 4 w).put F.MI_SQ_WR_WR ((wr + 1) % sqSize) q
      if thr != 0 && before < thr && thr ≤ s.sqFill q then s.occur (0x20 + q) else s

def execSqCopyArrival (s : State) : Out := clocked s sqArrive

/-- A write of RD frees the entries up to it; outside the occupied span it is ignored (R78). -/
def sqRdWrite (q v : Nat) (s : State) : State :=
  let rd := s.g F.MI_SQ_RD_RD q
  if s.sqFill q < (v % sqSize + sqSize - rd) % sqSize then s.put F.MI_SQ_STAT_RD_ERR 1 q
  else
    { s with mon.rdOld := Map.ins s.mon.rdOld q (s.cycle, s.sqRdStart q) }.sput F.MI_SQ_RD_RD (v % sqSize) q

def execSqRdWrite (q : Fin 16) (v : BitVec 17) (s : State) : Out := clocked s (sqRdWrite q v.toNat)

/-- CLR of MI_SQ_CTL. -/
def sqClr (q : Nat) (s : State) : State :=
  (s.put F.MI_SQ_WR_WR 0 q).put F.MI_SQ_RD_RD 0 q |>.put F.MI_SQ_DROP_CNT 0 q |>.put F.MI_SQ_STAT_OVF 0 q

def execSqClr (q : Fin 16) (s : State) : Out := clocked s (sqClr q.val)

/-! ### Scan control (R70, R71) -/

/-- A write of MI_SCAN_CTLd: MODE takes effect at once when no pass runs; a COMMIT delay in progress is then abandoned (R70). [DEDUCED: log 24] -/
def scanCtlWrite (t d v : Nat) (s : State) : State :=
  let old := s.g F.MI_SCAN_CTL_MODE t d
  let s := s.each [F.MI_SCAN_CTL_MODE, F.MI_SCAN_CTL_TPART, F.MI_SCAN_CTL_LEN, F.MI_SCAN_CTL_DELAY]
    (fun s f => s.sput f (bitsOf v f.lo f.wd) t d)
  if (s.md t d).pass || old = s.g F.MI_SCAN_CTL_MODE t d then s else s.takeMode t d

def execScanCtlWrite (t : Tile) (d : Madc) (v : W32) (s : State) : Out := clocked s (scanCtlWrite t d v.toNat)

def execScanTimerTick (t : Tile) (d : Madc) (s : State) : Out := clocked s (scanTimerTick t d)

/-- A Commit strobe of a partition as the converters of a tile in COMMIT mode see it (R71). -/
def State.scanStrobe (s : State) (t p : Nat) : State :=
  s.each (List.range 8) (fun s d =>
    let s := scanPassEnd t d s
    let x := s.md t d
    if x.mode != 2 || s.g F.MI_SCAN_CTL_TPART t d != p then s
    else if x.pass || x.delay.isSome then s.sat F.MI_SCAN_STAT_TRIG_MISS t d
    else s.updMd t d (fun y => { y with delay := some (s.convEdge + 4 * s.g F.MI_SCAN_CTL_DELAY t d) }))

def execScanCommitDelayExpiry (t : Tile) (d : Madc) (s : State) : Out := clocked s (scanDelayExpiry t d)

def execScanPassEnd (t : Tile) (d : Madc) (s : State) : Out := clocked s (scanPassEnd t d)

/-! ### Focus (R73 to R75) -/

/-- An input joins the shadow focus list of its converter for a partition; a full list takes no more (R73, R75). [DEDUCED: log 25, 69] -/
def State.focusAdd (s : State) (p m : Nat) : State :=
  let t := miTile m
  let d := miMadc m
  let l := (s.md t d).shadow
  if l.contains (p, miPos m) then s
  else if 16 ≤ l.length then (s.sat F.MI_SCAN_STAT_FOCUS_OVF t d).put F.MI_TILE_STAT_FOCUS_OVF 1 t
  else s.updMd t d (fun x => { x with shadow := x.shadow ++ [(p, miPos m)] })

/-- A context staged into bank S adds its monitors if the tile's PEN bit of the partition is set (R73). -/
def State.focusFill (s : State) (p a : Nat) : State :=
  if bitOf (s.g F.MI_FOCUS_CTL_PEN (aoTile a)) p then s.each (s.ctxMis 1 a) (fun s m => s.focusAdd p m) else s

/-- The shadow entries of a partition are discarded with its abandoned staging (R73). -/
def State.focusDrop (s : State) (p : Nat) : State :=
  { s with mon.madcs := s.mon.madcs.map (fun e => (e.1, { e.2 with shadow := e.2.shadow.filter (fun x => x.1 ≠ p) })) }

/-- One entry becomes active: an active input restarts, a new one is appended, beyond 16 it is counted (R75). -/
def State.focusOne (s : State) (t d j flen : Nat) : State :=
  let l := (s.md t d).active
  if l.any (fun e => e.j = j) then
    s.updMd t d (fun x => { x with active := x.active.map (fun e => if e.j = j then ⟨j, flen, s.convEdge⟩ else e) })
  else if 16 ≤ l.length then (s.sat F.MI_SCAN_STAT_FOCUS_OVF t d).put F.MI_TILE_STAT_FOCUS_OVF 1 t
  else s.updMd t d (fun x => { x with active := x.active ++ [⟨j, flen, s.convEdge⟩] })

/-- The shadow entries that staging of this very cycle has put on the lists: no strobe of the cycle finds them (R42, R73). [DEDUCED: log 212] -/
def State.freshFocus (s : State) : List (Nat × Nat) :=
  s.af.aos.flatMap (fun e => match e.2.shdOld with
    | some o => if o.cycle = s.cycle then o.foc else []
    | none => [])

/-- Entries that have expired in this cycle and that a strobe restarts stand as if they had not (R75), with the focus slots that hung on them (R107). -/
def State.unexpire (s : State) (t d : Nat) (back : List Nat) : State :=
  let g := s.goneNow t d
  let x := s.md t d
  let still (e : FocEnt) : Option FocEnt := if back.contains e.j then some ((x.active.find? (fun y => y.j = e.j)).getD e) else x.active.find? (fun y => y.j = e.j)
  let s := s.updMd t d (fun x => { x with
    active := g.list.filterMap still ++ x.active.filter (fun e => !g.list.any (fun y => y.j = e.j)) })
  s.each (g.slots.filter (fun a => back.contains (s.cg 0 a C.MI1 % 1024))) (fun s a => s.updCs a (fun c => { c with slot := true }))

/-- A strobe of partitions activates their shadow entries in a tile, in ascending partition and j; the frame in progress ends and counts, and an entry that it ends and the strobe does not restart expires (R73 to R75). [DEDUCED: log 26] -/
def State.focusActivate (s : State) (t : Nat) (ps : List Nat) : State :=
  let fresh := s.freshFocus
  s.each (List.range 8) (fun s d =>
    let x := s.md t d
    let mine := x.shadow.filter (fun e => ps.contains e.1 && !fresh.contains (e.1, t * 1024 + e.2))
    if mine.isEmpty then s
    else
      let flen := s.g F.MI_FOCUS_CTL_FLEN t
      let s := s.updMd t d (fun x => { x with
        shadow := x.shadow.filter (fun e => !mine.contains e)
        active := if x.slot = 0 then x.active else frameEnd x.active
        slot := 0, grid := s.convEdge })
      if flen = 0 then focusExpiry t d s
      else
        let on (p : Nat) : List Nat := (List.range 1024).filter (fun j => mine.contains (p, j))
        let back := mine.map (fun e => e.2)
        let s := focusExpiry t d ((s.unexpire t d back).updMd t d (fun x => { x with active := x.active.map (fun e => if back.contains e.j then { e with remain := flen, since := s.convEdge } else e) }))
        s.each ps (fun s p => s.each (on p) (fun s j => s.focusOne t d j flen)))

/-- A write of MI_FOCUS_CTL; FLEN = 0 disables focus for the whole tile: what is active expires (R75). [DEDUCED: log 26] -/
def focusCtlWrite (t : Nat) (s : State) : State :=
  if s.g F.MI_FOCUS_CTL_FLEN t = 0 then
    s.each (List.range 8) (fun s d => focusExpiry t d (s.updMd t d (fun x => { x with active := x.active.map (fun e => { e with remain := 0 }) })))
  else s

def execFocusExpiry (t : Tile) (d : Madc) (s : State) : Out := clocked s (focusExpiry t d)

end Sys2Proof.Machine
end

