-- ==== Sys2Proof/Machine/Loops.lean ====
section
/-! DEFINITION. The Loop Engines: how an output is formed, the five laws, nesting, states and commands (04). -/

namespace Sys2Proof.Machine

/-- A sample in monitor units (R85). -/
def monUnits (x : Samp) : Int := ((x.code * 10 ^ x.range : Nat) : Int)
/-- The last sample of an input delivered to the engine of a tile. -/
def State.lastSamp (s : State) (t m : Nat) : Option Samp := Map.find s.le.last (16384 * t + m)

/-! ### Feed-forward (R91 to R96) -/

/-- An arithmetic right shift, rounding towards minus infinity (R85). -/
def sar (i : Int) (n : Nat) : Int := i / (2 ^ n : Int)

/-- The kick in tick n after the commit (R92). -/
def kickAt (kick0 : Int) (khold krsh n : Nat) : Int :=
  if n < khold then kick0
  else if 2 ^ krsh ≤ n - khold then 0
  else kick0 - sar (kick0 * ((n - khold : Nat) : Int)) krsh

/-- [DEDUCED: log 220] -/
def State.kick (s : State) (a : Nat) : Int :=
  if (s.cs a).kickOver then 0 else kickAt (s.cgS 0 a C.KICK0) (s.cg 0 a C.KHOLD) (s.cg 0 a C.KRSH) ((s.replicaU (aoTile a) - (s.cs a).commitT) / (64 * nsU))

/-- The compensated value of a temperature input, if it has one (R93, R382). -/
def State.tdValue (s : State) (n : Nat) : Option Int :=
  if s.thm.hasT.contains n && s.g F.THM_TD_CFG_MODE n != 0 then some (toSigned 16 (s.g F.THM_TD_VAL_T n)) else none

def State.thermal (s : State) (a : Nat) : Int :=
  match s.tdValue (s.cg 0 a C.TDSEL) with
  | some td => s.cgS 0 a C.KTH * (td - s.cgS 0 a C.TREF) * 256
  | none => 0

def State.crosstalk (s : State) (a : Nat) : Int :=
  ((List.range 8).map (fun n =>
    if s.con 0 a (C.XTEN n) then s.cgS 0 a (C.XTC n) * s.cgS 0 (aoTile a * 1280 + s.cg 0 a (C.XTK n)) C.FBOUT * 16
    else 0)).sum

/-- The slot last committed in a tile for a partition (R95, R166). -/
def State.curSlot (s : State) (p t : Nat) : Nat := Map.look (Map.look s.rot p {}).tslot t 0
/-- Entry e of the repetitive table of an AO (R31). -/
def State.repEntry (s : State) (a e : Nat) : Int := toSigned 16 (s.rdN (repBase + a * 128 + e % 64 * 2) 2)

def State.repetitive (s : State) (a : Nat) : Int :=
  let p := s.ga F.AO_CFG_PART a
  if s.con 0 a C.RTEN && s.pm p = 2 then s.repEntry (s.cg 0 a C.RTAO) (s.curSlot p (aoTile a)) * 65536 else 0

/-- The 7-bit reversal. -/
def rev7 (x : Nat) : Nat := ((List.range 7).map (fun i => if bitOf x i then 2 ^ (6 - i) else 0)).sum
/-- Tone n at chip c is -1 where this holds (R96). -/
def walshNeg (n c : Nat) : Bool :=
  let q := 2 * n + 1
  let h := rev7 (q ^^^ (q / 2) % 128)
  (bitList (h &&& c) 7).length % 2 = 1
def walsh (n c : Nat) : Int := if walshNeg n c then -1 else 1
/-- The chip length in force: a written one applies from the next chip edge, and one below 16 acts as 16 (R96, R113). -/
def State.dchip (s : State) (t : Nat) : Nat :=
  match Map.find s.le.dith t with
  | some (old, edge) => if s.replica t < edge then old else max 16 (s.g F.LE_DITHER_DCHIP t)
  | none => max 16 (s.g F.LE_DITHER_DCHIP t)
/-- The chip index of a tile (R96). -/
def State.chip (s : State) (t : Nat) : Nat := s.replica t / (4 * s.dchip t) % 128
/-- Before a write of LE_DITHER: the length in force holds until the next chip edge. -/
def State.ditherMark (s : State) (t : Nat) : State :=
  { s with le.dith := Map.ins s.le.dith t (s.dchip t, (s.replica t / (4 * s.dchip t) + 1) * (4 * s.dchip t)) }
def State.dither (s : State) (a : Nat) : Int :=
  ((s.cg 0 a C.DAMP : Nat) : Int) * walsh (s.cg 0 a C.DTONE) (s.chip (aoTile a)) * 65536

/-- The feed-forward part in Q16.16, unsaturated (R91). -/
def State.ffp (s : State) (a : Nat) : Int :=
  ((s.cg 0 a C.FF_BASE : Nat) : Int) * 65536 + s.kick a * 65536 + s.thermal a + s.crosstalk a + s.repetitive a + s.dither a

/-! ### Output (R91) -/

/-- The code an output takes and on which side it is clamped: none, LO (0) or HI (1). -/
def clampOut (lo hi : Nat) (u : Int) : Nat × Option Nat :=
  if (hi : Int) < u then (hi, some 1) else if u < (lo : Int) then (lo, some 0) else (u.toNat, none)

def State.outCode (s : State) (a : Nat) (q : Int) : Nat × Option Nat :=
  clampOut (s.cg 0 a C.LO) (s.cg 0 a C.HI) (sar (q + 0x8000) 16)

/-- An output leaves for its active register with the generation of its bank (R44, R83); it joins the digest of its pair, and the 1,024th one makes a comparison due (R253). -/
def State.emit (s : State) (a code : Nat) : State :=
  let t := aoTile a
  let gen := (s.aoSt a).gen
  let n := Map.look s.le.count t 0 + 1
  let s := { s with le := { s.le with outs := s.le.outs ++ [LoopOut.mk a code gen], count := Map.ins s.le.count t (n % 1024) } }
  let s := s.feed (1 + t) 0 (leBytes 2 (aoChan a) ++ leBytes 2 code ++ leBytes 2 gen ++ leBytes 2 0)
  if n = 1024 then (s.digestDue (1 + t) 0 0) else s

/-- Where an update's output goes: an outer context with OUTSEL = 1 writes the inner loop's SP (R104). [DEDUCED: log 36] -/
def State.sendOut (s : State) (a code : Nat) (inner : Option Nat) : State :=
  match inner with
  | some i =>
    if s.con 0 a C.OUTSEL then
      s.cp 0 i C.SP (if s.cg 0 i C.LAW = 1 then min (code * 64) 4095000 else code)
    else s.emit a code
  | none => s.emit a code

/-- [DEDUCED: log 31] -/
def sat16 (i : Int) : Int := clampI (-32767) 32767 i

/-- UOUT and FBOUT (R91). [DEDUCED: log 32] -/
def State.noteOut (s : State) (a code : Nat) (fb : Int) : State :=
  ((s.cp 0 a C.UOUT code).cpS 0 a C.FBOUT (sat16 (sar (fb + 0x8000) 16))).updCs a (fun c => { c with fbprev := fb })

/-- Forms and sends the output of one law update; answers whether it was clamped. -/
def State.formOut (s : State) (a : Nat) (fb : Int) (inner : Option Nat) : State × Bool :=
  let r := s.outCode a (s.ffp a + fb)
  let s := match r.2 with
    | some side => s.cp 0 a C.RSIDE side
    | none => s
  ((s.sendOut a r.1 inner).noteOut a r.1 fb, r.2.isSome)

/-! ### Lock and rail (R103, R110, R111) -/

/-- Entry into RAILED (R111). -/
def State.enterRailed (s : State) (a : Nat) : State :=
  if s.cg 0 a C.STATE = 3 then s
  else
    let t := aoTile a
    let s := (s.cp 0 a C.STATE 3).put F.LE_STAT_RAIL 1 t
    if s.on F.LE_CTL_RAIL_FLT t then s.raise 56 (t + aoChan a * 16) else s

/-- A clamped update counts towards railing. [DEDUCED: log 34] -/
def State.railCount (s : State) (a : Nat) : State :=
  let n := min 255 (s.cg 0 a C.RCNT + 1)
  let s := s.cp 0 a C.RCNT n
  if max 1 (s.cg 0 a C.RAILN) ≤ n then s.enterRailed a else s

/-- lockcheck of R103. [DEDUCED: log 34] -/
def State.lockCheck (s : State) (a : Nat) (err : Nat) (clamped : Bool) : State :=
  if clamped then (s.cp 0 a C.LCNT 0).railCount a
  else
    let s := s.cp 0 a C.RCNT 0
    let ltol := s.cg 0 a C.LTOL
    if s.cg 0 a C.STATE = 2 then
      if 2 * ltol < err then (s.cp 0 a C.STATE 1).cp 0 a C.LCNT 0 else s
    else
      let n := if err ≤ ltol then min 255 (s.cg 0 a C.LCNT + 1) else 0
      (s.cp 0 a C.LCNT n).cp 0 a C.STATE (if max 1 (s.cg 0 a C.LOCKN) ≤ n then 2 else 1)

/-- The clamp branch of lockcheck that law 4 runs (R102). -/
def State.holdCheck (s : State) (a : Nat) (clamped : Bool) : State :=
  if clamped then (if s.cg 0 a C.STATE = 3 then s else s.cp 0 a C.STATE 2).railCount a
  else (s.cp 0 a C.RCNT 0).cp 0 a C.STATE 2

/-! ### The laws (R97 to R103) -/

/-- The integrator after one step, frozen while it pushes into a clamp (R97). -/
def antiWindup (ffp p i di : Int) (lo hi : Nat) (imax : Int) : Int :=
  let trial := ffp + p + i + di
  if (((hi : Int) * 65536 + 0x8000 ≤ trial) && 0 < di) || ((trial < (lo : Int) * 65536 - 0x8000) && di < 0) then i
  else clampI (-imax) imax (i + di)

def State.integrate (s : State) (a : Nat) (p di : Int) : Int :=
  antiWindup (s.ffp a) p (s.cgS 0 a C.I) di (s.cg 0 a C.LO) (s.cg 0 a C.HI) ((s.cg 0 a C.IMAX : Nat) : Int)

/-- What an update found: its error, whether it was clamped, whether it was dark. -/
structure UpdInfo where
  err : Int := 0
  clamped : Bool := false
  dark : Bool := false

/-- The PI step of laws 1 and 2 on an error (R97, R91). -/
def State.piStep (s : State) (a : Nat) (e : Int) (inner : Option Nat) : State × UpdInfo :=
  let p := sar (s.cgS 0 a C.KP * e) (s.cg 0 a C.KPSH)
  let di := sar (s.cgS 0 a C.KI * e) (s.cg 0 a C.KISH)
  let i := s.integrate a p di
  let r := (s.cpS 0 a C.I i).formOut a (p + i) inner
  (r.1.lockCheck a e.natAbs r.2, { err := e, clamped := r.2 })

def State.signed (s : State) (a : Nat) (e : Int) : Int := if s.con 0 a C.SIGN then -e else e

/-- Law 1 (R99): SIGN = 0 gives e = SP - y. -/
def State.lawPi (s : State) (a : Nat) (y : Int) (inner : Option Nat) : State × UpdInfo :=
  s.piStep a (s.signed a (((s.cg 0 a C.SP : Nat) : Int) - y)) inner

/-- Law 2 (R100); a dark update keeps the last feedback, sets SEEKING and clears LCNT; a clamped one counts towards nothing, and an unclamped one ends a run of clamped ones as lockcheck does (R103). -/
def State.lawRatio (s : State) (a : Nat) (y1 : Int) (inner : Option Nat) : State × UpdInfo :=
  let y2 := s.lastSamp (aoTile a) (s.cg 0 a C.MI2)
  let tot := y1 + (match y2 with | some x => monUnits x | none => 0)
  if y2.isNone || tot < ((s.cg 0 a C.YMIN : Nat) : Int) || tot = 0 then
    let r := (s.cp 0 a C.DARKCNT (s.cg 0 a C.DARKCNT + 1)).formOut a (s.cs a).fbprev inner
    (((r.1.when (!r.2) (fun s => s.cp 0 a C.RCNT 0)).cp 0 a C.STATE 1).cp 0 a C.LCNT 0, { clamped := r.2, dark := true })
  else
    let sp : Int := ((s.cg 0 a C.SP : Nat) : Int)
    let er := (65536 - sp) * y1 - sp * (tot - y1)
    s.piStep a (s.signed a (Int.tdiv (er * 16) tot)) inner

/-- Law 3 as the outer loop of an inner context (R101). -/
def State.lawLockin (s : State) (a inner : Nat) : State × UpdInfo :=
  let n := s.cg 0 inner C.ACCN
  let g := if n = 0 then 0 else Int.tdiv (s.cgS 0 inner C.ACC) (n : Int)
  let s := (s.cp 0 inner C.ACC 0).cp 0 inner C.ACCN 0
  let i := if n = 0 then s.cgS 0 a C.I
    else s.integrate a 0 (sar (s.cgS 0 a C.KI * s.signed a g) (s.cg 0 a C.KISH))
  let r := (s.cpS 0 a C.I i).formOut a i (some inner)
  (r.1.lockCheck a g.natAbs r.2, { err := g, clamped := r.2 })

/-- Law 4 (R102). -/
def State.lawHold (s : State) (a : Nat) (inner : Option Nat) : State × UpdInfo :=
  let r := s.formOut a (s.cgS 0 a C.I) inner
  (r.1.holdCheck a r.2, { clamped := r.2 })

/-- The end of a sweep: the output rests at the captured code and the context is HELD (R103). -/
def State.sweepEnd (s : State) (a : Nat) (inner : Option Nat) : State :=
  (((s.sendOut a (s.cg 0 a C.CAP_U) inner).cp 0 a C.STATE 0).updCs a (fun c => { c with swept := true })).ctxRefresh a

/-- Law 5 (R103): its output is the ramp alone; the ramp is kept whole, and I shows its 32 low bits. [DEDUCED: log 222] -/
def State.lawSweep (s : State) (a : Nat) (y : Int) (inner : Option Nat) : State × UpdInfo :=
  let ff := s.cg 0 a C.FF_BASE
  let sign := s.con 0 a C.SIGN
  let s :=
    if !(s.cs a).started then
      ((s.cp 0 a C.I (ff * 65536)).cp 0 a C.NLEFT (s.cg 0 a C.KI)).cp 0 a C.CAP_Y (if sign then 0xFFFFFF else 0)
        |>.cp 0 a C.CAP_U ff |>.updCs a (fun c => { c with started := true, ramp := ((ff * 65536 : Nat) : Int) })
    else
      let cap : Int := ((s.cg 0 a C.CAP_Y : Nat) : Int)
      if (!sign && cap < y) || (sign && y < cap) then (s.cp 0 a C.CAP_Y y.toNat).cp 0 a C.CAP_U (s.cg 0 a C.UOUT) else s
  if s.cg 0 a C.NLEFT = 0 then (s.sweepEnd a inner, {})
  else
    let i := (s.cs a).ramp + s.cgS 0 a C.KP * 65536
    let s := ((s.cpS 0 a C.I i).updCs a (fun c => { c with ramp := i })).cp 0 a C.NLEFT (s.cg 0 a C.NLEFT - 1)
    let r := s.outCode a i
    ((s.sendOut a r.1 inner).cp 0 a C.UOUT r.1, { clamped := r.2.isSome })

/-- One update of a context under its law, on a monitor value; inner names the inner loop for which it runs as the outer (R98 to R104). [DEDUCED: log 34] -/
def State.runLaw (s : State) (a : Nat) (y : Int) (inner : Option Nat) : State × UpdInfo :=
  let law := s.cg 0 a C.LAW
  let s := s.cp 0 a C.UPDCNT (s.cg 0 a C.UPDCNT + 1)
  if law = 1 then s.lawPi a y inner
  else if law = 2 then s.lawRatio a y inner
  else if law = 3 then (match inner with | some i => s.lawLockin a i | none => (s, {}))
  else if law = 4 then s.lawHold a inner
  else s.lawSweep a y inner

/-! ### Triggers, focus and nesting (R82, R101, R104, R107) -/

/-- The lock-in accumulation of an inner loop whose outer is of law 3 (R101); a sum beyond 32 bits is a value the spec does not state (log entry 6). [DEDUCED: log 34] -/
def State.accumulate (s : State) (a : Nat) (y : Int) : State :=
  let o := aoTile a * 1280 + s.cg 0 a C.LINKK
  if s.con 0 a C.LINKEN && s.cg 0 o C.LAW = 3 then
    let sum := s.cgS 0 a C.ACC + walsh (s.cg 0 a C.DTONE) (s.chip (aoTile a)) * y
    let s := s.cp 0 a C.ACCN (s.cg 0 a C.ACCN + 1)
    if sum < -(2 ^ 31 : Int) || (2 ^ 31 : Int) ≤ sum then (s.cp 0 a C.ACC s.fresh.toNat).bump
    else s.cpS 0 a C.ACC sum
  else s

/-- The present time of TB0 less the CORE cycles since a conversion started: when it started on TB0, in 2^-48 ns. -/
def State.convTime (s : State) (conv : Nat) : Int := (s.tbVal 0 : Int) - (((s.cycle - conv) * (s.tb 0).rate : Nat) : Int)

/-- The conversion of a sample started inside a window that has opened (R166). -/
def State.inWindow (s : State) (w : Win) (conv : Nat) : Bool :=
  w.since.any (fun c => c ≤ conv) && w.endAt.all (fun e => decide (s.convTime conv * 1000 < ((e * 2 ^ 48 : Nat) : Int)))

/-- The error of an update joins the learning accumulator of its channel (R166). [DESIGN CHOICE: log 255] -/
def State.learnAcc (s : State) (a : Nat) (x : Samp) (st : Nat) (u : UpdInfo) : State :=
  let p := s.ga F.AO_CFG_PART a
  let r : RotSt := Map.look s.rot p {}
  let law := s.cg 0 a C.LAW
  match r.wins.find? (fun w => s.inWindow w x.conv) with
  | none => s
  | some w =>
    if s.on F.RTU_ROT_LRN_LEN p && !s.on F.RTU_ROT_LRN_FRZ p && w.tiles.contains (aoTile a) && (law = 1 || law = 2)
        && s.con 0 a C.RTEN && s.cg 0 a C.RTAO = a && (st = 1 || st = 2) && !u.clamped && !u.dark then
      let old := Map.look w.acc a (0, 0)
      let w' := { w with acc := Map.ins w.acc a (old.1 + u.err, old.2 + 1) }
      { s with rot := Map.ins s.rot p { r with wins := r.wins.map (fun x => if x = w then w' else x) } }
    else s

/-- What an update of a context reads and finds uncorrectable (R340): the store and the index of the first such 64-bit word, of the context or of the repetitive table that it uses. [DEDUCED: log 41] -/
def State.ctxUe (s : State) (a : Nat) : Option (Nat × Nat) :=
  match s.ueIn (ctxAddr 0 a) 128 with
  | some w => some (4, (w - ctxABase) / 8)
  | none =>
    let p := s.ga F.AO_CFG_PART a
    if s.con 0 a C.RTEN && s.pm p = 2 && s.cg 0 a C.LAW != 5 then
      (s.ueIn (repBase + s.cg 0 a C.RTAO * 128 + s.curSlot p (aoTile a) % 64 * 2) 2).map (fun w => (5, (w - repBase) / 8))
    else none

/-- An uncorrectable word suppresses an update and raises SRAM_UE (R340). -/
def State.guardUe (s : State) (a : Nat) (f : State → State) : State :=
  match s.ctxUe a with
  | some e => s.sramUe e.1 e.2
  | none => f s

/-- The outer loop of an inner context runs in the same lane (R104), and learns as other contexts do, its own last sample standing for the triggering one (R166). [DESIGN CHOICE: log 218, 255] -/
def State.runOuter (s : State) (a : Nat) : State :=
  let o := aoTile a * 1280 + s.cg 0 a C.LINKK
  let s := s.ctxSettle o
  if !s.ctxRunning o then s
  else
    s.guardUe o (fun s =>
      let st := s.cg 0 o C.STATE
      match s.lastSamp (aoTile a) (s.cg 0 o C.MI1) with
      | some x =>
        let r := s.runLaw o (monUnits x) (some a)
        r.1.learnAcc o x st r.2
      | none => if s.cg 0 o C.LAW = 3 || s.cg 0 o C.LAW = 4 then (s.runLaw o 0 (some a)).1 else s)

/-- An inner update counts towards M; when MCNT reaches M the outer runs (R104). -/
def State.nest (s : State) (a : Nat) : State :=
  if !s.con 0 a C.LINKEN then s
  else
    let n := s.cg 0 a C.MCNT + 1
    if n < s.outerM 0 a then s.cp 0 a C.MCNT n else (s.cp 0 a C.MCNT 0).runOuter a

/-- One update on a sample or tick with everything that follows in the lane. [DEDUCED: log 33] -/
def State.update (s : State) (a : Nat) (x : Samp) (tick : Bool) : State :=
  let st := s.cg 0 a C.STATE
  let s := s.updCs a (fun c => { c with lastConv := some x.conv })
  let s := s.when (x.focus && !tick) (fun s => s.cp 0 a C.FOCCNT (s.cg 0 a C.FOCCNT + 1))
  let r := s.runLaw a (monUnits x) none
  let s := r.1.learnAcc a x st r.2
  let s := s.when (!x.focus && !tick) (fun s => s.accumulate a (monUnits x))
  if (!x.focus || tick) && !r.2.dark then s.nest a else s

/-- Slots in use in a tile (LE_FOCUS_STAT.USED). -/
def State.slotsUsed (s : State) (t : Nat) : Nat := (s.le.ctx.filter (fun e => aoTile e.1 = t && e.2.slot)).length

/-- The first focused sample after an exchange asks for a focus slot (R107), which a context keeps while its primary monitor stands on the active list; one that is not entitled to a slot gives back what an exchange left it. [DEDUCED: log 35] -/
def State.askSlot (s : State) (a : Nat) (x : Samp) : State :=
  let t := aoTile a
  if !x.focus || (s.cs a).asked then s
  else
    let s := s.updCs a (fun c => { c with asked := true })
    if !s.con 0 a C.FOK || s.g F.LE_FOCUS_FCOST t < s.ctxCost false a s.learning || !s.miFocused (s.cg 0 a C.MI1) then s.updCs a (fun c => { c with slot := false })
    else if (s.cs a).slot then s
    else if s.slotsUsed t < min 128 (s.g F.LE_FOCUS_SLOTS t) then s.updCs a (fun c => { c with slot := true })
    else s.sat F.LE_FOCUS_STAT_DENY t

/-- A context that some inner context names as its outer loop is not triggered by its own monitor (R104). -/
def State.isOuter (s : State) (a : Nat) : Bool := !(s.innersOf 0 (aoTile a) (aoChan a)).isEmpty

/-- A context that holds a focus slot runs focused (R107): while more hold one than LE_FOCUS.SLOTS allows, those of the lowest k. [DESIGN CHOICE: log 219] -/
def State.runsFocused (s : State) (a : Nat) : Bool :=
  let t := aoTile a
  (s.cs a).slot && (s.le.ctx.filter (fun e => aoTile e.1 = t && e.2.slot && e.1 < a)).length < min 128 (s.g F.LE_FOCUS_SLOTS t)

/-- The sample that a context takes next: the first of those that waited for its commit update (R88), else the last one delivered if it is a new one. -/
def State.nextSamp (s : State) (a : Nat) : Option Samp :=
  match (s.cs a).waiting.head? with
  | some x => some x
  | none => (s.lastSamp (aoTile a) (s.cg 0 a C.MI1)).filter (fun x => x.serial != (s.cs a).lastSerial)

/-- What keeps a context from updates: no holder in its pair (R247), a commit update that is due (R88), its state, or an inner loop that runs it (R83, R104). A tick before that commit update is passed over. [DESIGN CHOICE: log 251] -/
def State.ctxStill (s : State) (a : Nat) : Bool :=
  s.noHolder (1 + aoTile a) || s.cg 0 a C.LAW = 0 || s.cg 0 a C.LAW = 3 || !s.ctxRunning a || s.isOuter a || (s.cs a).due

/-- A sample of MI1 triggers an update (R82, R83, R88); an uncorrectable word suppresses it (R340). -/
def loopUpdate (a : Nat) (s : State) : State :=
  match s.nextSamp a with
  | none => s
  | some x =>
    if s.con 0 a C.TSRC || s.ctxStill a then s
    else
      let s := (s.updCs a (fun c => { c with lastSerial := x.serial, waiting := c.waiting.tail })).askSlot a x
      let early := match (s.cs a).lastConv with
        | some c => x.conv < c + 4 * s.cg 0 a C.MININT
        | none => false
      if early && !(x.focus && s.runsFocused a) then s else s.guardUe a (fun s => s.update a x false)

def execLoopUpdate (a : Ao) (s : State) : Out := clocked s (loopUpdate a)

/-- A tick of the tile's replica lies in this CORE cycle (R82). -/
def State.tickNow (s : State) (a : Nat) : Bool :=
  let per := 4 * s.cg 0 a C.MININT * nsU
  0 < per && s.replicaU (aoTile a) % per < max 1 (s.tb 0).inc && (s.cs a).tick != some s.cycle

/-- [DESIGN CHOICE: log 251] -/
def loopTick (a : Nat) (s : State) : State :=
  if !s.con 0 a C.TSRC || s.ctxStill a || !s.tickNow a then s
  else
    let s := s.updCs a (fun c => { c with tick := some s.cycle })
    match s.lastSamp (aoTile a) (s.cg 0 a C.MI1) with
    | none => s
    | some x => s.guardUe a (fun s => s.update a x true)

def execLoopTick (a : Ao) (s : State) : Out := clocked s (loopTick a)

/-- The inner context that names a channel's context as its outer loop. [DEDUCED: log 36] -/
def State.innerOf (s : State) (a : Nat) : Option Nat := ((s.innersOf 0 (aoTile a) (aoChan a)).head?).map (fun k => aoTile a * 1280 + k)

/-- The commit update of an exchanged context (R88): P = 0, the feedback is I; only the output, UOUT and FBOUT are written. An outer context with OUTSEL = 1 gives its output to the inner loop's SP, as in every update (R104). [DEDUCED: log 36; DESIGN CHOICE: log 214, 221] -/
def State.commitOne (s : State) (a : Nat) : State :=
  if s.noHolder (1 + aoTile a) || !s.ctxRunning a then s.updCs a (fun c => { c with due := false, waiting := [] })
  else
    (s.updCs a (fun c => { c with due := false })).guardUe a (fun s =>
      let i := s.cgS 0 a C.I
      let r := s.outCode a (s.ffp a + i)
      (s.sendOut a r.1 (s.innerOf a)).noteOut a r.1 i)

/-- The commit updates of a tile run in ascending k (R88): those due below a channel come before its own. [DESIGN CHOICE: log 221] -/
def commitUpdate (a : Nat) (s : State) : State :=
  if !(s.cs a).due then s
  else s.each ((aosOfTile (aoTile a)).filter (fun x => x ≤ a && (s.cs x).due)) State.commitOne

def execCommitUpdate (a : Ao) (s : State) : Out := clocked s (commitUpdate a)

/-! ### Writes and commands (R89, R90, R108, R112, R113) -/

/-- What the engine writes in the context that has become active (R87): I, the counters and KICK0. [DESIGN CHOICE: log 244] -/
def State.startFields (s : State) (a uPrev oldI : Nat) : State :=
  let s := if s.con 0 a C.CARRYI then s.cp 0 a C.I oldI else s
  let s := s.each [C.ACC, C.ACCN, C.MCNT, C.LCNT, C.RCNT, C.UPDCNT, C.DARKCNT, C.FOCCNT] (fun s f => s.cp 0 a f 0)
  let k := sar ((((s.cg 0 a C.FF_BASE : Nat) : Int) - ((uPrev : Nat) : Int)) * s.cgS 0 a C.KCOEF) 12
  s.cpS 0 a C.KICK0 (sat16 k)

/-- The commit exchange of a context (R87, R112) at an instant in ps: the banks change places and the new active context starts, its engine-written fields only while the pair has a holder (R247); a focus slot stays with a primary monitor that is still on the active list (R107). [DEDUCED: log 32, 35, 40, 220; DESIGN CHOICE: log 213, 244] -/
def State.exchange (s : State) (a uPrev : Nat) (tc : Int) : State :=
  let ba := s.rdBs (ctxAddr 0 a) 128
  let bs := s.rdBs (ctxAddr 1 a) 128
  let oldI := s.cg 0 a C.I
  let wasFault := s.cg 0 a C.STATE = 4
  let outer := s.outerOf a
  let mon := s.cg 0 a C.MI1
  let none' := s.leNone a
  let s := (s.wrBs (ctxAddr 0 a) bs).wrBs (ctxAddr 1 a) ba
  let s := s.when (!none') (fun s => s.startFields a uPrev oldI)
  let s := s.updCs a (fun c => { c with staged := false, lastConv := none, commitT := ceilDiv (tc.toNat * 2 ^ 48) 1000, due := true, kickOver := false, slot := c.slot && s.cg 0 a C.MI1 = mon && s.miFocused mon, asked := false, started := false, swept := false, fbprev := s.cgS 0 a C.I })
  if none' then s.updCs a (fun c => { c with due := false })
  else if wasFault && !s.mayRestart a then
    ((s.cp 0 a C.STATE 4).cp 0 a C.FBOUT 0).put F.LE_STAT_RESTART_REFUSED 1 (aoTile a)
      |>.updCs a (fun c => { c with due := false })
  else ((s.cp 0 a C.STATE 1).ctxRefresh a).outerSettle outer

/-- A host write of a context through BAR2 (R89, R90): refused in SWITCH and ROTOR; the unit is the part of the write that lies in this context. -/
def contextWrite (bank a off : Nat) (bs : List Byte) (s : State) : State :=
  let pm := s.pm (s.ga F.AO_CFG_PART a)
  if s.ona F.AO_CFG_OWNED a && (pm = 1 || pm = 2) then s.put F.LE_STAT_WR_REFUSED 1 (aoTile a)
  else (s.ctxUnit bank a off bs srcHost false).1

def execContextWrite (bank : Fin 2) (a : Ao) (off : Fin 128) (bs : List Byte) (s : State) : Out :=
  clocked s (fun s => contextWrite bank a off bs (s.grant 1 0))

/-- LE_CMD RESTART (R112): of a context that is not in FAULT it does nothing, nor while no engine holds the token of the pair (R247). [DEDUCED: log 32, 40; DESIGN CHOICE: log 213, 217, 245] -/
def leRestart (a : Nat) (s : State) : State :=
  if s.cg 0 a C.STATE != 4 || s.leNone a then s
  else if !s.mayRestart a then ((s.leErr a 0 srcReg 6).put F.LE_STAT_RESTART_REFUSED 1 (aoTile a))
  else
    let s := s.each [C.I, C.ACC, C.ACCN, C.MCNT, C.KICK0, C.LCNT, C.RCNT, C.UPDCNT] (fun s f => s.cp 0 a f 0)
    ((s.cp 0 a C.STATE 1).updCs a (fun c => { c with lastConv := none, started := false, swept := false, fbprev := 0 })).ctxRefresh a

def execLeRestart (a : Ao) (s : State) : Out := clocked s (leRestart a)
/-- LE_CMD HOLD and RELEASE act on bank A in every partition mode (R113). -/
def leHold (a : Nat) (s : State) : State := (s.cp 0 a C.HOLDREQ 1).ctxRefresh a
def leRelease (a : Nat) (s : State) : State := (s.cp 0 a C.HOLDREQ 0).ctxRefresh a
def execLeHold (a : Ao) (s : State) : Out := clocked s (leHold a)
def execLeRelease (a : Ao) (s : State) : Out := clocked s (leRelease a)

/-- A write of LE_FOCUS is accepted only if both loads stay within the budget (R108). [DESIGN CHOICE: log 39] -/
def leFocusWrite (t slots fcost : Nat) (s : State) : State :=
  let s1 := (s.sput F.LE_FOCUS_SLOTS slots t).sput F.LE_FOCUS_FCOST fcost t
  let cur := s1.load false t
  let pro := s1.load true t
  if leBudget < cur || leBudget < pro then ((s.leErr (t * 1280) 0 srcReg 0).leOvercommit t (max cur pro)) else s1

def execLeFocusWrite (t : Tile) (slots fcost : Byte) (s : State) : Out := clocked s (leFocusWrite t slots.toNat fcost.toNat)

end Sys2Proof.Machine
end

