-- ==== Sys2Proof/Machine/Flags.lean ====
section
/-! DEFINITION. The condition flags of SCR_STATUS (R174): Z bit 0, N bit 1, C bit 2, V bit 3, L bit 4; how each instruction class sets them (R181, R183). -/

namespace Sys2Proof.Machine

def flagZ : Nat := 0
def flagN : Nat := 1
def flagC : Nat := 2
def flagV : Nat := 3
def flagL : Nat := 4

/-- Z and N of a 64-bit result; the other bits stay. -/
def withZN (st : Nat) (r : W64) : Nat := setBitTo (setBitTo st flagZ (r = 0)) flagN r.msb
def withCV (st : Nat) (c v : Bool) : Nat := setBitTo (setBitTo st flagC c) flagV v
def withZ (st : Nat) (z : Bool) : Nat := setBitTo st flagZ z
def withL (st : Nat) (l : Bool) : Nat := setBitTo st flagL l

/-- a + b: C is the carry out, V the signed overflow (R181). -/
def flagsAdd (st : Nat) (a b : W64) : Nat :=
  withCV (withZN st (a + b)) (2 ^ 64 ≤ a.toNat + b.toNat) (a.msb = b.msb && (a + b).msb != a.msb)

/-- a - b: C is no borrow (R181). -/
def flagsSub (st : Nat) (a b : W64) : Nat :=
  withCV (withZN st (a - b)) (b.toNat ≤ a.toNat) (a.msb != b.msb && (a - b).msb != a.msb)

/-- Bitwise results: C and V are 0 (R181). -/
def flagsLogic (st : Nat) (r : W64) : Nat := withCV (withZN st r) false false

/-- Shifts: C is the last bit out, 0 for a shift by 0 (R181). -/
def flagsShift (st : Nat) (r : W64) (out : Bool) : Nat := withCV (withZN st r) out false

/-- The last bit that a shift by n moves out of a. -/
def shlOut (a : W64) (n : Nat) : Bool := n != 0 && a.getLsbD (64 - n)
def shrOut (a : W64) (n : Nat) : Bool := n != 0 && a.getLsbD (n - 1)

/-- The signed product does not fit 64 bits. -/
def mulOvf (a b : W64) : Bool := (a.toInt * b.toInt) != (a * b).toInt

/-- The low and high forms of MUL (R181). -/
def flagsMulLow (st : Nat) (a b : W64) : Nat := withCV (withZN st (a * b)) (mulOvf a b) (mulOvf a b)

/-- TIMEADD.CMP (R183): Z equal, N less, C not N, V 0. -/
def flagsTime (st : Nat) (x y : Nat) : Nat :=
  withCV (setBitTo (setBitTo st flagZ (x = y)) flagN (x < y)) (y ≤ x) false

/-- The branch conditions (R182). -/
def condHolds (st cond : Nat) : Bool :=
  let z := bitOf st flagZ
  let n := bitOf st flagN
  let c := bitOf st flagC
  let v := bitOf st flagV
  let l := bitOf st flagL
  match cond with
  | 0 => true
  | 1 => z
  | 2 => !z
  | 3 => n != v
  | 4 => n == v
  | 5 => !c
  | 6 => c
  | 7 => !z && n == v
  | 8 => z || n != v
  | 9 => c && !z
  | 10 => !c || z
  | 11 => l
  | 12 => !l
  | _ => false

end Sys2Proof.Machine
end

