-- ==== Sys2Proof/Machine/Operands.lean ====
section
/-! DEFINITION. Obrix threads and their operands: registers, the control registers as a thread reads them, the instruction formats (R178, R179, R197), the fetch, exception entry (R190), and the issue of an instruction on both members (R170, R195). -/

namespace Sys2Proof.Machine

/-! ### Threads (R171, R173, R174) -/

def thKey (m h : Nat) : Nat := 16 * m + h
def State.th (s : State) (m h : Nat) : ThrSt := Map.look s.seq.thr (thKey m h) {}
def State.updTh (s : State) (m h : Nat) (f : ThrSt → ThrSt) : State := { s with seq.thr := Map.upd s.seq.thr (thKey m h) {} f }

/-- A general register; G0 reads as zero (R173). -/
def ThrSt.gr (x : ThrSt) (r : Nat) : W64 := if r = 0 then 0 else Map.look x.g r 0
/-- Writes of G0 are discarded (R173). -/
def ThrSt.setG (x : ThrSt) (r : Nat) (v : W64) : ThrSt := if r = 0 then x else { x with g := Map.ins x.g r v }
def ThrSt.tr (x : ThrSt) (r : Nat) : RWord := Map.look x.t r 0
def ThrSt.setT (x : ThrSt) (r : Nat) (v : RWord) : ThrSt := { x with t := Map.ins x.t r v }
def ThrSt.scrOf (x : ThrSt) (n : Nat) : Nat := Map.look x.scr n 0
def ThrSt.setScr (x : ThrSt) (n v : Nat) : ThrSt := { x with scr := Map.ins x.scr n v }

def scrStatus : Nat := 0x000
def scrCause : Nat := 0x001
def scrEpc : Nat := 0x002
def scrBadaddr : Nat := 0x003
def scrEvec : Nat := 0x004
def scrMode : Nat := 0x005
def scrEvmask : Nat := 0x007
def scrInstret : Nat := 0x009
def scrD2frame : Nat := 0x00A

def ThrSt.status (x : ThrSt) : Nat := x.scrOf scrStatus
def ThrSt.setStatus (x : ThrSt) (v : Nat) : ThrSt := x.setScr scrStatus v
def bitIE : Nat := 8
def bitPIE : Nat := 9
def bitMT : Nat := 10
def bitPD2 : Nat := 11
/-- The thread runs D2 code (SCR_MODE.D2). -/
def ThrSt.inD2 (x : ThrSt) : Bool := bitOf (x.scrOf scrMode) 1

/-- SEQ_THR_STATn.STATE (R171): 0 STOPPED, 1 RUN, 2 WAIT, 3 HALTED, 4 DBLFLT. -/
def State.thState (s : State) (m h : Nat) : Nat := s.g F.SEQ_THR_STAT_STATE m h
def State.setThState (s : State) (m h v : Nat) : State := s.put F.SEQ_THR_STAT_STATE v m h

/-- The members that issue (R247, R251). [DESIGN CHOICE: log 80] -/
def State.lock (s : State) : List Nat := [0, 1].filter (fun m => s.mstate 0 m = 4)
/-- The member whose effects leave the Sequencer. -/
def State.lead (s : State) : Nat := s.holder 0
def State.hasLead (s : State) : Bool := !s.noHolder 0 && s.mstate 0 (s.holder 0) = 4

/-- HALTMAP and THREADn_HALT (R171): entering HALTED or DBLFLT. -/
def State.thHalt (s : State) (m h st : Nat) : State :=
  let s := (s.setThState m h st).put F.SEQ_STAT_HALTMAP (orBit (s.g F.SEQ_STAT_HALTMAP m) h) m
  if s.holds 0 m then s.occur (0x30 + h) else s

/-- The waits that hold a stop of a Rotor Engine. -/
def ThrSt.asksStop (x : ThrSt) : Bool := match x.wait with
  | some (.rotor _) => true
  | _ => false

/-- A stop that only an abandoned ROTOR.STOP.W has asked for is taken back; slots, instants and edges that its STOP_NOW put aside are the coming ones again, and their load is made anew (R196). [DESIGN CHOICE: log 228] -/
def RotSt.takeBack (r : RotSt) : RotSt :=
  match r.ask with
  | none => r
  | some a =>
    let r := { r with stopPend := a.stopPend, stopNow := a.stopNow, ask := none }
    match a.aside with
    | some (slot, dues, own, begins, wait) => { r with slot := slot, dues := dues, own := own, begins := begins, wait := wait }
    | none => r

/-- The wait of a thread is abandoned (R171, R190): ROTOR.STOP.W leaves no stop once no member waits in it any longer (R196). [DESIGN CHOICE: log 228] -/
def State.abandon (s : State) (m h : Nat) : State :=
  if (s.th m h).asksStop && !(s.th (1 - m) h).asksStop then { s with rot := Map.upd s.rot h {} RotSt.takeBack } else s

/-- A thread enters STOPPED; a waiting instruction is abandoned (R171, R196). -/
def State.thStop (s : State) (m h : Nat) : State :=
  (((s.abandon m h).updTh m h (fun x => { x with wait := none, stop := false, redirect := false })).setThState m h 0).put
    F.SEQ_STAT_HALTMAP (clrBit (s.g F.SEQ_STAT_HALTMAP m) h) m

/-- REDIRECT at a boundary (R177): the PC and the code range from NPC and NCODE. -/
def State.thRedirect (s : State) (m h : Nat) : State :=
  let s := (s.abandon m h).setWord R.SEQ_THR_CODE (s.word R.SEQ_THR_NCODE h) h
  (s.updTh m h (fun x => { x with wait := none, redirect := false, pc := 4 * s.g F.SEQ_THR_NPC_PC h })).setThState m h 1

/-- What a thread does at its next boundary: a STOP, or a REDIRECT that was written (R171, R177). -/
def State.boundary (s : State) (m h : Nat) : State :=
  let x := s.th m h
  if x.stop then s.thStop m h else if x.redirect then s.thRedirect m h else s

/-- The Chord flags a thread may watch (R335). -/
def State.watched (s : State) (h : Nat) : Nat := (s.g F.EVT_FLAG_FLAG &&& s.g F.EVT_PERM_WATCH_VAL h)

/-! ### Exception entry (R189, R190) -/

/-- An exception: its code, INFO, the PC it saves and the faulting address. -/
structure Exc where
  code : Nat
  info : Nat := 0
  epc : Nat
  bad : Option Nat := none
  deriving DecidableEq, Repr

/-- Entry (R190): EPC, CAUSE and BADADDR, IE into PIE, the PC from EVEC; from D2 code the thread turns native with PD2 set (R191). -/
def ThrSt.enter (x : ThrSt) (e : Exc) : ThrSt :=
  let x := (x.setScr scrEpc (e.epc / 4 * 4)).setScr scrCause (e.code + e.info % 65536 * 65536)
  let x := match e.bad with
    | some a => x.setScr scrBadaddr a
    | none => x
  let st := x.status
  let st := setBitTo st bitPIE (bitOf st bitIE)
  let st := clrBit st bitIE
  let st := if x.inD2 then orBit st bitPD2 else st
  let x := (x.setStatus st).setScr scrMode (clrBit (x.scrOf scrMode) 1)
  { x with pc := x.scrOf scrEvec / 4 * 4, wait := none }

/-- A synchronous exception (R190): with IE = 0 the thread enters DBLFLT, CAUSE and EPC written. -/
def State.exc (s : State) (m h : Nat) (e : Exc) : State :=
  let s := s.put F.SEQ_THR_STAT_CAUSE e.code m h
  if bitOf (s.th m h).status bitIE then s.updTh m h (fun x => x.enter e)
  else
    (s.updTh m h (fun x => { (x.setScr scrEpc (e.epc / 4 * 4)).setScr scrCause (e.code + e.info % 65536 * 65536) with wait := none })).thHalt m h 4

/-! ### Instruction formats (R178, R179, R197) -/

/-- A decoded instruction: its opcode (of an EXT pair the one that OPX names), register fields, FUNC, the immediate or offset signed and unsigned, and its length in bytes. -/
structure OIns where
  opc : Nat
  d : Nat := 0
  s1 : Nat := 0
  s2 : Nat := 0
  func : Nat := 0
  imm : Int := 0
  uimm : Nat := 0
  len : Nat := 4
  deriving DecidableEq, Repr

/-- Which fields an OP3 instruction uses. -/
structure Uses where
  d : Bool := false
  s1 : Bool := false
  s2 : Bool := false
  td : Bool := false
  ts1 : Bool := false
  ts2 : Bool := false

/-- The fields of an OP3 opcode with a FUNC; none where the opcode is unassigned or the FUNC not defined (R180 to R187, R197). -/
def op3Uses (opc func : Nat) : Option Uses :=
  let when0 (u : Uses) : Option Uses := if func = 0 then some u else none
  let upTo (n : Nat) (u : Uses) : Option Uses := if func ≤ n then some u else none
  let wt (u : Uses) : Option Uses := if func < 16 && (8 ≤ func || func = 0) then some u else none
  if 0x01 ≤ opc && opc ≤ 0x05 then when0 { d := true, s1 := true, s2 := true }
  else if 0x06 ≤ opc && opc ≤ 0x08 then
    if func = 0 then some { d := true, s1 := true, s2 := true }
    else if 256 ≤ func && func < 320 then some { d := true, s1 := true } else none
  else
    match opc with
    | 0x09 => upTo 2 { d := true, s1 := true, s2 := true }
    | 0x0A | 0x0B => upTo 1 { d := true, s1 := true, s2 := true }
    | 0x0C => when0 { s1 := true, s2 := true }
    | 0x32 => upTo 1 { d := true, s1 := true }
    | 0x38 => some {}
    | 0x39 | 0x3E | 0x3F => when0 {}
    | 0x3A => some { d := true }
    | 0x3B => some { s1 := true }
    | 0x40 =>
      if func % 8 = 0 && func < 32 then some { d := true, td := true }
      else if 1 ≤ func && func ≤ 4 then some { d := true, s1 := true, ts1 := true }
      else if func = 5 then some { d := true, s1 := true, s2 := true, ts1 := true, ts2 := true } else none
    | 0x41 =>
      if func = 0 || func = 4 then some { d := true, s1 := true, s2 := true, td := true, ts1 := true }
      else if func % 8 = 1 && func < 32 then some { d := true, s1 := true, s2 := true, td := true }
      else if func = 2 then some { d := true, s1 := true, td := true, ts1 := true }
      else if func = 3 then some { s1 := true, s2 := true, ts1 := true, ts2 := true } else none
    | 0x42 => when0 { s1 := true, ts1 := true }
    | 0x43 => if func < 2 then some { d := true, s1 := true } else if func < 4 then some { d := true, s1 := true, s2 := true, ts2 := true } else none
    | 0x44 => if func = 0 then some { s1 := true } else if 64 ≤ func && func < 128 then some {} else none
    | 0x45 => some { s1 := true }
    | 0x80 => upTo 1 { d := true, s1 := true }
    | 0x81 => upTo 1 { s1 := true, s2 := true }
    | 0x82 => when0 { s1 := true }
    | 0x83 => upTo 1 { d := true }
    | 0x84 => upTo 1 { s1 := true, s2 := true }
    | 0x85 => upTo 1 {}
    | 0x86 | 0x87 => when0 { d := true, s1 := true, s2 := true }
    | 0x88 =>
      if func = 0 then some { d := true } else if func = 1 then some { d := true, s1 := true }
      else if func = 2 then some { d := true, s1 := true, s2 := true } else none
    | 0x89 => wt { d := true, s1 := true, s2 := true, ts1 := true }
    | 0x8A => wt { d := true }
    | 0x8B => when0 { d := true }
    | 0x8C => upTo 1 { d := true, s1 := true, s2 := true }
    | 0x8D => if func = 0 then some { d := true } else if func = 1 then some { d := true, s2 := true, ts2 := true } else none
    | 0x8E | 0x90 | 0x92 => when0 { d := true, s1 := true }
    | 0x8F => when0 { s1 := true }
    | 0x91 | 0xC0 => upTo 1 { d := true, s1 := true }
    | 0xC1 => when0 { d := true }
    | 0xC2 => upTo 3 { d := true }
    | _ => none

/-- An OP3 word whose unused fields are zero and whose T register fields name T0 to T7 (R173, R178). -/
def decodeOp3 (opc w : Nat) : Option OIns :=
  let d := bitsOf w 19 5
  let s1 := bitsOf w 14 5
  let s2 := bitsOf w 9 5
  let func := bitsOf w 0 9
  match op3Uses opc func with
  | none => none
  | some u =>
    if (!u.d && d != 0) || (!u.s1 && s1 != 0) || (!u.s2 && s2 != 0) || (u.td && 8 ≤ d) || (u.ts1 && 8 ≤ s1) || (u.ts2 && 8 ≤ s2) then none
    else some { opc := opc, d := d, s1 := s1, s2 := s2, func := func }

def isOpi (opc : Nat) : Bool := 0x10 ≤ opc && opc ≤ 0x13
def isMem (opc : Nat) : Bool := 0x20 ≤ opc && opc ≤ 0x27

/-- An EXT pair (R179). -/
def decodeExt (w x : Nat) : Option OIns :=
  let opx := bitsOf w 0 8
  let d := bitsOf w 19 5
  let s1 := bitsOf w 14 5
  let noS1 := opx = 0x13 || opx = 0x30 || opx = 0x31
  if bitsOf w 8 6 != 0 || !(isOpi opx || isMem opx || opx = 0x30 || opx = 0x31 || opx = 0x41) then none
  else if (noS1 && s1 != 0) || (opx = 0x30 && 12 < d) || (opx = 0x41 && (8 ≤ d || 8 ≤ s1)) then none
  else some { opc := opx, d := d, s1 := s1, imm := toSigned 32 x, uimm := x, len := 8 }

/-- The instruction in a word and, for an EXT pair, the word after it; none where it is ILLEGAL (R178). -/
def decodeObrix (w x : Nat) : Option OIns :=
  let opc := bitsOf w 24 8
  let d := bitsOf w 19 5
  let s1 := bitsOf w 14 5
  if opc = 0xF0 then decodeExt w x
  else if isOpi opc then
    if opc = 0x13 && s1 != 0 then none
    else some { opc := opc, d := d, s1 := s1, imm := toSigned 14 (bitsOf w 0 14), uimm := bitsOf w 0 14 }
  else if isMem opc then some { opc := opc, d := d, s1 := s1, imm := toSigned 14 (bitsOf w 0 14) }
  else if opc = 0x30 then if 12 < d then none else some { opc := opc, d := d, imm := toSigned 19 (bitsOf w 0 19) }
  else if opc = 0x31 then some { opc := opc, d := d, imm := toSigned 19 (bitsOf w 0 19) }
  else decodeOp3 opc w

/-! ### Fetch and issue -/

/-- The code range of a thread (R177). -/
def State.inCode (s : State) (h pc : Nat) : Bool :=
  let b := s.g F.SEQ_THR_CODE_BASE h * 4096
  b ≤ pc && pc + 4 ≤ b + s.g F.SEQ_THR_CODE_SIZE h * 4096

/-- Why 4 bytes at an address cannot be fetched for the instruction at pc (R175, R177, R189). -/
def State.fetchBad (s : State) (h pc a : Nat) : Option Exc :=
  if !s.inCode h a then some { code := 0x04, epc := pc, bad := some a }
  else if (s.ueIn (progBase + a) 4).isSome then some { code := 0x05, epc := pc, bad := some a }
  else none

/-- What the next issue of a thread finds (R175, R177, R178): an instruction, or the exception that the fetch raises. -/
def State.fetch (s : State) (m h : Nat) : Except Exc OIns :=
  let pc := (s.th m h).pc
  let w := s.rdN (progBase + pc) 4
  let isExt := bitsOf w 24 8 = 0xF0
  match s.fetchBad h pc pc, if isExt then s.fetchBad h pc (pc + 4) else none with
  | some e, _ => .error e
  | none, some e => .error e
  | none, none =>
    match decodeObrix w (if isExt then s.rdN (progBase + pc + 4) 4 else 0) with
    | none => .error { code := 0x01, info := bitsOf w 24 8, epc := pc }
    | some i => .ok i

/-- A thread that may issue: RUN, native, in no instruction. -/
def State.canIssue (s : State) (m h : Nat) : Bool :=
  s.thState m h = 1 && (s.th m h).wait.isNone && !(s.th m h).inD2

/-- An instruction has completed: the PC moves past it and it is retired; a STOP or REDIRECT acts at this boundary. -/
def State.retire (s : State) (m h : Nat) (i : OIns) : State :=
  (s.updTh m h (fun x => { x.setScr scrInstret ((x.scrOf scrInstret + 1) % 2 ^ 64) with pc := x.pc + i.len, wait := none })).boundary m h

/-- An exception of the instruction at the PC, on the members in step. -/
def State.excAll (s : State) (h code info : Nat) (bad : Option Nat) : State :=
  s.each s.lock (fun s m => s.exc m h { code := code, info := info, epc := (s.th m h).pc, bad := bad })

/-- A fetch that fails raises its exception on every member in step; an uncorrectable word also raises SRAM_UE (R175, R340). -/
def State.fetchFault (s : State) (m h : Nat) (e : Exc) : State :=
  let s := s.when (e.code = 0x05 && s.holds 0 m) (fun s => s.sramUe 0 (e.bad.getD 0 / 8))
  s.exc m h e

/-- Thread h issues its next instruction, and it is one of the row's kind (R170, R172): f runs on each member in step. A fetch that fails or an ILLEGAL word raises its exception whatever the row; another instruction is not this event. -/
def State.issue (s : State) (h : Nat) (kind : OIns → Bool) (f : OIns → Nat → State → State) : State :=
  s.each s.lock (fun s m =>
    if !s.canIssue m h then s
    else
      match s.fetch m h with
      | .error e => s.fetchFault m h e
      | .ok i => if kind i then f i m s else s)

/-- A switching instruction (R195): issued by the members in step, its effect made once; f answers for both. -/
def State.issueSw (s : State) (h : Nat) (kind : OIns → Bool) (f : OIns → State → State) : State :=
  if !s.hasLead || !s.canIssue s.lead h then s
  else
    match s.fetch s.lead h with
    | .error e => s.each s.lock (fun s m => s.fetchFault m h e)
    | .ok i => if kind i then f i s else s

/-- The destination of a switching instruction, on the members in step. -/
def State.wrAll (s : State) (h d : Nat) (v : W64) : State := s.each s.lock (fun s m => s.updTh m h (fun x => x.setG d v))
def State.wrTAll (s : State) (h d : Nat) (v : RWord) : State := s.each s.lock (fun s m => s.updTh m h (fun x => x.setT d v))
def State.zAll (s : State) (h : Nat) (z : Bool) : State := s.each s.lock (fun s m => s.updTh m h (fun x => x.setStatus (withZ x.status z)))
def State.lAll (s : State) (h : Nat) (l : Bool) : State := s.each s.lock (fun s m => s.updTh m h (fun x => x.setStatus (withL x.status l)))
/-- The instructions whose effect passes the gate as one beat of their own (R170, R195): EVRAISE, completions, routings, plan changes, aborts, context writes, mode changes, fences, focus changes and rotor control; stores, pops, staging and arming pass theirs where they act. -/
def beatOpcs : List Nat := [0x44, 0x81, 0x82, 0x84, 0x85, 0x8B, 0x8C, 0x8E, 0x8F, 0x90, 0x91, 0xC0, 0xC1, 0xC2]
/-- [DESIGN CHOICE: log 93] -/
def State.passSw (s : State) (h : Nat) (i : OIns) : State :=
  s.when (beatOpcs.contains i.opc) (fun s => s.passEffect 0 (leBytes 1 i.opc ++ leBytes 1 h ++ leBytes 2 i.func))
def State.retireAll (s : State) (h : Nat) (i : OIns) : State := (s.passSw h i).each s.lock (fun s m => s.retire m h i)

/-- The thread stays in the instruction: in WAIT for a waiting one (R171), in RUN for a staging one. -/
def State.waitAll (s : State) (h : Nat) (w : WaitOp) (inWait : Bool) : State :=
  s.each s.lock (fun s m => (s.updTh m h (fun x => { x with wait := some w })).setThState m h (if inWait then 2 else 1))

/-- The lead member's thread of a partition. -/
def State.leadTh (s : State) (h : Nat) : ThrSt := s.th s.lead h

/-- A waiting or staging instruction of thread h completes on every member in step: f writes its results, then it is retired; all of them are 4 bytes long. -/
def State.wake (s : State) (h : Nat) (f : State → State) : State :=
  let s := f s
  s.each s.lock (fun s m => (s.setThState m h 1).retire m h { opc := 0 })

/-! ### The thread address space (R175) -/

/-- Where a thread address stands among the memories, and whether it may be stored to. -/
def threadAddr (p a : Nat) : Option (Nat × Bool) :=
  if a < 0x40000 then some (dmBase p + a, true)
  else if 0x10000000 ≤ a && a < 0x10200000 then some (progBase + (a - 0x10000000), false)
  else if 0x20000000 ≤ a && a < 0x21000000 then some (mapBase + (a - 0x20000000), false)
  else none

/-- The target of the Lattice that a thread's access goes to (R306). -/
def thrTarget (k : Nat) : Nat := if k < 0x1000000 then 2 else if k < 0x2000000 then 3 else 4

/-- An offset of the Map Store that no region of it uses (R114). [DEDUCED: log 128; DESIGN CHOICE: log 246] -/
def mapUnused (off : Nat) : Bool :=
  !(off < 0x50000 || (0x100000 ≤ off && off < 0x240000) || (0x400000 ≤ off && off < 0x610000) || (0x800000 ≤ off && off < 0x1000000))

/-- A member reads n bytes at a place of the memories (R309, R312): its target grants it, and an offset of the Map Store that nothing uses is reported. [DESIGN CHOICE: log 246] -/
def State.thrAsk (s : State) (m k n : Nat) : State :=
  let s := s.grant (thrTarget k) (2 + m)
  match (List.range n).find? (fun i => thrTarget (k + i) = 3 && mapUnused (k + i - mapBase)) with
  | some i => s.latDecode (2 + m) 3 false (k + i)
  | none => s

/-- The members that issue read n bytes at a thread address. [DESIGN CHOICE: log 246] -/
def State.swAsk (s : State) (h a n : Nat) : State :=
  match threadAddr h a with
  | some (k, _) => s.each s.lock (fun s m => s.thrAsk m k n)
  | none => s

end Sys2Proof.Machine
end

