-- ==== Sys2Proof/Machine/Commit.lean ====
section
/-! DEFINITION. Staging, the plan cache, arming and the commit (05: R136 to R151; R41, R42, R87 at the strobe; R362). -/

namespace Sys2Proof.Machine

/-! ### A staging word at its tile (R137) -/

/-- Q of a shadow write in sixteenths of a pC, rounded up (R46, R137). -/
def State.chargeTerm (s : State) (a code : Nat) : Nat :=
  if s.ga F.AO_CFG_MODE a != 1 then 0
  else
    let span := if s.ga F.AO_CFG_RANGE a = 0 then 20 else 10
    ceilDiv ((s.ga F.AO_CFG_CLOAD a + 15) * absDiff (s.ga F.AO_ACT_CODE a) code * span * 16) 655360

/-- The charge term of an AO is replaced; AO_QSUMp follows. -/
def State.setTerm (s : State) (a p q : Nat) : State :=
  let x := s.aoSt a
  let t := aoTile a
  let s := s.put F.AO_QSUM_Q (s.g F.AO_QSUM_Q t x.qpart - x.qterm) t x.qpart
  (s.put F.AO_QSUM_Q (s.g F.AO_QSUM_Q t p + q) t p).updAo a (fun x => { x with qterm := q, qpart := p })

/-- What stood before the shadow and context writes of this cycle, for a strobe in the same cycle (R42, R216). -/
def State.shdNow (s : State) (a : Nat) : ShdOld :=
  let x := s.aoSt a
  let c := s.cs a
  match x.shdOld.filter (fun o => o.cycle = s.cycle) with
  | some o => o
  | none =>
    { cycle := s.cycle, writes := [], code := s.ga F.AO_SHD_CODE a, state := s.ga F.AO_SHD_STATE a, staged := s.ona F.AO_SHD_STAGED a
      qterm := x.qterm, qpart := x.qpart, bankA := s.rdBs (ctxAddr 0 a) 128, bankS := s.rdBs (ctxAddr 1 a) 128
      cstaged := c.staged, started := c.started, swept := c.swept, slot := c.slot }

/-- The state before a write of this cycle is kept, with the write, for a strobe in the same cycle (R42, R216). -/
def State.keepOld (s : State) (a : Nat) (w : ShdWrite) : State :=
  let o := s.shdNow a
  s.updAo a (fun x => { x with shdOld := some { o with writes := o.writes ++ [w] } })

/-- The inputs that the context of a word just staged puts on shadow focus lists, for a strobe in the same cycle (R42, R73). [DEDUCED: log 212] -/
def State.keepFocus (s : State) (a p : Nat) : State :=
  let new := (s.ctxMis 1 a).filter (fun m => !(s.md (miTile m) (miMadc m)).shadow.contains (p, miPos m))
  s.updAo a (fun x => { x with shdOld := x.shdOld.map (fun o => { o with foc := o.foc ++ new.map (fun m => (p, m)) }) })

/-- Bank S as a staging word leaves it: FF_BASE and I, and with a state entry its loop fields (R137). -/
def State.stagedImage (s : State) (a : Nat) (w : SWord) (code : Nat) : List Byte :=
  let s := (s.cp 1 a C.FF_BASE code).cp 1 a C.I 0
  let e (n : Nat) := s.stateWord a w.state n
  let s :=
    if w.expl then s
    else
      let s := ((s.cp 1 a C.KCOEF (bitsOf (e 0) 16 16)).cp 1 a C.KHOLD (bitsOf (e 1) 24 8)).cp 1 a C.KRSH (bitsOf (e 3) 0 4)
      let s := (s.cp 1 a C.LO (bitsOf (e 2) 0 16)).cp 1 a C.HI (bitsOf (e 2) 16 16)
      if bitOf (e 3) 5 then s.cp 1 a C.SP (bitsOf (e 1) 0 24) else s
  s.rdBs (ctxAddr 1 a) 128

/-- One staging word with DEST = 0 (R137, R109); true if it was applied. -/
def State.stageWord (s : State) (p : Nat) (w : SWord) : State × Bool :=
  let a := w.ao
  let refuse (s : State) : State × Bool := (s.sat F.AO_CMT_STAT_STAGE_DROP (aoTile a), false)
  if !s.ona F.AO_CFG_OWNED a || s.ga F.AO_CFG_PART a != p || (!w.expl && !bitOf (s.stateWord a w.state 3) 4) then refuse s
  else
    let code := if w.expl then w.code else bitsOf (s.stateWord a w.state 0) 0 16
    let s := s.keepOld a (.word p w)
    let s := ((s.pa F.AO_SHD_CODE code a).pa F.AO_SHD_STATE (if w.expl then 0 else w.state) a).pa F.AO_SHD_STAGED 1 a |>.pa F.AO_STAT_STAGED 1 a
    let s := s.setTerm a p (s.chargeTerm a code)
    let u := s.ctxUnit 1 a 0 (s.stagedImage a w code) srcStaging true
    if u.2 then ((u.1.keepFocus a p).focusFill p a, true) else refuse (u.1.unstage a)

/-- The registers in which a refused unit of a tile stands (R90, R108). -/
def State.errRegs (s : State) (t : Nat) : List RWord := [R.LE_ERR_INFO, R.LE_STAT, R.LE_OVC_LOAD].map (fun r => s.word r t)
/-- A unit refused before the strobe of its cycle is tried after it: what it alone left in those registers goes. [DESIGN CHOICE: log 229] -/
def State.undoErr (s : State) (t : Nat) (e : List RWord × List RWord) : State :=
  if s.errRegs t = e.2 then s.each ([R.LE_ERR_INFO, R.LE_STAT, R.LE_OVC_LOAD].zip e.1) (fun s x => s.setWord x.1 x.2 t) else s

/-- A LAW.SET unit of an owned channel (R216), kept with its thread and register for a strobe in the same cycle; true if it was applied. [DESIGN CHOICE: log 229] -/
def State.lawUnit (s : State) (h d a bank : Nat) (image : List Byte) : State × Bool :=
  let t := aoTile a
  let s := s.keepOld a (.law h d bank image)
  let u := s.ctxUnit bank a 0 image srcLawSet (bank = 1)
  if u.2 then u else (u.1.updAo a (fun x => { x with shdOld := x.shdOld.map (fun o => { o with errs := o.errs ++ [(s.errRegs t, u.1.errRegs t)] }) }), false)

/-- A write of the cycle of a strobe is made after it; Gd of a LAW.SET is what its checks after the exchange give (R216). [DESIGN CHOICE: log 229] -/
def State.redoWrite (s : State) (a : Nat) (w : ShdWrite) : State :=
  match w with
  | .word p w => (s.stageWord p w).1
  | .law h d bank image =>
    let u := s.lawUnit h d a bank image
    u.1.wrAll h d (if u.2 then 0 else 1)

/-! ### Bursts (R137 to R141) -/

def State.updBurst (s : State) (old new : Burst) : State :=
  { s with rtu.bursts := s.rtu.bursts.map (fun b => if b = old then new else b) }
def State.dropBurst (s : State) (old : Burst) : State := { s with rtu.bursts := s.rtu.bursts.erase old }
def State.findBurst (s : State) (f : Burst → Bool) : Option Burst := s.rtu.bursts.find? f

/-- The oldest word on its way to a tile's shadow registers is processed. -/
def stagingWord (t : Nat) (s : State) : State :=
  match s.findBurst (fun b => b.tile = t && b.kind ≤ 1 && !b.words.isEmpty) with
  | none => s
  | some b =>
    match b.words with
    | [] => s
    | w :: rest =>
      let r := s.stageWord b.part w
      r.1.updBurst b { b with words := rest, sent := b.sent ++ [w.ao], refused := if r.2 then b.refused else b.refused ++ [w.ao] }

def execStagingWord (t : Tile) (s : State) : Out := clocked s (stagingWord t.val)

/-- A staging instruction of a partition completes when none of its bursts is left: Gd is the count refused; after STAGE.FILL the plan is emptied and reverted, and the digests are compared (R211, R212, R252). -/
def State.stageEnd (s : State) (p : Nat) : State :=
  if s.rtu.bursts.any (fun b => b.part = p && b.kind != 4) then s
  else
    match (s.leadTh p).wait with
    | some (.stage d form) =>
      let s := if form = 1 then (s.updRp p RtPart.revert).digestDue 0 p 0 else s
      let v := if form = 1 then (s.rp p).fillRef else (s.rp p).refused
      s.wake p (fun s => s.wrAll p d (BitVec.ofNat 64 v))
    | _ => s

/-- The entries of a burst's AO take REF or STG (R137). -/
def ackPlan (plan : List PlanEnt) (b : Burst) : List PlanEnt :=
  plan.map (fun e =>
    if b.refused.contains e.ao then { e with ref := true, stg := false }
    else if b.sent.contains e.ao then { e with stg := true, ref := false, fen := false } else e)

/-- The Control Die has the acknowledgement of a burst. -/
def State.ackBurst (s : State) (b : Burst) : State :=
  let s := s.dropBurst b
  if b.kind = 2 then
    (s.updRp b.part (fun r => { r with fillRef := r.fillRef + (if b.refused.isEmpty then 0 else 1) })).stageEnd b.part
  else if b.kind = 4 then { s with rot := Map.upd s.rot b.part {} (fun r => { r with loaded := r.loaded ++ [b.tile], ackAt := s.tbVal 0 }) }
  else
    (s.updRp b.part (fun r => { r with refused := r.refused + b.refused.length, plan := if b.kind = 0 then ackPlan r.plan b else r.plan })).stageEnd b.part

def Burst.complete (b : Burst) : Bool := if b.kind ≤ 1 then b.words.isEmpty else b.ready

/-- The acknowledgement of the oldest burst that a tile has processed arrives (R138). -/
def stageBurstAck (t : Nat) (s : State) : State :=
  match s.findBurst (fun b => b.tile = t && b.complete) with
  | none => s
  | some b => s.ackBurst b

def execStageBurstAck (t : Tile) (s : State) : Out := clocked s (stageBurstAck t.val)

/-- The bursts on their way to a tile that is lost or fenced: plan entries not acknowledged are FEN, explicit words count as refused, nothing is loaded (R139). -/
def State.loseBurst (s : State) (b : Burst) : State :=
  let s := s.dropBurst b
  let aos := b.sent ++ b.words.map (fun w => w.ao)
  if b.kind = 4 then s
  else
    (s.updRp b.part (fun r =>
      if b.kind = 0 then { r with plan := r.plan.map (fun e => if aos.contains e.ao then { e with fen := true, stg := false } else e) }
      else if b.kind = 1 then { r with refused := r.refused + aos.length }
      else if b.kind = 2 then { r with fillRef := r.fillRef + 1 }
      else { r with cmiss := true })).stageEnd b.part

def State.loseBursts (s : State) (t : Nat) : State :=
  s.each (s.rtu.bursts.filter (fun b => b.tile = t)) State.loseBurst

/-- The slot of a partition's bank in a tile. [DEDUCED: log 49] -/
def State.cacheSlot (s : State) (t p slot : Nat) : Option CacheSlot :=
  s.rtu.cache.find? (fun c => c.tile = t && c.bank = p / 4 && c.slot = slot)

/-- A fill replaces its slot, or is refused whole where the bank would hold more than 65,536 words or the slot is another partition's (R140, R141). An empty fill leaves the slot empty and its partition's. [DEDUCED: log 49] -/
def cacheFill (t : Nat) (s : State) : State :=
  match s.findBurst (fun b => b.tile = t && b.kind = 2 && !b.ready) with
  | none => s
  | some b =>
    let g := b.part / 4
    let others := s.rtu.cache.filter (fun c => c.tile = t && c.bank = g && c.slot != b.slot)
    let full := 65536 < (others.map (fun c => c.words.length)).sum + b.words.length
    let foreign := match s.cacheSlot t b.part b.slot with
      | some c => c.part != b.part
      | none => false
    if full || foreign then
      (s.when full (fun s => s.put F.AO_PC_STAT_FULL 1 t g)).updBurst b { b with ready := true, refused := [b.tile] }
    else
      let keep := s.rtu.cache.filter (fun c => !(c.tile = t && c.bank = g && c.slot = b.slot))
      let s := { s with rtu.cache := keep ++ [CacheSlot.mk t g b.slot b.part b.words] }
      (s.pcSync t).updBurst b { b with ready := true }

def execCacheFill (t : Tile) (s : State) : Out := clocked s (cacheFill t.val)

/-- The words of a list, staged in order; the AO refused. -/
def State.stageWords (s : State) (p : Nat) (ws : List SWord) : State × List Nat :=
  match ws with
  | [] => (s, [])
  | w :: rest =>
    let r := s.stageWord p w
    let q := State.stageWords r.1 p rest
    (q.1, if r.2 then q.2 else w.ao :: q.2)

/-! ### Sub-strobes (R145) -/

/-- Assigns channels with their terms, in ascending k, to sub-strobes of at most b; a channel whose term is zero joins any sub-strobe. [DESIGN CHOICE: log 253] -/
def assignSubs (b : Nat) (l : List (Nat × Nat)) (done : List (List Nat)) (cur : List Nat) (sum : Nat) : List (List Nat) :=
  match l with
  | [] => if cur.isEmpty then done else done ++ [cur]
  | (a, q) :: t =>
    if !cur.isEmpty && q != 0 && b < sum + q then assignSubs b t (done ++ [cur]) [a] q
    else assignSubs b t done (cur ++ [a]) (sum + q)

/-- The channels of a tile that a strobe of a mask selects (R41). -/
def State.selected (s : State) (t mask : Nat) : List Nat :=
  (s.ownedAos.filter (fun a => aoTile a = t && bitOf mask (s.ga F.AO_CFG_PART a) && s.ona F.AO_SHD_STAGED a))

/-- What a tile answers to an arm (R145): none for NOGO, else one strobe (none) or its sub-strobes. -/
def State.formSubs (s : State) (t mask : Nat) : Option (Option (List (List Nat))) :=
  let b := s.g F.PWR_CHARGE_BUDGET_BUDGET t
  let ps := bitList mask 16
  let q := (ps.map (fun p => s.g F.AO_QSUM_Q t p)).sum
  if q ≤ b then some none
  else if ps.any (fun p => s.on F.RTU_PCFG_CHG_POL p) then none
  else
    let subs := assignSubs b ((s.selected t mask).map (fun a => (a, (s.aoSt a).qterm))) [] [] 0
    if subs.length ≤ 8 then some (some subs) else none

/-- A slot is loaded in a tile (R141, R159): its words are staged; an empty slot gives none; another partition's slot is refused. The Rotor Engine's load ends with its sub-strobes or NOGO. [DEDUCED: log 49] -/
def cacheLoad (t : Nat) (s : State) : State :=
  match s.findBurst (fun b => b.tile = t && (b.kind = 3 || b.kind = 4) && !b.ready) with
  | none => s
  | some b =>
    let r : State × List Nat := match s.cacheSlot t b.part b.slot with
      | none => (s, [])
      | some c =>
        if c.part != b.part then
          let s := s.updRp b.part (fun r => { r with cmiss := true })
          (s.when (b.kind = 4) (fun s => s.put F.RTU_ROT_STAT_CACHE_ERR 1 b.part), c.words.map (fun w => w.ao))
        else s.stageWords b.part c.words
    let s := r.1.updBurst b { b with ready := true, refused := r.2 }
    if b.kind != 4 then s
    else
      let f := s.formSubs t (2 ^ b.part)
      let s := s.when f.isNone (fun s => s.put F.AO_CMT_STAT_NOGO 1 t)
      { s with rot := Map.upd s.rot b.part {} (fun x => match f with
          | none => { x with nogo := x.nogo ++ [t] }
          | some u => { x with subs := Map.ins x.subs t u }) }

def execCacheLoad (t : Tile) (s : State) : Out := clocked s (cacheLoad t.val)

/-! ### Arming (R142 to R145) -/

/-- Time in ps of TB0: a time in 2^-48 ns rounded up to 200 ps (R142), and the present against an instant in ps. -/
def tcOf (units : Nat) : Nat := ceilDiv (units * 5) (2 ^ 48) * 200
/-- [DEDUCED: log 52] -/
def psUnits (ps : Nat) : Nat := ps * 2 ^ 48 / 1000
def State.reached (s : State) (ps : Int) : Bool := decide (ps * 2 ^ 48 ≤ ((s.tbVal 0 * 1000 : Nat) : Int))
def State.passed (s : State) (ps : Int) : Bool := decide (ps * 2 ^ 48 < ((s.tbVal 0 * 1000 : Nat) : Int))

/-- The same on a tile's replica (R145, R274). [DESIGN CHOICE: log 9] -/
def State.reachedIn (s : State) (t : Nat) (ps : Int) : Bool := decide (ps * 2 ^ 48 ≤ ((s.replicaU t * 1000 : Nat) : Int))
def State.passedIn (s : State) (t : Nat) (ps : Int) : Bool := decide (ps * 2 ^ 48 < ((s.replicaU t * 1000 : Nat) : Int))

/-- The instant of a commit on TB0 as it now counts. -/
def Commit.at (c : Commit) : Int := (c.tc : Int) + c.adj
def ArmSt.at (c : ArmSt) : Int := (c.tc : Int) + c.adj

def State.armed (s : State) (p : Nat) : Bool := s.on F.RTU_PSTAT_ARMED p
/-- A commit of a partition that has not closed, armed ones among them. -/
def State.unclosed (s : State) (p : Nat) : Bool := s.rtu.commits.any (fun c => bitOf c.mask p && !c.cancelled)
def armMode (m : Nat) : Bool := m = 1 || m = 3 || m = 4

/-- The mask may be armed by p (R143), p's own mode and arm apart. -/
def State.maskOk (s : State) (p mask : Nat) : Bool :=
  bitOf mask p && (bitList mask 16).all (fun q =>
    q = p || (q / 4 = p / 4 && s.on F.RTU_PCFG_JOIN q && armMode (s.pm q) && !s.armed q))

/-- A STAGE of a masked partition is not yet acknowledged. -/
def State.staging (s : State) (mask : Nat) : Bool := s.rtu.bursts.any (fun b => bitOf mask b.part && b.kind != 4)

/-- The earliest legal instant E in ps (R143). [DEDUCED: log 55] -/
def State.earliest (s : State) (mask : Nat) : Nat :=
  (bitList mask 16).foldl (fun e q => match (s.rp q).lastTc with
    | some t => max e (t + 1000000)
    | none => e) (tcOf (s.tbVal 0 + 500 * nsU))

/-- A commit is armed at an instant: arm messages leave for every tile (R144). -/
def State.armAt (s : State) (p mask tc : Nat) : State :=
  let c : Commit := { lead := p, mask := mask, tc := tc, toArm := (List.range 16).filter s.live }
  let s := { s with rtu.commits := s.rtu.commits ++ [c] }
  s.each (bitList mask 16) (fun s q => s.put F.RTU_PSTAT_ARMED 1 q)

/-- ARM once no staging is outstanding (R143, R213): the result 0 ARMED, 1 ADJUSTED, 2 LATE, 3 MASK, and the instant armed. -/
def State.armTry (s : State) (p mask : Nat) (t : RWord) (lateOk : Bool) : State × Nat × Option Nat :=
  if !s.maskOk p mask then (s, 3, none)
  else
    let tc := tcOf (tvUnits t)
    let e := s.earliest mask
    if e ≤ tc then (s.armAt p mask tc, 0, some tc)
    else if lateOk then (s.armAt p mask e, 1, some e)
    else (s.each (bitList mask 16) (fun s q => s.put F.RTU_PSTAT_LAST_RESULT 4 q), 2, none)

def State.updCommit (s : State) (old new : Commit) : State :=
  { s with rtu.commits := s.rtu.commits.map (fun c => if c = old then new else c) }
def State.findCommit (s : State) (p : Nat) (f : Commit → Bool) : Option Commit :=
  s.rtu.commits.find? (fun c => c.lead = p && f c)

/-- An arm message reaches a tile (R145, R147, R276): MISS where it is too late or the replica is not VALID, else GO or NOGO; the commit instant of a rotor slot finds its sub-strobes formed (R159). [DEDUCED: log 51] -/
def armMessage (p t : Nat) (s : State) : State :=
  match s.findCommit p (fun c => c.toArm.contains t) with
  | none => s
  | some c =>
    let c' := { c with toArm := c.toArm.erase t }
    if !s.live t then s.updCommit c c'
    else
      let reply (s : State) (v : Nat) : State := s.updCommit c { c' with toReply := Map.ins c'.toReply t v }
      if !s.on F.TL_TSTAT_VALID t || s.passedIn t (c.at - 100000) then
        let s := reply (s.put F.AO_CMT_STAT_MISS 1 t) 2
        let tiles := (List.range 16).filter (fun u => u = t || Map.find c.toReply u = some 2 || Map.find c.replies u = some 2)
        s.raise 27 (p + 65536 * tiles.foldl (fun v u => orBit v u) 0)
      else
        let hold (subs : Option (List (List Nat))) : State :=
          let m : ArmSt := { lead := p, tile := t, mask := c.mask, tc := c.tc, subs := subs, adj := c.adj }
          { s with rtu.arms := s.rtu.arms ++ [m] }
        if c.slot.isSome then (hold (Map.look (Map.look s.rot p {}).subs t none)).updCommit c c'
        else
          match s.formSubs t c.mask with
          | none => reply (s.put F.AO_CMT_STAT_NOGO 1 t) 1
          | some subs => reply (hold subs) 0

def execArmMessage (p : Part) (t : Tile) (s : State) : Out := clocked s (armMessage p.val t.val)

/-- The code of a channel after a commit of a mask. -/
def State.codeAfter (s : State) (mask a : Nat) : Nat :=
  if (s.selected (aoTile a) mask).contains a && !s.ona F.AO_STAT_FAULT a then s.ga F.AO_SHD_CODE a else s.ga F.AO_ACT_CODE a
/-- A tile's total I-mode current after a commit of a mask, in steps of 2 mA / 65,536 (R362). [DESIGN CHOICE: log 241] -/
def State.currentAfter (s : State) (t mask : Nat) : Nat := ((aosOfTile t).map (fun a => (s.driveOf a (s.codeAfter mask a)).steps)).sum
/-- The I V products of channels with their load resistances in ohm after a commit of a mask, and further ones in uW; in 2^-30 uW. [DESIGN CHOICE: log 241] -/
def State.powerAfter (s : State) (mask : Nat) (loads : List (Nat × Nat)) (pw : Nat) : Nat :=
  (loads.map (fun e => (s.driveOf e.1 (s.codeAfter mask e.1)).steps ^ 2 * e.2)).sum + pw * 2 ^ 30

/-- A reply reaches the Control Die; a GO brings the tile's current and I V products after the commit, of which the tile measures the load voltages (R144, R362). [DESIGN CHOICE: log 241] -/
def armReply (p t : Nat) (loads : List (Chan × BitVec 16)) (pw : Nat) (s : State) : State :=
  match s.findCommit p (fun c => (Map.find c.toReply t).isSome) with
  | none => s
  | some c =>
    let v := Map.look c.toReply t 0
    let c' := { c with toReply := Map.del c.toReply t, replies := Map.ins c.replies t v }
    s.updCommit c (if v = 0 then { c' with
      sumI := c.sumI + s.currentAfter t c.mask
      sumIV := c.sumIV + s.powerAfter c.mask (loads.map (fun e => (t * 1280 + e.1.val, e.2.toNat))) pw } else c')

def execArmReply (p : Part) (t : Tile) (loads : List (Chan × BitVec 16)) (pw : Nat) (s : State) : Out := clocked s (armReply p.val t.val loads pw)

/-- Total current or headroom dissipation beyond its cap (R362); ILIM in 1/64 A, CAP in 1/16 W, the target voltage in mV, the current in steps of 2 mA / 65,536, the products in 2^-30 uW. [DEDUCED: log 60] -/
def State.overCaps (s : State) (i iv : Nat) : Bool :=
  s.g F.PWR_VHTR_ILIM_ILIM * 512000 < i || s.g F.PWR_HDISS_CAP_CAP * 62500 * 2 ^ 30 + iv < s.pwr.vtarget * i * 2 ^ 15

/-- A commit is cancelled (R144, R149): CANCEL leaves for every tile, and no masked partition is armed any more. -/
def State.cancelCommit (s : State) (c : Commit) (res : Nat) : State :=
  let ts := (List.range 16).filter s.live
  let s := if ts.isEmpty then { s with rtu.commits := s.rtu.commits.erase c } else s.updCommit c { c with cancelled := true, decided := true, toCancel := ts }
  s.each (bitList c.mask 16) (fun s q => (s.put F.RTU_PSTAT_ARMED 0 q).put F.RTU_PSTAT_LAST_RESULT res q)

/-- The cancel deadline, t_c - 200 ns (R144, R145, R362). [DESIGN CHOICE: log 54] -/
def cancelDeadline (p : Nat) (s : State) : State :=
  match s.findCommit p (fun c => !c.decided && !c.cancelled && !c.fired && c.slot.isNone && s.reached (c.at - 200000)) with
  | none => s
  | some c =>
    let nogo := (List.range 16).filter (fun t => Map.find c.replies t = some 1)
    if !nogo.isEmpty then (s.cancelCommit c 6).raise 29 (p + 65536 * nogo.foldl (fun v u => orBit v u) 0)
    else if s.overCaps c.sumI c.sumIV then ((s.cancelCommit c 6).put F.PWR_STAT_CAP_NOGO 1).raise 29 p
    else s.updCommit c { c with decided := true }

def execCancelDeadline (p : Part) (s : State) : Out := clocked s (cancelDeadline p.val)

/-- CANCEL reaches a tile: accepted until t_c - 20 ns, it drops the arm (R144). [DESIGN CHOICE: log 54] -/
def cancelMessage (p t : Nat) (s : State) : State :=
  match s.findCommit p (fun c => c.toCancel.contains t && !c.toArm.contains t) with
  | none => s
  | some c =>
    let holds := s.rtu.arms.any (fun m => m.lead = p && m.tile = t && m.tc = c.tc)
    let s :=
      if s.live t && holds && !s.passedIn t (c.at - 20000) then
        { s with rtu.arms := s.rtu.arms.filter (fun m => !(m.lead = p && m.tile = t && m.tc = c.tc)) }.put F.AO_CMT_STAT_CANCELLED 1 t
      else s
    let c' := { c with toCancel := c.toCancel.erase t }
    if c'.toCancel.isEmpty then { s with rtu.commits := s.rtu.commits.erase c } else s.updCommit c c'

def execCancelMessage (p : Part) (t : Tile) (s : State) : Out := clocked s (cancelMessage p.val t.val)

/-! ### The strobe (R41, R42, R44, R87, R145, R146) -/

/-- The writes of this very cycle do not count for the strobe (R42, R216): the register, the term, the banks and the shadow focus lists as they stood before them; the engine's own bits of bank A stay. [DESIGN CHOICE: log 229] -/
def State.undoShadow (s : State) (a : Nat) (o : ShdOld) : State :=
  let s := ((s.pa F.AO_SHD_CODE o.code a).pa F.AO_SHD_STATE o.state a).pa F.AO_SHD_STAGED (b2n o.staged) a |>.pa F.AO_STAT_STAGED (b2n o.staged) a
  let s := (((s.setTerm a o.qpart o.qterm).wrBs (ctxAddr 1 a) o.bankS).ctxBytes 0 a 0 o.bankA).each o.foc (fun s e =>
    s.updMd (miTile e.2) (miMadc e.2) (fun x => { x with shadow := x.shadow.erase (e.1, miPos e.2) }))
  let s := s.each o.errs.reverse (fun s e => s.undoErr (aoTile a) e)
  (s.updAo a (fun x => { x with shdOld := none })).updCs a (fun c => { c with staged := o.cstaged, started := o.started, swept := o.swept, slot := o.slot })

/-- A strobe at an instant in ps moves one channel: its code, its generation and its contexts (R41, R44, R87). [DEDUCED: log 220] -/
def State.commitAo (s : State) (a : Nat) (tc : Int) : State :=
  let u := if s.actBlocked a 2 then s.ga F.AO_ACT_CODE a else s.actBefore a
  let s := (s.actWrite a (s.ga F.AO_SHD_CODE a) 2).exchange a u tc
  (s.unstage a).updAo a (fun x => { x with gen := x.gen + 1 })

/-- A strobe finds the channel staged, though a mode or range change of this very cycle has discarded the value (R45: a commit precedes such a change). -/
def State.cutStaged (s : State) (mask a : Nat) : Option Cut :=
  (s.cutNow a).filter (fun c => c.staged && bitOf mask c.part && s.ga F.AO_CFG_PART a = c.part && s.ona F.AO_CFG_OWNED a && !s.ona F.AO_STAT_FAULT a)

/-- The change leaves no trace, and what was staged is put back for the strobe to take (R45). -/
def State.restoreCut (s : State) (a : Nat) (c : Cut) : State :=
  ((s.undoCut a).pa F.AO_SHD_STAGED 1 a).updCs a (fun x => { x with staged := c.bankS })

/-- One selected channel at a strobe: moved, or left because it is faulted or fenced; true if it was moved. [DEDUCED: log 220] -/
def State.strobeAo (s : State) (a : Nat) (tc : Int) : State × Bool :=
  if s.ona F.AO_STAT_FAULT a || s.partFenced (s.ga F.AO_CFG_PART a) then (s, false) else (s.commitAo a tc, true)

/-- The channels of one sub-strobe in a tile, in ascending k, with the shadow writes and LAW.SET units of the same cycle made again after it (R42, R216). [DEDUCED: log 212] -/
def State.strobeTile (s : State) (m : ArmSt) : State × ArmSt :=
  let fresh := s.ownedAos.filterMap (fun a =>
    match (s.aoSt a).shdOld with
    | some o => if aoTile a = m.tile && o.cycle = s.cycle && bitOf m.mask (s.ga F.AO_CFG_PART a) then some (a, o) else none
    | none => none)
  let s := s.each fresh (fun s e => s.undoShadow e.1 e.2)
  let turn (a : Nat) : Bool := match m.subs with
    | none => true
    | some l => (l.getD m.next []).contains a
  let cuts := s.ownedAos.filterMap (fun a => if aoTile a = m.tile && turn a then (s.cutStaged m.mask a).map (fun c => (a, c)) else none)
  let s := s.each cuts (fun s e => s.restoreCut e.1 e.2)
  let sel := (s.selected m.tile m.mask).filter turn
  let r := sel.foldl (fun (r : State × ArmSt) a =>
    let x := r.1.strobeAo a (m.at + 20000 * m.next)
    (x.1, if x.2 then { r.2 with done := r.2.done ++ [a] } else { r.2 with missed := r.2.missed ++ [a] })) (s, { m with next := m.next + 1 })
  (r.1.each fresh (fun s e => s.each e.2.writes (fun s w => s.redoWrite e.1 w)), r.2)

/-- The number of strobes that an arm makes. -/
def ArmSt.count (m : ArmSt) : Nat := match m.subs with
  | none => 1
  | some l => max 1 l.length

/-- What happens in a tile at sub-strobe 0 besides the copies: focus lists and COMMIT scans of each masked partition (R71, R73, R146), and NSUB. -/
def State.strobeFirst (s : State) (m : ArmSt) : State :=
  ((s.put F.AO_CMT_STAT_NSUB m.count m.tile).focusActivate m.tile (bitList m.mask 16)).each (bitList m.mask 16) (fun s q => s.scanStrobe m.tile q)

/-- A tile's arm fires its next strobe if its instant has come. -/
def State.fireArm (s : State) (m : ArmSt) : State :=
  if m.count ≤ m.next || !s.reachedIn m.tile (m.at + 20000 * m.next) then s
  else if s.tileFenced m.tile then { s with rtu.arms := s.rtu.arms.erase m }
  else
    let r := (s.when (m.next = 0) (fun s => s.strobeFirst m)).strobeTile m
    { r.1 with rtu.arms := r.1.rtu.arms.map (fun x => if x = m then r.2 else x) }

/-- RTU_LAST_CMTp, and the commit instant for the next ARM (R143, R146). [DEDUCED: log 55] -/
def State.noteInstant (s : State) (q tc : Nat) : State :=
  let ns := tc / 1000
  ((s.put F.RTU_LAST_CMT_NS (ns % 10 ^ 9) q).put F.RTU_LAST_CMT_SEC (ns / 10 ^ 9) q).updRp q (fun r => { r with lastTc := some tc })

/-- A commit's instant has come: its partitions are no longer armed; a Rotor Engine's slot becomes the current one in every tile that fires, and ends a run of skipped ones (R95, R159). -/
def State.fireCommit (s : State) (c : Commit) : State :=
  let s := s.updCommit c { c with fired := true, decided := true, toArm := [] }
  let s := s.each (bitList c.mask 16) (fun s q => (s.put F.RTU_PSTAT_ARMED 0 q).noteInstant q c.tc)
  match c.slot with
  | none => s
  | some f =>
    let ts := (s.rtu.arms.filter (fun m => m.lead = c.lead && m.tc = c.tc && !s.tileFenced m.tile)).map (fun m => m.tile)
    let w := match f.learn with
      | some (dly, e) => [Win.mk f.slot (c.tc + dly) e none ts []]
      | none => []
    { s.put F.RTU_ROT_STAT_SLOT f.slot c.lead with rot := Map.upd s.rot c.lead {} (fun r =>
        { r with tslot := ts.foldl (fun m t => Map.ins m t f.slot) r.tslot, wins := r.wins ++ w, lastT := some c.tc, skips := 0 }) }

/-- A Commit strobe of the commits that a partition armed: every tile's next sub-strobe whose instant has come (R41, R145). [DESIGN CHOICE: log 54] -/
def commitStrobe (p : Nat) (s : State) : State :=
  let s := s.each (s.rtu.commits.filter (fun c => c.lead = p && !c.cancelled && !c.fired && s.reached c.at)) State.fireCommit
  s.each (s.rtu.arms.filter (fun m => m.lead = p)) State.fireArm

def execCommitStrobe (p : Part) (s : State) : Out := clocked s (commitStrobe p.val)

/-- A tile's report reaches the Control Die (R148). -/
def commitReport (p t : Nat) (s : State) : State :=
  match s.rtu.arms.find? (fun m => m.lead = p && m.tile = t && m.count ≤ m.next) with
  | none => s
  | some m =>
    let s := { s with rtu.arms := s.rtu.arms.erase m }
    match s.findCommit p (fun c => c.tc = m.tc && c.fired) with
    | none => s
    | some c => s.updCommit c { c with done := c.done ++ m.done, missed := c.missed ++ m.missed, reported := c.reported ++ [t] }

def execCommitReport (p : Part) (t : Tile) (s : State) : Out :=
  clocked s (fun s => if s.live t.val then commitReport p.val t.val s else s)

/-! ### The close (R148) -/

/-- A notice to the ring that owns a circuit, unless it has none or notices are off (R135). [DEDUCED: log 48] -/
def State.noteCircuit (s : State) (p inp : Nat) (c : Circ) (kind tns : Nat) : State :=
  if c.noown || !s.on F.RTU_PCFG_NOTIFY p then s else s.notice c.owner inp c.out kind tns

/-- The cells of a circuit's path. -/
def RtPart.path (r : RtPart) (i : Nat) (c : Circ) : List Nat := (r.desc.pathCells i c.out c.sides c.hops).map (fun x => x.1)

/-- A circuit has an entry that was not committed, or goes through a cell of one. -/
def circHit (r : RtPart) (bad : List PlanEnt) (i : Nat) (c : Circ) : Bool :=
  bad.any (fun e => e.circ = i) || (c.live && (r.path i c).any (fun x => bad.any (fun e => e.cell = x)))

/-- What the close makes of a circuit (R148): none for FREE. [DEDUCED: log 44, 47] -/
def closeCircuit (r : RtPart) (bad : List PlanEnt) (ns : Nat) (i : Nat) (c : Circ) : Option Circ :=
  if c.status = 0 then none
  else if circHit r bad i c then some { c with status := 5, req := none, gone := none }
  else if c.status = 3 then none
  else if c.status = 2 || c.status = 4 then some { c with status := 1, ns := ns % 10 ^ 9, sec := ns / 10 ^ 9 % 2 ^ 32, req := none, gone := none }
  else some { c with req := none, gone := none }

/-- The notices of a close, to the ring that owned the circuit: MOVED and CLEARED where another ring asked for it, BROKEN (R135). [DEDUCED: log 48] -/
def State.closeNotices (s : State) (p : Nat) (r : RtPart) (bad : List PlanEnt) (ns : Nat) : State :=
  s.each r.circ (fun s e =>
    let i := e.1
    let c := e.2
    let old := r.cem i
    let n := closeCircuit r bad ns i c
    let cleared := match c.gone with
      | some x => (n.isNone || c.status != 3) && x != some old.owner
      | none => false
    let s := s.when cleared (fun s => s.noteCircuit p i old 1 ns)
    match n with
    | none => s
    | some n =>
      if n.status = 5 then (if c.status = 5 || (c.gone.isNone && old.status = 5) then s else s.noteCircuit p i n 2 s.tb0ns)
      else s.when (c.status = 4 && c.req != some old.owner) (fun s => s.noteCircuit p i old 0 ns))

/-- The circuits that are BROKEN for the sake of carried entries alone, and whether they were to be cleared. [DEDUCED: log 47] -/
def RtPart.mendable (r : RtPart) (bad carry : List PlanEnt) : List (Nat × Bool) :=
  let lost := bad.filter (fun e => !carry.contains e)
  (r.circ.filter (fun e => e.2.status != 0 && e.2.status != 5 && circHit r bad e.1 e.2 && !circHit r lost e.1 e.2)).map (fun e => (e.1, e.2.status = 3))

/-- The carried entries have had their commit (R147, R148): the cells of those that were committed are known, and circuits that waited for them alone are ESTABLISHED, or FREE for clears. [DEDUCED: log 47] -/
def RtPart.mended (r : RtPart) (ents bad : List PlanEnt) (ns : Nat) : RtPart :=
  let done := ents.filter (fun e => !bad.any (fun b => b.cell = e.cell))
  let know (m : Map Nat) : Map Nat := done.foldl (fun m e => Map.ins m e.cell e.state) m
  let heal (m : Map Circ) : Map Circ := m.filterMap (fun e =>
    match (r.mend.find? (fun x => x.1 = e.1)).filter (fun _ => e.2.status = 5 && !circHit r bad e.1 e.2) with
    | none => some e
    | some (_, true) => none
    | some (_, false) => some (e.1, { e.2 with status := 1, ns := ns % 10 ^ 9, sec := ns / 10 ^ 9 % 2 ^ 32 }))
  { r with com := heal r.com, circ := heal r.circ, cells := know r.cells, pcells := know r.pcells }

/-- A partition's part of a close; of a plan that is closed already the entries still staged for this commit are judged. [DEDUCED: log 47, 53] -/
def State.closePart (s : State) (c : Commit) (q : Nat) : State :=
  let r := s.rp q
  let ns := c.tc / 1000
  let ents := if c.slot.isSome then [] else if r.closed then r.carry else r.plan
  let good (e : PlanEnt) : Bool := (e.stg || r.closed) && c.done.contains e.ao
  let bad := ents.filter (fun e => !good e)
  let cached := match c.slot with
    | some f => f.cached
    | none => r.cached
  let cmiss := match c.slot with
    | some f => f.cmiss
    | none => r.cmiss
  let aos := ents.map (fun e => e.ao) ++ cached
  let none' := !(ents.any good) && !(cached.any (fun a => c.done.contains a))
  let ok := bad.isEmpty && cached.all (fun a => c.done.contains a) && !cmiss
  let fenced := !aos.isEmpty && none' && !cmiss && aos.all (fun a => s.partFenced q || s.tileFenced (aoTile a))
  let res := if ok then 1 else if fenced then 3 else 2
  let s := (s.put F.RTU_PSTAT_LAST_RESULT res q).inc F.RTU_PSTAT_COMMITS q
  let s := s.when (res = 2) (fun s => s.raise 28 q)
  let exch := c.done.filter (fun a => s.ga F.AO_CFG_PART a = q)
  let carry := bad.filter (fun e => e.stg && s.ona F.AO_SHD_STAGED e.ao && s.ga F.AO_CFG_PART e.ao = q)
  let base (r : RtPart) : RtPart := { r with closed := true, carry := if c.slot.isSome then r.carry else carry, tent := none, exch := some exch, cached := if c.slot.isSome then r.cached else [], cmiss := c.slot.isSome && r.cmiss, hint := none, plan := r.plan.map (fun e => if bad.any (fun b => b.ao = e.ao) then { e with fen := true } else if ents.any (fun b => b.ao = e.ao) then { e with fen := false } else e) }
  let s := match c.slot with
    | some f =>
      let s := s.updRp q base
      { s with rot := Map.upd s.rot q {} (fun x => { x with lib := if res = 1 then f.lib else none }) }
    | none =>
      match r.hint with
      | some h => (s.updRp q base).libState q (if res = 1 then h else none)
      | none =>
        if r.closed then s.updRp q (fun r => { base (r.mended ents bad ns) with mend := r.mend.filter (fun x => circHit r carry x.1 (r.cir x.1)) })
        else
          let s := s.closeNotices q r bad ns
          let circ : Map Circ := r.circ.filterMap (fun (e : Nat × Circ) => (closeCircuit r bad ns e.1 e.2).map (fun n => (e.1, n)))
          let cells : Map Nat := r.pcells.filter (fun e => !bad.any (fun b => b.cell = e.1))
          s.updRp q (fun r => base { r with com := circ, circ := circ, cells := cells, pcells := cells, mend := r.mendable bad carry })
  let s := s.when (s.suspReason 0 != 0 || (s.tw 0).matched.contains q) (fun s => s.handPoint 0)
  (s.occur (0x60 + q)).when (s.on F.BRS_PORT_CFG_EN q && (s.port q).src = 1) (fun s => s.updPort q (fun x => { x with due := x.due + 1 }))

/-- The Control Die closes the oldest fired commit of a partition once every strobe of it has been made (R148); a tile that has not reported counts as uncommitted. -/
def commitClose (p : Nat) (s : State) : State :=
  match s.findCommit p (fun c => c.fired) with
  | none => s
  | some c =>
    if s.rtu.arms.any (fun m => m.lead = p && m.tc = c.tc && s.live m.tile && m.next < m.count) then s
    else
      let s := { s with rtu.commits := s.rtu.commits.erase c, rtu.arms := s.rtu.arms.filter (fun m => !(m.lead = p && m.tc = c.tc)) }
      s.each (bitList c.mask 16) (fun s q => s.closePart c q)

/-! ### ABORT, fences (R149, R150) -/

/-- What ABORT does for the partition that aborts, in every tile (R149). -/
def State.abortEffects (s : State) (p : Nat) : State :=
  let s := s.each ((s.ownedBy p).filter (fun a => s.ona F.AO_SHD_STAGED a)) State.unstage
  let s := (s.focusDrop p).put F.RTU_PSTAT_LAST_RESULT 5 p
  s.updRp p (fun r => { r with circ := r.com, pcells := r.cells, closed := true, carry := [], mend := [], tent := none, hint := none, cached := [], cmiss := false })

/-- The armed commit of a partition whose cancel deadline has not passed. [DEDUCED: log 74] -/
def State.cancellable (s : State) (p : Nat) : Option Commit :=
  s.rtu.commits.find? (fun c => bitOf c.mask p && !c.cancelled && !c.fired && c.slot.isNone && !s.reached (c.at - 200000))

/-- A mode change or a fence acts as ABORT on an armed commit before its deadline (R143). [DEDUCED: log 74] -/
def State.abortArmed (s : State) (p : Nat) : State :=
  match s.cancellable p with
  | some c => (s.cancelCommit c 5).abortEffects p
  | none => s

/-- Circuits that lose a cell become BROKEN, and such cells UNKNOWN (R150), in what a tentative group is withdrawn to as well; a circuit to be cleared is broken too. -/
def State.breakCells (s : State) (p : Nat) (lost : Nat → Bool) : State :=
  let r := s.rp p
  let brk (i : Nat) (c : Circ) : Circ := if c.status != 0 && (r.path i c).any lost then { c with status := 5, req := none } else c
  let ns := s.tb0ns
  let breaks (i : Nat) (c : Circ) : Bool := c.status != 5 && (brk i c).status = 5
  let s := s.each r.circ (fun s e =>
    let old := r.cem e.1
    if breaks e.1 e.2 then s.noteCircuit p e.1 e.2 2 ns
    else if breaks e.1 old && e.2.status != 5 then s.noteCircuit p e.1 old 2 ns
    else s)
  s.updRp p (fun r => { r with
    com := r.com.map (fun e => (e.1, brk e.1 e.2))
    circ := r.circ.map (fun e => (e.1, brk e.1 e.2))
    tent := r.tent.map (fun t => { t with circ := t.circ.map (fun e => (e.1, brk e.1 e.2)), pcells := t.pcells.filter (fun e => !lost e.1) })
    cells := r.cells.filter (fun e => !lost e.1)
    pcells := r.pcells.filter (fun e => !lost e.1) })

/-- The fence of a tile as the circuits of every partition see it. -/
def State.breakTile (s : State) (t : Nat) : State :=
  s.each (List.range 16) (fun s p =>
    let d := (s.rp p).desc
    if d.kind = 0 then s else s.breakCells p (fun c => (d.members c).any (fun a => aoTile a = t)))

/-- The fence of a partition: all its circuits and cells. -/
def State.breakPart (s : State) (p : Nat) : State := if (s.rp p).desc.kind = 0 then s else s.breakCells p (fun _ => true)

end Sys2Proof.Machine
end

