-- ==== Sys2Proof/Machine/TestOps.lean ====
section
/-! DEFINITION. What the tests of 16 do that other blocks need: the course of a stimulus (R402 to R404), the end of a structural test (R405, R406), a lane test's end (R399). -/

namespace Sys2Proof.Machine

/-! ### The stimulus (R402 to R404) -/

/-- [DEDUCED: log 193] -/
def State.stimEntries (s : State) (t : Nat) : List Nat := (List.range 32).filter (fun e => s.on F.TST_SE0_EN t e)
/-- [DEDUCED: log 193] -/
def State.stimResps (s : State) (t : Nat) : List Nat := (List.range 32).filter (fun r => s.on F.TST_RE0_EN t r)
/-- HOLD in us, WAVE and NCYC as they act. -/
def State.stimHold (s : State) (t : Nat) : Nat := max 1 (s.g F.TST_STIM_CTL_HOLD t)
def State.stimWave (s : State) (t : Nat) : Nat := if s.g F.TST_STIM_CTL_WAVE t = 3 then 0 else s.g F.TST_STIM_CTL_WAVE t
def State.stimCyc (s : State) (t : Nat) : Nat := max 1 (s.g F.TST_STIM_CYC_NCYC t)

/-- The edges of a stimulus; when edge n comes, in us from the start; when it ends. -/
def State.stimCount (s : State) (t : Nat) : Nat :=
  if s.stimWave t = 0 then 2 else if s.stimWave t = 1 then 1 + s.stimHold t else 2 * s.stimCyc t
/-- [DEDUCED: log 194] -/
def State.stimAt (s : State) (t n : Nat) : Nat :=
  if s.stimWave t = 1 then (if n = 0 then 0 else s.stimHold t + (n - 1)) else n * s.stimHold t
def State.stimEndAt (s : State) (t : Nat) : Nat := s.stimAt t (s.stimCount t - 1) + s.stimHold t
/-- The window of the level that edge n begins: 0 A, 1 B, 2 none. -/
def State.stimWin (s : State) (t n : Nat) : Nat :=
  if s.stimWave t = 1 then (if n = 0 then 0 else if n = s.stimHold t then 1 else 2) else n % 2

/-- The code of an entry after edge n: on a ramp, steps truncated towards zero, the last on CODE_B. [DEDUCED: log 193] -/
def State.stimCode (s : State) (t e n : Nat) : Nat :=
  let a := s.g F.TST_SE1_CODE_A t e
  let b := s.g F.TST_SE1_CODE_B t e
  if s.stimWin t n = 0 then a
  else if s.stimWin t n = 1 then b
  else (((a : Int) + (n : Int) * ((b : Int) - (a : Int)).tdiv (s.stimHold t)).toNat)

/-- A write of the generator: the precedence of a direct write; none to an output that a park has reached since START, or is faulted (R404, R54). -/
def State.stimWrite (s : State) (t k code : Nat) : State :=
  let a := t * 1280 + k
  if 1280 ≤ k || s.ona F.AO_STAT_FAULT a || s.tileFenced t || (Map.look s.tst.stim t {}).parked.contains k then s else s.actWrite a code 4

/-- A level ends: its sums join the entry's, with too few samples noted (R403). [DEDUCED: log 194] -/
def RespTot.join (x : RespTot) (w navg : Nat) (a : RespAcc) : RespTot :=
  if a.idx != x.idx then x
  else if w = 0 then { x with sa := x.sa + a.sum, na := x.na + a.got, lackA := x.lackA || a.got < navg }
  else { x with sb := x.sb + a.sum, nb := x.nb + a.got, lackB := x.lackB || a.got < navg }

/-- [DEDUCED: log 194] -/
def State.stimFold (s : State) (t : Nat) (st : StimSt) : StimSt :=
  if st.window = 2 then st
  else { st with acc := [], tot := st.tot.map (fun x => st.acc.foldl (fun x a => x.join st.window (s.g F.TST_STIM_CTL_NAVG t + 1) a) x) }

def State.setStim (s : State) (t : Nat) (st : StimSt) : State := { s with tst.stim := Map.ins s.tst.stim t st }

/-- The stimulus is over: outputs return to the codes held before START, the inputs range by themselves again, from a count of 0 (R65). -/
def State.stimOver (s : State) (t res : Nat) (st : StimSt) : State :=
  let s := if st.n = 0 then s else s.each st.held (fun s e => s.stimWrite t e.1 e.2)
  let s := s.each st.mis (fun s m => s.updMi m (fun y => { y with stim := false, low := 0 }))
  let s : State := { s with tst.stim := Map.del s.tst.stim t }
  ((s.put F.TST_STIM_STAT_BUSY 0 t).put F.TST_STIM_STAT_DONE 1 t).put F.TST_STIM_STAT_RESULT res t

/-- ABORT (R404): the means of every unfinished entry read zero. -/
def State.stimAbort (s : State) (t : Nat) : State :=
  match Map.find s.tst.stim t with
  | none => s
  | some st => (s.each (s.stimResps t) (fun s r => if s.on F.TST_RE3_DONE t r then s else s.setWord R.TST_RE3 0 t r)).stimOver t 2 st

/-! ### The structural test (R405, R406) -/

/-- The test is over: every Carafe entry is applied and the bias ramps back. -/
def State.osOver (s : State) (t res : Nat) : State :=
  let s := ((s.put F.TST_OS_STAT_BUSY 0 t).put F.TST_OS_STAT_DONE 1 t).put F.TST_OS_STAT_RESULT res t
  (s.each (aosOfTile t) State.park).biasTo t (s.g F.MI_BIAS_CODE t)

def State.osAbort (s : State) (t : Nat) : State := if s.on F.TST_OS_STAT_BUSY t then s.osOver t 2 else s

/-! ### Lane tests (R397 to R401) -/

def State.laneOn (s : State) (l : Nat) : Bool := s.on F.TST_LCFG_GEN_EN l || s.on F.TST_LCFG_CHK_EN l
/-- The tile whose link a lane belongs to. -/
def laneTile (l : Nat) : Option Nat := if 64 ≤ l && l < 192 then some ((l - 64) / 8) else none
def State.tileLanesOn (s : State) (t : Nat) : Bool := (List.range 8).any (fun i => s.laneOn (64 + 8 * t + i))
def State.pcieLanesOn (s : State) : Bool := (List.range 8).any s.laneOn

end Sys2Proof.Machine
end

