-- ==== Sys2Proof/Machine/Links.lean ====
section
/-! DEFINITION. Tile Links that fail, and the tiles that fence themselves (R16, R17, R62, R139). -/

namespace Sys2Proof.Machine

/-- The failed frame is sent again; when the 8th retry fails too, the link goes down (R17). -/
def execTileLinkRetry (t : Tile) (good : Bool) (s : State) : Out :=
  clocked s (fun s =>
    if !(s.tl t).badFrame then s
    else if good then s.updTl t (fun x => { x with badFrame := false, retry := 0 })
    else if (s.tl t).retry + 1 < 8 then s.updTl t (fun x => { x with retry := x.retry + 1 })
    else (s.linkDown t).loseBursts t)

/-- No valid frame for 20 us: the tile fences itself and parks (R17); suspended during freeze (R347) and a lane test of the link (R399). While the root clock is lost the tile alone acts (R25). [DEDUCED: log 22] -/
def execTileWatchdogExpiry (t : Tile) (s : State) : Out :=
  if s.clk = Clk.frozen || s.clk = Clk.off || s.tileLanesOn t then .next s
  else
    let u := (s.parkTile t).updTl t (fun x => { x with wdog := true, told := false })
    fin (if s.clk = Clk.lost then u else u.askFence 1 t false)

/-- Training completes: after a chip reset the tile re-initialises its registers (R62), and a watchdog fence is reported (R342) and known to the Control Die, which alone lifts it (R17). [DEDUCED: log 22] -/
def execTileLinkTrained (t : Tile) (s : State) : Out :=
  clocked s (fun s =>
    if (s.tl t).linkUp || !(s.tl t).powered || s.tileLanesOn t then s
    else
      let s := s.updTl t (fun x => { x with linkUp := true, badFrame := false, retry := 0 })
      let s : State := { s with tm.reps := Map.upd s.tm.reps t {} (fun r => { r with due := s.cycle }) }
      let s := s.when (s.tl t).needReinit (fun s => s.tileReinit t)
      if (s.tl t).wdog && !(s.tl t).told then
        let s := (s.updTl t (fun x => { x with told := true })).fsum t 5
        if bitOf (s.g F.FLT_FENCED_PT_TILE) t || s.flt.fences.any (fun r => r.region = 1 && r.idx = t.val) then s else s.askFence 1 t false
      else s)

end Sys2Proof.Machine
end

