-- ==== Sys2Proof/Machine/Sha.lean ====
section
/-! DEFINITION. SHA-384, which R264 names for the identity of a patch image: the Secure Hash Standard's functions on words of 64 bits. -/

namespace Sys2Proof.Machine

/-- The first 64 bits of the fractional parts of the cube roots of the first eighty primes. -/
def shaK1 : List W64 := [
  0x428A2F98D728AE22, 0x7137449123EF65CD, 0xB5C0FBCFEC4D3B2F, 0xE9B5DBA58189DBBC,
  0x3956C25BF348B538, 0x59F111F1B605D019, 0x923F82A4AF194F9B, 0xAB1C5ED5DA6D8118,
  0xD807AA98A3030242, 0x12835B0145706FBE, 0x243185BE4EE4B28C, 0x550C7DC3D5FFB4E2,
  0x72BE5D74F27B896F, 0x80DEB1FE3B1696B1, 0x9BDC06A725C71235, 0xC19BF174CF692694,
  0xE49B69C19EF14AD2, 0xEFBE4786384F25E3, 0x0FC19DC68B8CD5B5, 0x240CA1CC77AC9C65,
  0x2DE92C6F592B0275, 0x4A7484AA6EA6E483, 0x5CB0A9DCBD41FBD4, 0x76F988DA831153B5,
  0x983E5152EE66DFAB, 0xA831C66D2DB43210, 0xB00327C898FB213F, 0xBF597FC7BEEF0EE4,
  0xC6E00BF33DA88FC2, 0xD5A79147930AA725, 0x06CA6351E003826F, 0x142929670A0E6E70,
  0x27B70A8546D22FFC, 0x2E1B21385C26C926, 0x4D2C6DFC5AC42AED, 0x53380D139D95B3DF,
  0x650A73548BAF63DE, 0x766A0ABB3C77B2A8, 0x81C2C92E47EDAEE6, 0x92722C851482353B]
def shaK2 : List W64 := [
  0xA2BFE8A14CF10364, 0xA81A664BBC423001, 0xC24B8B70D0F89791, 0xC76C51A30654BE30,
  0xD192E819D6EF5218, 0xD69906245565A910, 0xF40E35855771202A, 0x106AA07032BBD1B8,
  0x19A4C116B8D2D0C8, 0x1E376C085141AB53, 0x2748774CDF8EEB99, 0x34B0BCB5E19B48A8,
  0x391C0CB3C5C95A63, 0x4ED8AA4AE3418ACB, 0x5B9CCA4F7763E373, 0x682E6FF3D6B2B8A3,
  0x748F82EE5DEFB2FC, 0x78A5636F43172F60, 0x84C87814A1F0AB72, 0x8CC702081A6439EC,
  0x90BEFFFA23631E28, 0xA4506CEBDE82BDE9, 0xBEF9A3F7B2C67915, 0xC67178F2E372532B,
  0xCA273ECEEA26619C, 0xD186B8C721C0C207, 0xEADA7DD6CDE0EB1E, 0xF57D4F7FEE6ED178,
  0x06F067AA72176FBA, 0x0A637DC5A2C898A6, 0x113F9804BEF90DAE, 0x1B710B35131C471B,
  0x28DB77F523047D84, 0x32CAAB7B40C72493, 0x3C9EBE0A15C9BEBC, 0x431D67C49C100D4C,
  0x4CC5D4BECB3E42B6, 0x597F299CFC657E2A, 0x5FCB6FAB3AD6FAEC, 0x6C44198C4A475817]
def shaK : List W64 := shaK1 ++ shaK2

/-- The first 64 bits of the fractional parts of the square roots of the ninth to sixteenth primes. -/
def sha384Init : List W64 := [
  0xCBBB9D5DC1059ED8, 0x629A292A367CD507, 0x9159015A3070DD17, 0x152FECD8F70E5939,
  0x67332667FFC00B31, 0x8EB44A8768581511, 0xDB0C2E0D64F98FA7, 0x47B5481DBEFA4FA4]

def rotr (x : W64) (n : Nat) : W64 := (x >>> n) ||| (x <<< (64 - n))
def shaBig0 (x : W64) : W64 := rotr x 28 ^^^ rotr x 34 ^^^ rotr x 39
def shaBig1 (x : W64) : W64 := rotr x 14 ^^^ rotr x 18 ^^^ rotr x 41
def shaSmall0 (x : W64) : W64 := rotr x 1 ^^^ rotr x 8 ^^^ (x >>> 7)
def shaSmall1 (x : W64) : W64 := rotr x 19 ^^^ rotr x 61 ^^^ (x >>> 6)

/-- A word of 64 bits from 8 bytes, the most significant first. -/
def beWord (bs : List Byte) : W64 := bs.foldl (fun w b => (w <<< 8) ||| b.setWidth 64) 0

/-- n further words of the message schedule, newest first. -/
def shaSched (n : Nat) (l : List W64) : List W64 :=
  match n with
  | 0 => l
  | k + 1 => shaSched k ((shaSmall1 (l.getD 1 0) + l.getD 6 0 + shaSmall0 (l.getD 14 0) + l.getD 15 0) :: l)

/-- The eight working words. -/
structure ShaSt where
  a : W64
  b : W64
  c : W64
  d : W64
  e : W64
  f : W64
  g : W64
  h : W64
  deriving DecidableEq, Repr

def ShaSt.ofList (l : List W64) : ShaSt := ⟨l.getD 0 0, l.getD 1 0, l.getD 2 0, l.getD 3 0, l.getD 4 0, l.getD 5 0, l.getD 6 0, l.getD 7 0⟩
def ShaSt.toList (x : ShaSt) : List W64 := [x.a, x.b, x.c, x.d, x.e, x.f, x.g, x.h]

/-- One round with its constant and its word of the schedule. -/
def ShaSt.round (x : ShaSt) (k w : W64) : ShaSt :=
  let t1 := x.h + shaBig1 x.e + ((x.e &&& x.f) ^^^ (~~~x.e &&& x.g)) + k + w
  let t2 := shaBig0 x.a + ((x.a &&& x.b) ^^^ (x.a &&& x.c) ^^^ (x.b &&& x.c))
  ⟨t1 + t2, x.a, x.b, x.c, x.d + t1, x.e, x.f, x.g⟩

/-- One block of 128 bytes. -/
def shaBlock (h : List W64) (bs : List Byte) : List W64 :=
  let w := (List.range 16).map (fun i => beWord ((bs.drop (8 * i)).take 8))
  let sched := (shaSched 64 w.reverse).reverse
  let x := (shaK.zip sched).foldl (fun (x : ShaSt) e => x.round e.1 e.2) (ShaSt.ofList h)
  List.zipWith (· + ·) h x.toList

/-- The message padded to whole blocks: a one, zeros and its length in bits in 16 bytes. -/
def shaPad (bs : List Byte) : List Byte :=
  let n := bs.length
  bs ++ [0x80] ++ List.replicate ((239 - n % 128) % 128) 0 ++ (List.range 16).map (fun i => BitVec.ofNat 8 (8 * n / 256 ^ (15 - i)))

/-- SHA-384 of a list of bytes, as six words. [DESIGN CHOICE: log 102] -/
def sha384 (bs : List Byte) : List W64 :=
  let p := shaPad bs
  ((List.range (p.length / 128)).foldl (fun h i => shaBlock h ((p.drop (128 * i)).take 128)) sha384Init).take 6

end Sys2Proof.Machine
end

