-- ==== Sys2Proof/Machine/Micro.lean ====
section
/-! DEFINITION. The control stores of the members and the images they are loaded with (10: R260, R261, R263 to R265; 14: R364): the layout of a store and of a microword, its parity, the next-address coding and the match table, the flash directory, the layout and the checks of an image. -/

namespace Sys2Proof.Machine

/-! ### The control store (R260) -/

/-- A control store (R260): words of ROM, words of patch RAM after them, data bits of a word, bits under one parity bit, match entries. -/
structure StoreShape where
  rom : Nat
  ram : Nat
  bits : Nat
  group : Nat
  entries : Nat
  deriving DecidableEq, Repr

/-- The store of a pair's members: of the Sequencers (pair 0), of the Loop Engines. -/
def storeShape (x : Nat) : StoreShape := if x = 0 then ⟨0x1800, 0x800, 176, 44, 32⟩ else ⟨0x1000, 0x400, 208, 52, 16⟩

/-- A microaddress is populated. -/
def populated (x a : Nat) : Bool := a < (storeShape x).rom + (storeShape x).ram

/-- The even parity of n bits from bit lo on. -/
def evenParity (w lo n : Nat) : Nat := ((List.range n).filter (fun i => bitOf w (lo + i))).length % 2
/-- The four parity bits of a microword, one for each group of its data bits. -/
def microParity (x w : Nat) : Nat :=
  let g := (storeShape x).group
  ((List.range 4).map (fun k => evenParity w (k * g) g * 2 ^ k)).sum

/-- A member beside its registers. -/
def State.mem' (s : State) (x m : Nat) : MemberSt := Map.look (s.tw x).mems m {}
def State.updMem (s : State) (x m : Nat) (f : MemberSt → MemberSt) : State := s.updTw x (fun w => { w with mems := Map.upd w.mems m {} f })

/-- The data bits and the parity bits at a microaddress of a member: of the ROM, whose contents are the part's; of patch RAM as loaded, or, where nothing is loaded, of no stated value. [DESIGN CHOICE: log 231] -/
def State.microword (s : State) (x m a : Nat) : Nat × Nat :=
  let k := storeShape x
  if a < k.rom then
    let w := (Config.romWord (x = 0) a).toNat % 2 ^ k.bits
    (w, microParity x w)
  else
    match (s.mem' x m).patch.bind (fun p => p.words[a - k.rom]?) with
    | some w => w
    | none => ((Config.ramWord a).toNat % 2 ^ k.bits, (Config.ramWord a).toNat / 2 ^ 208)

/-! ### The microword and its next address (R261) -/

def microNsel (w : Nat) : Nat := bitsOf w 0 3
def microTarget (w : Nat) : Nat := bitsOf w 3 13
/-- COND: the condition that BRC tests. -/
def microCond (w : Nat) : Nat := bitsOf w 16 6
/-- The control fields after them, as R261 lays them out: datapath, memory or context, time or sample, and switching interface or constant. -/
def microControl (x w : Nat) : List Nat :=
  if x = 0 then [bitsOf w 22 42, bitsOf w 64 48, bitsOf w 112 32, bitsOf w 144 32]
  else [bitsOf w 22 64, bitsOf w 86 64, bitsOf w 150 32, bitsOf w 182 26]

/-- The address after one: none past 0x1FFF. -/
def microInc (a : Nat) : Option Nat := if a < 0x1FFF then some (a + 1) else none

/-- The next address by NSEL, before the match table (R261); none is a machine check: cond is whether COND holds, entry where the dispatch leads, ret the micro-return register. -/
def microNext (x w a ret : Nat) (cond : Bool) (entry : Nat) : Option Nat :=
  match microNsel w with
  | 0 => microInc a
  | 1 => some (microTarget w)
  | 2 => if cond then some (microTarget w) else microInc a
  | 3 => some entry
  | 4 => some ret
  | 5 => if x = 0 then microInc a else none
  | 6 => some entry
  | _ => none

/-- The micro-return register after a word: a BR or BRC with its link bit set loads it with the address after its own. [DESIGN CHOICE: log 231] -/
def microRet (x w a ret : Nat) : Nat :=
  if (microNsel w = 1 || microNsel w = 2) && Config.microLink (x = 0) (BitVec.ofNat 208 w) then (a + 1) % 0x2000 else ret

/-- The match table replaces the ROM address of an enabled entry by its patch RAM address (R261). -/
def State.microMatch (s : State) (x m a : Nat) : Nat :=
  match (s.mem' x m).patch.bind (fun p => p.entries.find? (fun e => e.1 = a)) with
  | some e => e.2
  | none => a

/-! ### Images in flash (R263, R264, R364) -/

/-- CRC-32 of IEEE 802.3, as R193 names it. -/
def crc32Bit (c : W32) : W32 := if c.getLsbD 0 then (c >>> 1) ^^^ 0xEDB88320 else c >>> 1
def crc32Byte (c : W32) (b : Byte) : W32 := (List.range 8).foldl (fun c _ => crc32Bit c) (c ^^^ b.setWidth 32)
def crc32 (bs : List Byte) : W32 := ~~~ (bs.foldl crc32Byte (BitVec.allOnes 32))

/-- The offset and length of the first item of a type in the flash directory (R364), with its CRC. [DEDUCED: log 230] -/
def State.flashItem (s : State) (typ : Nat) : Option (Nat × Nat × Nat) :=
  let word (k w : Nat) : Nat := s.rdN (flashBase + 16 * k + 4 * w) 4
  ((List.range 16).find? (fun k => word k 0 % 256 = typ)).map (fun k => (word k 1, word k 2, word k 3))

/-- The CRC of a directory item agrees with what flash holds (R364). -/
def State.itemGood (s : State) (i : Nat × Nat × Nat) : Bool := (crc32 (s.rdBs (flashBase + i.1) i.2.1)).toNat = i.2.2

/-- PLEN of an image at an offset of flash. -/
def State.imgPlen (s : State) (off : Nat) : Nat := s.rdN (flashBase + off + 0xC) 4

/-- Check 1 of R265: MAGIC, VERSION, TARGET, PLEN and the reserved bytes; an image does not reach beyond its directory item. [DEDUCED: log 230] -/
def State.imgForm (s : State) (target off len : Nat) : Bool :=
  let rd (o n : Nat) : Nat := s.rdN (flashBase + off + o) n
  rd 0 4 = 0x5450584F && rd 4 2 = 1 && rd 6 1 = target && s.imgPlen off % 16 = 0 && 0xA0 + s.imgPlen off ≤ len && rd 0x24 12 = 0

/-- Checks 1 to 5 of R265 in their order: the code of the first that fails, or the plaintext; an unreadable counter lets no image pass (R266). [DESIGN CHOICE: log 102; DEDUCED: log 168] -/
def State.imgOpen (s : State) (target off len : Nat) : Except Nat (List Byte) :=
  let img := s.rdBs (flashBase + off) (0xA0 + s.imgPlen off)
  if !s.imgForm target off len then .error 1
  else if s.rdN (flashBase + off + 0x10) 8 != Config.devId.toNat then .error 2
  else if !Config.sigValid img then .error 3
  else if s.pwr.otpFail || s.rdN (flashBase + off + 7) 1 < s.pwr.otp then .error 4
  else
    match Config.gcmOpen img with
    | none => .error 5
    | some p => .ok p

/-- The identity of a plaintext (R264): the first 8 bytes of its SHA-384. [DESIGN CHOICE: log 102] -/
def imgIdent (p : List Byte) : Nat := ((sha384 p).getD 0 0).toNat

/-- The contents of a plaintext (R264): NWORDS, NMATCH, the entries, the words. -/
def plainPatch (x level arb : Nat) (p : List Byte) : PatchImage :=
  let rd (o n : Nat) : Nat := leNat ((p.drop o).take n)
  let nw := rd 0 4
  let nm := rd 4 4
  { level := level, arb := arb, ident := imgIdent p
    entries := (List.range nm).map (fun i => (bitsOf (rd (16 + 4 * i) 4) 0 13, bitsOf (rd (16 + 4 * i) 4) 16 13))
    words := (List.range nw).map (fun i => rd (16 + 4 * nm + 32 * i) 32 % 2 ^ (storeShape x).bits) }

/-- Check 6 of R265: the numbers of words and entries, PLEN, and the addresses. [DEDUCED: log 230] -/
def plainFits (x : Nat) (p : List Byte) : Bool :=
  let rd (o n : Nat) : Nat := leNat ((p.drop o).take n)
  let k := storeShape x
  let nw := rd 0 4
  let nm := rd 4 4
  nw ≤ k.ram && nm ≤ k.entries && p.length = (16 + 4 * nm + 32 * nw + 15) / 16 * 16 &&
    ((plainPatch x 0 0 p).entries.all (fun e => e.1 < k.rom && k.rom ≤ e.2 && e.2 < k.rom + k.ram))

/-- The loader's answer for the members of a pair (R263 to R265): the code of the first check that fails, or the image. One image serves the Sequencers and one all the Loop Engines; a directory without it fails check 1. [DEDUCED: log 230] -/
def State.patchImage (s : State) (x : Nat) : Except Nat PatchImage :=
  match s.flashItem (if x = 0 then 3 else 4) with
  | none => .error 1
  | some i =>
    match s.imgOpen (if x = 0 then 0 else 1) i.1 i.2.1 with
    | .error c => .error c
    | .ok p =>
      if plainFits x p then .ok (plainPatch x (s.rdN (flashBase + i.1 + 8) 4) (s.rdN (flashBase + i.1 + 7) 1) p) else .error 6

/-- The plaintext of the Service Firmware image of a type, if it passes: the checks of R265 with TARGET 2, and 8 MiB in place of check 6 (R364). -/
def State.fwPlain (s : State) (typ : Nat) : Option (List Byte) :=
  match s.flashItem typ with
  | none => none
  | some i =>
    match s.imgOpen 2 i.1 i.2.1 with
    | .ok p => if p.length ≤ 8388608 then some p else none
    | .error _ => none

/-- Service Firmware as the boot ROM finds it: image A, or image B if A fails (R365). -/
def State.firmware (s : State) : Option (List Byte) := (s.fwPlain 1).orElse (fun _ => s.fwPlain 2)

end Sys2Proof.Machine
end

