-- ==== Sys2Proof/Machine/Obrix.lean ====
section
/-! DEFINITION. The core instructions of Obrix and the threads (07: R170 to R194). -/

namespace Sys2Proof.Machine

/-! ### Common shapes -/

/-- A thread goes on at an address. -/
def State.retireTo (s : State) (m h pc : Nat) : State :=
  (s.updTh m h (fun x => { x.setScr scrInstret ((x.scrOf scrInstret + 1) % 2 ^ 64) with pc := pc, wait := none })).boundary m h

/-- An exception of the instruction at the PC of one member (R190). -/
def State.excAt (s : State) (m h code info : Nat) (bad : Option Nat := none) : State :=
  s.exc m h { code := code, info := info, epc := (s.th m h).pc, bad := bad }

/-- An instruction that writes a general register and SCR_STATUS from the thread's registers. -/
def State.alu (s : State) (h opc : Nat) (f : ThrSt → OIns → W64 × Nat) : State :=
  s.issue h (fun i => i.opc = opc) (fun i m s =>
    let r := f (s.th m h) i
    (s.updTh m h (fun x => (x.setG i.d r.1).setStatus r.2)).retire m h i)

/-! ### Arithmetic and logic (R181) -/

def execAdd (h : Thr) (s : State) : Out := clocked s (fun s => s.alu h.val 0x01 (fun x i =>
  (x.gr i.s1 + x.gr i.s2, flagsAdd x.status (x.gr i.s1) (x.gr i.s2))))
def execSub (h : Thr) (s : State) : Out := clocked s (fun s => s.alu h.val 0x02 (fun x i =>
  (x.gr i.s1 - x.gr i.s2, flagsSub x.status (x.gr i.s1) (x.gr i.s2))))
def execAnd (h : Thr) (s : State) : Out := clocked s (fun s => s.alu h.val 0x03 (fun x i =>
  (x.gr i.s1 &&& x.gr i.s2, flagsLogic x.status (x.gr i.s1 &&& x.gr i.s2))))
def execOr (h : Thr) (s : State) : Out := clocked s (fun s => s.alu h.val 0x04 (fun x i =>
  (x.gr i.s1 ||| x.gr i.s2, flagsLogic x.status (x.gr i.s1 ||| x.gr i.s2))))
def execXor (h : Thr) (s : State) : Out := clocked s (fun s => s.alu h.val 0x05 (fun x i =>
  (x.gr i.s1 ^^^ x.gr i.s2, flagsLogic x.status (x.gr i.s1 ^^^ x.gr i.s2))))

/-- The shift count: b[5:0], or FUNC[5:0] where FUNC[8] = 1. -/
def shiftBy (x : ThrSt) (i : OIns) : Nat := if 256 ≤ i.func then i.func % 64 else (x.gr i.s2).toNat % 64

def execShl (h : Thr) (s : State) : Out := clocked s (fun s => s.alu h.val 0x06 (fun x i =>
  let a := x.gr i.s1
  let n := shiftBy x i
  (a <<< n, flagsShift x.status (a <<< n) (shlOut a n))))
def execShr (h : Thr) (s : State) : Out := clocked s (fun s => s.alu h.val 0x07 (fun x i =>
  let a := x.gr i.s1
  let n := shiftBy x i
  (a >>> n, flagsShift x.status (a >>> n) (shrOut a n))))
def execSar (h : Thr) (s : State) : Out := clocked s (fun s => s.alu h.val 0x08 (fun x i =>
  let a := x.gr i.s1
  let n := shiftBy x i
  (a.sshiftRight n, flagsShift x.status (a.sshiftRight n) (shrOut a n))))

/-- MUL: low, high signed, high unsigned. -/
def mulOf (a b : W64) (func : Nat) : W64 :=
  if func = 0 then a * b else if func = 1 then BitVec.ofInt 64 (a.toInt * b.toInt / (2 ^ 64 : Int)) else BitVec.ofNat 64 (a.toNat * b.toNat / 2 ^ 64)

def execMul (h : Thr) (s : State) : Out := clocked s (fun s => s.alu h.val 0x09 (fun x i =>
  let a := x.gr i.s1
  let b := x.gr i.s2
  (mulOf a b i.func, if i.func = 0 then flagsMulLow x.status a b else withCV (withZN x.status (mulOf a b i.func)) false false)))

/-- a is below b, signed or unsigned as FUNC[0] says. -/
def below (func : Nat) (a b : W64) : Bool := if func = 0 then decide (a.toInt < b.toInt) else decide (a.toNat < b.toNat)

def execMin (h : Thr) (s : State) : Out := clocked s (fun s => s.alu h.val 0x0A (fun x i =>
  let r := if below i.func (x.gr i.s2) (x.gr i.s1) then x.gr i.s2 else x.gr i.s1
  (r, withZN x.status r)))
def execMax (h : Thr) (s : State) : Out := clocked s (fun s => s.alu h.val 0x0B (fun x i =>
  let r := if below i.func (x.gr i.s1) (x.gr i.s2) then x.gr i.s2 else x.gr i.s1
  (r, withZN x.status r)))
/-- CMP writes no register: its D field is 0. -/
def execCmp (h : Thr) (s : State) : Out := clocked s (fun s => s.alu h.val 0x0C (fun x i =>
  (0, flagsSub x.status (x.gr i.s1) (x.gr i.s2))))

def execAddi (h : Thr) (s : State) : Out := clocked s (fun s => s.alu h.val 0x10 (fun x i =>
  let b : W64 := BitVec.ofInt 64 i.imm
  (x.gr i.s1 + b, flagsAdd x.status (x.gr i.s1) b)))
def execAndi (h : Thr) (s : State) : Out := clocked s (fun s => s.alu h.val 0x11 (fun x i =>
  let r := x.gr i.s1 &&& BitVec.ofNat 64 i.uimm
  (r, flagsLogic x.status r)))
def execOri (h : Thr) (s : State) : Out := clocked s (fun s => s.alu h.val 0x12 (fun x i =>
  let r := x.gr i.s1 ||| BitVec.ofNat 64 i.uimm
  (r, flagsLogic x.status r)))
/-- LUI: IMM14 << 14, sign-extended; of an EXT pair IMM32 << 32 (R179). -/
def execLui (h : Thr) (s : State) : Out := clocked s (fun s => s.alu h.val 0x13 (fun x i =>
  (if i.len = 8 then BitVec.ofNat 64 i.uimm <<< 32 else BitVec.ofInt 64 i.imm <<< 14, x.status)))

/-! ### Memory (R175, R176, R182) -/

/-- The thread address of a load or store. -/
def memAddr (x : ThrSt) (i : OIns) : Nat := (x.gr i.s1 + BitVec.ofInt 64 i.imm).toNat

/-- SRAM_UE's store and word index for a place in memory: data memory, Map Store or Program Store. -/
def ueStore (p a : Nat) : Nat × Nat :=
  if a < 0x40000 then (6, (p * 0x40000 + a) / 8) else if a < 0x20000000 then (0, (a - 0x10000000) / 8) else (1, (a - 0x20000000) / 8)

/-- A load of n bytes; an unused offset of the Map Store reads zero, and the Lattice reports it (R32, R312). [DESIGN CHOICE: log 246] -/
def State.loadOp (s : State) (h opc n : Nat) : State :=
  s.issue h (fun i => i.opc = opc) (fun i m s =>
    let a := memAddr (s.th m h) i
    if a % n != 0 then s.excAt m h 0x02 0 (some a)
    else
      match threadAddr h a with
      | none => s.excAt m h 0x03 0 (some a)
      | some (k, _) =>
        if (s.ueIn k n).isSome then (s.when (s.holds 0 m) (fun s => s.sramUe (ueStore h a).1 (ueStore h a).2)).excAt m h 0x05 0 (some a)
        else ((s.thrAsk m k n).updTh m h (fun x => x.setG i.d (BitVec.ofNat 64 (leNat (s.bar2Bytes k n))))).retire m h i)

/-- One byte of a thread's store; one that the host has written in this cycle keeps the host's (R176). [DEDUCED: log 67] -/
def State.dmByte (s : State) (a : Nat) (b : Byte) : State :=
  if s.seq.dmHost.contains (a, s.cycle) then s else { s with mem := Memory.wr s.mem a b }

/-- Bytes of a thread's store in data memory (R175, R176); a word stored whole is good again. -/
def State.dmStore (s : State) (a : Nat) (bs : List Byte) : State :=
  let s' := s.each ((List.range bs.length).zip bs) (fun s e => s.dmByte (a + e.1) e.2)
  { s' with ueWords := ueLeft s'.ueWords a bs.length }

/-- The bytes that a D2 instruction stores, each at its place; a word of which all eight are stored is good again. -/
def State.dmStores (s : State) (l : List (Nat × Byte)) : State :=
  let s' := s.each l (fun s e => s.dmByte e.1 e.2)
  { s' with ueWords := s'.ueWords.filter (fun w => !(List.range 8).all (fun k => l.any (fun e => e.1 = w + k))) }

/-- A store of n bytes: only the lease holder's is written. -/
def State.storeOp (s : State) (h opc n : Nat) : State :=
  s.issue h (fun i => i.opc = opc) (fun i m s =>
    let a := memAddr (s.th m h) i
    if a % n != 0 then s.excAt m h 0x02 0 (some a)
    else
      match threadAddr h a with
      | some (k, true) =>
        let v := ((s.th m h).gr i.d).toNat
        (s.when (s.holds 0 m) (fun s => ((s.grant (thrTarget k) (2 + m)).dmStore k (leBytes n v)).passEffect 0 (leBytes 8 a ++ leBytes n v))).retire m h i
      | _ => s.excAt m h 0x03 0 (some a))

def execLd8 (h : Thr) (s : State) : Out := clocked s (fun s => s.loadOp h.val 0x20 1)
def execLd16 (h : Thr) (s : State) : Out := clocked s (fun s => s.loadOp h.val 0x21 2)
def execLd32 (h : Thr) (s : State) : Out := clocked s (fun s => s.loadOp h.val 0x22 4)
def execLd64 (h : Thr) (s : State) : Out := clocked s (fun s => s.loadOp h.val 0x23 8)
def execSt8 (h : Thr) (s : State) : Out := clocked s (fun s => s.storeOp h.val 0x24 1)
def execSt16 (h : Thr) (s : State) : Out := clocked s (fun s => s.storeOp h.val 0x25 2)
def execSt32 (h : Thr) (s : State) : Out := clocked s (fun s => s.storeOp h.val 0x26 4)
def execSt64 (h : Thr) (s : State) : Out := clocked s (fun s => s.storeOp h.val 0x27 8)

/-! ### Control (R182) -/

/-- The target of BR and JAL: signed words from the branch. -/
def braTarget (x : ThrSt) (i : OIns) : Int := (x.pc : Int) + 4 * i.imm

/-- A jump to a target: FETCH outside the code range. -/
def State.jump (s : State) (m h : Nat) (target : Int) (f : State → State) : State :=
  if 0 ≤ target && s.inCode h target.toNat then (f s).retireTo m h target.toNat
  else s.excAt m h 0x04 0 (some (ofSigned 64 target))

def branchOp (h : Nat) (s : State) : State :=
  s.issue h (fun i => i.opc = 0x30) (fun i m s =>
    let x := s.th m h
    if condHolds x.status i.d then s.jump m h (braTarget x i) id else s.retire m h i)
def execBr (h : Thr) (s : State) : Out := clocked s (branchOp h.val)

def jalOp (h : Nat) (s : State) : State :=
  s.issue h (fun i => i.opc = 0x31) (fun i m s =>
    let x := s.th m h
    s.jump m h (braTarget x i) (fun s => s.updTh m h (fun x => x.setG i.d (BitVec.ofNat 64 (x.pc + i.len)))))
def execJal (h : Thr) (s : State) : Out := clocked s (jalOp h.val)

def jrOp (h : Nat) (s : State) : State :=
  s.issue h (fun i => i.opc = 0x32 && i.func = 0) (fun i m s =>
    let t := ((s.th m h).gr i.s1).toNat
    if t % 4 != 0 then s.excAt m h 0x02 0 (some t)
    else s.jump m h t (fun s => s.updTh m h (fun x => x.setG i.d (BitVec.ofNat 64 (x.pc + i.len)))))
def execJr (h : Thr) (s : State) : Out := clocked s (jrOp h.val)

/-- The micro-trap frame at SCR_D2FRAME (R192). -/
def frameAddr (p : Nat) (x : ThrSt) : Nat := dmBase p + bitsOf (x.scrOf scrD2frame) 8 10 * 256

/-- ID and VERSION of a frame. [DEDUCED: log 66] -/
def State.frameOk (s : State) (a : Nat) : Bool := s.rdN a 2 = 0xD2F1 && s.rdN (a + 2) 1 = 1

/-- The frame is loaded back: the routine's place and temporaries, and the defined bits of SCR_STATUS at the trap but IE, which JR.E takes from PIE, and MT and PD2, which it clears. [DEDUCED: log 66] -/
def State.frameLoad (s : State) (a : Nat) (x : ThrSt) : ThrSt :=
  { x.setStatus (s.rdN (a + 16) 8 &&& 0x21F) with d2 :=
      { active := true, upc := s.rdN (a + 4) 4 % 8192, step := s.rdN (a + 24) 8
        ut := (List.range 16).map (fun k => (k, BitVec.ofNat 64 (s.rdN (a + 32 + 8 * k) 8)))
        tt := (List.range 2).map (fun k => (k, BitVec.ofNat 96 (s.rdN (a + 160 + 12 * k) 12))) } }

/-- What JR.E does beside the jump: IE takes PIE as it stood; with PD2 = 1 the thread returns to D2 mode; MT and PD2 are cleared. [DEDUCED: log 66] -/
def ThrSt.jrE (x : ThrSt) (old link d : Nat) : ThrSt :=
  let x := x.setG d (BitVec.ofNat 64 link)
  let x := x.setStatus (clrBit (clrBit (setBitTo x.status bitIE (bitOf old bitPIE)) bitPD2) bitMT)
  if bitOf old bitPD2 then x.setScr scrMode (orBit (x.scrOf scrMode) 1) else x

/-- JR.E (R182, R191, R192); upcOk: UPC of the frame lies in the routine of the instruction at EPC. [DEDUCED: log 66] -/
def jrEOp (h : Nat) (upcOk : Bool) (s : State) : State :=
  s.issue h (fun i => i.opc = 0x32 && i.func = 1) (fun i m s =>
    let x := s.th m h
    let t := (x.gr i.s1).toNat
    let mt := bitOf x.status bitMT
    let resume := mt && bitOf x.status bitPD2 && t = x.scrOf scrEpc
    let a := frameAddr h x
    if t % 4 != 0 then s.excAt m h 0x02 0 (some t)
    else if resume && s.inCode h t && !(s.frameOk a && upcOk) then s.excAt m h 0x01 0x32
    else (s.when resume (fun s => s.grant 4 (2 + m))).jump m h t (fun s => s.updTh m h (fun x =>
      let y := if resume then s.frameLoad a x else if mt then { x with d2 := {} } else x
      y.jrE x.status (x.pc + i.len) i.d)))
def execJrE (h : Thr) (upcOk : Bool) (s : State) : Out := clocked s (jrEOp h.val upcOk)

/-- TRAP: SCR_EPC points past it. -/
def trapOp (h : Nat) (s : State) : State :=
  s.issue h (fun i => i.opc = 0x38) (fun i m s => s.exc m h { code := 0x07, info := i.func, epc := (s.th m h).pc + 4 })
def execTrap (h : Thr) (s : State) : Out := clocked s (trapOp h.val)

/-- FENCE.M: the stores and loads of this model are done when they are issued (R176). -/
def fenceMOp (h : Nat) (s : State) : State := s.issue h (fun i => i.opc = 0x39) (fun i m s => s.retire m h i)
def execFenceM (h : Thr) (s : State) : Out := clocked s (fenceMOp h.val)

/-- A sequencer control register as a thread reads it; none where the number is unassigned (R174, R199). -/
def State.scrRead (s : State) (m h n : Nat) : Option Nat :=
  let x := s.th m h
  if n = 0x006 then some (h + s.pmode h * 16)
  else if n = 0x008 then some (s.watched h)
  else if n ≤ 0x00A || (0x010 ≤ n && n ≤ 0x013) then some (x.scrOf n)
  else if n = 0x040 then some (Map.look s.seq.xbuf h 0)
  else if n = 0x041 then
    let r := s.rp h
    some (r.last % 16 + b2n r.job.isSome * 16 + s.g F.RTU_COLL_COUNT h * 65536)
  else if n = 0x042 then
    some (s.g F.RTU_PSTAT_LAST_RESULT h + s.g F.RTU_PSTAT_ARMED h * 8 + min 4095 (s.rp h).refused * 256)
  else if n = 0x043 then some (s.openMask h)
  else none

def scrrOp (h : Nat) (s : State) : State :=
  s.issue h (fun i => i.opc = 0x3A) (fun i m s =>
    match s.scrRead m h i.func with
    | none => s.excAt m h 0x01 0x3A
    | some v => (s.updTh m h (fun x => x.setG i.d (BitVec.ofNat 64 v))).retire m h i)
def execScrr (h : Thr) (s : State) : Out := clocked s (scrrOp h.val)

/-- The bits of a writable control register that a write sets; none where it is read-only or unassigned. -/
def scrMask (n : Nat) : Option Nat :=
  match n with
  | 0x000 => some 0xF1F
  | 0x002 | 0x004 => some (2 ^ 64 - 4)
  | 0x005 => some 1
  | 0x007 | 0x010 | 0x011 | 0x012 | 0x013 => some (2 ^ 64 - 1)
  | 0x00A => some 0x3FF00
  | 0x040 => some 0x70000
  | _ => none

/-- SCRW; a write of SCR_MODE that would change D2 is ILLEGAL (R174). -/
def scrwOp (h : Nat) (s : State) : State :=
  s.issue h (fun i => i.opc = 0x3B) (fun i m s =>
    let x := s.th m h
    let v := (x.gr i.s1).toNat
    match scrMask i.func with
    | none => s.excAt m h 0x01 0x3B
    | some k =>
      let w := v &&& k
      if i.func = 0x005 then
        if bitOf v 1 != x.inD2 then s.excAt m h 0x01 0x3B
        else (s.updTh m h (fun x => x.setScr scrMode (w + 2 * b2n x.inD2))).retire m h i
      else if i.func = 0x040 then (s.when (s.holds 0 m) (fun s => { s with seq.xbuf := Map.ins s.seq.xbuf h w })).retire m h i
      else (s.updTh m h (fun x => x.setScr i.func w)).retire m h i)
def execScrw (h : Thr) (s : State) : Out := clocked s (scrwOp h.val)

def haltOp (h : Nat) (s : State) : State := s.issue h (fun i => i.opc = 0x3E) (fun i m s => (s.retire m h i).thHalt m h 3)
def execHalt (h : Thr) (s : State) : Out := clocked s (haltOp h.val)

def nopOp (h : Nat) (s : State) : State := s.issue h (fun i => i.opc = 0x3F) (fun i m s => s.retire m h i)
def execNop (h : Thr) (s : State) : Out := clocked s (nopOp h.val)

/-! ### Time (R183, R184) -/

/-- A time value in 2^-16 ns, its base, and back; none where it leaves the ranges of R173. -/
def tvFine (v : RWord) : Nat := (getField v 48 48 * 10 ^ 9 + getField v 18 30) * 65536 + getField v 2 16
def tvBase (v : RWord) : Nat := getField v 0 2
def tvMake (fine : Int) (b : Nat) : Option RWord :=
  if 0 ≤ fine && fine < ((2 ^ 48 * 10 ^ 9 * 65536 : Nat) : Int) then some (tvOf (fine.toNat * 2 ^ 32) b) else none

/-- TIMEGET: the operation is FUNC[2:0]. -/
def isTimeGet (op : Nat) (i : OIns) : Bool := i.opc = 0x40 && i.func % 8 = op
/-- TIMEADD: the operation is FUNC[2:0]. -/
def isTimeAdd (op : Nat) (i : OIns) : Bool := i.opc = 0x41 && i.func % 8 = op

/-- A field of a time value into a general register. -/
def State.timeField (s : State) (h op lo w : Nat) : State :=
  s.issue h (isTimeGet op) (fun i m s =>
    (s.updTh m h (fun x => x.setG i.d (BitVec.ofNat 64 (getField (x.tr i.s1) lo w)))).retire m h i)

def timegetNow (h : Nat) (s : State) : State :=
  s.issue h (isTimeGet 0) (fun i m s => (s.updTh m h (fun x => x.setT i.d (s.tbNow (i.func / 8 % 4)))).retire m h i)
def execTimegetNow (h : Thr) (s : State) : Out := clocked s (timegetNow h.val)
def execTimegetSec (h : Thr) (s : State) : Out := clocked s (fun s => s.timeField h.val 1 48 48)
def execTimegetNs (h : Thr) (s : State) : Out := clocked s (fun s => s.timeField h.val 2 18 30)
def execTimegetFrac (h : Thr) (s : State) : Out := clocked s (fun s => s.timeField h.val 3 2 16)
def execTimegetTbn (h : Thr) (s : State) : Out := clocked s (fun s => s.timeField h.val 4 0 2)

/-- The difference in ns, truncated towards zero and saturated to 64 bits. -/
def timeDiff (a b : RWord) : Int := clampI (-(2 ^ 63)) (2 ^ 63 - 1) (Int.tdiv ((tvFine a : Int) - tvFine b) 65536)

def timegetDiff (h : Nat) (s : State) : State :=
  s.issue h (isTimeGet 5) (fun i m s =>
    let x := s.th m h
    if tvBase (x.tr i.s1) != tvBase (x.tr i.s2) then s.excAt m h 0x06 5
    else (s.updTh m h (fun x => x.setG i.d (BitVec.ofInt 64 (timeDiff (x.tr i.s1) (x.tr i.s2))))).retire m h i)
def execTimegetDiff (h : Thr) (s : State) : Out := clocked s (timegetDiff h.val)

/-- A time result: the TIME exception where there is none. -/
def State.timeResult (s : State) (m h : Nat) (i : OIns) (v : Option RWord) : State :=
  match v with
  | none => s.excAt m h 0x06 (i.func % 8)
  | some t => (s.updTh m h (fun x => x.setT i.d t)).retire m h i

/-- TIMEADD, and TIMEADD of an EXT pair, which adds IMM32 (R179). -/
def timeAdd (h : Nat) (s : State) : State :=
  s.issue h (isTimeAdd 0) (fun i m s =>
    let x := s.th m h
    let ns : Int := if i.len = 8 then i.imm else (x.gr i.s2).toInt
    s.timeResult m h i (tvMake ((tvFine (x.tr i.s1) : Int) + ns * 65536) (tvBase (x.tr i.s1))))
def execTimeadd (h : Thr) (s : State) : Out := clocked s (timeAdd h.val)

def timeaddSet (h : Nat) (s : State) : State :=
  s.issue h (isTimeAdd 1) (fun i m s =>
    let x := s.th m h
    let ns := (x.gr i.s2).toNat
    s.timeResult m h i (if 10 ^ 9 ≤ ns then none else tvMake ((((x.gr i.s1).toNat * 10 ^ 9 + ns) * 65536 : Nat) : Int) (i.func / 8 % 4)))
def execTimeaddSet (h : Thr) (s : State) : Out := clocked s (timeaddSet h.val)

def timeaddMov (h : Nat) (s : State) : State :=
  s.issue h (isTimeAdd 2) (fun i m s => (s.updTh m h (fun x => x.setT i.d (x.tr i.s1))).retire m h i)
def execTimeaddMov (h : Thr) (s : State) : Out := clocked s (timeaddMov h.val)

def timeaddCmp (h : Nat) (s : State) : State :=
  s.issue h (isTimeAdd 3) (fun i m s =>
    let x := s.th m h
    if tvBase (x.tr i.s1) != tvBase (x.tr i.s2) then s.excAt m h 0x06 3
    else (s.updTh m h (fun x => x.setStatus (flagsTime x.status (tvFine (x.tr i.s1)) (tvFine (x.tr i.s2))))).retire m h i)
def execTimeaddCmp (h : Thr) (s : State) : Out := clocked s (timeaddCmp h.val)

def timeaddRound (h : Nat) (s : State) : State :=
  s.issue h (isTimeAdd 4) (fun i m s =>
    let x := s.th m h
    let g := (x.gr i.s2).toNat
    let v := tvFine (x.tr i.s1)
    s.timeResult m h i (if g = 0 || 10 ^ 9 % g != 0 then none
      else tvMake ((ceilDiv v (g * 65536) * (g * 65536) : Nat) : Int) (tvBase (x.tr i.s1))))
def execTimeaddRound (h : Thr) (s : State) : Out := clocked s (timeaddRound h.val)

/-- A time base has reached a time value, or is later than it. -/
def State.tvReached (s : State) (t : RWord) : Bool := tvUnits t ≤ s.tbVal (tvBase t)
def State.tvPast (s : State) (t : RWord) : Bool := tvUnits t < s.tbVal (tvBase t)

/-- [DEDUCED: log 75] -/
def waittOp (h : Nat) (s : State) : State :=
  s.issue h (fun i => i.opc = 0x42) (fun i m s =>
    let t := (s.th m h).tr i.s1
    if s.tvPast t then (s.updTh m h (fun x => x.setStatus (withL x.status true))).retire m h i
    else (s.updTh m h (fun x => { x with wait := some (.time t) })).setThState m h 2)
def execWaitt (h : Thr) (s : State) : Out := clocked s (waittOp h.val)

/-- The base of a waiting WAITT reaches its time (R184): L = 0, which is written here so that an abandoned WAITT has no effect at all (R190). [DEDUCED: log 75] -/
def waittWake (h : Nat) (s : State) : State :=
  match (s.leadTh h).wait with
  | some (.time t) => if s.hasLead && s.tvReached t then s.wake h (fun s => s.lAll h false) else s
  | _ => s
def execWaittWake (h : Thr) (s : State) : Out := clocked s (waittWake h.val)

/-! ### Events and trace (R185 to R188) -/

/-- WAITE completes with flags (R185). -/
def State.waiteEnd (s : State) (h d v : Nat) (clear : Bool) : State :=
  let s := (s.wrAll h d (BitVec.ofNat 64 v)).zAll h (v = 0)
  if clear then s.clrBits F.EVT_FLAG_FLAG v else s

def waiteOp (h : Nat) (s : State) : State :=
  s.issueSw h (fun i => i.opc = 0x43) (fun i s =>
    let x := s.leadTh h
    let mask := (x.gr i.s1).toNat
    let clear := bitOf i.func 0
    let tmo := if bitOf i.func 1 then some (x.tr i.s2) else none
    let v := s.watched h &&& mask
    let past := match tmo with
      | some t => s.tvReached t
      | none => false
    if mask &&& s.g F.EVT_PERM_WATCH_VAL h != mask then s.excAll h 0x03 0 none
    else if v != 0 || past then (s.waiteEnd h i.d v clear).retireAll h i
    else s.waitAll h (.event i.d mask clear tmo) true)
def execWaite (h : Thr) (s : State) : Out := clocked s (waiteOp h.val)

/-- A watched flag is set, or the timeout has come. -/
def waiteWake (h : Nat) (s : State) : State :=
  match (s.leadTh h).wait with
  | some (.event d mask clear tmo) =>
    let v := s.watched h &&& mask
    let late := match tmo with
      | some t => s.tvReached t
      | none => false
    if s.hasLead && (v != 0 || late) then s.wake h (fun s => s.waiteEnd h d v clear) else s
  | _ => s
def execWaiteWake (h : Thr) (s : State) : Out := clocked s (waiteWake h.val)

def evraiseOp (h : Nat) (s : State) : State :=
  s.issueSw h (fun i => i.opc = 0x44) (fun i s =>
    let c := if 64 ≤ i.func then i.func % 64 else ((s.leadTh h).gr i.s1).toNat % 64
    if !bitOf (s.g F.EVT_PERM_RAISE_VAL h) c then s.excAll h 0x03 0 none
    else (s.occur (256 + c)).retireAll h i)
def execEvraise (h : Thr) (s : State) : Out := clocked s (evraiseOp h.val)

/-- One entry of a member's trace buffer (R187). -/
def State.trace (s : State) (m h tag : Nat) (v : W64) : State :=
  let wr := s.g F.SEQ_TRC_WR_WR m
  let e := leBytes 4 (h + tag * 16) ++ leBytes 4 (s.th m h).pc ++ leBytes 12 (s.tbNow 0).toNat ++ leBytes 4 0 ++ leBytes 8 v.toNat
  let s := (s.wrBs (trcBase m + 32 * wr) e).put F.SEQ_TRC_WR_WR ((wr + 1) % 2048) m
  if wr = 2047 then s.sat F.SEQ_TRC_WR_WRAPS m else s

def traceOp (h : Nat) (s : State) : State :=
  s.issue h (fun i => i.opc = 0x45) (fun i m s =>
    (s.when (bitOf (s.g F.SEQ_TRC_CTL_THR_EN m) h) (fun s => s.trace m h i.func ((s.th m h).gr i.s1))).retire m h i)
def execTrace (h : Thr) (s : State) : Out := clocked s (traceOp h.val)

/-- The channels whose event a thread takes: watched, enabled, with IE = 1 (R188). -/
def State.takeable (s : State) (m h : Nat) : Nat :=
  if bitOf (s.th m h).status bitIE then s.watched h &&& (s.th m h).scrOf scrEvmask else 0
def lowestBit (v : Nat) : Nat := ((List.range 64).find? (bitOf v)).getD 0

/-- An event is taken at an instruction boundary of a native thread; a waiting instruction is abandoned without effect (R188, R190). -/
def State.enterEvent (s : State) (m h : Nat) : State :=
  let v := s.takeable m h
  let x := s.th m h
  let boundary := (s.thState m h = 1 && x.wait.isNone) || s.thState m h = 2
  if v = 0 || x.inD2 || !boundary then s
  else
    (((s.abandon m h).updTh m h (fun x => x.enter { code := 0x10, info := lowestBit v, epc := x.pc })).setThState m h 1).put F.SEQ_THR_STAT_CAUSE 0x10 m h

def execEventEntry (h : Thr) (s : State) : Out := clocked s (fun s => s.each s.lock (fun s m => s.enterEvent m h.val))

/-! ### D2 mode (R191, R192) -/

/-- A D2 thread that may run. -/
def State.d2Runs (s : State) (m h : Nat) : Bool := s.thState m h = 1 && (s.th m h).inD2 && (s.th m h).wait.isNone

/-- A Diral 2560 instruction runs to its end; a switching one on a descriptor of more than 256 ports is ILLEGAL. [DESIGN CHOICE: log 65] -/
def d2Instruction (h : Nat) (e : D2Effect) (s : State) : State :=
  s.each s.lock (fun s m =>
    let pc := (s.th m h).pc
    if !s.d2Runs m h then s
    else if let some x := s.fetchBad h pc pc then s.fetchFault m h x
    else if e.switching && 8 < (s.rp h).desc.logn then s.excAt m h 0x01 (s.rdN (progBase + (s.th m h).pc + 3) 1)
    else
      let s := s.updTh m h (fun x =>
        let x := e.g.foldl (fun x y => x.setG y.1.val y.2) x
        let x := e.t.foldl (fun x y => x.setT y.1.val y.2) x
        { x.setStatus (x.status / 32 * 32 + e.flags.toNat) with d2 := {} })
      let s := s.when (s.holds 0 m) (fun s => ((s.when (!e.stores.isEmpty) (fun s => s.grant 4 (2 + m))).dmStores (e.stores.map (fun y => (dmBase h + y.1.val, y.2)))).passEffect 0 (e.stores.map (fun y => y.2)))
      s.retireTo m h e.pc.toNat)
def execD2Instruction (h : Thr) (e : D2Effect) (s : State) : Out := clocked s (d2Instruction h.val e)

/-- The frame of a micro-trap (R192); UPC is the address after the match table (R261). -/
def frameBytes (x : ThrSt) (upc step : Nat) (ut : List W64) (tt : List RWord) : List Byte :=
  leBytes 2 0xD2F1 ++ leBytes 2 1 ++ leBytes 4 (upc % 8192) ++ leBytes 8 x.pc ++ leBytes 8 x.status ++ leBytes 8 step
    ++ (List.range 16).flatMap (fun k => leBytes 8 (ut.getD k 0).toNat) ++ (List.range 2).flatMap (fun k => leBytes 12 (tt.getD k 0).toNat) ++ leBytes 72 0

/-- At a trap point of a routine an event is takeable: the frame is stored and the handler entered with MT = 1 (R191). [DESIGN CHOICE: log 65] -/
def d2MicroTrap (h : Nat) (upc : BitVec 13) (step : W64) (ut : List W64) (tt : List RWord) (s : State) : State :=
  s.each s.lock (fun s m =>
    let v := s.takeable m h
    let x := s.th m h
    if !s.d2Runs m h || v = 0 || (s.fetchBad h x.pc x.pc).isSome then s
    else
      let f := frameBytes x (s.microMatch 0 m upc.toNat) step.toNat ut tt
      let s := s.when (s.holds 0 m) (fun s => ((s.grant 4 (2 + m)).dmStore (frameAddr h x) f).passEffect 0 f)
      let s := s.updTh m h (fun x =>
        let x := x.enter { code := 0x10, info := lowestBit v, epc := x.pc }
        { x.setStatus (orBit x.status bitMT) with d2 := {} })
      s.put F.SEQ_THR_STAT_CAUSE 0x10 m h)
def execD2MicroTrap (h : Thr) (upc : BitVec 13) (step : W64) (ut : List W64) (tt : List RWord) (s : State) : Out :=
  clocked s (d2MicroTrap h.val upc step ut tt)

/-! ### Thread control (R171, R177, R194) -/

/-- START: the PC and the mode from their registers (R171). [DEDUCED: log 68] -/
def State.startTh (s : State) (m h : Nat) : State :=
  let st := s.thState m h
  if st = 1 || st = 2 || s.g F.SEQ_THR_CODE_SIZE h = 0 then s.put F.SEQ_THR_STAT_START_REFUSED 1 m h
  else
    let s := s.updTh m h (fun x =>
      { (x.setScr scrMode ((s.word R.SEQ_THR_MODE h).toNat % 4)).setScr scrInstret 0 with
        pc := 4 * s.g F.SEQ_THR_PC_PC h, wait := none, stop := false, redirect := false, d2 := {} })
    (s.setThState m h 1).put F.SEQ_STAT_HALTMAP (clrBit (s.g F.SEQ_STAT_HALTMAP m) h) m

/-- In PARK, TEST and SAFE threads stay STOPPED (R371). [DEDUCED: log 68] -/
def threadStart (h : Nat) (s : State) : State := if s.quiet then s else s.each s.lock (fun s m => s.startTh m h)
def execThreadStart (h : Thr) (s : State) : Out := clocked s (threadStart h.val)

/-- STOP takes effect at the next boundary: now, unless a staging instruction is running. -/
def State.stopTh (s : State) (m h : Nat) : State :=
  let st := s.thState m h
  if st = 1 && (s.th m h).wait.isSome then s.updTh m h (fun x => { x with stop := true })
  else if st = 1 || st = 2 then s.thStop m h
  else s

def threadStop (h : Nat) (s : State) : State := s.each s.lock (fun s m => s.stopTh m h)
def execThreadStop (h : Thr) (s : State) : Out := clocked s (threadStop h.val)

/-- REDIRECT acts at the next boundary of a thread in RUN or WAIT (R177). -/
def threadRedirect (h : Nat) (s : State) : State :=
  s.each s.lock (fun s m =>
    let st := s.thState m h
    if st = 1 && (s.th m h).wait.isSome then s.updTh m h (fun x => { x with redirect := true })
    else if st = 1 || st = 2 then s.thRedirect m h
    else s)
def execThreadRedirect (h : Thr) (s : State) : Out := clocked s (threadRedirect h.val)

/-- A byte of the Program Store lies in the code range of a thread in RUN or WAIT. -/
def State.runningCode (s : State) (off : Nat) : Bool :=
  (List.range 16).any (fun h =>
    let b := s.g F.SEQ_THR_CODE_BASE h * 4096
    (s.lock.any (fun m => s.thState m h = 1 || s.thState m h = 2)) && b ≤ off && off < b + s.g F.SEQ_THR_CODE_SIZE h * 4096)

/-- A BAR2 write of the Program Store (R177). -/
def psWrite (off : Nat) (bs : List Byte) (s : State) : State :=
  if (List.range bs.length).any (fun i => s.runningCode (off + i)) then (s.put F.SEQ_STAT_PS_REFUSED 1 0).put F.SEQ_STAT_PS_REFUSED 1 1
  else s.wrBs (progBase + off) (bs.take (0x200000 - off))

/-- The host's write comes through M0 (R306). -/
def execPsWrite (off : BitVec 21) (bs : List Byte) (s : State) : Out := clocked s (fun s => psWrite off.toNat bs (s.grant 2 0))

/-- The latch of SEQ_DMWIN_DATA of a block (R8). -/
def dmwinKey (m : Nat) : Nat := R.SEQ_DMWIN_DATA.key m 0

/-- WORD moves on after an access that INC counts. -/
def dmwinNext (m : Nat) (s : State) : State :=
  s.when (s.on F.SEQ_DMWIN_ADDR_INC m) (fun s => s.put F.SEQ_DMWIN_ADDR_WORD (s.g F.SEQ_DMWIN_ADDR_WORD m + 1) m)

/-- A read of SEQ_DMWIN_DATA of a block by a master (R8, R176): the whole word (part 0); its low half (1), which latches the high half, so that the word is read at once and WORD moves on; its high half (2), from the latch if the master holds one. -/
def dmwinRead (mst m part : Nat) (s : State) : State :=
  let a := dmBase (s.g F.SEQ_DMWIN_ADDR_PART m) + 8 * s.g F.SEQ_DMWIN_ADDR_WORD m
  match part with
  | 0 => dmwinNext m { dropLatch mst (dmwinKey m) s with readData := s.rdN a 8 }
  | 1 => dmwinNext m { s.setLatch mst (dmwinKey m) (BitVec.ofNat 96 (s.rdN a 8)) with readData := s.rdN a 4 }
  | _ =>
    match Map.find s.latches (latchKey mst (dmwinKey m)) with
    | some x => { dropLatch mst (dmwinKey m) s with readData := getField x 32 32 }
    | none => { s with readData := s.rdN (a + 4) 4 }

/-- A write of SEQ_DMWIN_DATA of a block (R8, R176): the whole word, or a half; the write of the high half completes the word, and WORD moves on with it. The bytes stand over stores of the cycle. -/
def dmwinWrite (mst m part v : Nat) (s : State) : State :=
  let a := dmBase (s.g F.SEQ_DMWIN_ADDR_PART m) + 8 * s.g F.SEQ_DMWIN_ADDR_WORD m + (if part = 2 then 4 else 0)
  let n := if part = 0 then 8 else 4
  let s := (dropLatch mst (dmwinKey m) s).wrBs a (leBytes n v)
  let old : List (Nat × Nat) := s.seq.dmHost.filter (fun e => e.2 = s.cycle)
  let s : State := { s with seq.dmHost := old ++ (List.range n).map (fun i => (a + i, s.cycle)) }
  if part = 1 then s else dmwinNext m s

/-- An access of SEQ_DMWIN_DATA of a block by a master (R176). -/
def dmwinAccess (mst m part : Nat) (wr : Bool) (v : Nat) (s : State) : State :=
  if wr then dmwinWrite mst m part v s else dmwinRead mst m part s

/-- The host's access comes through M0. -/
def execDmwinDataAccess (m : Member) (part : Fin 3) (wr : Bool) (v : W64) (s : State) : Out := clocked s (fun s => dmwinAccess 0 m.val part.val wr v.toNat (s.grant 0 0))

/-- A write of SEQ_THR_CODEn, or of SEQ_THR_NCODEn (R194). -/
def thrCodeWrite (h : Nat) (new : Bool) (v : Nat) (s : State) : State :=
  let base := bitsOf v 0 9
  let size := bitsOf v 16 10
  if 512 < base + size || (!new && s.thState s.lead h != 0) then (s.put F.SEQ_STAT_CFG_REFUSED 1 0).put F.SEQ_STAT_CFG_REFUSED 1 1
  else if new then (s.sput F.SEQ_THR_NCODE_BASE base h).sput F.SEQ_THR_NCODE_SIZE size h
  else (s.sput F.SEQ_THR_CODE_BASE base h).sput F.SEQ_THR_CODE_SIZE size h

def execThrCodeWrite (h : Thr) (new : Bool) (v : W32) (s : State) : Out := clocked s (thrCodeWrite h.val new v.toNat)

end Sys2Proof.Machine
end

