-- ==== Sys2Proof/Machine/Rotor.lean ====
section
/-! DEFINITION. Rotor schedules and repetitive learning (06: R154 to R169). -/

namespace Sys2Proof.Machine

def State.ro (s : State) (p : Nat) : RotSt := Map.look s.rot p {}
def State.updRo (s : State) (p : Nat) (f : RotSt → RotSt) : State := { s with rot := Map.upd s.rot p {} f }
/-- RTU_ROT_STATp.STATE (R157): 0 IDLE, 1 STARTING, 2 RUNNING, 3 FREEWHEEL, 4 HALTED; STARTING lasts until the first slot instant. [DEDUCED: log 224] -/
def State.roState (s : State) (p : Nat) : Nat :=
  let v := s.g F.RTU_ROT_STAT_STATE p
  if v = 1 && (s.ro p).begun.any (fun t => s.reached (t : Int)) then 2 else v
def State.roRuns (s : State) (p : Nat) : Bool := s.roState p = 1 || s.roState p = 2 || s.roState p = 3
def State.roSync (s : State) (p : Nat) : Bool := s.g F.RTU_ROT_CFG_SRC p = 1

/-- RTU_ROT_CYCp: a cycle begins at the instant of its slot 0 (R162). [DEDUCED: log 224] -/
def State.cycN (s : State) (p : Nat) : Nat :=
  (s.g F.RTU_ROT_CYC_N p + ((s.ro p).begins.filter (fun (t : Nat) => s.reached (t : Int))).length) % 2 ^ 64
/-- The cycles begun so far are counted in the register. -/
def State.foldCyc (s : State) (p : Nat) : State :=
  (s.put F.RTU_ROT_CYC_N (s.cycN p) p).updRo p (fun r => { r with begins := r.begins.filter (fun (t : Nat) => !s.reached (t : Int)) })

/-! ### Cycle lists (R154, R155) -/

/-- The bits of a word of a cycle list that R154 gives a meaning; the others are reserved. -/
def bufMask (w : Nat) : Nat := if w = 0 then 0x7F else if 4 ≤ w && w % 2 = 0 then 0x3FFFFFFF else 0xFFFFFFFF
/-- Word w of buffer b. -/
def State.rotWord (s : State) (p b w : Nat) : Nat := s.g F.RTU_ROT_BUF_VAL p (b * 256 + w)
def State.nslot (s : State) (p b : Nat) : Nat := bitsOf (s.rotWord p b 0) 0 7
def State.epoch (s : State) (p b : Nat) : RWord :=
  BitVec.ofNat 96 (s.rotWord p b 1 + s.rotWord p b 2 * 2 ^ 32 + s.rotWord p b 3 * 2 ^ 64)
/-- The duration of slot n in ns. -/
def State.dur (s : State) (p b n : Nat) : Nat := bitsOf (s.rotWord p b (4 + 2 * n)) 0 30
/-- PSLOT, LEARN, LIBV, LIB and WDLY of slot n. -/
def State.slotG (s : State) (p b n lo w : Nat) : Nat := bitsOf (s.rotWord p b (5 + 2 * n)) lo w
def State.slotLib (s : State) (p b n : Nat) : Option Nat := if s.slotG p b n 7 1 = 1 then some (s.slotG p b n 8 12) else none
def State.period (s : State) (p b : Nat) : Nat := ((List.range (s.nslot p b)).map (s.dur p b)).sum
def State.actBuf (s : State) (p : Nat) : Nat := s.g F.RTU_ROT_STAT_ACT_BUF p

/-- The check that a buffer fails, as SWAP_ERR; 0 when it passes (R155). -/
def State.bufErr (s : State) (p b : Nat) : Nat :=
  let n := s.nslot p b
  if n = 0 || 64 < n then 1
  else if (List.range n).any (fun i => s.dur p b i < 1000 || 1000000000 < s.dur p b i) then 2
  else if (List.range n).any (fun i => match s.slotLib p b i with
      | some e => !s.libOk (s.rp p).desc e || !s.libCompiled e
      | none => false) then 3
  else if getField (s.epoch p b) 0 2 != 0 then 4
  else if s.pm p != 2 then 5
  else 0

/-! ### Loads (R159) -/

/-- The AO that a partition's cache slot names in all tiles. -/
def State.cacheAos (s : State) (p slot : Nat) : List Nat :=
  (s.rtu.cache.filter (fun c => c.bank = p / 4 && c.slot = slot && c.part = p)).flatMap (fun c => c.words.map (fun w => w.ao))

/-- The load of the coming slot leaves for every live tile; the AO it names stand for the plan of R148. -/
def State.startLoad (s : State) (p : Nat) : State :=
  let pslot := s.slotG p (s.actBuf p) (s.ro p).slot 0 6
  let tiles := (List.range 16).filter s.live
  let s := { s with rtu.bursts := s.rtu.bursts ++ tiles.map (fun t => ({ part := p, tile := t, kind := 4, slot := pslot } : Burst)) }
  let s := s.updRo p (fun r => { r with loading := true, want := tiles, loaded := [], ackAt := s.tbVal 0, subs := [], nogo := [] })
  s.updRp p (fun r => { r with cached := s.cacheAos p pslot, cmiss := false })

/-- The words of the coming slot are unstaged in every tile, and what is still on its way is withdrawn. -/
def State.dropLoad (s : State) (p : Nat) : State :=
  let s := { s with rtu.bursts := s.rtu.bursts.filter (fun b => !(b.part = p && b.kind = 4)) }
  let s := s.each ((s.rp p).cached.filter (fun a => s.ona F.AO_SHD_STAGED a && s.ga F.AO_CFG_PART a = p)) State.unstage
  ((s.focusDrop p).updRo p (fun r => { r with loading := false, want := [], loaded := [], subs := [], nogo := [] })).updRp p
    (fun r => { r with cached := [], cmiss := false })

/-- Every live tile has acknowledged the load. -/
def State.loadReady (s : State) (p : Nat) : Bool :=
  (s.ro p).loading && (s.ro p).want.all (fun t => (s.ro p).loaded.contains t || !s.live t)

/-- The slot commit that has not fired yet, and one that has not closed. -/
def State.slotCommit (s : State) (p : Nat) : Option Commit := s.rtu.commits.find? (fun c => c.lead = p && c.slot.isSome && !c.fired)
/-- [DEDUCED: log 58] -/
def State.slotOpen (s : State) (p : Nat) : Bool := s.rtu.commits.any (fun c => c.lead = p && c.slot.isSome)

/-- A slot commit is withdrawn before its cancel deadline; its words are those of a load again. -/
def State.withdraw (s : State) (c : Commit) : State :=
  let s := match c.slot with
    | some f => s.updRp c.lead (fun r => { r with cached := f.cached, cmiss := f.cmiss })
    | none => s
  { s with rtu.commits := s.rtu.commits.erase c, rtu.arms := s.rtu.arms.filter (fun m => !(m.lead = c.lead && m.tc = c.tc)) }

/-- A fired slot that does not commit after all is the coming one again. [DEDUCED: log 223, 224] -/
def State.unfire (s : State) (c : Commit) : State :=
  match c.slot with
  | none => s
  | some f => (s.withdraw c).updRo c.lead (fun r => { r with
      slot := f.slot, loading := true
      dues := if f.own then c.tc :: r.dues else [c.tc]
      own := if f.own then r.own + 1 else 0
      begins := r.begins.erase c.tc
      begun := if r.begun = some c.tc then none else r.begun })

/-- The engine becomes IDLE (R160): the Route Unit sets the circuit table from the last slot's library entry, or to FREE. [DEDUCED: log 57, 58; DESIGN CHOICE: log 242] -/
def State.rotIdle (s : State) (p : Nat) : State :=
  let s := match s.slotCommit p with
    | some c => if s.reached (c.at - 200000) then s else s.withdraw c
    | none => s
  let on (t : Nat) : Bool := s.reached (t : Int) || s.rtu.commits.any (fun c => c.lead = p && c.slot.isSome && c.tc = t)
  let s := (s.dropLoad p).updRo p (fun r => { r with dues := [], own := 0, begins := r.begins.filter on, skips := 0, stopPend := false, stopNow := false, edge := none, wait := [], ask := none })
  let s := ((s.put F.RTU_ROT_STAT_STATE 0 p).put F.RTU_ROT_STAT_SYNC_OK 0 p).put F.RTU_ROT_STAT_SWAP_PEND 0 p
  s.libState p (s.ro p).lib

/-! ### Control (R158, R160, R165) -/

/-- GO (R158): 0 accepted, SWAP_ERR where the standby buffer fails, 6 where the engine runs. The last slot of an earlier run is forgotten, unless the engine was HALTED and goes on from it. [DEDUCED: log 57; DESIGN CHOICE: log 242] -/
def State.rotGo (s : State) (p : Nat) : State × Nat :=
  if s.roRuns p then (s, 6)
  else
    let b := 1 - s.actBuf p
    let e := s.bufErr p b
    if e != 0 then (s.put F.RTU_ROT_STAT_SWAP_ERR e p, e)
    else
      let s := s.each ((s.ownedBy p).filter (fun a => s.ona F.AO_SHD_STAGED a)) State.unstage
      let s := (s.focusDrop p).updRp p (fun r => { r with circ := r.com, pcells := r.cells, closed := true, carry := [], mend := [], tent := none, hint := none })
      let keep := s.roState p = 4
      let s := s.updRo p (fun r => { r with slot := 0, dues := [], own := 0, begun := none, begins := [], skips := 0, stopPend := false, stopNow := false, edge := none, wait := [], ask := none, lib := if keep then r.lib else none })
      let s := ((s.put F.RTU_ROT_STAT_ACT_BUF b p).put F.RTU_ROT_STAT_STATE 1 p).put F.RTU_ROT_STAT_SYNC_OK 0 p
      let s := (s.put F.RTU_ROT_STAT_SWAP_PEND 0 p).put F.RTU_ROT_CYC_N 0 p
      (s.startLoad p, 0)

def execRotCtlGo (p : Part) (s : State) : Out := clocked s (fun s => (s.rotGo p.val).1)

/-- STOP (R160): the engine becomes IDLE at the cycle boundary, so a slot 0 sent out and still before its cancel deadline does not commit; from HALTED once its last slot has closed. [DEDUCED: log 58, 223] -/
def State.stopEnd (s : State) (p : Nat) : State :=
  if s.roState p = 0 then s
  else if s.roState p = 4 then (if s.slotOpen p then s.updRo p (fun r => { r with stopNow := true }) else s.rotIdle p)
  else
    let s := match s.slotCommit p with
      | some c => if c.slot.any (fun (f : RotFire) => f.slot = 0) && !s.reached (c.at - 200000) then s.unfire c else s
      | none => s
    s.updRo p (fun r => { r with stopPend := true })

/-- A slot sent out is called back before its cancel deadline; a load that has started belongs to a later slot. -/
def State.callBack (s : State) (p : Nat) : State :=
  match s.slotCommit p with
  | some c => if s.reached (c.at - 200000) then s else (s.withdraw c).dropLoad p
  | none => s.when (s.ro p).loading (fun s => s.dropLoad p)

/-- STOP_NOW (R160): a slot past its cancel deadline still commits and is the last; until that, or a slot fired before, has closed the engine is not IDLE. [DEDUCED: log 58] -/
def State.stopNow (s : State) (p : Nat) : State :=
  if s.roState p = 0 then s
  else
    let s := s.callBack p
    if s.slotOpen p then s.updRo p (fun r => { r with stopNow := true, dues := [], wait := [] }) else s.rotIdle p

/-- A stop of a register write, a mode change or an instruction that does not wait: it stands whatever becomes of a waiting one. [DEDUCED: log 58, 223] -/
def State.rotStop (s : State) (p : Nat) : State := (s.stopEnd p).updRo p (fun r => { r with ask := none })
/-- [DEDUCED: log 58] -/
def State.rotStopNow (s : State) (p : Nat) : State := (s.stopNow p).updRo p (fun r => { r with ask := none })

/-- The stop of a ROTOR.STOP.W (R222): one that has to wait, and that nothing else has asked for, is noted with what it puts aside, so that it can be taken back (R196). [DESIGN CHOICE: log 228] -/
def State.rotAsk (s : State) (p : Nat) (now : Bool) : State :=
  let r := (match s.slotCommit p with
    | some c => if s.reached (c.at - 200000) then s else s.unfire c
    | none => s).ro p
  let a : RotAsk := { stopPend := r.stopPend, stopNow := r.stopNow, aside := if now then some (r.slot, r.dues, r.own, r.begins, r.wait) else none }
  let s := if now then s.stopNow p else s.stopEnd p
  if s.roState p = 0 then s else s.updRo p (fun r => { r with ask := some a })

def execRotCtlStop (p : Part) (s : State) : Out := clocked s (fun s => s.rotStop p.val)
def execRotCtlStopNow (p : Part) (s : State) : Out := clocked s (fun s => s.rotStopNow p.val)

/-- A swap request (R165): 0 accepted, 0x20 where one is pending, else 0x10 + SWAP_ERR. [DEDUCED: log 57] -/
def State.rotSwap (s : State) (p : Nat) : State × Nat :=
  if s.on F.RTU_ROT_STAT_SWAP_PEND p then (s.put F.RTU_ROT_STAT_BUF_REFUSED 1 p, 0x20)
  else
    let e := s.bufErr p (1 - s.actBuf p)
    if e != 0 then ((s.put F.RTU_ROT_STAT_SWAP_ERR e p).put F.RTU_ROT_STAT_BUF_REFUSED 1 p, 0x10 + e)
    else (s.put F.RTU_ROT_STAT_SWAP_PEND 1 p, 0)

def execRotCtlSwap (p : Part) (s : State) : Out := clocked s (fun s => (s.rotSwap p.val).1)
/-- The swap of a load that has started is made at once, so what is still pending may be withdrawn (R165). -/
def execRotCtlSwapCancel (p : Part) (s : State) : Out := clocked s (fun s => s.put F.RTU_ROT_STAT_SWAP_PEND 0 p.val)

/-- Whether a buffer takes a write (R156). -/
def State.bufOpen (s : State) (p b : Nat) : Bool :=
  if b = s.actBuf p then s.roState p = 0 else !s.on F.RTU_ROT_STAT_SWAP_PEND p

/-- A word of a cycle-list buffer. -/
def rotorBufWrite (p b w v : Nat) (s : State) : State :=
  if s.bufOpen p b then s.sput F.RTU_ROT_BUF_VAL (v &&& bufMask w) p (b * 256 + w) else s.put F.RTU_ROT_STAT_BUF_REFUSED 1 p

def execRotorBufWrite (p : Part) (b : Fin 2) (w : Fin 132) (v : W32) (s : State) : Out := clocked s (rotorBufWrite p.val b.val w.val v.toNat)

def rotCfgWrite (p v : Nat) (s : State) : State :=
  if s.roState p != 0 then s.put F.RTU_ROT_STAT_BUF_REFUSED 1 p
  else s.each [F.RTU_ROT_CFG_SRC, F.RTU_ROT_CFG_EDGE, F.RTU_ROT_CFG_SKIP_MAX, F.RTU_ROT_CFG_LOSTN, F.RTU_ROT_CFG_SYNC_DLY]
    (fun s f => s.sput f (bitsOf v f.lo f.wd) p)

def execRotCfgWrite (p : Part) (v : W32) (s : State) : Out := clocked s (rotCfgWrite p.val v.toNat)

/-! ### The slots (R159, R162, R165) -/

/-- SYNC_DLY; values below 250 ns act as 250 ns. -/
def State.syncDly (s : State) (p : Nat) : Nat := max 250 (s.g F.RTU_ROT_CFG_SYNC_DLY p)

/-- A cycle boundary of the running list lies ahead of the load: a pending swap whose EPOCH has come takes effect (R165); in SYNC mode the present stands for the edge. [DEDUCED: log 57] -/
def State.applySwap (s : State) (p : Nat) : State :=
  if !s.on F.RTU_ROT_STAT_SWAP_PEND p || (s.ro p).slot != 0 then s
  else
    let b := 1 - s.actBuf p
    let e := tvUnits (s.epoch p b)
    let ok : Bool := match (s.ro p).dues.head? with
      | some d => e ≤ psUnits (if s.roSync p && s.roState p != 3 then d - 1000 * s.syncDly p else d)
      | none => e ≤ s.tbVal 0
    if ok then (s.put F.RTU_ROT_STAT_ACT_BUF b p).put F.RTU_ROT_STAT_SWAP_PEND 0 p else s

/-- The load of the next slot starts once every strobe of the previous one has been made (R159); an engine stopped by STOP_NOW becomes IDLE when its last slot has closed. -/
def rotorSlotLoad (p : Nat) (s : State) : State :=
  if (s.ro p).stopNow then (if s.slotOpen p then s else s.rotIdle p)
  else if !s.roRuns p then s
  else if (s.ro p).loading || (s.slotCommit p).isSome || s.rtu.arms.any (fun m => m.lead = p && m.next < m.count) then s
  else (s.applySwap p).startLoad p

def execRotorSlotLoad (p : Part) (s : State) : Out := clocked s (rotorSlotLoad p.val)

/-- The first cycle on TB0 and its slot-0 instant in ps (R162): at least 500 ns after the load was acknowledged. -/
def rotFirst (epoch ackAt period : Nat) : Nat × Nat :=
  let lim := ackAt + 500 * nsU
  let n := if lim ≤ epoch then 0 else ceilDiv (lim - epoch) (period * nsU)
  (n, tcOf (epoch + n * period * nsU))

/-- In STARTING on TB0 the acknowledged load fixes the first commit instant (R162). -/
def State.rotStart (s : State) (p : Nat) : State :=
  if s.roState p = 1 && !s.roSync p && (s.ro p).dues.isEmpty && s.loadReady p then
    let b := s.actBuf p
    let f := rotFirst (tvUnits (s.epoch p b)) (s.ro p).ackAt (s.period p b)
    (s.put F.RTU_ROT_SKIPCYC_N f.1 p).updRo p (fun r => { r with dues := [f.2] })
  else s

/-- The instants after the slot at tc of duration d ns: those already fixed; else the next one on TB0 and in FREEWHEEL, none in SYNC mode, where edges fix them (R164). -/
def State.nextDues (s : State) (p tc d : Nat) : List Nat :=
  let rest := (s.ro p).dues.drop 1
  if (s.roSync p && s.roState p != 3) || !rest.isEmpty then rest else [tc + 1000 * d]

/-- A slot that has been fired or skipped is behind the engine; slot 0 begins a cycle at its instant (RTU_ROT_CYCp, R162). [DEDUCED: log 224] -/
def State.advance (s : State) (p tc : Nat) : State :=
  let b := s.actBuf p
  let n := (s.ro p).slot
  let next := s.nextDues p tc (s.dur p b n)
  (s.foldCyc p).updRo p (fun r => { r with
    slot := (n + 1) % s.nslot p b, dues := next, own := r.own - 1
    begins := if n = 0 then r.begins ++ [tc] else r.begins
    begun := some (r.begun.getD tc) })

/-- The slot is skipped (R159): late for lateness, else for NOGO. [DEDUCED: log 60] -/
def State.skipSlot (s : State) (p tc : Nat) (late : Bool) (nogo : List Nat) : State :=
  let s := s.dropLoad p
  let s := if late then (s.put F.RTU_ROT_STAT_LATE 1 p).raise 55 p
    else (s.put F.RTU_ROT_STAT_NOGO 1 p).raise 29 (p + 65536 * nogo.foldl (fun v u => orBit v u) 0)
  let s := (s.sat F.RTU_ROT_CNT_SKIPPED p).updRo p (fun r => { r with skips := r.skips + 1 })
  let max := s.g F.RTU_ROT_CFG_SKIP_MAX p
  if max != 0 && max ≤ (s.ro p).skips then (s.advance p tc).put F.RTU_ROT_STAT_STATE 4 p
  else
    let s := s.advance p tc
    (s.applySwap p).startLoad p

/-- The slot is fired: its commit instant leaves for every live tile (R159). [DEDUCED: log 56] -/
def State.fireSlot (s : State) (p tc : Nat) : State :=
  let b := s.actBuf p
  let n := (s.ro p).slot
  let d := s.dur p b n
  let next := (s.nextDues p tc d).head?
  let f : RotFire := { slot := n, lib := s.slotLib p b n, dur := d, learn := if s.slotG p b n 6 1 = 1 then some (s.slotG p b n 20 12 * 64000, next) else none, cached := (s.rp p).cached, cmiss := (s.rp p).cmiss, own := 0 < (s.ro p).own }
  let c : Commit := { lead := p, mask := 2 ^ p, tc := tc, toArm := (List.range 16).filter s.live, slot := some f }
  let s := { s with rtu.commits := s.rtu.commits ++ [c] }
  ((s.advance p tc).updRo p (fun r => { r with loading := false })).updRp p (fun r => { r with cached := [], cmiss := false })

/-! ### SYNC_IN (R163, R164) -/

/-- The close of a window that waits for the next commit instant is now known (R166). [DEDUCED: log 58] -/
def State.setEnd (s : State) (p tc : Nat) : State :=
  let s := s.updRo p (fun r => { r with wins := r.wins.map (fun w => if w.endAt.isNone then { w with endAt := some tc } else w) })
  { s with rtu.commits := s.rtu.commits.map (fun c =>
      match c.slot with
      | some f =>
        match f.learn with
        | some (d, none) => if c.lead = p then { c with slot := some { f with learn := some (d, some tc) } } else c
        | _ => c
      | none => c) }

/-- A window that was to close at an instant now withdrawn waits for the next one again (R166). -/
def State.unsetEnd (s : State) (p : Nat) (gone : List Nat) : State :=
  let back (e : Option Nat) : Option Nat := e.filter (fun e => !gone.contains e)
  let s := s.updRo p (fun r => { r with wins := r.wins.map (fun w => { w with endAt := back w.endAt }) })
  { s with rtu.commits := s.rtu.commits.map (fun c =>
      if c.lead = p then { c with slot := c.slot.map (fun f => { f with learn := f.learn.map (fun l => (l.1, back l.2)) }) } else c) }

/-- In FREEWHEEL the commit of the slot that an edge starts is withdrawn while its cancel deadline has not passed, and the slot is the coming one again; slots that earlier edges started keep their instants (R164). -/
def State.unwheel (s : State) (p : Nat) : State :=
  let s := match s.slotCommit p with
    | some c => if !s.reached (c.at - 200000) && c.slot.any (fun (f : RotFire) => !f.own) then s.unfire c else s
    | none => s
  (s.unsetEnd p ((s.ro p).dues.drop (s.ro p).own)).updRo p (fun r => { r with dues := r.dues.take r.own })

/-- The last commit against which an edge is tested in FREEWHEEL: one past its cancel deadline counts (R164). -/
def State.wheelLast (s : State) (p : Nat) : Option Nat :=
  match s.slotCommit p with
  | some c => if s.reached (c.at - 200000) then some c.tc else (s.ro p).lastT
  | none => (s.ro p).lastT

/-- The commit instant of an edge with timestamp t in ps (R163). -/
def State.edgeTc (s : State) (p t : Nat) : Nat := ceilDiv (t + 1000 * s.syncDly p) 200 * 200

/-- An edge is judged once it is known that slot 0 was loaded in time for it, or that the engine is past its start (R163). [DEDUCED: log 61] -/
def State.judgeEdge (s : State) (p t : Nat) : State :=
  let r := s.ro p
  let early := (match r.edge with
    | some (e, _) => t < e + 1000000
    | none => false) || (s.roState p = 3 && (match s.wheelLast p with
    | some c => t < c + 1000000
    | none => false))
  let tc := s.edgeTc p t
  if early then ((s.sat F.RTU_ROT_CNT_FASTCNT p).put F.RTU_ROT_STAT_FAST 1 p).raise 38 p
  else
    let wheel := s.roState p = 3
    let s := s.when wheel (fun s => (s.unwheel p).put F.RTU_ROT_STAT_STATE 2 p)
    let n := ((s.ro p).slot + (s.ro p).dues.length) % max 1 (s.nslot p (s.actBuf p))
    let s := s.put F.RTU_ROT_STAT_SYNC_OK 1 p
    (s.setEnd p tc).updRo p (fun r => { r with dues := r.dues ++ [tc], own := r.own + 1, edge := some (t, s.dur p (s.actBuf p) n) })

/-- In STARTING the first edge that finds slot 0 loaded by P + SYNC_DLY - 500 ns commits it, and one that does not is ignored (R163): edges wait, in their order, until that is known of the first of them. [DEDUCED: log 61] -/
def State.decideEdges (s : State) (p : Nat) (l : List Nat) : State :=
  match l with
  | [] => s.updRo p (fun r => { r with wait := [] })
  | t :: rest =>
    let lim : Int := (s.edgeTc p t : Int) - 500000
    let first := s.roState p = 1 && (s.ro p).slot = 0 && (s.ro p).dues.isEmpty
    if psUnits t < tvUnits (s.epoch p (s.actBuf p)) then s.decideEdges p rest
    else if !first then (s.judgeEdge p t).decideEdges p rest
    else if !s.loadReady p && !s.reached lim then s.updRo p (fun r => { r with wait := t :: rest })
    else if s.loadReady p && decide (((s.ro p).ackAt * 1000 : Nat) ≤ lim * 2 ^ 48) then (s.judgeEdge p t).decideEdges p rest
    else s.decideEdges p rest
/-- [DEDUCED: log 61] -/
def State.syncDecide (s : State) (p : Nat) : State := if (s.ro p).wait.isEmpty then s else s.decideEdges p (s.ro p).wait

/-- An edge with timestamp t in ps reaches a Rotor Engine (R163). [DEDUCED: log 61] -/
def State.syncEdge (s : State) (p t : Nat) : State := s.decideEdges p ((s.ro p).wait ++ [t])

/-! ### The check before a slot (R159) -/

/-- t_c - 500 ns of the coming slot, or the edge where it comes later (R159); the tiles' currents and I V products after the commit are held against the caps (R362). [DEDUCED: log 60, 61; DESIGN CHOICE: log 241] -/
def rotorSkipCheck (p : Nat) (loads : List (Ao × BitVec 16)) (pw : Nat) (s : State) : State :=
  let s := (s.syncDecide p).rotStart p
  if !s.roRuns p || (s.ro p).stopNow then s
  else
    match (s.ro p).dues with
    | [] => s
    | tc :: _ =>
      if (s.ro p).stopPend && (s.ro p).slot = 0 then (if s.reached tc && !s.slotOpen p then s.rotIdle p else s)
      else if !s.reached ((tc : Int) - 500000) then s
      else if !s.loadReady p then s.skipSlot p tc true []
      else if !(s.ro p).nogo.isEmpty then s.skipSlot p tc false (s.ro p).nogo
      else if s.overCaps (((List.range 16).filter s.live).map (fun t => s.currentAfter t (2 ^ p))).sum
          (s.powerAfter (2 ^ p) (loads.map (fun e => (e.1.val, e.2.toNat))) pw) then (s.put F.PWR_STAT_CAP_NOGO 1).skipSlot p tc false []
      else s.fireSlot p tc

def execRotorSkipCheck (p : Part) (loads : List (Ao × BitVec 16)) (pw : Nat) (s : State) : Out := clocked s (rotorSkipCheck p.val loads pw)

/-- An engine that STOP_NOW has stopped is IDLE once its last slot has closed, and one that STOP has stopped once the boundary has come too (R160). [DEDUCED: log 58] -/
def State.rotStopped (s : State) (p : Nat) : State :=
  if s.roState p = 0 || s.slotOpen p then s
  else if (s.ro p).stopNow || ((s.ro p).stopPend && (s.ro p).slot = 0 && (s.ro p).dues.any (fun (d : Nat) => s.reached (d : Int))) then s.rotIdle p
  else s

/-- A close (R148), after which a Rotor Engine may be IDLE. -/
def commitCloseAll (p : Nat) (s : State) : State := (commitClose p s).rotStopped p

def execCommitClose (p : Part) (s : State) : Out := clocked s (commitCloseAll p.val)

/-! ### Edges and their loss (R163, R164) -/

/-- The oldest edge on its way to an engine that follows SYNC_IN (R163, R280). -/
def rotorSyncEdge (p : Nat) (s : State) : State :=
  match s.tm.edges.find? (fun e => e.part = p) with
  | none => s
  | some e =>
    let s := { s with tm.edges := s.tm.edges.erase e }
    let pol := s.g F.RTU_ROT_CFG_EDGE p = if e.rising then 0 else 1
    if s.roSync p && s.roRuns p && pol && !(s.ro p).stopNow then s.syncEdge p e.ps else s

def execRotorSyncEdge (p : Part) (s : State) : Out := clocked s (rotorSyncEdge p.val)

/-! ### Freeze and steps of TB0 (R161, R272) -/

/-- How long the load of a slot takes at most, in ps: 20 ns + 0.25 ns a word (R141). [DEDUCED: log 62] -/
def State.loadPs (s : State) (p n : Nat) : Nat :=
  let pslot := s.slotG p (s.actBuf p) n 0 6
  20000 + 250 * ((s.rtu.cache.filter (fun c => c.bank = p / 4 && c.slot = pslot && c.part = p)).map (fun c => c.words.length)).foldl Nat.max 0

/-- An instant leaves room for the load of slot n and 500 ns more. -/
def State.fits (s : State) (p n : Nat) (now t : Int) : Bool := decide (now + s.loadPs p n + 500000 ≤ t)

/-- From slot n at instant t on, the first slot whose instant fits, and how many are passed over. [DEDUCED: log 62] -/
def State.nextFit (s : State) (p fuel n : Nat) (t now : Int) (m : Nat) : Nat × Int × Nat :=
  match fuel with
  | 0 => (n, t, m)
  | k + 1 =>
    if s.fits p n now t then (n, t, m)
    else
      let b := s.actBuf p
      State.nextFit s p k ((n + 1) % max 1 (s.nslot p b)) (t + 1000 * s.dur p b n) now (m + 1)

/-- Slots 0 among the m slots from slot n on, in a cycle of ns. -/
def zerosIn (n m ns : Nat) : Nat := (n + m + ns - 1) / ns - (n + ns - 1) / ns

/-- The engine goes on with slot n at the instants given after m slots, z of them slots 0, were passed over (R161, R272); a slot sent out keeps its words, and the coming slot is loaded once that has been made. [DEDUCED: log 225] -/
def State.resumeAt (s : State) (p n m z : Nat) (dues : List Nat) (own : Nat) (count : Bool) : State :=
  let out := (s.slotCommit p).isSome
  let s := (s.when (!out) (fun s => s.dropLoad p)).updRo p (fun x => { x with slot := n, dues := dues, own := own, skips := if count then x.skips + m else x.skips })
  let s := (s.sat F.RTU_ROT_CNT_SKIPPED p 0 m).inc F.RTU_ROT_CYC_N p 0 z
  let max' := s.g F.RTU_ROT_CFG_SKIP_MAX p
  if count && max' != 0 && max' ≤ (s.ro p).skips then s.put F.RTU_ROT_STAT_STATE 4 p
  else if out then s
  else (s.applySwap p).startLoad p

/-- A STOP is pending and the jump has carried the engine to or over its cycle boundary: it ends there, after the m slots left in its cycle (R160, R161). [DEDUCED: log 225] -/
def State.stopAt (s : State) (p m : Nat) (count : Bool) : State :=
  (((s.sat F.RTU_ROT_CNT_SKIPPED p 0 m).updRo p (fun x => { x with skips := if count then x.skips + m else x.skips })).rotStopNow p)

/-- The slots from the coming one to the end of the cycle. -/
def State.slotsLeft (s : State) (p : Nat) : Nat := if (s.ro p).slot = 0 then 0 else s.nslot p (s.actBuf p) - (s.ro p).slot

/-- The engine follows SYNC_IN: instants of accepted edges that no longer fit are passed over, with a pending swap at the boundary among them that is its own (R165); how many, and how many slots 0. [DEDUCED: log 225] -/
def State.syncPass (s : State) (p : Nat) (now : Int) (l : List Nat) (first : Bool) (m z : Nat) : State × Nat × Nat :=
  match l with
  | [] => (s, m, z)
  | d :: rest =>
    let n := (s.ro p).slot
    if s.fits p n now (d : Int) then (s, m, z)
    else
      let s := s.when (!(first && (s.ro p).loading)) (fun s => s.applySwap p)
      let ns := max 1 (s.nslot p (s.actBuf p))
      (s.updRo p (fun r => { r with slot := (n + 1) % ns, dues := rest, own := r.own - 1 })).syncPass p now rest false (m + 1) (if n = 0 then z + 1 else z)

/-- After a jump of TB0 the engine follows SYNC_IN from the first accepted edge that fits, or waits for the next one. [DEDUCED: log 225] -/
def State.syncJump (s : State) (p : Nat) (count lost : Bool) : State :=
  let now : Int := ((s.tbVal 0 * 1000 / 2 ^ 48 : Nat) : Int)
  let r := s.syncPass p now (s.ro p).dues true 0 0
  if r.2.1 = 0 && !lost then s
  else if (s.ro p).stopPend && (0 < r.2.2 || (r.1.ro p).slot = 0) then s.stopAt p (s.slotsLeft p) count
  else r.1.resumeAt p (r.1.ro p).slot r.2.1 r.2.2 (r.1.ro p).dues (r.1.ro p).own count

/-- The boundary at which a pending swap takes effect (R165), from slot n at instant d on: its instant and the slots before it. [DEDUCED: log 225] -/
def State.swapAt (s : State) (p n d : Nat) (loading : Bool) : Nat × Nat :=
  let b := s.actBuf p
  let ns := s.nslot p b
  let per := s.period p b
  let far := n != 0 || loading
  let t0 := if far then d + 1000 * (((List.range ns).filter (fun i => n ≤ i)).map (s.dur p b)).sum else d
  let k := ceilDiv (tvUnits (s.epoch p (1 - b)) - psUnits t0) (per * nsU)
  (t0 + 1000 * k * per, (if far then ns - n else 0) + k * ns)

/-- The engine follows TB0 or runs in FREEWHEEL: it resumes, keeping phase, at the next slot instant that fits, from slot n0 at instant d on, k slots beyond the coming one; a swap whose boundary is among those passed over has taken effect there. A schedule whose next instant still fits, a start in the future among them, keeps it. [DEDUCED: log 225] -/
def State.tbJump (s : State) (p d k : Nat) (count lost : Bool) : State :=
  let now : Int := ((s.tbVal 0 * 1000 / 2 ^ 48 : Nat) : Int)
  let ns0 := max 1 (s.nslot p (s.actBuf p))
  let n0 := ((s.ro p).slot + k) % ns0
  let w := s.swapAt p n0 d (k = 0 && (s.ro p).loading)
  let swap : Bool := s.on F.RTU_ROT_STAT_SWAP_PEND p && !(s.ro p).stopPend && !s.fits p 0 now (w.1 : Int)
  let z := zerosIn (s.ro p).slot k ns0 + (if swap then zerosIn n0 w.2 ns0 else 0)
  let u := s.when swap (fun s => (s.put F.RTU_ROT_STAT_ACT_BUF (1 - s.actBuf p) p).put F.RTU_ROT_STAT_SWAP_PEND 0 p)
  let n1 := if swap then 0 else n0
  let d1 : Int := ((if swap then w.1 else d : Nat) : Int)
  let ns := max 1 (u.nslot p (u.actBuf p))
  let per : Int := 1000 * (u.period p (u.actBuf p) : Int)
  let whole : Int := if per = 0 then 0 else max 0 ((now - d1) / per)
  let r := u.nextFit p 130 n1 (d1 + whole * per) now 0
  let m := (whole * (ns : Int) + (r.2.2 : Int)).toNat
  let z := z + zerosIn n1 m ns
  if k = 0 && !swap && !lost && r.1 = n1 && r.2.1 = d1 then s
  else if (s.ro p).stopPend && (0 < z || r.1 = 0) then s.stopAt p (s.slotsLeft p) count
  else u.resumeAt p r.1 (k + m + if swap then w.2 else 0) z [r.2.1.toNat] 0 count

/-- In FREEWHEEL the instants that accepted edges have fixed come first, and the last instant is the one from which the schedule runs on (R164). [DEDUCED: log 225] -/
def State.wheelJump (s : State) (p : Nat) (count lost : Bool) : State :=
  let now : Int := ((s.tbVal 0 * 1000 / 2 ^ 48 : Nat) : Int)
  let dues := (s.ro p).dues
  let ns := max 1 (s.nslot p (s.actBuf p))
  let n0 := (s.ro p).slot
  let k := dues.length - 1
  let m := (((List.range k).zip dues).takeWhile (fun e => !s.fits p ((n0 + e.1) % ns) now (e.2 : Int))).length
  if m = k then s.tbJump p (dues.getD k 0) k count lost
  else if m = 0 && !lost then s
  else if (s.ro p).stopPend && (0 < zerosIn n0 m ns || (n0 + m) % ns = 0) then s.stopAt p (s.slotsLeft p) count
  else s.resumeAt p ((n0 + m) % ns) m (zerosIn n0 m ns) (dues.drop m) ((s.ro p).own - m) count

/-- The engine after TB0 has jumped (R161, R272): it resumes at the next slot instant of its schedule; the slots passed over are added to SKIPPED, and count towards SKIP_MAX if count says so. An engine whose first slot has been loaded has its instant fixed before the jump (R162). [DEDUCED: log 62] -/
def State.rotJump (s : State) (p : Nat) (count : Bool) : State :=
  if !s.roRuns p || (s.ro p).stopNow then s
  else
    let s := (s.syncDecide p).rotStart p
    let lost := (s.slotCommit p).filter (fun c => s.reached (c.at - 200000) && !c.decided)
    let s := match lost with
      | some c => s.unfire c
      | none => s
    if (s.ro p).dues.isEmpty then s
    else if s.roSync p && s.roState p != 3 then s.syncJump p count lost.isSome else s.wheelJump p count lost.isSome

/-- No edge by P + LOSTN D (R164): the next slot commits on TB0, unless a freeze has carried its instant past (R161). -/
def syncLost (p : Nat) (s : State) : State :=
  match (s.ro p).edge with
  | none => s
  | some (e, d) =>
    let n := s.g F.RTU_ROT_CFG_LOSTN p
    if !s.roSync p || n = 0 || !(s.roState p = 1 || s.roState p = 2) || !s.reached ((e + 1000 * n * d : Nat) : Int) then s
    else
      let tc := e + 1000 * n * d + 1000 * s.syncDly p
      let s := (s.put F.RTU_ROT_STAT_LOST 1 p).put F.RTU_ROT_STAT_SYNC_OK 0 p |>.put F.RTU_ROT_STAT_STATE 3 p
      let s := ((s.setEnd p tc).updRo p (fun r => { r with dues := r.dues ++ [tc] })).raise 37 p
      if s.reached (tc : Int) then s.rotJump p false else s

def execSyncLost (p : Part) (s : State) : Out := clocked s (syncLost p.val)

/-! ### Learning (R166 to R168) -/

/-- The window of a slot opens (R166). [DEDUCED: log 63] -/
def learnWindowOpen (p : Nat) (s : State) : State :=
  s.updRo p (fun r => { r with wins := r.wins.map (fun w =>
    if w.since.isNone && s.reached (w.openAt : Int) && !(match w.endAt with
      | some e => s.reached (e : Int)
      | none => false) then { w with since := some s.cycle } else w) })

def execLearnWindowOpen (p : Part) (s : State) : Out := clocked s (learnWindowOpen p.val)

/-- A context that learns in a slot that committed in its tile (R166). -/
def State.learner (s : State) (a : Nat) : Bool :=
  (s.cg 0 a C.LAW = 1 || s.cg 0 a C.LAW = 2) && s.con 0 a C.RTEN && s.cg 0 a C.RTAO = a

/-- The law of the table unit (R167). -/
def learnLaw (lambda gamma : Int) (gsh : Nat) (u ebar : Int) : Int := sat16 (sar (lambda * u) 16 + sar (gamma * ebar) (gsh + 16))

/-- One learning context at the close of the window of slot n. [DEDUCED: log 63] -/
def State.learnOne (s : State) (p n a : Nat) (acc : Int × Nat) : State :=
  if acc.2 < max 1 (s.g F.RTU_ROT_LRN_MINN p) then s.sat F.RTU_ROT_LSTAT_LOWN p
  else
    let u := learnLaw (min 65536 (s.g F.RTU_ROT_LAM_LAMBDA p)) (toSigned 16 (s.g F.RTU_ROT_LRN_GAMMA p)) (s.g F.RTU_ROT_LRN_GSH p)
      (s.repEntry a n) (Int.tdiv acc.1 acc.2)
    s.wrN (repBase + a * 128 + 2 * n) 2 (ofSigned 16 u)

/-- The oldest window whose slot has come to its nominal end closes (R166, R167). [DEDUCED: log 63] -/
def learnWindowClose (p : Nat) (s : State) : State :=
  match (s.ro p).wins.find? (fun w => match w.endAt with
      | some e => s.reached (e : Int)
      | none => false) with
  | none => s
  | some w =>
    let live := s.on F.RTU_ROT_LRN_LEN p && !s.on F.RTU_ROT_LRN_FRZ p
    let s := if live then s.each ((s.ownedBy p).filter (fun a => w.tiles.contains (aoTile a) && s.learner a)) (fun s a => s.learnOne p w.slot a (Map.look w.acc a (0, 0))) else s
    s.updRo p (fun r => { r with wins := r.wins.erase w })

def execLearnWindowClose (p : Part) (s : State) : Out := clocked s (learnWindowClose p.val)

/-- A tile that holds a context with RTEN = 1 in which learning would exceed the budget, with that load (R168). -/
def State.learnOver (s : State) (p t : Nat) : Option Nat :=
  let lrn (q : Nat) : Bool := q = p || s.learning q
  let has := (s.ownedBy p).any (fun a => aoTile a = t && (s.con 0 a C.RTEN || s.con 1 a C.RTEN))
  let l := max (s.loadWith false t lrn) (s.loadWith true t lrn)
  if has && leBudget < l then some l else none

/-- The tiles that refuse a write of RTU_ROT_LRNp, with their loads (R168). -/
def State.lrnLate (s : State) (p v : Nat) : List (Nat × Nat) :=
  if bitOf v 0 then (List.range 16).filterMap (fun t => (s.learnOver p t).map (fun l => (t, l))) else []

/-- A write of RTU_ROT_LRNp, CLR apart (R168). [DESIGN CHOICE: log 39] -/
def lrnWrite (p v : Nat) (s : State) : State :=
  let late := s.lrnLate p v
  if late.isEmpty then
    s.each [F.RTU_ROT_LRN_LEN, F.RTU_ROT_LRN_FRZ, F.RTU_ROT_LRN_GSH, F.RTU_ROT_LRN_MINN, F.RTU_ROT_LRN_GAMMA]
      (fun s f => s.sput f (bitsOf v f.lo f.wd) p)
  else (s.put F.RTU_ROT_LSTAT_OVC 1 p).each late (fun s e => (s.leErr (e.1 * 1280) 0 srcReg 0).leOvercommit e.1 e.2)

def execLrnWrite (p : Part) (v : W32) (s : State) : Out := clocked s (lrnWrite p.val v.toNat)

/-- CLR: refused unless LEN = 0 or FRZ = 1 (R168). -/
def learnClr (p : Nat) (s : State) : State :=
  if s.on F.RTU_ROT_LRN_LEN p && !s.on F.RTU_ROT_LRN_FRZ p then s else s.put F.RTU_ROT_LSTAT_CLR_BUSY 1 p

def execLearnClr (p : Part) (s : State) : Out := clocked s (learnClr p.val)

/-- The tables of every AO of the partition are zero (R168). -/
def learnClrDone (p : Nat) (s : State) : State :=
  if !s.on F.RTU_ROT_LSTAT_CLR_BUSY p then s
  else
    let gone (k : Nat) : Bool := repBase ≤ k && k < repBase + 20480 * 128 && s.ona F.AO_CFG_OWNED ((k - repBase) / 128) && s.ga F.AO_CFG_PART ((k - repBase) / 128) = p
    { s with mem := s.mem.filter (fun c => !gone c.1) }.put F.RTU_ROT_LSTAT_CLR_BUSY 0 p

def execLearnClrDone (p : Part) (s : State) : Out := clocked s (learnClrDone p.val)

/-- A host write to the table of an AO (R168). -/
def repTableWrite (a off : Nat) (bs : List Byte) (s : State) : State :=
  let p := s.ga F.AO_CFG_PART a
  if s.ona F.AO_CFG_OWNED a && s.pm p = 2 && s.on F.RTU_ROT_LRN_LEN p && !s.on F.RTU_ROT_LRN_FRZ p then s.put F.RTU_ROT_LSTAT_WR_REFUSED 1 p
  else s.wrBs (repBase + a * 128 + off) (bs.take (128 - off))

def execRepTableWrite (a : Ao) (off : Fin 128) (bs : List Byte) (s : State) : Out := clocked s (fun s => repTableWrite a.val off.val bs (s.grant 1 0))

end Sys2Proof.Machine
end

