-- ==== Sys2Proof/Machine/Time.lean ====
section
/-! DEFINITION. The time bases (11: R268 to R276), their pulse outputs, capture inputs and SYNC_IN (R277 to R281), and the tick of CORE that an empty queue stands for. -/

namespace Sys2Proof.Machine

/-! ### The bases (R268, R273) -/

/-- A base after n CORE cycles at the rate in force; an adjustment goes on until the whole offset is absorbed. [DEDUCED: log 106] -/
def TbSt.run (x : TbSt) (n : Nat) : TbSt :=
  let base := x.val + n * x.inc
  match x.amort with
  | some a =>
    let d := min (n * x.extra) a.left.natAbs
    if a.left < 0 then { x with val := (base - d) % tbWrap, amort := some { a with left := a.left + (d : Int) } }
    else { x with val := (base + d) % tbWrap, amort := some { a with left := a.left - (d : Int) } }
  | none => { x with val := base % tbWrap }

/-- A base at the root edge k root periods after the CORE edge. -/
def State.tbAt (s : State) (b k : Nat) : Nat := (s.tbVal b + k * (s.tb b).rate / 5) % tbWrap

/-- All bases advance by n CORE cycles. -/
def State.runBases (s : State) (n : Nat) : State := s.each (List.range 4) (fun s b => s.updTb b (fun x => x.run n))

/-- An instant armed in a tile lies less than 50 ns ahead, or has come and not fired (R275). -/
def State.instantNear (s : State) (t : Nat) : Bool :=
  s.rtu.arms.any (fun m => m.tile = t && m.next < m.count &&
    decide ((m.at + 20000 * m.next - 50000) * 2 ^ 48 ≤ ((s.replicaU t * 1000 : Nat) : Int)))

/-- Corrections of replicas that no instant keeps back are made in one step (R275). [DESIGN CHOICE: log 9] -/
def State.fixReps (s : State) : State :=
  if s.tm.reps.any (fun e => e.2.fix.isSome) then
    { s with tm.reps := s.tm.reps.map (fun e => if e.2.fix.isSome && !s.instantNear e.1 then (e.1, { e.2 with dev := e.2.dev - e.2.fix.getD 0, fix := none }) else e) }
  else s

/-- A cycle begins: what stands is what its software reads return (R6). -/
def State.cycleStart (s : State) : State := { s with hw := [], was := some s.held }

/-- One tick with nothing commanded (log entry 5): a CORE cycle while the clocks run; in freeze the Freeze Timer counts 1 ns. [DESIGN CHOICE: log 5] -/
def State.tick (s : State) : State :=
  match s.clk with
  | .running => ({ s.runBases 1 with cycle := s.cycle + 1 } : State).fixReps.cycleStart
  | .frozen => ({ s with flt.frozen := s.flt.frozen + 1 } : State).cycleStart
  | _ => s.cycleStart

/-- The instant that R270 gives for a command: at least 1 us after it, at a whole microsecond of the base; due is 1 us after the command. -/
def State.dueAt (s : State) (b : Nat) : Nat := s.tbVal b + usU
/-- [DEDUCED: log 104] -/
def wholeUs (due : Nat) : Nat := ceilDiv due usU * usU
/-- [DEDUCED: log 104] -/
def State.usReached (s : State) (b due : Nat) : Bool := wholeUs due ≤ s.tbVal b

/-- A write of TB_INCb (R270). -/
def tbIncWrite (b v : Nat) (s : State) : State :=
  let inc := v % 2 ^ 50
  if 999 * 2 ^ 48 ≤ 1000 * inc && 1000 * inc ≤ 1001 * 2 ^ 48 then
    (s.sput F.TB_INC_INC inc b).updTb b (fun x => { x with pendInc := some (inc, s.dueAt b) })
  else s.put F.TB_STAT_INC_REFUSED 1 b

def execTbIncWrite (b : Fin 4) (x : MasterWrite) (s : State) : Out := clocked s (fun s => tbIncWrite b x.v.toNat (s.wideWritten x.m.val R.TB_INC b.val))

def tbIncApply (b : Nat) (s : State) : State :=
  match (s.tb b).pendInc with
  | some (inc, due) => if s.usReached b due then s.updTb b (fun x => { x with inc := inc, pendInc := none }) else s
  | none => s

def execTbIncApply (b : Fin 4) (s : State) : Out := clocked s (tbIncApply b)

/-! ### Steps (R271, R272) -/

/-- A step of TB0 is not allowed without FORCE (R272). -/
def State.stepBlocked (s : State) (b : Nat) : Bool :=
  b = 0 && !s.on F.TB_CTL_FORCE 0 && (List.range 16).any (fun p => s.armed p || s.roState p != 0)

/-- A step is accepted, to a target or by an offset in 2^-48 ns. -/
def State.askStep (s : State) (b : Nat) (v : Int) (isSet : Bool) : State :=
  (s.put F.TB_STAT_STEP_BUSY 1 b).updTb b (fun x => { x with pendStep := some (v, isSet, s.dueAt b) })

def stepCmd (b : Nat) (s : State) : State :=
  let v := s.word R.TB_SET b
  if s.on F.TB_STAT_STEP_BUSY b || 10 ^ 9 ≤ getField v 18 30 || s.stepBlocked b then s.put F.TB_STAT_STEP_REFUSED 1 b
  else s.askStep b (tvUnits v) true

def execStep (b : Fin 4) (s : State) : Out := clocked s (stepCmd b)

/-- TB_OFFb in 2^-48 ns. -/
def State.offUnits (s : State) (b : Nat) : Int := toSigned 64 (s.g F.TB_OFF_OFF b) * 2 ^ 32

/-- All three refusals of R271 hold for STEP_OFF: TB_SETb with 10^9 ns or more refuses it too. -/
def stepOff (b : Nat) (s : State) : State :=
  if s.on F.TB_STAT_STEP_BUSY b || 10 ^ 9 ≤ getField (s.word R.TB_SET b) 18 30 || (s.tbVal b : Int) + s.offUnits b < 0 || s.stepBlocked b then s.put F.TB_STAT_STEP_REFUSED 1 b
  else s.askStep b (s.offUnits b) false

def execStepOff (b : Fin 4) (s : State) : Out := clocked s (stepOff b)

/-- An adjustment ends: what is left of its offset goes back into TB_OFFb (R271, R273); with nothing left TB_OFFb stays as it stands. [DEDUCED: log 106] -/
def State.amortEnd (s : State) (b : Nat) : State :=
  match (s.tb b).amort with
  | some a =>
    let s := s.when (a.left != 0) (fun s => s.put F.TB_OFF_OFF (ofSigned 64 (a.left.tdiv (2 ^ 32))) b)
    (s.put F.TB_STAT_AMORT_BUSY 0 b).updTb b (fun x => { x with amort := none })
  | none => s

/-! ### Pulse outputs (R277, R278) -/

def State.tpo (s : State) (n : Nat) : TpoSt := Map.look s.tm.tpos n {}
def State.setTpo (s : State) (n : Nat) (x : TpoSt) : State :=
  { s with tm.tpos := Map.ins s.tm.tpos n x }.putB F.TB_TPO_STAT_ACTIVE x.fall.isSome n

/-- The level at a pulse output's ball (R277): active during a pulse and in LEVEL, inactive else; POL makes active low. -/
def TpoSt.level (x : TpoSt) : Bool := (x.fall.isSome || x.prog.mode = 3) != (x.prog.pol = 1)
def State.tpoPin (s : State) (n : Nat) : Bool := (s.tpo n).level

/-- The first edge of a periodic programming that is not before a time. -/
def TpoProg.after (x : TpoProg) (t : Nat) : Nat := if t ≤ x.start then x.start else x.start + ceilDiv (t - x.start) x.per * x.per

/-- The staged programming as LOAD takes it, clamped (R277). [DEDUCED: log 107] -/
def State.tpoStaged (s : State) (n : Nat) : TpoProg :=
  let b := s.g F.TB_TPO_CTL_TB n
  let per := min (4290000000 * 65536) (max (16 * 65536) (s.g F.TB_TPO_PER_PERIOD n)) * 2 ^ 32
  let wid := max (8 * nsU) (min (s.g F.TB_TPO_WID_WIDTH n * nsU) (min (per - 8 * nsU) secU))
  let x : TpoProg := { mode := s.g F.TB_TPO_CTL_MODE n, tb := b, pol := s.g F.TB_TPO_CTL_POL n, start := tvUnits (s.word R.TB_TPO_START n), per := per, wid := wid }
  let lim := s.tbVal b + 100 * nsU
  { x with first := if x.mode = 1 then (if x.start < lim then none else some x.start) else if x.mode = 2 then some (x.after lim) else none }

/-- New programming comes into force: an edge that has passed meanwhile is left out. -/
def State.tpoApply (s : State) (n : Nat) (x : TpoProg) : State :=
  let now := s.tbVal x.tb
  match x.first with
  | none => s.setTpo n { prog := x }
  | some t =>
    if now ≤ t then s.setTpo n { prog := x, next := some t }
    else if x.mode = 1 then (s.put F.TB_TPO_STAT_LATE 1 n).setTpo n { prog := x }
    else s.setTpo n { prog := x, next := some (x.after now) }

/-- LOAD (R277): a pulse in progress completes its width first. -/
def tpoLoad (n : Nat) (s : State) : State :=
  let x := s.tpoStaged n
  let s := s.when (x.mode = 1 && x.first.isNone) (fun s => s.put F.TB_TPO_STAT_LATE 1 n)
  if (s.tpo n).fall.isSome then s.setTpo n { (s.tpo n) with load := some x } else s.tpoApply n x

def execTpoLoad (n : Fin 8) (s : State) : Out := clocked s (tpoLoad n)

/-- The next edge of an output, once its base has reached it. -/
def tpoEdge (n : Nat) (s : State) : State :=
  let x := s.tpo n
  let now := s.tbVal x.prog.tb
  match x.fall with
  | some f =>
    if now < f then s
    else
      let s := s.setTpo n { x with fall := none }
      match x.load with
      | some y => s.tpoApply n y
      | none => s
  | none =>
    match x.next with
    | none => s
    | some t =>
      if now < t then s
      else
        let s := s.setTpo n { x with fall := some (t + x.prog.wid), next := if x.prog.mode = 2 then some (t + x.prog.per) else none }
        s.when (s.on F.TB_TPO_CTL_EV n) (fun s => s.occur (0x08 + n))

def execTpoEdge (n : Fin 8) (s : State) : Out := clocked s (tpoEdge n)

/-- The outputs of a base that has moved by delta to now (R278): pulses complete their width, a START carried past is lost, periods keep their phase. [DEDUCED: log 108] -/
def State.tpoJump (s : State) (b : Nat) (delta : Int) : State :=
  let now := s.tbVal b
  s.each s.tm.tpos (fun s e =>
    let x : TpoSt := { e.2 with load := e.2.load.map (fun y => if y.tb = b && y.mode = 2 then { y with first := some (y.after (now + 100 * nsU)) } else y) }
    if x.prog.tb != b then s.setTpo e.1 x
    else
      let fall := x.fall.map (fun f => ((f : Int) + delta).toNat)
      match x.next with
      | none => s.setTpo e.1 { x with fall := fall }
      | some t =>
        if x.prog.mode = 1 then
          if t < now then (s.put F.TB_TPO_STAT_LATE 1 e.1).setTpo e.1 { x with fall := fall, next := none } else s.setTpo e.1 { x with fall := fall }
        else s.setTpo e.1 { x with fall := fall, next := some (x.prog.after (now + 100 * nsU)) })

/-! ### A base moves (R271, R272, R290) -/

/-- An instant on a base, moved with it. [DEDUCED: log 104] -/
def moveBy (delta : Int) (t : Nat) : Nat := ((t : Int) + delta).toNat

/-- [DEDUCED: log 104] -/
def TbSt.moved (x : TbSt) (delta : Int) (val : Nat) : TbSt :=
  { x with
    val := val
    pendInc := x.pendInc.map (fun e => (e.1, moveBy delta e.2))
    amort := x.amort.map (fun a => { a with startAt := moveBy delta a.startAt, stopAt := a.stopAt.map (moveBy delta) }) }

/-- Frames in residence leave a step of their base out of the difference (R290). -/
def State.framesStepped (s : State) (b : Nat) (delta : Int) : State :=
  let f (l : List TxFrame) : List TxFrame := l.map (fun x => { x with steps := x.steps + delta })
  { s with tm.sps := s.tm.sps.map (fun e => (e.1, if s.g F.SP_CFG_TB e.1 = b then { e.2 with q := f e.2.q, coming := f e.2.coming } else e.2)) }

/-- Commits at a step of TB0 (R272): one past its cancel deadline keeps its instant on the old time, another is cancelled with LATE. [DEDUCED: log 105] -/
def State.commitsStepped (s : State) (delta : Int) : State :=
  let ps := delta * 1000 / 2 ^ 48
  s.each s.rtu.commits (fun s c =>
    if c.cancelled then s
    else if c.fired || c.decided || s.reached (c.at - 200000) then
      let s := s.updCommit c { c with adj := c.adj + ps, decided := true }
      { s with rtu.arms := s.rtu.arms.map (fun m => if m.lead = c.lead && m.tc = c.tc then { m with adj := m.adj + ps } else m) }
    else if c.slot.isSome then s
    else { s.cancelCommit c 4 with rtu.arms := s.rtu.arms.filter (fun m => !(m.lead = c.lead && m.tc = c.tc)) })

/-- Every running kick has expired (R92, R111, R272). [DEDUCED: log 153] -/
def State.kicksOver (s : State) : State := { s with le.ctx := s.le.ctx.map (fun e => (e.1, { e.2 with kickOver := true })) }

/-- Barista's periodic renewals resume at the next multiple of SLOT_NS on the new time (R272). -/
def State.portsStepped (s : State) (delta : Int) : State :=
  let ns := delta / 2 ^ 48
  { s with brs.ports := s.brs.ports.map (fun e =>
      (e.1, if e.2.src = 0 then { e.2 with lastRenew := s.tb0ns } else { e.2 with lastRenew := moveBy ns e.2.lastRenew })) }

/-- A base is stepped to a value. [DEDUCED: log 88, 104] -/
def State.stepTo (s : State) (b val : Nat) : State :=
  let delta : Int := (val : Int) - (s.tbVal b : Int)
  let s := s.amortEnd b
  let s := s.when (b = 0) (fun s => s.commitsStepped delta)
  let s := s.updTb b (fun x => x.moved delta val)
  let s := (s.tpoJump b delta).framesStepped b delta
  let s := s.when (b = 0) (fun s => (s.each (List.range 16) (fun s p => s.rotJump p true)).kicksOver.portsStepped delta)
  ((s.put F.TB_STAT_STEP_BUSY 0 b).sat F.TB_STAT_STEPS b).when (s.on F.TB_CTL_STEP_FLT b) (fun s => s.raise 36 b)

/-- A pending step takes effect (R271); what has passed since its instant counts on the new time. [DEDUCED: log 105] -/
def tbStepApply (b : Nat) (s : State) : State :=
  match (s.tb b).pendStep with
  | none => s
  | some (v, isSet, due) =>
    if !s.usReached b due then s
    else
      let now := s.tbVal b
      let val : Int := if isSet then v + ((now - wholeUs due : Nat) : Int) else (now : Int) + v
      (s.updTb b (fun x => { x with pendStep := none })).stepTo b (val.toNat % tbWrap)

def execTbStepApply (b : Fin 4) (s : State) : Out := clocked s (tbStepApply b)

/-! ### Amortisation (R273) -/

/-- RATE as it acts. -/
def State.amRate (s : State) (b : Nat) : Nat := max 1 (min 1000 (s.g F.TB_AMRATE_RATE b))

def amortCmd (b : Nat) (s : State) : State :=
  if s.on F.TB_STAT_AMORT_BUSY b then s.put F.TB_STAT_AMORT_REFUSED 1 b
  else
    let a : Amort := { left := s.offUnits b, rate := s.amRate b, running := false, startAt := s.dueAt b }
    (s.put F.TB_STAT_AMORT_BUSY 1 b).updTb b (fun x => { x with amort := some a })

def execAmort (b : Fin 4) (s : State) : Out := clocked s (amortCmd b)

def amortStartApply (b : Nat) (s : State) : State :=
  match (s.tb b).amort with
  | some a => if !a.running && s.usReached b a.startAt then s.updTb b (fun x => { x with amort := some { a with running := true } }) else s
  | none => s

def execAmortStartApply (b : Fin 4) (s : State) : Out := clocked s (amortStartApply b)

def amortDone (b : Nat) (s : State) : State :=
  match (s.tb b).amort with
  | some a => if a.running && a.left = 0 then (s.put F.TB_STAT_AMORT_BUSY 0 b).updTb b (fun x => { x with amort := none }) else s
  | none => s

def execAmortDone (b : Fin 4) (s : State) : Out := clocked s (amortDone b)

def amortStop (b : Nat) (s : State) : State :=
  match (s.tb b).amort with
  | some a => if a.stopAt.isSome then s else s.updTb b (fun x => { x with amort := some { a with stopAt := some (s.dueAt b) } })
  | none => s

def execAmortStop (b : Fin 4) (s : State) : Out := clocked s (amortStop b)

def amortStopApply (b : Nat) (s : State) : State :=
  match (s.tb b).amort with
  | some a =>
    match a.stopAt with
    | some due => if s.usReached b due then s.amortEnd b else s
    | none => s
  | none => s

def execAmortStopApply (b : Fin 4) (s : State) : Out := clocked s (amortStopApply b)

/-! ### Replicas (R274 to R276) -/

/-- How far a tile's replica stands ahead of TB0 once it is set by a marker (R274): the marker's one-way delay is taken for half the round trip, which the Control Die measures on root edges, and the factory-trimmed asymmetry. [DESIGN CHOICE: log 9] -/
def markerDev (t : Nat) (x : MarkerTrip) : Int :=
  ((ceilDiv (x.down + x.up) 200 * 100 : Nat) : Int) + (Config.linkAsym t).toInt - (x.down : Int)

/-- The marker after one sent at a due cycle: every 100 us (R274). [DESIGN CHOICE: log 9] -/
def State.nextMarker (s : State) (due : Nat) : Nat := due + 100000 * ((s.cycle - due) / 100000 + 1)

/-- A marker has gone round (R274, R275), at link training and every 100 us: an error of at most 1 ns is corrected in one step, away from the instants armed in the tile; a larger one resets the replica to the measured value. [DESIGN CHOICE: log 9; DEDUCED: log 109] -/
def replicaRealign (t : Nat) (x : MarkerTrip) (s : State) : State :=
  let r := s.rep t
  if !(s.tl t).linkUp || s.cycle < r.due then s
  else
    let err := r.dev - markerDev t x
    let due := s.nextMarker r.due
    let s := s.put F.TL_TSTAT_ERR (ofSigned 16 (clampI (-32768) 32767 err)) t
    if err.natAbs ≤ 1000 then
      let s := { s with tm.reps := Map.ins s.tm.reps t ⟨r.dev, some err, due⟩ }.fixReps
      s.when (err.natAbs ≤ 500) (fun s => s.put F.TL_TSTAT_VALID 1 t)
    else
      let s := { s with tm.reps := Map.ins s.tm.reps t ⟨markerDev t x, none, due⟩ }
      ((s.put F.TL_TSTAT_VALID 0 t).put F.TL_TSTAT_TIME_ERR 1 t).fsum t 3

/-- [DESIGN CHOICE: log 9] -/
def execReplicaRealign (t : Tile) (x : MarkerTrip) (s : State) : Out := clocked s (replicaRealign t x)

/-! ### Capture inputs and SYNC_IN (R279 to R281) -/

/-- [DEDUCED: log 110] -/
def State.tci (s : State) (n : Nat) : TciSt := Map.look s.tm.tcis n {}
/-- COUNT and the head of the FIFO as the registers show them. -/
def State.setTci (s : State) (n : Nat) (x : TciSt) : State :=
  ({ s with tm.tcis := Map.ins s.tm.tcis n x }.put F.TB_TCI_STAT_COUNT x.fifo.length n).setWord R.TB_TCI_TS
    (match x.fifo.head? with
     | some e => e.1
     | none => 0) n

/-- What a read of word 0, or of words 0 and 1, answers. -/
def lowRead (v : RWord) (wide : Bool) : Nat := if wide then getField v 0 64 else getField v 0 32

/-- A new level of an input has persisted for 2.0 ns, which is 10 root periods: its edge counts (R281). -/
def filtered (held : Nat) : Bool := 10 ≤ held
/-- The level of an input behind its filter: SYNC_IN is 0, TCIn is 1 + n. -/
def State.pinAt (s : State) (i : Nat) : Bool := Map.look s.tm.pins i false
def State.pinTo (s : State) (i : Nat) (level : Bool) : State := { s with tm.pins := Map.ins s.tm.pins i level }
/-- While the clocks stand still an edge is not seen, but the level is there when they run again (R350). -/
def State.pinUnseen (s : State) (i : Nat) (level : Bool) (held : Nat) : State := if filtered held then s.pinTo i level else s

/-- An edge of a capture input whose new level is first seen k root periods after the CORE edge and persists for held root periods (R279, R281); the edge that ends a rejected pulse changes no level. [DEDUCED: log 110, 122] -/
def tciEdge (n : Nat) (falling : Bool) (k held : Nat) (s : State) : State :=
  if !filtered held || s.pinAt (1 + n) = !falling then s
  else
    let s := s.pinTo (1 + n) (!falling)
    let e := s.g F.TB_TCI_CTL_EDGE n
    let now := 5 * s.cycle + k
    let x := s.tci n
    let early := match x.lastEdge with
      | some t => now < t + 40
      | none => false
    if !(if falling then bitOf e 1 else bitOf e 0) then s
    else if early || 4 ≤ x.fifo.length then
      ((s.sat F.TB_TCI_STAT_DROP n).put F.TB_TCI_STAT_OVF 1 n).when (!early) (fun s => s.setTci n { x with lastEdge := some now })
    else
      let b := s.g F.TB_TCI_CTL_TB n
      let s := s.setTci n { fifo := x.fifo ++ [(tvOf (s.tbAt b k) b, falling)], lastEdge := some now }
      s.when (s.on F.TB_TCI_CTL_EV n) (fun s => s.occur (0x10 + n))

def execTciEdge (n : Fin 8) (falling : Bool) (e : PinEdge) (s : State) : Out :=
  if s.clk = Clk.running then clocked s (tciEdge n falling e.k e.held.toNat) else .next (s.pinUnseen (1 + n) (!falling) e.held.toNat)

/-- A read of word 0 of TB_TCI_TSn by a master (R279). [DEDUCED: log 111] -/
def tciTsRead (n m : Nat) (wide : Bool) (s : State) : State :=
  let x := s.tci n
  let key := R.TB_TCI_TS.key n 0
  match x.fifo with
  | [] => { s.setLatch m key 0 with readData := 0 }
  | e :: rest =>
    let s := (s.setTci n { x with fifo := rest }).putB F.TB_TCI_STAT_HEDGE e.2 n
    { s.setLatch m key e.1 with readData := lowRead e.1 wide }

def execTciTsRead (n : Fin 8) (m : Fin 8) (wide : Bool) (s : State) : Out := clocked s (tciTsRead n m wide)

/-- CLR of TB_TCI_CTL. -/
def tciClr (n : Nat) (s : State) : State := s.setTci n { (s.tci n) with fifo := [] }

def execTciClr (n : Fin 8) (s : State) : Out := clocked s (tciClr n.val)

/-- An edge of SYNC_IN whose new level persists for held root periods (R280, R281): it reaches every Rotor Engine that follows SYNC_IN at ROTOR_SYNC_EDGE. -/
def syncInEdge (rising : Bool) (k held : Nat) (s : State) : State :=
  if !filtered held || s.pinAt 0 = rising then s
  else
    let v := s.tbAt 0 k
    let s := ((s.pinTo 0 rising).putB F.TB_SYNC_STAT_LEVEL rising).sat F.TB_SYNC_STAT_EDGES
    let s := s.setWord (if rising then R.TB_SYNC_R else R.TB_SYNC_F) (tvOf v 0)
    let ps := v * 1000 / 2 ^ 48
    let ed : List SyncEdge := ((List.range 16).filter s.roSync).map (fun p => ⟨p, rising, ps⟩)
    { s with tm.edges := s.tm.edges ++ ed }.occur 0x05

def execSyncInEdge (rising : Bool) (e : PinEdge) (s : State) : Out :=
  if s.clk = Clk.running then clocked s (syncInEdge rising e.k e.held.toNat) else .next (s.pinUnseen 0 rising e.held.toNat)

end Sys2Proof.Machine
end

