-- ==== Sys2Proof/Machine/SyncPort.lean ====
section
/-! DEFINITION. The sync ports (11: R282 to R291): reception, host frame rings, PTP and one-step edits, transmit timestamps, the transparent clock. -/

namespace Sys2Proof.Machine

def State.sp (s : State) (p : Nat) : SpSt := Map.look s.tm.sps p {}
def State.updSp (s : State) (p : Nat) (f : SpSt → SpSt) : State := { s with tm.sps := Map.upd s.tm.sps p {} f }

/-! ### Frames (R286, R288, R290): bytes from the destination address on, without the FCS -/

/-- n bytes as one number, the first byte most significant, and back. -/
def beNat (bs : List Byte) : Nat := bs.foldl (fun v b => 256 * v + b.toNat) 0
def beBytes (n v : Nat) : List Byte := (leBytes n v).reverse
def beAt (bs : List Byte) (off n : Nat) : Nat := beNat ((List.range n).map (fun i => bs.getD (off + i) 0))
def putAt (bs : List Byte) (off : Nat) (l : List Byte) : List Byte := bs.take off ++ l ++ bs.drop (off + l.length)

/-- The EtherType after at most one IEEE 802.1Q tag, and where the payload begins. [PRESUMED: log 118] -/
def etherType (bs : List Byte) : Nat × Nat := if beAt bs 12 2 = 0x8100 then (beAt bs 16 2, 18) else (beAt bs 12 2, 14)

/-- A recognised PTP message: where it begins, and where its UDP header does, if it has one. -/
structure Ptp where
  off : Nat
  udp : Option Nat

/-- R286. -/
def ptpOf (bs : List Byte) : Option Ptp :=
  let e := etherType bs
  let port (u : Nat) : Bool := beAt bs (u + 2) 2 = 319 || beAt bs (u + 2) 2 = 320
  let x : Option Ptp :=
    if e.1 = 0x88F7 then some ⟨e.2, none⟩
    else if e.1 = 0x0800 && beAt bs e.2 1 = 0x45 && beAt bs (e.2 + 9) 1 = 17 && port (e.2 + 20) then some ⟨e.2 + 28, some (e.2 + 20)⟩
    else if e.1 = 0x86DD && beAt bs e.2 1 / 16 = 6 && beAt bs (e.2 + 6) 1 = 17 && port (e.2 + 40) then some ⟨e.2 + 48, some (e.2 + 40)⟩
    else none
  x.filter (fun y => beAt bs (y.off + 1) 1 % 16 = 2)

/-- An event message (messageType 0x0 to 0x3). -/
def isEvent (bs : List Byte) : Bool := match ptpOf bs with
  | some y => beAt bs y.off 1 % 16 < 4
  | none => false

/-- One's-complement sum of 16-bit words. -/
def fold16 (n : Nat) : Nat :=
  let a := n % 65536 + n / 65536
  let b := a % 65536 + a / 65536
  b % 65536 + b / 65536
def words16 (bs : List Byte) : List Nat := match bs with
  | a :: b :: t => (256 * a.toNat + b.toNat) :: words16 t
  | [a] => [256 * a.toNat]
  | [] => []

/-- The incremental update of RFC 1624; a sum of zero is sent as all ones. [PRESUMED: log 118] -/
def csumAdj (hc : Nat) (old new : List Byte) : Nat :=
  let n := fold16 ((65535 - hc) + ((words16 old).map (fun w => 65535 - w)).sum + (words16 new).sum)
  if n = 65535 then 65535 else 65535 - n

/-- Bytes of a PTP message change, and a nonzero UDP checksum with them. -/
def ptpEdit (bs : List Byte) (y : Ptp) (off : Nat) (new : List Byte) : List Byte :=
  let old := (bs.drop (y.off + off)).take new.length
  let out := putAt bs (y.off + off) new
  match y.udp with
  | some u => if beAt bs (u + 6) 2 = 0 then out else putAt out (u + 6) (beBytes 2 (csumAdj (beAt bs (u + 6) 2) old new))
  | none => out

/-- A signed number of 2^-16 ns is added to correctionField. -/
def addCorrection (bs : List Byte) (y : Ptp) (d : Int) : List Byte :=
  ptpEdit bs y 8 (beBytes 8 (ofSigned 64 ((beAt bs (y.off + 8) 8 : Int) + d)))

/-- originTimestamp takes seconds and nanoseconds of a time in 2^-48 ns. -/
def setOrigin (bs : List Byte) (y : Ptp) (t : Nat) : List Byte :=
  ptpEdit bs y 34 (beBytes 6 (t / secU) ++ beBytes 4 (t % secU / nsU))

/-- A frame as it leaves at an egress time (R288, R290); false where OSMODE finds no PTP frame. -/
def TxFrame.leave (x : TxFrame) (egress : Nat) : List Byte × Bool :=
  match ptpOf x.bytes with
  | none => (x.bytes, x.fwd || x.osmode = 0)
  | some y =>
    if x.fwd then
      (if isEvent x.bytes then addCorrection x.bytes y ((egress / 2 ^ 32 : Nat) - (x.ingress / 2 ^ 32 : Nat) - x.steps / 2 ^ 32) else x.bytes, true)
    else if x.osmode = 1 then (addCorrection (setOrigin x.bytes y egress) y (egress / 2 ^ 32 % 65536 : Nat), true)
    else if x.osmode = 2 then (addCorrection x.bytes y ((egress / 2 ^ 32 : Nat) - (tvUnits x.ref / 2 ^ 32 : Nat)), true)
    else (x.bytes, true)

/-! ### Timestamps (R287) -/

/-- A frame's time on the port's base, its reference plane moved by an asymmetry. [DESIGN CHOICE: log 115] -/
def State.spTime (s : State) (p k : Nat) (asym : Fld) : Nat :=
  ((s.tbAt (s.g F.SP_CFG_TB p) k : Int) + toSigned 32 (s.g asym p) * 2 ^ 32).toNat % tbWrap

def State.setTsq (s : State) (p : Nat) (l : List TsqEnt) : State :=
  ((s.updSp p (fun x => { x with tsq := l })).put F.SP_TSQ_STAT_COUNT l.length p).setWord R.SP_TSQ_TS
    (match l.head? with
     | some e => e.ts
     | none => 0) p

/-- An entry of the transmit timestamp queue; one that finds it full is lost. -/
def State.tsqPut (s : State) (p : Nat) (e : TsqEnt) : State :=
  if 16 ≤ (s.sp p).tsq.length then ((s.sat F.SP_TSQ_STAT_DROP p).put F.SP_TSQ_STAT_OVF 1 p).raise 41 p
  else (s.setTsq p ((s.sp p).tsq ++ [e])).occur (0x18 + p)

/-- A read of word 0 of SP_TSQ_TS by a master. [DEDUCED: log 111] -/
def spTsqRead (p m : Nat) (wide : Bool) (s : State) : State :=
  let key := R.SP_TSQ_TS.key p 0
  match (s.sp p).tsq with
  | [] => { s.setLatch m key 0 with readData := 0 }
  | e :: rest =>
    let s := ((s.setTsq p rest).put F.SP_TSQ_STAT_HID e.tag p).putB F.SP_TSQ_STAT_HFAIL e.fail p
    { s.setLatch m key e.ts with readData := lowRead e.ts wide }

def execSpTsqRead (p : Fin 2) (m : Fin 8) (wide : Bool) (s : State) : Out := clocked s (spTsqRead p m wide)

/-! ### Host frame rings (R285, R292) -/

/-- A logarithm of a frame ring as it acts. -/
def frLog (v : Nat) : Nat := max 4 (min 12 v)
def State.txLen (s : State) (p : Nat) : Nat := 2 ^ frLog (s.g F.SP_FR_SIZE_TX_LOG2 p)
def State.rxLen (s : State) (p : Nat) : Nat := 2 ^ frLog (s.g F.SP_FR_SIZE_RX_LOG2 p)
/-- [DEDUCED: log 114; DESIGN CHOICE: log 133] -/
def State.frMsg (s : State) (p : Nat) : State := s.msix 0 (s.g F.SP_FR_CTL_VEC p)

/-- A host frame from its descriptor and its buffer as host memory holds them. [DESIGN CHOICE: log 112] -/
def hostFrame (d : List Byte × List Byte) : TxFrame :=
  let w := leNat ((d.1.drop 8).take 4)
  { fwd := false, bytes := (List.range (bitsOf w 0 14)).map (fun i => d.2.getD i 0), tsreq := bitOf w 16, osmode := bitsOf w 17 2, tag := bitsOf w 24 8,
    ref := BitVec.ofNat 96 (leNat ((d.1.drop 16).take 12)) }

/-- SP_TXR_PI makes descriptors available (R285), and an index beyond the ring is ignored (R225); fr: what host memory holds for them. [DESIGN CHOICE: log 112] -/
def spTxrDoorbell (p v : Nat) (fr : List (List Byte × List Byte)) (s : State) : State :=
  let n := s.txLen p
  let pi := v % 4096
  let cnt := (pi + n - s.g F.SP_TXR_PI_PI p % n) % n
  if n ≤ pi then s
  else (s.sput F.SP_TXR_PI_PI pi p).updSp p (fun x => { x with q := x.q ++ (List.range cnt).map (fun i => hostFrame (fr.getD i ([], []))) })

def execSpTxrDoorbell (p : Fin 2) (v : W32) (fr : List (List Byte × List Byte)) (s : State) : Out := clocked s (spTxrDoorbell p v.toNat fr)

/-- SP_RXR_PI gives the port buffers (R285), and an index beyond the ring is ignored (R225); bufs: their addresses and sizes in the descriptors. [DESIGN CHOICE: log 112] -/
def spRxrDoorbell (p v : Nat) (bufs : List (W64 × BitVec 14)) (s : State) : State :=
  let n := s.rxLen p
  let pi := v % 4096
  let cnt := (pi + n - s.g F.SP_RXR_PI_PI p % n) % n
  if n ≤ pi then s
  else (s.sput F.SP_RXR_PI_PI pi p).updSp p (fun x => { x with bufs := x.bufs ++ (List.range cnt).map (fun i => ((bufs.getD i (0, 0)).1.toNat, (bufs.getD i (0, 0)).2.toNat)) })

def execSpRxrDoorbell (p : Fin 2) (v : W32) (bufs : List (W64 × BitVec 14)) (s : State) : Out := clocked s (spRxrDoorbell p v.toNat bufs)

/-- A write of SP_FR_CTL with INIT: the indices become zero while EN = 0; then EN and VEC as written. -/
def spFrInit (p v : Nat) (s : State) : State :=
  let s :=
    if s.on F.SP_FR_CTL_EN p then s
    else
      (s.each [F.SP_TXR_PI_PI, F.SP_TXR_CI_CI, F.SP_RXR_PI_PI, F.SP_RXR_CI_CI] (fun s f => s.put f 0 p)).updSp p
        (fun x => { x with q := x.q.filter (fun y => y.fwd), bufs := [] })
  (s.sput F.SP_FR_CTL_EN (bitsOf v 0 1) p).sput F.SP_FR_CTL_VEC (bitsOf v 16 11) p

def execSpFrInit (p : Fin 2) (v : W32) (s : State) : Out := clocked s (spFrInit p v.toNat)

/-- A frame into the receive ring; one that finds no buffer is dropped. [DEDUCED: log 116] -/
def State.toRing (s : State) (p : Nat) (bs : List Byte) (ts : Nat) (sched fwd : Bool) : State :=
  match (s.sp p).bufs with
  | [] => s.sat F.SP_RX_NOBUF_CNT p
  | (addr, size) :: rest =>
    if !s.on F.SP_FR_CTL_EN p then s.sat F.SP_RX_NOBUF_CNT p
    else
      let ci := s.g F.SP_RXR_CI_CI p
      let w := bs.length + b2n (ptpOf bs).isSome * 65536 + b2n sched * 131072 + b2n fwd * 262144 + b2n (size < bs.length) * 524288
      let s := (s.updSp p (fun x => { x with bufs := rest })).postLong 0 addr (bs.take size)
      let s := s.postLong 0 (32 * s.g F.SP_RXR_BASE_BASE p + 32 * ci + 8) (leBytes 8 w ++ leBytes 12 (tvOf ts (s.g F.SP_CFG_TB p)).toNat ++ leBytes 4 0)
      (s.put F.SP_RXR_CI_CI ((ci + 1) % s.rxLen p) p).frMsg p

/-! ### Reception (R283, R289) -/

def ptpAddrs : List (List Byte) :=
  [[0x01, 0x1B, 0x19, 0, 0, 0], [0x01, 0x80, 0xC2, 0, 0, 0x0E], [0x01, 0, 0x5E, 0, 0x01, 0x81], [0x01, 0, 0x5E, 0, 0, 0x6B],
   [0x33, 0x33, 0, 0, 0x01, 0x81], [0x33, 0x33, 0, 0, 0, 0x6B]]
def peerAddr : List Byte := [0x01, 0x80, 0xC2, 0, 0, 0x0E]

/-- The station address; byte 0 in the lowest bits. [DEDUCED: log 119] -/
def State.station (s : State) (p : Nat) : Nat := s.g F.SP_MAC_LO_VAL p + s.g F.SP_MAC_HI_VAL p * 2 ^ 32
/-- The MAC accepts a destination address (R283). [PRESUMED: log 118; DEDUCED: log 119] -/
def State.macAccepts (s : State) (p : Nat) (da : List Byte) : Bool :=
  leNat da = s.station p || leNat da = 2 ^ 48 - 1 || ptpAddrs.contains da
    || (List.range 4).any (fun i => s.on F.SP_MCAST_EN p i && s.g F.SP_MCAST_ADDR p i = leNat da)
def State.maxFrm (s : State) (p : Nat) : Nat := max 1518 (min 9600 (s.g F.SP_MAXFRM_MAX p))

/-- A port takes part in traffic. -/
def State.spUp (s : State) (p : Nat) : Bool := s.on F.SP_CFG_EN p && s.on F.SP_STAT_LINK p && !s.on F.SP_STAT_FENCED p

/-- A frame joins the forwarding queue of 32 KiB towards a port (R289). [DEDUCED: log 117] -/
def State.forwardTo (s : State) (p : Nat) (bs : List Byte) (ts : Nat) : State :=
  let x := s.sp p
  let held := (((x.q.filter (fun y => y.fwd)) ++ x.coming).map (fun y => y.bytes.length)).sum
  if 32768 < held + bs.length then s.sat F.SP_FWD_DROP_CNT p
  else s.updSp p (fun x => { x with coming := x.coming ++ [{ fwd := true, bytes := bs, ingress := ts }] })

/-- A frame is received: its bytes without FCS, whether its FCS is right; k places the first bit after its start-of-frame delimiter (R287). [DESIGN CHOICE: log 115; DEDUCED: log 116] -/
def spFrameRx (p : Nat) (bs : List Byte) (fcs : Bool) (k : Nat) (s : State) : State :=
  if !s.spUp p then s
  else if !fcs || bs.length + 4 < 64 || s.maxFrm p < bs.length + 4 then s.sat F.SP_RX_BAD_CNT p
  else
    let s := s.sat F.SP_RX_FRAMES_CNT p
    if beAt bs 12 2 = 0x8808 then s
    else
      let ts := s.spTime p k F.SP_RXASYM_ASYM
      let da := bs.take 6
      let fwd := s.on F.SP_TC_CTL_EN 0 && leNat da != s.station p && da != peerAddr
      let s := s.when fwd (fun s => s.forwardTo (1 - p) bs ts)
      if !s.macAccepts p da then s
      else
        let e := etherType bs
        let sched := e.1 = s.g F.BRS_ETYPE_ETYPE
        let s : State := if sched then { s with brs.frames := s.brs.frames ++ [(p, bs.drop e.2)] } else s
        s.when (!sched || s.on F.SP_CFG_SCHED_COPY p) (fun s => s.toRing p bs ts sched fwd)

def execSpFrameRx (p : Fin 2) (bs : List Byte) (fcs : Bool) (k : Fin 5) (s : State) : Out := clocked s (spFrameRx p bs fcs k)

/-- The oldest forwarded frame on its way becomes ready and joins its class (R291). -/
def forwardReady (p : Nat) (s : State) : State :=
  match (s.sp p).coming with
  | [] => s
  | x :: rest => s.updSp p (fun y => { y with q := y.q ++ [x], coming := rest })

def execForwardReady (p : Fin 2) (s : State) : Out := clocked s (forwardReady p)

/-! ### Transmission (R285, R287, R288, R290, R291) -/

/-- The next frame of a port: class H before class L, each in the order of readiness; host frames only while their rings are active. [DEDUCED: log 113] -/
def State.spNext (s : State) (p : Nat) : Option TxFrame :=
  let l := (s.sp p).q.filter (fun x => x.fwd || s.on F.SP_FR_CTL_EN p)
  match l.find? (fun x => isEvent x.bytes) with
  | some x => some x
  | none => l.head?

/-- A host frame is done with: its descriptor is consumed, the message sent. [DEDUCED: log 113] -/
def State.hostDone (s : State) (p : Nat) : State := (s.put F.SP_TXR_CI_CI ((s.g F.SP_TXR_CI_CI p + 1) % s.txLen p) p).frMsg p

/-- A frame is committed to the wire; k places its timestamp. [DESIGN CHOICE: log 115] -/
def spFrameTx (p k : Nat) (s : State) : State :=
  if !s.spUp p then s
  else
    match s.spNext p with
    | none => s
    | some x =>
      let t := s.spTime p k F.SP_TXASYM_ASYM
      let out := x.leave t
      let s := s.updSp p (fun y => { y with q := y.q.erase x })
      let s : State := { s with tm.wire := s.tm.wire ++ [(p, out.1)] }
      let s := (s.sat F.SP_TX_FRAMES_CNT p).when (!out.2) (fun s => s.put F.SP_STAT_ONESTEP_ERR 1 p)
      if x.fwd then s
      else
        let s := s.when x.tsreq (fun s => s.tsqPut p ⟨x.tag, false, tvOf t (s.g F.SP_CFG_TB p)⟩)
        s.hostDone p

def execSpFrameTx (p : Fin 2) (k : Fin 5) (s : State) : Out := clocked s (spFrameTx p k)

/-- Frames queued for transmission are discarded (R284): forwarded ones counted, host ones of active rings completed without a timestamp. [DEDUCED: log 117, 121] -/
def State.spDiscard (s : State) (p : Nat) : State :=
  let gone := (s.sp p).q.filter (fun y => y.fwd || s.on F.SP_FR_CTL_EN p) ++ (s.sp p).coming
  let s := s.updSp p (fun y => { y with q := y.q.filter (fun z => !(z.fwd || s.on F.SP_FR_CTL_EN p)), coming := [] })
  s.each gone (fun s y =>
    if y.fwd then s.sat F.SP_FWD_DROP_CNT p
    else (s.when y.tsreq (fun s => s.tsqPut p ⟨y.tag, true, 0⟩)).hostDone p)

/-! ### Configuration and link (R282, R284, R289) -/

/-- A port loses the lock that it held (R284). [DEDUCED: log 121] -/
def State.spLoss (s : State) (p : Nat) : State :=
  if s.on F.SP_CFG_EN p && s.on F.SP_STAT_LINK p then ((s.put F.SP_STAT_LINK 0 p).raise (39 + p)).spDiscard p else s

def execSpLinkLoss (p : Fin 2) (s : State) : Out := clocked s (fun s => s.spLoss p)

/-- A port gains block lock (R284); a fenced one only in its resume (R344), none during a lane test (R399). -/
def spBlockLock (p : Nat) (s : State) : State :=
  if s.on F.SP_CFG_EN p && !(s.on F.TST_LCFG_GEN_EN (8 + p) || s.on F.TST_LCFG_CHK_EN (8 + p))
      && (!s.on F.SP_STAT_FENCED p || s.flt.resumes.contains (4, p)) then s.put F.SP_STAT_LINK 1 p else s

def execSpBlockLock (p : Fin 2) (s : State) : Out := clocked s (spBlockLock p)

/-- A write of SP_CFG (R282). [DEDUCED: log 120] -/
def spCfgWrite (p v : Nat) (s : State) : State :=
  let new (f : Fld) := bitsOf v f.lo f.wd
  let change := [F.SP_CFG_SPEED, F.SP_CFG_FEC, F.SP_CFG_TB].any (fun f => s.g f p != new f)
  if new F.SP_CFG_FEC = 3 || (new F.SP_CFG_FEC = 2 && new F.SP_CFG_SPEED = 0) || (s.on F.SP_CFG_EN p && change) then s.put F.SP_STAT_CFG_REFUSED 1 p
  else
    let s := s.each [F.SP_CFG_EN, F.SP_CFG_SPEED, F.SP_CFG_FEC, F.SP_CFG_SCHED_COPY, F.SP_CFG_TB] (fun s f => s.sput f (new f) p)
    if s.on F.SP_CFG_EN p then s else s.put F.SP_STAT_LINK 0 p

def execSpCfgWrite (p : Fin 2) (v : W32) (s : State) : Out := clocked s (spCfgWrite p v.toNat)

/-- A write of SP_TC_CTL.EN (R289). -/
def spTcEnable (en : Bool) (s : State) : State :=
  if en && !(s.on F.SP_CFG_EN 0 && s.on F.SP_CFG_EN 1 && s.g F.SP_CFG_TB 0 = s.g F.SP_CFG_TB 1) then s.put F.SP_STAT_CFG_REFUSED 1 0
  else s.sput F.SP_TC_CTL_EN (b2n en) 0

def execSpTcEnable (en : Bool) (s : State) : Out := clocked s (spTcEnable en)

end Sys2Proof.Machine
end

