-- ==== Sys2Proof/Machine/Fences.lean ====
section
/-! DEFINITION. The lease token and the loss of a member (10: R248, R257, R262), fences and their resume sequences (13: R343 to R345). -/

namespace Sys2Proof.Machine

/-! ### The token (R247 to R249, R257) -/

/-- LEASE_US as it acts: values below 2 act as 2, and 0 as 64. -/
def State.leaseUs (s : State) (x : Nat) : Nat :=
  let v := s.pg F.SEQ_LEASE_CFG_LEASE_US F.LE_LEASE_CFG_LEASE_US x
  if v = 0 then 64 else max 2 v

/-- The token passes to a member (R248): its lease begins. -/
def State.passToken (s : State) (x m : Nat) : State :=
  let s := (s.pp F.SEQ_LEASE_STAT_HOLDER F.LE_LEASE_STAT_HOLDER m x).psat F.SEQ_CMP_CNT_TRANSFERS F.LE_CMP_CNT_TRANSFERS x
  let us := s.leaseUs x
  ((s.moveEnd x).updTw x (fun w => { w with renewed := s.cycle, lease := us, reqAt := none, hand := false, back := none })).suspSync x

/-- A pair is left with no member able to hold the token (R257). -/
def State.noHolderRule (s : State) (x : Nat) : State :=
  let s := s.pp F.SEQ_LEASE_STAT_NOHOLDER F.LE_LEASE_STAT_NOHOLDER 1 x
  let s := ((s.memberOff x 0).memberOff x 1).moveEnd x
  if x = 0 then
    let s := s.each (List.range 16) (fun s h => (s.thStop 0 h).thStop 1 h)
    s.each ((List.range 16).filter (fun p => s.pmode p != 2)) (fun s p => s.askFence 0 p false)
  else (s.fsum (x - 1) 6).askFence 1 (x - 1) false

/-- A member takes the token of a pair without holder (R251): a Sequencer with every thread cleared, a Loop Engine with an empty pipeline, which brings STATE and XREF of its contexts up to date. [DEDUCED: log 100; DESIGN CHOICE: log 244] -/
def State.takeToken (s : State) (x m : Nat) : State :=
  let s := (s.pp F.SEQ_LEASE_STAT_NOHOLDER F.LE_LEASE_STAT_NOHOLDER 0 x).pp F.SEQ_LEASE_STAT_HOLDER F.LE_LEASE_STAT_HOLDER m x
  let s :=
    if x = 0 then s.each (List.range 16) (fun s h => (s.thStop m h).updTh m h (fun _ => {}))
    else { s with le.outs := s.le.outs.filter (fun o => aoTile o.ao != x - 1) }
  let s := s.when (x != 0) (fun s => s.each (s.ownedAos.filter (fun a => aoTile a = x - 1)) State.ctxRefresh)
  let us := s.leaseUs x
  ((s.memberUp x m).updTw x (fun w => { w with renewed := s.cycle, lease := us, reqAt := none, hand := false, back := none })).suspSync x

/-- A member becomes OFFLINE: the token passes to an INSYNC standby, or the pair has no holder left (R257, R262). In a pair that has none yet, a twin that has passed its self-test takes the token (R251), and with the twin OFFLINE both have failed (R257). [DEDUCED: log 100] -/
def State.memberLost (s : State) (x m : Nat) : State :=
  let held := s.holds x m
  let was := s.mstate x m
  let s := s.memberOff x m
  let twin := s.mstate x (1 - m)
  if held then (if twin = 4 then s.passToken x (1 - m) else s.noHolderRule x)
  else if s.noHolder x && was != 0 && twin = 3 then s.takeToken x (1 - m)
  else if s.noHolder x && was != 0 && twin = 0 then s.noHolderRule x
  else s

/-! ### The fence of a region (R343) -/

/-- A partition is fenced: its thread, its requests, its rotor, its armed commit, its circuits and its outputs. -/
def State.fencePart (s : State) (p : Nat) : State :=
  let s := ((s.stopTh 0 p).stopTh 1 p).abortArmed p
  let s := s.when (s.roState p != 0) (fun s => s.rotIdle p)
  let s := (s.fencePort p).breakPart p
  let s := s.put F.FLT_FENCED_PT_PART (orBit (s.g F.FLT_FENCED_PT_PART) p)
  s.each (s.ownedBy p) (fun s a => (s.park a).ctxFault a)

/-- A tile is fenced. [DEDUCED: log 158] -/
def State.fenceTile (s : State) (t : Nat) : State :=
  let s := s.put F.FLT_FENCED_PT_TILE (orBit (s.g F.FLT_FENCED_PT_TILE) t)
  let s := (s.put F.TL_FSTAT_FENCED 1 t).put F.TL_FSTAT_REINIT 0 t
  ((((s.osAbort t).parkTile t).loseBursts t).breakTile t)

/-- A VF is fenced (R305): its rings are drained, and their completions still leave. -/
def State.fenceVf (s : State) (v : Nat) : State :=
  let s := s.each ((List.range 8192).filter (fun n => s.ringFn n = v)) (fun s n => ringDrain n s)
  let s := s.put F.FLT_FENCED_VF_VF (orBit (s.g F.FLT_FENCED_VF_VF) (v - 1))
  (s.put F.LAT_VF_STAT_FENCED 1 v).put F.LAT_VFR_STAT_FENCED 1 v

def State.fenceRegion (s : State) (region idx : Nat) : State :=
  match region with
  | 0 => s.fencePart idx
  | 1 => s.fenceTile idx
  | 2 => s.memberLost 0 idx
  | 3 => s.memberLost (1 + idx / 2) (idx % 2)
  | 4 => ((s.spDiscard idx).put F.SP_STAT_FENCED 1 idx).put F.FLT_FENCED_X_SP (orBit (s.g F.FLT_FENCED_X_SP) idx)
  | 5 => s.fenceVf idx
  | 6 => (s.put F.RTU_STAT_FENCED 1).put F.FLT_FENCED_X_RTU 1
  | _ => s

/-- A region is fenced. -/
def State.regionFenced (s : State) (region idx : Nat) : Bool :=
  match region with
  | 0 => s.partFenced idx
  | 1 => bitOf (s.g F.FLT_FENCED_PT_TILE) idx
  | 2 => s.memberFenced 0 idx
  | 3 => s.memberFenced (1 + idx / 2) (idx % 2)
  | 4 => bitOf (s.g F.FLT_FENCED_X_SP) idx
  | 5 => s.vfFenced idx
  | 6 => s.on F.FLT_FENCED_X_RTU
  | _ => false

/-- The INDEX values that a region takes. -/
def regionIdx (region idx : Nat) : Bool :=
  match region with
  | 0 => idx < 16
  | 1 => idx < 16
  | 2 => idx < 2
  | 3 => idx < 32
  | 4 => idx < 2
  | 5 => 1 ≤ idx && idx < 64
  | 6 => idx = 0
  | _ => false

/-! ### Commands and resume sequences (R344) -/

/-- A member is being restarted. -/
def State.comingBack (s : State) (region idx : Nat) : Bool :=
  match region with
  | 2 => s.mstate 0 idx != 0
  | 3 => s.mstate (1 + idx / 2) (idx % 2) != 0
  | _ => false

/-- A fence takes effect; it ends a resume of the region, the restart of a member with it, and a region already fenced stays as it is. [DEDUCED: log 156] -/
def State.fenceNow (s : State) (region idx : Nat) : State :=
  let s := s.endResume region idx
  if s.regionFenced region idx && !s.comingBack region idx then s else s.fenceRegion region idx

/-- The resume sequence of a fenced region starts (R344); for a member it is its RESTART, which ends it at INSYNC or back in OFFLINE. [DEDUCED: log 154, 156] -/
def State.startResume (s : State) (region idx : Nat) : State :=
  if !s.regionFenced region idx || s.resuming region idx then s
  else
    let begin' (s : State) : State := { s with flt.resumes := s.flt.resumes ++ [(region, idx)] }
    match region with
    | 1 => begin' ((((s.updTl idx (fun x => { x with linkUp := false })).put F.TL_TSTAT_VALID 0 idx).put F.TL_FSTAT_RESUMING 1 idx).staleTds idx)
    | 2 => begin' (s.restartMember 0 idx)
    | 3 => begin' (s.restartMember (1 + idx / 2) (idx % 2))
    | 4 => begin' (s.put F.SP_STAT_LINK 0 idx)
    | _ => begin' s

/-- The oldest fence asked for takes effect, within 1 us of the request (R343). [DEDUCED: log 154] -/
def fenceTakeEffect (s : State) : State :=
  match s.flt.fences with
  | [] => s
  | r :: rest =>
    let s := ({ s with flt.fences := rest }.fenceNow r.region r.idx).endCmd r.region r.idx true
    if r.resume then s.startResume r.region r.idx else s

def execFenceTakeEffect (s : State) : Out := clocked s fenceTakeEffect

/-- A write of FLT_FENCE_CTL with FENCE (R343). While FENCE is 1 a write of 1 starts no second action (R6). [DEDUCED: log 155] -/
def fltFence (region idx : Nat) (s : State) : State :=
  let s := (s.sput F.FLT_FENCE_CTL_REGION region).sput F.FLT_FENCE_CTL_INDEX idx
  if s.flt.cmds.any (fun c => c.2.2) then s
  else if !regionIdx region idx then s.put F.FLT_FENCE_STAT_REFUSED 1
  else (s.setCmds (s.flt.cmds ++ [(region, idx, true)])).askFence region idx false

def execFltFence (region : Fin 8) (idx : Fin 64) (s : State) : Out := clocked s (fltFence region.val idx.val)

/-- A write of FLT_FENCE_CTL with UNFENCE (R344). [DEDUCED: log 155] -/
def fltUnfence (region idx : Nat) (s : State) : State :=
  let s := (s.sput F.FLT_FENCE_CTL_REGION region).sput F.FLT_FENCE_CTL_INDEX idx
  if !regionIdx region idx || !s.regionFenced region idx || s.on F.FLT_FENCE_STAT_BUSY then s.put F.FLT_FENCE_STAT_REFUSED 1
  else (s.setCmds (s.flt.cmds ++ [(region, idx, false)])).startResume region idx

def execFltUnfence (region : Fin 8) (idx : Fin 64) (s : State) : Out := clocked s (fltUnfence region.val idx.val)

/-- Every step of a resume has met its condition. [DEDUCED: log 157] -/
def State.resumeReady (s : State) (region idx : Nat) : Bool :=
  match region with
  | 1 => (s.tl idx).linkUp && s.on F.TL_TSTAT_VALID idx
  | 2 => !s.regionFenced 2 idx
  | 3 => !s.regionFenced 3 idx
  | 4 => s.on F.SP_STAT_LINK idx || !s.on F.SP_CFG_EN idx
  | _ => true

/-- Posted writes that were held leave, in order, once their function may issue requests (R295, R305). -/
def State.flushHeld (s : State) : State :=
  let l := s.pci.held
  { s with pci.held := [] }.each l (fun s x =>
    match x with
    | .write f a d => s.postWrite f a d
    | .msix f v _ _ => s.msix f v
    | .read _ _ _ => s
    | .cpl _ _ _ _ => s)

/-- Pending vectors whose masks are lifted are sent, one message for each (R301). -/
def State.flushMsix (s : State) : State :=
  let go := s.pci.pba.filter (fun k => s.msixOpen (k / 2048) (k % 2048))
  { s with pci.pba := s.pci.pba.filter (fun k => !s.msixOpen (k / 2048) (k % 2048)) }.each go (fun s k => s.msix (k / 2048) (k % 2048))

/-- The fence of a region lifts. [DEDUCED: log 141, 156] -/
def State.liftFence (s : State) (region idx : Nat) : State :=
  match region with
  | 0 =>
    let s := (s.put F.GLB_PMODE_MODE 0 idx).put F.FLT_FENCED_PT_PART (clrBit (s.g F.FLT_FENCED_PT_PART) idx)
    s.refreshPart idx
  | 1 => (((s.updTl idx (fun x => { x with wdog := false, told := false })).mirrorSync idx).put F.FLT_FENCED_PT_TILE (clrBit (s.g F.FLT_FENCED_PT_TILE) idx)).put F.TL_FSTAT_FENCED 0 idx
  | 4 => (s.put F.SP_STAT_FENCED 0 idx).put F.FLT_FENCED_X_SP (clrBit (s.g F.FLT_FENCED_X_SP) idx)
  | 5 =>
    let s := s.put F.FLT_FENCED_VF_VF (clrBit (s.g F.FLT_FENCED_VF_VF) (idx - 1))
    (((s.put F.LAT_VF_STAT_FENCED 0 idx).put F.LAT_VFR_STAT_FENCED 0 idx).flushHeld).flushMsix
  | 6 => (s.put F.RTU_STAT_FENCED 0).put F.FLT_FENCED_X_RTU 0
  | _ => s

/-- A resume sequence completes (R344). [DEDUCED: log 156, 157] -/
def resumeDone (region idx : Nat) (s : State) : State :=
  if s.resuming region idx && s.resumeReady region idx then (s.endResume region idx).liftFence region idx else s

def execResumeDone (region : Fin 8) (idx : Fin 64) (s : State) : Out := clocked s (resumeDone region.val idx.val)

/-- A step's condition is not met by the region's bound (R344): a member goes back to OFFLINE; of the Route Unit, the check of its working store fails. [DEDUCED: log 157] -/
def resumeStepTimeout (region idx : Nat) (s : State) : State :=
  if s.resuming region idx && (region = 6 || !s.resumeReady region idx) then
    match region with
    | 2 => s.memberOff 0 idx
    | 3 => s.memberOff (1 + idx / 2) (idx % 2)
    | _ => s.resumeFails region idx
  else s

def execResumeStepTimeout (region : Fin 8) (idx : Fin 64) (s : State) : Out := clocked s (resumeStepTimeout region.val idx.val)

end Sys2Proof.Machine
end

