-- ==== Sys2Proof/Machine/Modes.lean ====
section
/-! DEFINITION. Changes of a partition's mode (14: R374; 05, 06: R143, R160). -/

namespace Sys2Proof.Machine

/-- PLAN.CLR (R210): STAGED and the charge term of every staged AO of the plan go, the plan is emptied, pending states revert. -/
def State.planClr (s : State) (p : Nat) : State :=
  let aos := ((s.rp p).plan.map (fun e => e.ao)).filter (fun a => s.ona F.AO_SHD_STAGED a && s.ga F.AO_CFG_PART a = p)
  ((s.each aos State.unstage).focusDrop p).updRp p RtPart.revert

/-- The effects of a change, in the order of R374. -/
def State.setMode (s : State) (p code : Nat) : State :=
  let s := s.abortArmed p
  let s := if s.pmode p = 2 then s.rotStopNow p else s
  let s := if code = 2 then s.planClr p else s
  (s.put F.GLB_PMODE_MODE code p).refreshPart p

/-- A request for a mode (R374): true if it is accepted. -/
def State.askMode (s : State) (p code : Nat) : State × Bool :=
  if s.mode != 3 || s.partFenced p || s.resuming 0 p || 4 < code then (s, false)
  else if s.pmode p = code then (s, true)
  else (s.setMode p code, true)

/-- The PART.MODE of this cycle that a host request comes before. -/
def State.pmNow (s : State) (p : Nat) : Option Nat :=
  ((Map.find s.seq.pmAt p).filter (fun e => e.1 = s.cycle)).map (fun e => e.2)

/-- A write of GLB_PMODEp with GO; a PART.MODE of the same cycle acts after it. -/
def pmodeRequest (p code : Nat) (s : State) : State :=
  let r := (s.sput F.GLB_PMODE_REQ code p).askMode p code
  if r.2 then
    match r.1.pmNow p with
    | some c => (r.1.askMode p c).1
    | none => r.1
  else r.1.put F.GLB_PMODE_REFUSED 1 p

def execPmodeRequest (p : Part) (code : Fin 8) (s : State) : Out := clocked s (pmodeRequest p.val code.val)

end Sys2Proof.Machine
end

