-- ==== Sys2Proof/Machine/ObrixSw.lean ====
section
/-! DEFINITION. The switching and rotor instructions of Obrix (08: R195 to R223). -/

namespace Sys2Proof.Machine

/-! ### Common shapes (R197, R198) -/

/-- The exceptions of R198. -/
def swMode : Nat := 0x20
def swArmed : Nat := 0x21
def swBusy : Nat := 0x22
def swArg : Nat := 0x23
def swRec : Nat := 0x24
def swPerm : Nat := 0x25
def swPlan : Nat := 0x26

/-- A switching exception: INFO is the opcode. -/
def State.swExc (s : State) (h code : Nat) (i : OIns) : State := s.excAll h code i.opc none

def allModes : List Nat := [0, 1, 2, 3, 4]
/-- H, S, C and M; S, C and M. -/
def hscm : List Nat := [0, 1, 3, 4]
def scm : List Nat := [1, 3, 4]

/-- A switching instruction that runs in some partition modes (R197). [DEDUCED: log 64; DESIGN CHOICE: log 80] -/
def State.swOp (s : State) (h : Nat) (kind : OIns → Bool) (modes : List Nat) (f : OIns → State → State) : State :=
  s.issueSw h kind (fun i s => if modes.contains (s.pm h) then f i s else s.swExc h swMode i)

def isOpc (opc func : Nat) (i : OIns) : Bool := i.opc = opc && i.func = func
def isOpcAny (opc : Nat) (i : OIns) : Bool := i.opc = opc

/-- The general and time registers of the thread that issues. -/
def State.gOf (s : State) (h r : Nat) : Nat := ((s.leadTh h).gr r).toNat
/-- A result, then the instruction is done. -/
def State.swDone (s : State) (h : Nat) (i : OIns) (v : Nat) : State := (s.wrAll h i.d (BitVec.ofNat 64 v)).retireAll h i

/-- Why an address operand raises an exception: its code and whether the word is uncorrectable. -/
structure AddrErr where
  code : Nat
  bad : Nat
  ue : Bool := false

/-- n bytes of a thread's address space at an address that must be aligned (R175, R198). [DEDUCED: log 64] -/
def State.swRead (s : State) (h a n align : Nat) : Except AddrErr (List Byte) :=
  if a % align != 0 then .error { code := 0x02, bad := a }
  else
    match threadAddr h a, threadAddr h (a + n - 1) with
    | some (k, _), some (e, _) =>
      if e != k + (n - 1) then .error { code := 0x03, bad := a }
      else
        match s.ueIn k n with
        | some w => .error { code := 0x05, bad := a + (w - k), ue := true }
        | none => .ok (s.bar2Bytes k n)
    | _, _ => .error { code := 0x03, bad := a }

/-- The exception of a failed read; an uncorrectable word also raises SRAM_UE. [DEDUCED: log 64] -/
def State.addrExc (s : State) (h : Nat) (e : AddrErr) : State :=
  (s.when e.ue (fun s => s.sramUe (ueStore h e.bad).1 (ueStore h e.bad).2)).excAll h e.code 0 (some e.bad)

/-- With the bytes of an operand in memory. -/
def State.withBytes (s : State) (h a n align : Nat) (f : List Byte → State → State) : State :=
  match s.swRead h a n align with
  | .error e => s.addrExc h e
  | .ok bs => f bs (s.swAsk h a n)

/-- With the open record that an admit record names by its HANDLE (R201, R204). -/
def State.withRec (s : State) (h a : Nat) (i : OIns) (f : List Byte → Rec → State → State) : State :=
  s.withBytes h a 64 64 (fun bs s =>
    match s.findRec h (leNat ((bs.drop 12).take 2)) with
    | none => s.swExc h swRec i
    | some x => f bs x s)

/-! ### Requests and completions (R200 to R206) -/

/-- The record that the head of the admit queue would open, if it can be popped (R200, R232): its slot, its next generation, and where its extended payload stands. -/
def State.popSlot (s : State) (p : Nat) : Option Rec :=
  let x := s.port p
  let mk (r : Req) (slot xa : Nat) : Rec := { slot := slot, gen := (Map.look x.gens slot 0 + 1) % 4096, req := r, isOpen := true, ready := true, xa := xa }
  match x.aq with
  | [] => none
  | r :: _ =>
    if r.xp then (x.recs.find? (fun y => !y.isOpen && y.ready)).map (fun y => mk r y.slot y.xa)
    else x.freeSlot.map (fun h => mk r h 0)

/-- The admit record (R201). -/
def Rec.bytes (x : Rec) : List Byte :=
  let r := x.req
  let w0 := r.typ + r.colour % 2 * 2 ^ 8 + b2n r.priv * 2 ^ 9 + b2n r.xp * 2 ^ 10 + r.defers % 16 * 2 ^ 12 + r.ring % 8192 * 2 ^ 16 + r.cls % 4 * 2 ^ 29
  leBytes 4 w0 ++ leBytes 4 r.tag ++ leBytes 4 (r.dtu % 65536 + r.xlen % 65536 * 65536)
    ++ leBytes 4 (x.handle + x.xa / 64 * 65536) ++ (List.range 48).map (fun k => r.payload.getD k 0)

/-- The pop (R200): the record opens with its generation and is written; Gd is its TYPE, Z is 0. -/
def State.popTo (s : State) (h d a : Nat) (y : Rec) : State :=
  let s := s.updPort h (fun x => { x with
    aq := x.aq.drop 1
    gens := Map.ins x.gens y.slot y.gen
    recs := x.recs.filter (fun z => z.slot ≠ y.slot) ++ [y] })
  ((((s.grant 4 (2 + s.lead)).dmStore (dmBase h + a) y.bytes).passEffect 0 y.bytes).wrAll h d (BitVec.ofNat 64 y.req.typ)).zAll h false

def admitPop (h : Nat) (s : State) : State :=
  s.swOp h (isOpcAny 0x80) allModes (fun i s =>
    let a := s.gOf h i.s1
    if a % 64 != 0 then s.excAll h 0x02 0 (some a)
    else if 0x40000 ≤ a then s.excAll h 0x03 0 (some a)
    else
      match s.popSlot h with
      | some y => (s.popTo h i.d a y).retireAll h i
      | none => if i.func = 1 then s.waitAll h (.pop i.d a) true else ((s.wrAll h i.d 0).zAll h true).retireAll h i)

def execAdmitPop (h : Thr) (s : State) : Out := clocked s (admitPop h.val)

/-- A request can be popped and ADMIT.POP.W completes. -/
def admitPopWake (h : Nat) (s : State) : State :=
  match (s.leadTh h).wait, s.popSlot h with
  | some (.pop d a), some y => if s.hasLead then s.wake h (fun s => s.popTo h d a y) else s
  | _, _ => s

def execAdmitPopWake (h : Thr) (s : State) : Out := clocked s (admitPopWake h.val)

/-- A record closes; of an orphan nothing is posted (R204, R242). -/
def State.closeRec (s : State) (p : Nat) (x : Rec) (status result : Nat) : State :=
  let s := s.dropRec p x.slot
  if x.orphan then s else s.complete x.req.ring x.req.tag status x.req.charge result x.req.defers

/-- [DEDUCED: log 70, 78] -/
def cplPost (h : Nat) (s : State) : State :=
  s.swOp h (isOpc 0x81 0) allModes (fun i s =>
    let v := s.gOf h i.s2
    if bitsOf v 8 24 != 0 || 9 < v % 256 then s.swExc h swArg i
    else s.withRec h (s.gOf h i.s1) i (fun _ x s => (s.closeRec h x (v % 256) (v / 2 ^ 32)).retireAll h i))

def execCplPost (h : Thr) (s : State) : Out := clocked s (cplPost h.val)

/-- The policy of a record's TYPE is DEFER, and its deferrals have not reached the limit (R205). -/
def State.mayDefer (s : State) (p : Nat) (r : Req) : Bool :=
  (if r.typ = 1 then s.g F.RTU_PCFG_POL_SET p = 1 else r.typ = 3 && s.g F.RTU_PCFG_POL_PERM p = 1) && r.defers < s.g F.RTU_PCFG_DEFER_MAX p

/-- A request is deferred (R240): its charge is refunded; a full queue completes it COLLATERAL_REJECT. [DEDUCED: log 89] -/
def State.deferReq (s : State) (p : Nat) (x : Rec) : State :=
  let s := ((s.dropRec p x.slot).noRefund p x.handle).when x.req.admitted (fun s => s.setRemain p (s.remain p + x.req.borne))
  let r := { x.req with admitted := false, jobs := 0, back := false, growth := 0, defers := x.req.defers + 1, renewals := (s.port p).renewals }
  if 64 ≤ (s.port p).dq.length then (s.complete r.ring r.tag 4 0 0 r.defers).queueOvf (p + 65536)
  else s.updPort p (fun y => { y with dq := y.dq ++ [r] })

/-- [DEDUCED: log 78] -/
def cplDefer (h : Nat) (s : State) : State :=
  s.swOp h (isOpc 0x81 1) allModes (fun i s =>
    if s.gOf h i.s2 != 0 then s.swExc h swArg i
    else s.withRec h (s.gOf h i.s1) i (fun _ x s =>
      (if x.orphan then s.dropRec h x.slot
       else if s.mayDefer h x.req then s.deferReq h x
       else s.closeRec h x 4 0).retireAll h i))

def execCplPostDefer (h : Thr) (s : State) : Out := clocked s (cplDefer h.val)

/-! ### Routing (R207 to R210) -/

def State.jobOut (s : State) (p : Nat) : Bool := (s.rp p).job.isSome

/-- NOPS and the op words of a record (R203); none for a NOPS that the payload does not hold. [DEDUCED: log 70] -/
def State.recOps (s : State) (p : Nat) (bs : List Byte) (x : Rec) : Option (List CircOp) :=
  let n := bitsOf (leNat ((bs.drop 16).take 4)) 0 11
  let ok := if x.req.xp then 1 ≤ n && n ≤ 1024 && 4 * n ≤ x.req.xlen else 1 ≤ n && n ≤ 11
  let word (k : Nat) : Nat := if x.req.xp then s.rdN (dmBase p + x.xa + 4 * k) 4 else leNat ((bs.drop (20 + 4 * k)).take 4)
  if ok then some ((List.range n).map (fun k => ⟨bitsOf (word k) 0 10, bitsOf (word k) 16 10, x.req.typ = 2 || bitOf (word k) 31⟩)) else none

/-- [DEDUCED: log 70, 77, 79] -/
def routeOp (h : Nat) (s : State) : State :=
  s.swOp h (isOpcAny 0x82) allModes (fun i s =>
    if s.jobOut h then s.swExc h swBusy i
    else s.withRec h (s.gOf h i.s1) i (fun bs x s =>
      if x.req.typ != 1 && x.req.typ != 2 then s.swExc h swRec i
      else
        let j (ops : List CircOp) : Job := { ring := some x.req.ring, handle := some x.handle, priv := x.req.priv, pol := if x.req.typ = 1 then 1 else 0, ops := ops, perm := none }
        (match s.recOps h bs x with
         | none => if s.pm h = 2 then s.submit h (j []) else s.failJob h (j []) 4
         | some ops => s.submit h (j ops)).retireAll h i))

def execRoute (h : Thr) (s : State) : Out := clocked s (routeOp h.val)

/-- The last result into Gd, Z for OK (R209). -/
def State.routeResult (s : State) (h d : Nat) : State :=
  let v := (s.rp h).last
  (s.wrAll h d (BitVec.ofNat 64 v)).zAll h (v = 0)

def routeWait (h : Nat) (s : State) : State :=
  s.swOp h (isOpcAny 0x83) allModes (fun i s =>
    if !s.jobOut h then (s.routeResult h i.d).retireAll h i
    else if i.func = 1 then ((s.wrAll h i.d 0xFF).zAll h false).retireAll h i
    else s.waitAll h (.route i.d) true)

def execRouteWait (h : Thr) (s : State) : Out := clocked s (routeWait h.val)

def routeWaitWake (h : Nat) (s : State) : State :=
  match (s.leadTh h).wait with
  | some (.route d) => if s.hasLead && !s.jobOut h then s.wake h (fun s => s.routeResult h d) else s
  | _ => s

def execRouteWaitWake (h : Thr) (s : State) : Out := clocked s (routeWaitWake h.val)

/-- [DEDUCED: log 70, 77] -/
def permLoad (h : Nat) (s : State) : State :=
  s.swOp h (isOpcAny 0x84) allModes (fun i s =>
    let e := s.gOf h i.s1 % 4096
    let full := i.func = 1
    if s.jobOut h then s.swExc h swBusy i
    else if i.s2 = 0 then
      (s.submit h { ring := none, handle := none, priv := false, pol := 0, ops := [], perm := some e, full := full }).retireAll h i
    else s.withRec h (s.gOf h i.s2) i (fun _ x s =>
      (s.submit h { ring := some x.req.ring, handle := some x.handle, priv := x.req.priv, pol := 2, ops := [], perm := some e, full := full }).retireAll h i))

def execPermLoad (h : Thr) (s : State) : Out := clocked s (permLoad h.val)

def planClrOp (h : Nat) (s : State) : State :=
  s.swOp h (isOpc 0x85 0) hscm (fun i s =>
    if s.armed h then s.swExc h swArmed i
    else if s.jobOut h then s.swExc h swBusy i
    else (s.planClr h).retireAll h i)

def execPlanClr (h : Thr) (s : State) : Out := clocked s (planClrOp h.val)

/-- PLAN.CLR.LAST withdraws the tentative group (R210). -/
def State.withdrawLast (s : State) (p : Nat) : State :=
  match (s.rp p).tent with
  | none => s
  | some t => s.updRp p (fun r => { r with circ := t.circ, pcells := t.pcells, plan := t.plan, tent := none })

def planClrLast (h : Nat) (s : State) : State :=
  s.swOp h (isOpc 0x85 1) hscm (fun i s =>
    if s.armed h then s.swExc h swArmed i
    else if s.jobOut h then s.swExc h swBusy i
    else (s.withdrawLast h).retireAll h i)

def execPlanClrLast (h : Thr) (s : State) : Out := clocked s (planClrLast h.val)

/-! ### Staging (R211, R212, R252) -/

/-- A burst as its digest takes it (R137, R252). -/
def burstBytes (b : Burst) : List Byte :=
  let dest := if b.kind = 2 then 1 else 0
  leBytes 4 (b.tile + b.slot % 64 * 2 ^ 4 + dest * 2 ^ 10 + b.part * 2 ^ 16)
    ++ b.words.flatMap (fun w => leBytes 4 (aoChan w.ao + w.state % 4 * 2 ^ 11 + b2n w.expl * 2 ^ 13 + dest * 2 ^ 14 + w.code % 65536 * 2 ^ 16))

/-- A burst leaves for its tile; one for a tile that no frame reaches is lost at once (R139). [DEDUCED: log 72] -/
def State.sendBurst (s : State) (b : Burst) : State :=
  if s.live b.tile then
    (if b.kind = 3 then s.passEffect 0 (burstBytes b) else s.feed 0 b.part (burstBytes b) : State) |> fun s => { s with rtu.bursts := s.rtu.bursts ++ [b] }
  else s.loseBurst b

/-- A staging instruction sends its bursts and holds the thread until they are acknowledged; form: 0 STAGE, 1 FILL, 2 CACHE, 3 explicit words. [DEDUCED: log 72] -/
def State.sendAll (s : State) (h d form : Nat) (l : List Burst) : State :=
  let s := s.updRp h (fun r => { r with refused := 0, fillRef := 0 })
  ((s.each l State.sendBurst).waitAll h (.stage d form) false).stageEnd h

/-- Words by tile, in ascending tile. -/
def byTile (p kind slot : Nat) (ws : List SWord) : List Burst :=
  ((List.range 16).map (fun t => ({ part := p, tile := t, kind := kind, slot := slot, words := ws.filter (fun w => aoTile w.ao = t) } : Burst))).filter
    (fun b => !b.words.isEmpty)

def shSet (h : Nat) (s : State) : State :=
  s.swOp h (isOpcAny 0x86) hscm (fun i s =>
    let a := s.gOf h i.s1
    if s.armed h then s.swExc h swArmed i
    else if 20480 ≤ a then s.swExc h swArg i
    else s.sendAll h i.d 3 (byTile h 1 0 [⟨a, 0, true, s.gOf h i.s2 % 65536⟩]))

def execShSet (h : Thr) (s : State) : Out := clocked s (shSet h.val)

def shList (h : Nat) (s : State) : State :=
  s.swOp h (isOpcAny 0x87) hscm (fun i s =>
    let n := s.gOf h i.s2
    if s.armed h then s.swExc h swArmed i
    else if n = 0 || 1024 < n then s.swExc h swArg i
    else s.withBytes h (s.gOf h i.s1) (4 * n) 8 (fun bs s =>
      let ws := (List.range n).map (fun k => leNat ((bs.drop (4 * k)).take 4))
      if ws.any (fun w => 20480 ≤ w % 32768) then s.swExc h swArg i
      else s.sendAll h i.d 3 (byTile h 1 0 (ws.map (fun w => ⟨w % 32768, 0, true, bitsOf w 16 16⟩)))))

def execShList (h : Thr) (s : State) : Out := clocked s (shList h.val)

/-- The staging words of plan entries. -/
def planWords (l : List PlanEnt) : List SWord := l.map (fun e => ⟨e.ao, e.state, false, 0⟩)

/-- STAGE and its forms: refused while a commit is armed or a job outstanding (R198). [DEDUCED: log 64] -/
def State.stageOp (s : State) (h form : Nat) (f : OIns → State → State) : State :=
  s.swOp h (isOpc 0x88 form) hscm (fun i s =>
    if s.armed h then s.swExc h swArmed i
    else if s.jobOut h then s.swExc h swBusy i
    else if form != 0 && 64 ≤ s.gOf h i.s1 then s.swExc h swArg i
    else f i s)

def stagePlan (h : Nat) (s : State) : State :=
  s.stageOp h 0 (fun i s =>
    let s := s.updRp h (fun r =>
      let r := r.openPlan
      { r with tent := none, hint := if r.plan.any (fun e => !e.stg) then none else r.hint })
    s.sendAll h i.d 0 (byTile h 0 0 (planWords ((s.rp h).plan.filter (fun e => !e.stg)))))

def execStage (h : Thr) (s : State) : Out := clocked s (stagePlan h.val)

/-- The tiles that hold an AO of a descriptor's segments. -/
def Desc.tiles (d : Desc) : List Nat := (List.range 16).filter (fun t => d.segs.any (fun x => x.1 < (t + 1) * 1280 && t * 1280 < x.1 + x.2))

def stageFill (h : Nat) (s : State) : State :=
  s.stageOp h 1 (fun i s =>
    let s := s.updRp h (fun r => { r.openPlan with tent := none })
    let ws := planWords (s.rp h).plan
    s.sendAll h i.d 1 (((s.rp h).desc.tiles).map (fun t =>
      ({ part := h, tile := t, kind := 2, slot := s.gOf h i.s1, words := ws.filter (fun w => aoTile w.ao = t) } : Burst))))

def execStageFill (h : Thr) (s : State) : Out := clocked s (stageFill h.val)

/-- [DEDUCED: log 53] -/
def stageCache (h : Nat) (s : State) : State :=
  s.stageOp h 2 (fun i s =>
    let s := s.updRp h RtPart.openPlan
    if !(s.rp h).plan.isEmpty then s.swExc h swPlan i
    else
      let slot := s.gOf h i.s1
      let v := s.gOf h i.s2
      let aos := s.cacheAos h slot
      let s := s.updRp h (fun r => { r with tent := none, hint := some (if bitOf v 12 then some (v % 4096) else none), cached := aos, cmiss := false })
      s.sendAll h i.d 2 (((List.range 16).filter s.live).map (fun t => ({ part := h, tile := t, kind := 3, slot := slot } : Burst))))

def execStageCache (h : Thr) (s : State) : Out := clocked s (stageCache h.val)

/-! ### Arming and commit (R213 to R215) -/

/-- ARM completes (R213): its 16 bytes join the digest, which is compared (R252); Gd, Z, L and, with WT, the armed instant. [DEDUCED: log 52, 72] -/
def State.armEnd (s : State) (h d mask : Nat) (t : RWord) (wt : Option Nat) : State :=
  let s := (s.feed 0 h (leBytes 2 mask ++ leBytes 2 0 ++ leBytes 12 t.toNat)).digestDue 0 h mask
  let late := bitOf ((s.leadTh h).scrOf scrMode) 0
  let r := s.armTry h mask t late
  let s := ((r.1.wrAll h d (BitVec.ofNat 64 r.2.1)).zAll h (r.2.1 = 0)).lAll h (r.2.1 = 1 || r.2.1 = 2)
  match wt, r.2.2 with
  | some k, some tc => s.wrTAll h k (tvOf (psUnits tc) 0)
  | _, _ => s

def wtOf (i : OIns) : Option Nat := if bitOf i.func 3 then some (i.func % 8) else none

def armOp (h : Nat) (s : State) : State :=
  s.swOp h (isOpcAny 0x89) scm (fun i s =>
    let t := (s.leadTh h).tr i.s1
    let m := s.gOf h i.s2 % 65536
    let mask := if m = 0 then 2 ^ h else m
    if s.armed h then s.swExc h swArmed i
    else if tvBase t != 0 then s.swExc h swArg i
    else if s.staging mask then s.waitAll h (.arm i.d t mask (wtOf i)) true
    else (s.armEnd h i.d mask t (wtOf i)).retireAll h i)

def execArm (h : Thr) (s : State) : Out := clocked s (armOp h.val)

/-- The staging that ARM waits for is acknowledged; a partition that has left its mode meanwhile makes ARM raise SW_MODE, and one that a commit of another thread has armed meanwhile SW_ARMED (R198). [DEDUCED: log 76] -/
def armResume (h : Nat) (s : State) : State :=
  match (s.leadTh h).wait with
  | some (.arm d t mask wt) =>
    let stop (code : Nat) : State := (s.each s.lock (fun s m => s.setThState m h 1)).swExc h code { opc := 0x89 }
    if !s.hasLead || s.staging mask then s
    else if !scm.contains (s.pm h) then stop swMode
    else if s.armed h then stop swArmed
    else s.wake h (fun s => s.armEnd h d mask t wt)
  | _ => s

def execArmResume (h : Thr) (s : State) : Out := clocked s (armResume h.val)

/-- LAST_RESULT into Gd, Z for OK; with WT the last commit instant (R214). [DEDUCED: log 52, 71] -/
def State.commitResult (s : State) (h d : Nat) (wt : Option Nat) : State :=
  let v := s.g F.RTU_PSTAT_LAST_RESULT h
  let s := (s.wrAll h d (BitVec.ofNat 64 v)).zAll h (v = 1)
  match wt with
  | some k => s.wrTAll h k (tvOf (psUnits ((s.rp h).lastTc.getD 0)) 0)
  | none => s

def commitWait (h : Nat) (s : State) : State :=
  s.swOp h (isOpcAny 0x8A) allModes (fun i s =>
    if s.armed h || s.unclosed h then s.waitAll h (.commit i.d (wtOf i)) true
    else (s.commitResult h i.d (wtOf i)).retireAll h i)

def execCommitWait (h : Thr) (s : State) : Out := clocked s (commitWait h.val)

def commitWaitWake (h : Nat) (s : State) : State :=
  match (s.leadTh h).wait with
  | some (.commit d wt) => if s.hasLead && !(s.armed h || s.unclosed h) then s.wake h (fun s => s.commitResult h d wt) else s
  | _ => s

def execCommitWaitWake (h : Thr) (s : State) : Out := clocked s (commitWaitWake h.val)

def abortOp (h : Nat) (s : State) : State :=
  s.swOp h (isOpcAny 0x8B) hscm (fun i s =>
    match s.cancellable h with
    | some c => ((s.cancelCommit c 5).abortEffects h).swDone h i 0
    | none => if s.armed h || s.unclosed h then s.waitAll h (.abort i.d) true else (s.abortEffects h).swDone h i 2)

def execAbort (h : Thr) (s : State) : Out := clocked s (abortOp h.val)

def abortWake (h : Nat) (s : State) : State :=
  match (s.leadTh h).wait with
  | some (.abort d) => if s.hasLead && !(s.armed h || s.unclosed h) then s.wake h (fun s => s.wrAll h d 1) else s
  | _ => s

def execAbortWake (h : Thr) (s : State) : Out := clocked s (abortWake h.val)

/-! ### Loops and sampling (R216 to R218) -/

/-- [DEDUCED: log 73] -/
def lawSet (h : Nat) (s : State) : State :=
  s.swOp h (isOpcAny 0x8C) allModes (fun i s =>
    let a := s.gOf h i.s1
    if 20480 ≤ a then s.swExc h swArg i
    else s.withBytes h (s.gOf h i.s2) 128 64 (fun bs s =>
      if !s.ona F.AO_CFG_OWNED a || s.ga F.AO_CFG_PART a != h then s.swDone h i 1
      else
        let u := s.lawUnit h i.d a (i.func % 2) bs
        u.1.swDone h i (if u.2 then 0 else 1)))

def execLawSet (h : Thr) (s : State) : Out := clocked s (lawSet h.val)

/-- Contexts of a set that are not LOCKED, and whether every one has settled: LOCKED, HELD or FAULT (R217). -/
def State.notLocked (s : State) (l : List Nat) : Nat := (l.filter (fun a => s.cg 0 a C.STATE != 2)).length
def State.settled (s : State) (l : List Nat) : Bool := l.all (fun a => s.cg 0 a C.STATE = 2 || s.cg 0 a C.STATE = 0 || s.cg 0 a C.STATE = 4)
def State.barEnd (s : State) (h d : Nat) (l : List Nat) : State :=
  let n := s.notLocked l
  (s.wrAll h d (BitVec.ofNat 64 n)).zAll h (n = 0)
def State.barDone (s : State) (l : List Nat) (tmo : Option RWord) : Bool :=
  s.settled l || (match tmo with
    | some t => s.tvReached t
    | none => false)

def leBar (h : Nat) (s : State) : State :=
  s.swOp h (isOpcAny 0x8D) allModes (fun i s =>
    let l := (s.rp h).exch.getD []
    let tmo := if i.func = 1 then some ((s.leadTh h).tr i.s2) else none
    if s.barDone l tmo then (s.barEnd h i.d l).retireAll h i else s.waitAll h (.bar i.d l tmo) true)

def execLeBar (h : Thr) (s : State) : Out := clocked s (leBar h.val)

def leBarWake (h : Nat) (s : State) : State :=
  match (s.leadTh h).wait with
  | some (.bar d l tmo) => if s.hasLead && s.barDone l tmo then s.wake h (fun s => s.barEnd h d l) else s
  | _ => s

def execLeBarWake (h : Thr) (s : State) : Out := clocked s (leBarWake h.val)

/-- [DEDUCED: log 69] -/
def sampFocus (h : Nat) (s : State) : State :=
  s.swOp h (isOpc 0x91 0) allModes (fun i s =>
    let m := s.gOf h i.s1
    let l := (s.md (miTile m) (miMadc m)).shadow
    if 16384 ≤ m then s.swExc h swArg i
    else if !s.miOwned m h then s.swDone h i 1
    else (s.focusAdd h m).swDone h i (if 16 ≤ l.length && !l.contains (h, miPos m) then 2 else 0))

def execSampFocus (h : Thr) (s : State) : Out := clocked s (sampFocus h.val)

def sampFocusEn (h : Nat) (s : State) : State :=
  s.swOp h (isOpc 0x91 1) allModes (fun i s =>
    let on := s.gOf h i.s1 % 2 = 1
    (s.each (List.range 16) (fun s t => s.put F.MI_FOCUS_CTL_PEN (setBitTo (s.g F.MI_FOCUS_CTL_PEN t) h on) t)).swDone h i 0)

def execSampFocusEn (h : Thr) (s : State) : Out := clocked s (sampFocusEn h.val)

/-! ### Partition control and budget (R219 to R221) -/

def partMode (h : Nat) (s : State) : State :=
  s.swOp h (isOpcAny 0x8E) allModes (fun i s =>
    let code := s.gOf h i.s1 % 16
    if 4 < code then s.swExc h swArg i
    else
      let r := s.askMode h code
      (if r.2 then { r.1 with seq.pmAt := Map.ins s.seq.pmAt h (s.cycle, code) } else r.1).swDone h i (if r.2 then 0 else 1))

def execPartMode (h : Thr) (s : State) : Out := clocked s (partMode h.val)

/-- A fence instruction on a partition of the thread's FMASK (R220, R223). -/
def State.fenceOp (s : State) (h opc : Nat) (f : OIns → Nat → State → State) : State :=
  s.swOp h (isOpcAny opc) allModes (fun i s =>
    let q := s.gOf h i.s1 % 16
    if bitOf (s.g F.SEQ_THR_SWP_FMASK h) q then f i q s else s.swExc h swPerm i)

/-- FENCE.P completes when the fence has taken effect; a thread that fences its own partition stops after it (R220). -/
def fenceP (h : Nat) (s : State) : State := s.fenceOp h 0x8F (fun i q s => (s.retireAll h i).fenceNow 0 q)
def execFenceP (h : Thr) (s : State) : Out := clocked s (fenceP h.val)

/-- UNFENCE.P (R220, R344): refused where the partition is not fenced, or a command or its resume is in progress. -/
def unfenceP (h : Nat) (s : State) : State :=
  s.fenceOp h 0x90 (fun i q s =>
    if s.partFenced q && !s.resuming 0 q && !s.on F.FLT_FENCE_STAT_BUSY then (s.startResume 0 q).swDone h i 0
    else (s.put F.FLT_FENCE_STAT_REFUSED 1).swDone h i 1)
def execUnfenceP (h : Thr) (s : State) : Out := clocked s (unfenceP h.val)

def budgetChk (h : Nat) (s : State) : State :=
  s.swOp h (isOpcAny 0x92) allModes (fun i s =>
    let r : W64 := BitVec.ofInt 64 (s.remain h) - (s.leadTh h).gr i.s1
    ((s.each s.lock (fun s m => s.updTh m h (fun x => x.setStatus (withZN x.status r)))).wrAll h i.d r).retireAll h i)

def execBudgetChk (h : Thr) (s : State) : Out := clocked s (budgetChk h.val)

/-! ### Rotor control (R222) -/

/-- The 132 words of an image into a buffer. -/
def State.rotImage (s : State) (p b : Nat) (bs : List Byte) : State :=
  s.each (List.range 132) (fun s w => s.put F.RTU_ROT_BUF_VAL (leNat ((bs.drop (4 * w)).take 4) &&& bufMask w) p (b * 256 + w))

def rotorLoad (h : Nat) (s : State) : State :=
  s.swOp h (isOpcAny 0xC0) allModes (fun i s =>
    s.withBytes h (s.gOf h i.s1) 528 8 (fun bs s =>
      let s := s.digestDue 0 h 0
      let b := 1 - s.actBuf h
      if !s.bufOpen h b then (s.put F.RTU_ROT_STAT_BUF_REFUSED 1 h).swDone h i 1
      else
        let s := s.rotImage h b bs
        if i.func = 1 then
          let r := s.rotSwap h
          r.1.swDone h i r.2
        else s.swDone h i 0))

def execRotorLoad (h : Thr) (s : State) : Out := clocked s (rotorLoad h.val)

def rotorGo (h : Nat) (s : State) : State :=
  s.swOp h (isOpcAny 0xC1) allModes (fun i s =>
    let r := s.rotGo h
    r.1.swDone h i r.2)

def execRotorGo (h : Thr) (s : State) : Out := clocked s (rotorGo h.val)

/-- ROTOR.STOP (R222): with .W it waits until the engine is IDLE. [DESIGN CHOICE: log 228] -/
def rotorStop (h : Nat) (s : State) : State :=
  s.swOp h (isOpcAny 0xC2) allModes (fun i s =>
    if s.roState h = 0 then s.swDone h i 1
    else
      if bitOf i.func 1 then
        let s := s.rotAsk h (bitOf i.func 0)
        if s.roState h = 0 then s.swDone h i 0 else s.waitAll h (.rotor i.d) true
      else (if bitOf i.func 0 then s.rotStopNow h else s.rotStop h).swDone h i 0)

def execRotorStop (h : Thr) (s : State) : Out := clocked s (rotorStop h.val)

def rotorStopWake (h : Nat) (s : State) : State :=
  match (s.leadTh h).wait with
  | some (.rotor d) => if s.hasLead && s.roState h = 0 then s.wake h (fun s => s.wrAll h d 0) else s
  | _ => s

def execRotorStopWake (h : Thr) (s : State) : Out := clocked s (rotorStopWake h.val)

end Sys2Proof.Machine
end

