-- ==== Sys2Proof/Machine/Twins.lean ====
section
/-! DEFINITION. The twin pairs (10: R247 to R266): leases, planned transfers, member states, comparison and its outcomes, machine checks. -/

namespace Sys2Proof.Machine

/-! ### Leases (R249) -/

/-- The holder renews; a renewal from another member is ignored. -/
def leaseRenewal (x m : Nat) (s : State) : State :=
  if s.holds x m then
    let us := s.leaseUs x
    s.updTw x (fun w => { w with renewed := s.cycle, lease := us })
  else s

def execLeaseRenewal (x : Pair) (m : Member) (s : State) : Out := clocked s (leaseRenewal x m)

/-- The fault of a lost lease. -/
def State.leaseFault (s : State) (x m : Nat) : State := if x = 0 then s.raise 3 m else s.raise 7 (x - 1 + 16 * m)

/-- No renewal within LEASE_US of the last one. [DEDUCED: log 103] -/
def leaseExpiry (x : Nat) (s : State) : State :=
  let w := s.tw x
  if s.noHolder x || s.engGated || s.cycle < w.renewed + 1000 * w.lease then s
  else
    let m := s.holder x
    ((s.leaseFault x m).setCause x m 5).memberLost x m

def execLeaseExpiry (x : Pair) (s : State) : Out := clocked s (leaseExpiry x)

/-! ### Planned transfers (R250) -/

/-- A planned transfer is wanted from now on. -/
def State.wantMove (s : State) (x : Nat) : State := s.updTw x (fun w => { w with reqAt := some s.cycle, hand := false })

/-- A write of MOVE. -/
def leaseMove (x : Nat) (s : State) : State :=
  if s.noHolder x || s.mstate x (1 - s.holder x) != 4 then s.pp F.SEQ_LEASE_STAT_MOVE_REFUSED F.LE_LEASE_STAT_MOVE_REFUSED 1 x
  else if s.pg F.SEQ_LEASE_STAT_MOVE_PEND F.LE_LEASE_STAT_MOVE_PEND x = 1 then s
  else ((s.pp F.SEQ_LEASE_STAT_MOVE_PEND F.LE_LEASE_STAT_MOVE_PEND 1 x).pp F.SEQ_LEASE_CTL_MOVE F.LE_LEASE_CTL_MOVE 1 x).wantMove x

def execLeaseMove (x : Pair) (s : State) : Out := clocked s (leaseMove x)

/-- No staging instruction and no ARM is in progress on any thread; for a Loop Engine pair, no update is in flight. [DEDUCED: log 98] -/
def State.quietPair (s : State) (x : Nat) : Bool :=
  if x = 0 then
    (List.range 16).all (fun h => match (s.leadTh h).wait with
      | some (.stage _ _) => false
      | some (.arm _ _ _ _) => false
      | _ => true)
  else s.le.outs.all (fun o => aoTile o.ao != x - 1)

/-- A handover point: of the ordinary kind, or after 10 ms without one. [DEDUCED: log 98] -/
def State.atHandover (s : State) (x : Nat) : Bool :=
  let w := s.tw x
  w.hand || (match w.reqAt with
    | some c => c + 10000000 < s.cycle && s.quietPair x
    | none => false)

/-- The transfer that a MOVE or a take-back calls for. [DEDUCED: log 98, 99] -/
def handover (x : Nat) (s : State) : State :=
  let m := 1 - s.holder x
  if s.noHolder x || s.mstate x m != 4 || !s.atHandover x then s
  else if s.moveWanted x then s.passToken x m
  else s.handPoint x

def execHandover (x : Pair) (s : State) : Out := clocked s (handover x)

/-! ### Member states (R251, R258, R262) -/

def execMemberRestart (x : Pair) (m : Member) (s : State) : Out := clocked s (fun s => s.restartMember x m)

/-- A member's patch, with the parity bits of each word, or ROM alone (R260, R264). -/
def State.setPatch (s : State) (x m : Nat) (g : Option PatchImage) : State :=
  let put (s : State) (fs fl : Fld) (v : Nat) : State := s.mp fs fl v x m
  match g with
  | none =>
    let s := put (put s F.SEQ_PATCH_LEVEL F.LE_PATCH_LEVEL 0) F.SEQ_PATCH_INFO_ARB F.LE_PATCH_INFO_ARB 0
    let s := put (put s F.SEQ_PATCH_INFO_LOADED F.LE_PATCH_INFO_LOADED 0) F.SEQ_PATCH_INFO_NMATCH F.LE_PATCH_INFO_NMATCH 0
    (put s F.SEQ_PATCH_INFO_NWORDS F.LE_PATCH_INFO_NWORDS 0).updTw x (fun w => { w with mems := Map.upd w.mems m {} (fun y => { y with patch := none, arb := none }) })
  | some g =>
    let s := put (put s F.SEQ_PATCH_LEVEL F.LE_PATCH_LEVEL g.level) F.SEQ_PATCH_INFO_ARB F.LE_PATCH_INFO_ARB g.arb
    let s := put (put s F.SEQ_PATCH_INFO_LOADED F.LE_PATCH_INFO_LOADED 1) F.SEQ_PATCH_INFO_NMATCH F.LE_PATCH_INFO_NMATCH g.entries.length
    let p : PatchRam := ⟨g.ident, g.entries, g.words.map (fun w => (w, microParity x w))⟩
    (put s F.SEQ_PATCH_INFO_NWORDS F.LE_PATCH_INFO_NWORDS g.words.length).updTw x (fun w => { w with mems := Map.upd w.mems m {} (fun y => { y with patch := some p, arb := some g.arb }) })

/-- The outcome that PATCH_LOAD_DONE carries, an image with code 0 or the code of the check that fails, is the one that the bytes of flash give. [DESIGN CHOICE: log 11] -/
def loadAgrees (r : Except Nat PatchImage) (code : Nat) (g : PatchImage) : Bool :=
  match r with
  | .ok h => code = 0 && h = g
  | .error c => code = c

/-- The loader has finished with a member in LOADING (R251, R265): the image of flash, or the code of the check that it fails. The command stands for the outcome that flash gives and for no other. -/
def patchLoadDone (x m code : Nat) (g : PatchImage) (s : State) : State :=
  if s.mstate x m != 1 || !loadAgrees (s.patchImage x) code g then s
  else
    match s.patchImage x with
    | .ok g =>
      let romTwin := s.mode = 2 && 2 ≤ s.mstate x (1 - m) && (s.ident x (1 - m)).isNone
      (s.setPatch x m (if romTwin then none else some g)).memberTo x m 2
    | .error c =>
      let s := s.raise 52 (if x = 0 then c + m * 512 else c + 16 + (x - 1) * 32 + m * 512)
      if s.mode = 2 then (((s.setPatch x m none).setPatch x (1 - m) none).memberTo x m 2).bootFail 3
      else (s.setCause x m 7).memberOff x m

def execPatchLoadDone (x : Pair) (m : Member) (code : Fin 7) (g : PatchImage) (s : State) : Out := clocked s (patchLoadDone x m code g)

/-- The machine-check fault of a member (R262, R340). -/
def State.mcFault (s : State) (x m cause ua : Nat) : State :=
  if x = 0 then s.raise m (cause + ua * 65536) else s.raise 5 (x - 1 + m * 16 + cause * 256 + ua * 65536)

/-- A machine check stops a member: its cause is recorded, and the twin takes over. -/
def State.machineCheck (s : State) (x m cause ua : Nat) : State :=
  (((s.setCause x m cause).setUaddr x m ua).mcFault x m cause ua).memberLost x m

/-- At boot the member that PREF names takes the token, and the other joins it (R251, R365); otherwise the first that passes. -/
def State.mayTake (s : State) (x m : Nat) : Bool :=
  s.noHolder x && (s.mode != 2 || s.pg F.SEQ_LEASE_CFG_PREF F.LE_LEASE_CFG_PREF x = m || s.mstate x (1 - m) = 0)

/-- A member in SELFTEST passes or fails; cls is the unit class of a failure (R251, R258). [DEDUCED: log 100] -/
def selftestDone (x m : Nat) (ok : Bool) (cls ua : Nat) (s : State) : State :=
  if s.mstate x m != 2 then s
  else if ok then (if s.mayTake x m then s.takeToken x m else s.memberTo x m 3)
  else
    let s := (s.mp F.SEQ_HEALTH_FAIL F.LE_HEALTH_FAIL cls x m).machineCheck x m 8 ua
    s.when (s.mode = 2) (fun s => s.bootFail 4)

def execSelftestDone (x : Pair) (m : Member) (ok : Bool) (cls : Fin 16) (ua : BitVec 13) (s : State) : Out :=
  clocked s (selftestDone x m ok cls ua.toNat)

/-- A Sequencer member copies the threads of the holder. -/
def State.copyThreads (s : State) (m : Nat) : State :=
  let k := s.holder 0
  let s := s.each (List.range 16) (fun s h =>
    let x := s.th k h
    ((s.updTh m h (fun _ => x)).setThState m h (s.thState k h)).put F.SEQ_THR_STAT_CAUSE (s.g F.SEQ_THR_STAT_CAUSE k h) m h)
  s.put F.SEQ_STAT_HALTMAP (s.g F.SEQ_STAT_HALTMAP k) m

/-- A resyncing member enters INSYNC (R251) with the holder's threads and its replay buffer (R248); from then on it may take the token back (R250). [DEDUCED: log 99] -/
def resyncDone (x m : Nat) (s : State) : State :=
  if s.mstate x m != 3 || s.noHolder x then s
  else
    let s := s.when (x = 0) (fun s => s.copyThreads m)
    let held := (s.mem' x (s.holder x)).replay
    let s := (s.memberUp x m).suspSync x
    (((s.updMem x m (fun y => { y with replay := held })).updTw x (fun w => { w with back := some m })).wantMove x)

def execResyncDone (x : Pair) (m : Member) (s : State) : Out := clocked s (resyncDone x m)

/-- An idle self-test sweep ends (R258). [DEDUCED: log 103] -/
def sweepDone (x m : Nat) (ok : Bool) (cls ua : Nat) (s : State) : State :=
  if s.mstate x m != 4 || s.engGated then s
  else if ok then
    let n := s.mg F.SEQ_HEALTH_SWEEPS F.LE_HEALTH_SWEEPS x m
    ((s.mp F.SEQ_HEALTH_SWEEPS F.LE_HEALTH_SWEEPS (n + 1) x m).mp F.SEQ_HEALTH_AGE F.LE_HEALTH_AGE 0 x m).updTw x
      (fun w => { w with mems := Map.upd w.mems m {} (fun y => { y with sweepAt := some s.cycle }) })
  else ((s.mp F.SEQ_HEALTH_FAIL F.LE_HEALTH_FAIL cls x m).mp F.SEQ_HEALTH_GOOD F.LE_HEALTH_GOOD 0 x m).machineCheck x m 3 ua

def execSelftestSweepDone (x : Pair) (m : Member) (ok : Bool) (cls : Fin 16) (ua : BitVec 13) (s : State) : Out :=
  clocked s (sweepDone x m ok cls ua.toNat)

/-- A parity error in patch RAM stays until RESTART reloads the RAM (R262): the parity bits of the word no longer agree with it. -/
def State.spoilWord (s : State) (x m ua : Nat) : State :=
  let k := storeShape x
  if ua < k.rom then s
  else s.updMem x m (fun y => { y with patch := y.patch.map (fun p => { p with words := p.words.modify (ua - k.rom) (fun w => (w.1, 15 - microParity x w.1)) }) })

/-- A member goes through the microword at its microaddress (R260 to R262): parity, NSEL, the match table; a bad word or a bad next address is a machine check. [DESIGN CHOICE: log 231] -/
def State.microCycle (s : State) (x m : Nat) (cond : Bool) (entry : Nat) : State :=
  let y := s.mem' x m
  let w := s.microword x m y.upc
  if w.2 != microParity x w.1 then s.machineCheck x m 1 y.upc
  else
    match (microNext x w.1 y.upc y.uret cond entry).map (s.microMatch x m) with
    | none => s.machineCheck x m 2 y.upc
    | some a =>
      if populated x a then s.updMem x m (fun z => { z with upc := a, uret := microRet x w.1 y.upc y.uret })
      else s.machineCheck x m 2 y.upc

/-- What befalls a member that runs microcode at its control store (R262); ua is the address of the microword, or, for a cycle, where a dispatch leads. [DEDUCED: log 103; DESIGN CHOICE: log 231] -/
def machineCheckEvt (x m : Nat) (e : MicroEvt) (ua : Nat) (s : State) : State :=
  if s.mstate x m < 2 || s.engGated then s
  else
    match e with
    | .parity => (s.spoilWord x m ua).machineCheck x m 1 ua
    | .badAddr => s.machineCheck x m 2 ua
    | .cycle cond => s.microCycle x m cond ua

def execMachineCheck (x : Pair) (m : Member) (e : MicroEvt) (ua : BitVec 13) (s : State) : Out := clocked s (machineCheckEvt x m e ua.toNat)

/-! ### Comparison (R252 to R256) -/

def State.setDigest (s : State) (x m : Nat) (d : W64) : State := s.mp F.SEQ_DIGEST_DIGEST F.LE_DIGEST_DIGEST d.toNat x m

/-- A comparison fails: both micro-diagnostics start (R255). -/
def State.mismatch (s : State) (x : Nat) (d : DigDue) : State :=
  let s := (s.psat F.SEQ_CMP_CNT_MISMATCH F.LE_CMP_CNT_MISMATCH x).pp F.SEQ_LEASE_STAT_DIAG F.LE_LEASE_STAT_DIAG 1 x
  let s := if x = 0 then s.put F.SEQ_LEASE_STAT_LAST_PART d.part else s
  s.updTw x (fun w => { w with diag := some d, dues := [] })

/-- The oldest comparison due, if one is to be made: other is the standby's digest, none where it has not come within 1 us. [DEDUCED: log 94, 95] -/
def State.compareWith (s : State) (x : Nat) (other : Option W64) : State :=
  match (s.tw x).dues with
  | [] => s
  | d :: rest =>
    let s := s.updTw x (fun w => { w with dues := rest })
    if s.suspReason x != 0 || (s.tw x).diag.isSome then s
    else
      let s := (s.psat F.SEQ_COMPARES_N F.LE_COMPARES_N x).setDigest x (s.holder x) d.dig
      match other with
      | none => s.mismatch x d
      | some o =>
        let s := s.setDigest x (1 - s.holder x) o
        if o = d.dig then
          let s := s.updTw x (fun w => { w with run := 0, matched := d.part :: w.matched.filter (fun q => q ≠ d.part) })
          if x = 0 then s else s.handPoint x
        else s.mismatch x d

def execDigestCompare (x : Pair) (other : W64) (s : State) : Out := clocked s (fun s => s.compareWith x (some other))
def execDigestTimeout (x : Pair) (s : State) : Out := clocked s (fun s => s.compareWith x none)

/-- The fault of a mismatch outcome. -/
def State.outFault (s : State) (x out : Nat) : State :=
  if x = 0 then s.raise 2 (out + 16 * s.g F.SEQ_LEASE_STAT_LAST_PART) else s.raise 4 (x - 1 + 16 * out)

/-- MISC_ABORT (R255): the new holder acts as ABORT for the partitions of the ARM, if its commit can still be cancelled. [DEDUCED: log 74] -/
def State.miscAbort (s : State) (d : DigDue) : State :=
  if s.g F.SEQ_LEASE_CFG_MISC_ABORT = 0 || d.mask = 0 then s
  else
    match s.cancellable d.part with
    | some c => (s.cancelCommit c 5).each (bitList d.mask 16) State.abortEffects
    | none => s

/-- Both members pass: after UNRES_LIMIT such outcomes in succession the standby is fenced (R256). [DEDUCED: log 96] -/
def State.unresolved (s : State) (x : Nat) : State :=
  let n := (s.tw x).run + 1
  let lim := s.pg F.SEQ_LEASE_CFG_UNRES_LIMIT F.LE_LEASE_CFG_UNRES_LIMIT x
  let s := (s.psat F.SEQ_CMP_CNT_UNRES F.LE_CMP_CNT_UNRES x).updTw x (fun w => { w with run := n })
  if lim = 0 || n < lim then s
  else
    let m := 1 - s.holder x
    ((s.setCause x m 6).memberLost x m).updTw x (fun w => { w with run := 0 })

/-- Both micro-diagnostics have ended (R255): whether the holder and the standby failed. [DEDUCED: log 96, 97] -/
def diagDone (x : Nat) (hf sf : Bool) (s : State) : State :=
  match (s.tw x).diag with
  | none => s
  | some d =>
    let k := s.holder x
    let out := if hf && sf then 4 else if hf then 1 else if sf then 2 else 3
    let s := (s.updTw x (fun w => { w with diag := none })).pp F.SEQ_LEASE_STAT_DIAG F.LE_LEASE_STAT_DIAG 0 x
    let s := s.pp F.SEQ_LEASE_STAT_LAST_OUT F.LE_LEASE_STAT_LAST_OUT out x
    let s := s.when (out != 3) (fun s => s.updTw x (fun w => { w with run := 0 }))
    let s :=
      if hf && sf then ((s.setCause x 0 4).setCause x 1 4).noHolderRule x
      else if hf then
        let s := (s.setCause x k 4).memberLost x k
        if x = 0 then s.miscAbort d else s
      else if sf then (s.setCause x (1 - k) 4).memberLost x (1 - k)
      else s.unresolved x
    s.outFault x out

def execDiagDone (x : Pair) (hf sf : Bool) (s : State) : Out := clocked s (diagDone x hf sf)

end Sys2Proof.Machine
end

