-- ==== Sys2Proof/Machine/Lattice.lean ====
section
/-! DEFINITION. The Lattice (12: R306 to R312): its paths, the arbitration of a target, timeouts, refused accesses and the retirement of a master; and BAR2 as a master of the Lattice writes and reads it (R31, R32). -/

namespace Sys2Proof.Machine

/-- The paths that exist (R306). [DEDUCED: log 144] -/
def latPath (m t : Nat) : Bool :=
  match m with
  | 0 => t = 0 || t = 1 || t = 2 || t = 3 || t = 5
  | 1 => t = 1 || t = 2 || t = 3 || t = 5 || t = 7
  | 2 => t = 2 || t = 3 || t = 4
  | 3 => t = 2 || t = 3 || t = 4
  | 4 => t < 8
  | 5 => t = 4 || t = 7
  | 6 => t = 3
  | 7 => t < 7
  | _ => false

/-! ### Arbitration (R307 to R309) -/

/-- A master's head request at a target and the CORE cycles that it has waited (R308). -/
structure Head where
  master : Nat
  wait : Nat

/-- The head that has waited longest, a tie to the lower master number. -/
def longest (l : List Head) : Option Nat :=
  (l.foldl (fun (b : Option Head) h =>
    match b with
    | none => some h
    | some x => if x.wait < h.wait || (x.wait = h.wait && h.master < x.master) then some h else some x) none).map (fun h => h.master)

/-- The first of some masters in round-robin order after one. -/
def nextAfter (l : List Nat) (after : Nat) : Option Nat := ((List.range 8).map (fun i => (after + 1 + i) % 8)).find? (fun m => l.contains m)

/-- The master that a target granted last, on which it parks; after reset M0 (R309). -/
def State.latLast (s : State) (t : Nat) : Nat := (Map.look s.lat.last t []).headD 0
def State.retiring (s : State) (m : Nat) : Bool := bitOf (s.g F.LAT_STAT_RETIRE) m
def State.latPri (s : State) (t m : Nat) : Nat := bitsOf (s.word R.LAT_PRI t).toNat (4 * m) 4

/-- The heads that are promoted (R308); CYCLES = 0 promotes none. -/
def State.promoted (s : State) (l : List Head) : List Head :=
  let c := s.g F.LAT_STARVE_CYCLES
  if c = 0 then [] else l.filter (fun h => c < h.wait)

/-- The master last granted among those of a priority at a target; M0 where none has been. [DESIGN CHOICE: log 123] -/
def State.latAfter (s : State) (t pri : Nat) : Nat := ((Map.look s.lat.last t []).find? (fun m => s.latPri t m = pri)).getD 0

/-- The master that a free target grants among the heads at it (R307): a promoted one, else the highest priority, round-robin among equals. [DESIGN CHOICE: log 123] -/
def State.latArb (s : State) (t : Nat) (l : List Head) : Option Nat :=
  match longest (s.promoted l) with
  | some m => some m
  | none =>
    let top := (l.map (fun h => s.latPri t h.master)).foldl max 0
    nextAfter ((l.filter (fun h => s.latPri t h.master = top)).map (fun h => h.master)) (s.latAfter t top)

/-- The masters whose head requests wait at a target: each that comes is counted from now on, and one that has none any more is not (R308). [DESIGN CHOICE: log 123] -/
def State.latWait (s : State) (t : Nat) (l : List Nat) : State :=
  let old := s.lat.since.filter (fun e => e.1 / 8 != t || l.contains (e.1 % 8))
  { s with lat.since := l.foldl (fun o m => if (Map.find o (8 * t + m)).isSome then o else Map.ins o (8 * t + m) s.cycle) old }

/-- The cycles that a head request has waited without a grant. -/
def State.latHead (s : State) (t m : Nat) : Head := ⟨m, s.cycle - Map.look s.lat.since (8 * t + m) s.cycle⟩

/-- A free target arbitrates among the masters whose head requests wait at it (R307, R308). [DESIGN CHOICE: log 123] -/
def latStarvePromote (t : Nat) (l : List Nat) (s : State) : State :=
  let l := l.filter (fun m => latPath m t && !s.retiring m)
  let s := s.latWait t l
  match s.latArb t (l.map (s.latHead t)) with
  | some m => s.grant t m
  | none => s

def execLatStarvePromote (t : Fin 8) (heads : List (Fin 8)) (s : State) : Out := clocked s (latStarvePromote t.val (heads.map (fun m => m.val)))

/-! ### Timeouts, refusals, retirement (R310 to R312) -/

/-- A granted transaction is not completed in time (R310). Locked pairs are whole within one command, so no lock is left to release. [DESIGN CHOICE: log 123] -/
def latTimeout (m t : Nat) (wr : Bool) (addr : Nat) (s : State) : State :=
  if !latPath m t then s
  else
    let s := if s.on F.LAT_STAT_TIMEOUT then s
      else (((s.put F.LAT_ERR_INFO_MASTER m).put F.LAT_ERR_INFO_TARGET t).putB F.LAT_ERR_INFO_WRITE wr).put F.LAT_ERR_INFO_KIND 1
        |>.put F.LAT_ERR_INFO_ADDR addr
    ((s.grant t m).put F.LAT_STAT_TIMEOUT 1).raise 44 (m + 16 * t)

/-- The region of BAR2 that an offset lies in (R31), for a context or table with the number of its AO: 1 Program Store, 2 Map Store, 3 Sample Queues, from 16 on the contexts of bank A, then bank S, then the tables; 0 a gap. -/
def bar2Key (a : Nat) : Nat :=
  if a < 0x200000 then 1
  else if 0x1000000 ≤ a && a < 0x2000000 then 2
  else if 0x3000000 ≤ a && a < 0x3800000 then 3
  else if 0x2000000 ≤ a && a < 0x2280000 then 16 + (a - 0x2000000) / 128
  else if 0x2400000 ≤ a && a < 0x2680000 then 16 + 20480 + (a - 0x2400000) / 128
  else if 0x2800000 ≤ a && a < 0x2A80000 then 16 + 40960 + (a - 0x2800000) / 128
  else 0

/-- The target that a BAR2 offset selects (R306). -/
def bar2Target (a : Nat) : Nat := if a < 0x1000000 then 2 else if a < 0x2000000 then 3 else if a < 0x3000000 then 1 else 5

/-- An offset of BAR2 that no memory stands behind. [DEDUCED: log 128] -/
def bar2Unused (a : Nat) : Bool := bar2Key a = 0 || (bar2Key a = 2 && mapUnused (a - mapBase))

/-- An address lies outside every region of a target (R312); register space, the tile windows among it, has no outside. [DEDUCED: log 144] -/
def latOutside (t addr : Nat) : Bool :=
  match t with
  | 0 => false
  | 1 => bar2Unused addr && !(0x400000 ≤ addr && addr < 0x800000)
  | 4 => 16 * 0x40000 ≤ addr
  | 6 => true
  | 7 => false
  | _ => bar2Unused addr

/-- An access without a path, or outside every region of its target, is refused (R312). [DEDUCED: log 144] -/
def latRefused (m t : Nat) (wr : Bool) (addr : Nat) (s : State) : State := (if wr then s else { s with readData := 0 }).latDecode m t wr addr

def execMasterReset (m : Fin 8) (s : State) : Out := clocked s (fun s => s.masterReset m.val)

/-! ### BAR2 as it is written and read (R32) -/

/-- Bytes at addresses, gathered into runs of consecutive addresses within one region, context or table. -/
def cutRuns (l : List (Nat × Byte)) : List (Nat × List Byte) :=
  l.foldr (fun e acc =>
    match acc with
    | [] => [(e.1, [e.2])]
    | (a, bs) :: rest => if a = e.1 + 1 && bar2Key a = bar2Key e.1 then (e.1, e.2 :: bs) :: rest else (e.1, [e.2]) :: (a, bs) :: rest) []

/-- The rules of acceptance refuse a run of bytes (R89, R115, R168, R177). -/
def State.bar2Refuses (s : State) (a : Nat) (bs : List Byte) : Bool :=
  let k := bar2Key a
  if k = 1 then (List.range bs.length).any (fun i => s.runningCode (a + i))
  else if k = 2 then (List.range bs.length).any (fun i => s.mapAccepts (a + i - mapBase) = some false)
  else if k < 16 then false
  else
    let ao := (k - 16) % 20480
    let pm := s.pm (s.ga F.AO_CFG_PART ao)
    if k < 16 + 40960 then s.ona F.AO_CFG_OWNED ao && (pm = 1 || pm = 2)
    else s.ona F.AO_CFG_OWNED ao && pm = 2 && s.on F.RTU_ROT_LRN_LEN (s.ga F.AO_CFG_PART ao) && !s.on F.RTU_ROT_LRN_FRZ (s.ga F.AO_CFG_PART ao)

/-- A run of bytes is written by a master under the rules of its region; a gap is refused (R312). [DEDUCED: log 129] -/
def State.bar2Put (s : State) (m a : Nat) (bs : List Byte) : State :=
  let k := bar2Key a
  if k = 0 then s.latDecode m (bar2Target a) true a
  else if k = 1 then psWrite a bs s
  else if k = 2 then mapStoreWrite (a - mapBase) bs s
  else if k = 3 then s.wrBs a bs
  else if k < 16 + 20480 then contextWrite 0 (k - 16) (a % 128) bs s
  else if k < 16 + 40960 then contextWrite 1 (k - 16 - 20480) (a % 128) bs s
  else repTableWrite (k - 16 - 40960) (a % 128) bs s

/-- A write to BAR2 of any length (R32). -/
def State.bar2Write (s : State) (m a : Nat) (bs : List Byte) : State :=
  (s.grant (bar2Target a) m).each (cutRuns (atAddr a bs)) (fun s r => s.bar2Put m r.1 r.2)

/-- The store of SRAM_UE that an address of BAR2 belongs to, and where that store begins (R340). -/
def bar2Store (a : Nat) : Nat × Nat :=
  if a < 0x1000000 then (0, progBase) else if a < 0x2000000 then (1, mapBase)
  else if a < 0x2800000 then (4, ctxABase) else if a < 0x3000000 then (5, repBase) else (2, sqBase)

/-- A read meets an uncorrectable word (R32, R340). -/
def State.ueRead (s : State) (w : Nat) : State := s.sramUe (bar2Store w).1 ((w - (bar2Store w).2) / 8)

end Sys2Proof.Machine
end

