-- ==== Sys2Proof/Machine/Dma.lean ====
section
/-! DEFINITION. The DMA engine (12: R313 to R323), and what an error response of the Lattice makes of it (R310, R312). -/

namespace Sys2Proof.Machine

def State.dma' (s : State) (c : Nat) : DmaSt := Map.look s.dma c {}
def State.updDma (s : State) (c : Nat) (f : DmaSt → DmaSt) : State := { s with dma := Map.upd s.dma c {} f }
def State.dmaState (s : State) (c : Nat) : Nat := s.g F.DMA_CH_STAT_STATE c

/-! ### Descriptors (R314) -/

/-- A descriptor as its 64 bytes. -/
abbrev Dd := List Byte

def Dd.g (d : Dd) (off lo w : Nat) : Nat := bitsOf (leNat ((d.drop off).take 4)) lo w
def Dd.g64 (d : Dd) (off : Nat) : Nat := leNat ((d.drop off).take 8)
def Dd.mode (d : Dd) : Nat := d.g 0 0 3
/-- The element size E in bytes. -/
def Dd.esz (d : Dd) : Nat := 2 ^ d.g 0 4 3
def Dd.ev (d : Dd) : Bool := d.g 0 7 1 = 1
def Dd.ssp (d : Dd) : Nat := d.g 0 8 2
def Dd.dsp (d : Dd) : Nat := d.g 0 10 2
def Dd.k (d : Dd) : Nat := d.g 0 12 7
def Dd.n (d : Dd) (i : Nat) : Nat := if i = 0 then d.g 0x18 0 16 else if i = 1 then d.g 0x18 16 16 else d.g 0x1C 0 16
def Dd.ss (d : Dd) (i : Nat) : Int := toSigned 32 (d.g (0x20 + 4 * i) 0 32)
def Dd.ds (d : Dd) (i : Nat) : Int := toSigned 32 (d.g (0x2C + 4 * i) 0 32)
def Dd.src (d : Dd) : Nat := d.g64 8
def Dd.dst (d : Dd) : Nat := d.g64 0x10
def Dd.eoc (d : Dd) : Bool := d.g 0x38 0 1 = 1
def Dd.link (d : Dd) : Nat := d.g64 0x38 / 64 * 64

/-- A reserved bit is set; the bits of the link word below LINK count as bits of its address. [DEDUCED: log 124] -/
def Dd.reserved (d : Dd) : Bool := d.g 0 3 1 != 0 || d.g 0 19 13 != 0 || d.g 4 0 32 != 0 || d.g 0x1C 16 16 != 0

/-- The strides that the mode uses (R316, R318). -/
def Dd.strides (d : Dd) : List Int :=
  match d.mode with
  | 0 => [d.ss 0, d.ss 1, d.ss 2, d.ds 0, d.ds 1, d.ds 2]
  | 1 => [d.ss 0, d.ss 1, d.ss 2, d.ds 1, d.ds 2]
  | 2 => [d.ss 1, d.ss 2, d.ds 0, d.ds 1, d.ds 2]
  | _ => [d.ss 1, d.ss 2, d.ds 1, d.ds 2]

/-! ### Addressing (R316, R318) -/

def addr64 (i : Int) : Nat := (i % (2 ^ 64 : Int)).toNat

/-- The units that a descriptor moves, in the order written: source and destination address of an element, or of a block in TRANSPOSE. -/
def Dd.units (d : Dd) : List (Nat × Nat) :=
  let e : Int := d.esz
  (List.range (d.n 2)).flatMap (fun (i2 : Nat) => (List.range (d.n 1)).flatMap (fun (i1 : Nat) =>
    let sb : Int := d.src + i2 * d.ss 2 + i1 * d.ss 1
    let db : Int := d.dst + i2 * d.ds 2 + i1 * d.ds 1
    (List.range (d.n 0)).flatMap (fun (p : Nat) =>
      match d.mode with
      | 0 => [(addr64 (sb + p * d.ss 0), addr64 (db + p * d.ds 0))]
      | 1 => (List.range d.k).map (fun (j : Nat) => (addr64 (sb + j * d.ss 0 + p * e), addr64 (db + (p * d.k + j : Nat) * e)))
      | 2 => (List.range d.k).map (fun (j : Nat) => (addr64 (sb + (p * d.k + j : Nat) * e), addr64 (db + j * d.ds 0 + p * e)))
      | _ => [(addr64 (sb + p * (8 * e * e)), addr64 (db + p * (8 * e * e)))])))

/-- The bytes of a unit. -/
def Dd.unitLen (d : Dd) : Nat := if d.mode = 3 then 8 * d.esz * d.esz else d.esz

/-- TRANSPOSE of a block of 8e elements of e bytes: bit i of element w out is bit w of element i in. -/
def transpose (e : Nat) (bs : List Byte) : List Byte :=
  let el (i : Nat) : Nat := leNat ((bs.drop (i * e)).take e)
  (List.range (8 * e)).flatMap (fun w => leBytes e (((List.range (8 * e)).map (fun i => b2n (bitOf (el i) w) * 2 ^ i)).sum))

def Dd.convert (d : Dd) (bs : List Byte) : List Byte := if d.mode = 3 then transpose d.esz bs else bs

/-! ### Checks (R319, R320) -/

/-- The lowest and the highest byte of a side, from its base, loops and the length of its inmost runs. [DEDUCED: log 126] -/
def sideSpan (base : Int) (loops : List (Nat × Int)) (len : Int) : Int × Int :=
  loops.foldl (fun (r : Int × Int) l =>
    let far : Int := ((l.1 : Nat) - 1 : Int) * l.2
    (r.1 + min 0 far, r.2 + max 0 far)) (base, base + len - 1)

/-- [DEDUCED: log 126] -/
def Dd.srcSpan (d : Dd) : Int × Int :=
  let e : Int := d.esz
  let outer := [(d.n 2, d.ss 2), (d.n 1, d.ss 1)]
  match d.mode with
  | 0 => sideSpan d.src ((d.n 0, d.ss 0) :: outer) e
  | 1 => sideSpan d.src ((d.k, d.ss 0) :: outer) (d.n 0 * e)
  | 2 => sideSpan d.src outer (d.n 0 * d.k * e)
  | _ => sideSpan d.src outer (d.n 0 * (8 * e * e))

/-- [DEDUCED: log 126] -/
def Dd.dstSpan (d : Dd) : Int × Int :=
  let e : Int := d.esz
  let outer := [(d.n 2, d.ds 2), (d.n 1, d.ds 1)]
  match d.mode with
  | 0 => sideSpan d.dst ((d.n 0, d.ds 0) :: outer) e
  | 1 => sideSpan d.dst outer (d.n 0 * d.k * e)
  | 2 => sideSpan d.dst ((d.k, d.ds 0) :: outer) (d.n 0 * e)
  | _ => sideSpan d.dst outer (d.n 0 * (8 * e * e))

/-- A one-dimensional copy, which may overlap itself. -/
def Dd.oneDim (d : Dd) : Bool :=
  d.mode = 0 && d.n 1 = 1 && d.n 2 = 1 && d.ss 0 = (d.esz : Int) && d.ds 0 = (d.esz : Int) && d.ssp = d.dsp

/-- A one-dimensional copy whose ranges overlap runs in descending order if DST > SRC (R320). -/
def Dd.descends (d : Dd) : Bool := d.oneDim && d.srcSpan.1 < d.dstSpan.1 && d.dstSpan.1 ≤ d.srcSpan.2
/-- The units in the order in which they move. -/
def Dd.order (d : Dd) : List (Nat × Nat) := if d.descends then d.units.reverse else d.units

def Dd.outside (d : Dd) : Bool :=
  let bad (a : Nat) : Bool := (List.range d.unitLen).any (fun i => bar2Key (a + i) = 0)
  d.units.any (fun u => (d.ssp = 0 && bad u.1) || (d.dsp = 0 && bad u.2))

/-- The first check that a descriptor fails, as CODE (R319); the link word of the register image is ignored. [DEDUCED: log 124] -/
def Dd.check (d : Dd) (image : Bool) : Option Nat :=
  let e : Int := d.esz
  if 3 < d.mode || (if d.mode = 3 then 3 else 4) < d.g 0 4 3 || d.reserved then some 1
  else if d.n 0 = 0 || d.n 1 = 0 || d.n 2 = 0 || ((d.mode = 1 || d.mode = 2) && (d.k < 2 || 64 < d.k)) then some 2
  else if (d.src : Int) % e != 0 || (d.dst : Int) % e != 0 || d.strides.any (fun x => x % e != 0) || (!image && d.g 0x38 1 5 != 0) then some 3
  else if 1 < d.ssp || 1 < d.dsp || d.outside then some 4
  else if !d.oneDim && d.ssp = d.dsp && d.srcSpan.1 ≤ d.dstSpan.2 && d.dstSpan.1 ≤ d.srcSpan.2 then some 5
  else none

/-! ### Channels (R313, R321, R323) -/

/-- A channel fails: its traffic ends as a master reset, and it enters ERROR. -/
def State.dmaFail (s : State) (c code : Nat) : State :=
  (((s.masterReset 1).put F.DMA_CH_STAT_CODE code c).setDma c 4).raise 46 (c + code * 256) |>.occur (0x50 + c)

/-- A channel in FETCH or RUN fails; in another state it has no traffic. -/
def State.dmaEnds (s : State) (c code : Nat) : State := if s.dmaState c = 1 || s.dmaState c = 2 then s.dmaFail c code else s

/-- LAT_TMO.CYCLES (R310); 0 acts as 1. -/
def State.latTmo (s : State) : Nat := max 1 (s.g F.LAT_TMO_CYCLES)

/-- A transaction has waited for its target since it was granted (R310): the error response ends the channel c of the DMA engine whose it is (R323). [DESIGN CHOICE: log 123] -/
def latTimeoutExpiry (m t : Nat) (wr : Bool) (addr waited c : Nat) (s : State) : State :=
  if !latPath m t || waited < s.latTmo then s
  else (latTimeout m t wr addr s).when (m = 1) (fun s => s.dmaEnds c 8)

def execLatTimeoutExpiry (m t : Fin 8) (wr : Bool) (x : LatWait) (s : State) : Out :=
  clocked s (latTimeoutExpiry m.val t.val wr x.addr.toNat x.waited.toNat x.chan.val)

/-- An access is refused (R312): the error response ends the channel c of the DMA engine whose it is (R323). [DEDUCED: log 144] -/
def latDecodeError (m t : Nat) (wr : Bool) (addr c : Nat) (s : State) : State :=
  if latPath m t && !latOutside t addr then s
  else (latRefused m t wr addr s).when (m = 1) (fun s => s.dmaEnds c 8)

def execLatDecodeError (m t : Fin 8) (wr : Bool) (x : LatAddr) (s : State) : Out :=
  clocked s (latDecodeError m.val t.val wr x.addr.toNat x.chan.val)

/-- A descriptor starts: its checks, then RUN (R319). [DEDUCED: log 124] -/
def State.dmaBegin (s : State) (c : Nat) (d : Dd) (image : Bool) : State :=
  let s := (s.updDma c (fun x => { x with desc := d, image := image, relink := false, pos := 0 })).put F.DMA_CH_BYTES_BYTES 0 c
  match d.check image with
  | some code => ((s.put F.DMA_CH_STAT_CODE code c).setDma c 4).raise 46 (c + code * 256) |>.occur (0x50 + c)
  | none => s.setDma c 2

/-- The descriptor image of a channel. -/
def State.dmaImage (s : State) (c : Nat) : Dd := (List.range 16).flatMap (fun j => leBytes 4 (s.word R.DMA_CH_DESC c j).toNat)

/-- START (R313). -/
def dmaStart (c : Nat) (s : State) : State :=
  if s.dmaState c != 0 then s.put F.DMA_CH_STAT_REFUSED 1 c else s.dmaBegin c (s.dmaImage c) true

def execDmaStart (c : Fin 16) (s : State) : Out := clocked s (dmaStart c.val)

/-- The channel reads a descriptor, from which no byte has been written yet (R323), or with relink the link word of the one at CUR. [DEDUCED: log 125] -/
def State.dmaFetch (s : State) (c addr : Nat) (relink : Bool) : State :=
  (((s.when (!relink) (fun s => s.put F.DMA_CH_BYTES_BYTES 0 c)).put F.DMA_CH_CUR_VAL addr c).updDma c (fun x => { x with image := false, relink := relink })).setDma c 1

/-- CHAIN_START (R313). -/
def dmaChainStart (c : Nat) (s : State) : State :=
  if s.dmaState c != 0 then s.put F.DMA_CH_STAT_REFUSED 1 c else s.dmaFetch c (s.g F.DMA_CH_NEXT_VAL c) false

def execDmaChainStart (c : Fin 16) (s : State) : Out := clocked s (dmaChainStart c.val)

/-- CHAIN_KICK (R321). [DEDUCED: log 125] -/
def dmaChainKick (c : Nat) (s : State) : State :=
  match s.dmaState c with
  | 3 => s.dmaFetch c (s.g F.DMA_CH_CUR_VAL c) true
  | 1 | 2 => s.put F.DMA_CH_STAT_KICK_PEND 1 c
  | _ => s.put F.DMA_CH_STAT_REFUSED 1 c

def execDmaChainKick (c : Fin 16) (s : State) : Out := clocked s (dmaChainKick c.val)

def execDmaClear (c : Fin 16) (s : State) : Out := clocked s (fun s => s.dmaClear c.val)

/-- IDLE_AT_EOC is reached: a held kick is acted on at once (R321). [DEDUCED: log 125] -/
def State.dmaEoc (s : State) (c : Nat) : State :=
  if s.on F.DMA_CH_STAT_KICK_PEND c then (s.put F.DMA_CH_STAT_KICK_PEND 0 c).dmaFetch c (s.g F.DMA_CH_CUR_VAL c) true
  else s.setDma c 3

/-- The host's memory can be reached: the PF may issue requests (R295). -/
def State.dmaHost (s : State) : Bool := (s.fn 0).bme && !(s.fn 0).d3 && s.pci.linkUp

/-- What a channel meets on the chip: an address that nothing stands behind, an uncorrectable word, or the bytes it reads. -/
inductive DmaRead where
  | decode (addr : Nat) (wr : Bool)
  | ue (word : Nat)
  | ok (bs : List Byte)

/-- [DEDUCED: log 128] -/
def State.dmaRead (s : State) (a n : Nat) : DmaRead :=
  match ((List.range n).map (fun i => a + i)).find? bar2Unused with
  | some x => .decode x false
  | none =>
    match s.ueIn a n with
    | some w => .ue w
    | none => .ok (s.bar2Bytes a n)

/-- The errors of an access on the chip (R312, R323). -/
def State.dmaReadFail (s : State) (c : Nat) (r : DmaRead) : State :=
  match r with
  | .decode a wr => (s.latDecode 1 (bar2Target a) wr a).dmaFail c 8
  | .ue w => (s.ueRead w).dmaFail c 10
  | .ok _ => s

/-- What has been fetched is taken up (R321). [DEDUCED: log 124] -/
def State.dmaFetched (s : State) (c : Nat) (bs : List Byte) : State :=
  if (s.dma' c).relink then
    let w := leNat (bs.take 8)
    if bitOf w 0 then s.dmaEoc c else s.dmaFetch c (w / 64 * 64) false
  else s.dmaBegin c (bs.take 64) false

/-- The read of a descriptor or link word completes (R313, R319), unless the port is retiring (R311); host is what the host's memory answers. -/
def dmaFetchDone (c : Nat) (host : List Byte) (s : State) : State :=
  if s.dmaState c != 1 || s.retiring 1 then s
  else
    let cur := s.g F.DMA_CH_CUR_VAL c
    let a := if (s.dma' c).relink then addr64 ((cur + 0x38 : Nat) : Int) else cur
    let n := if (s.dma' c).relink then 8 else 64
    if s.on F.DMA_CH_CFG_CSP c then
      if s.dmaHost && s.readRoom 1 then ((s.readReq 0 a n).grant 7 1).dmaFetched c (leBytes n (leNat (host.take n))) else s
    else
      match (s.grant (bar2Target a) 1).dmaRead a n with
      | .ok bs => (s.grant (bar2Target a) 1).dmaFetched c bs
      | r => s.dmaReadFail c r

def execDmaFetchDone (c : Fin 16) (host : List Byte) (s : State) : Out := clocked s (dmaFetchDone c.val host)

/-! ### Moving (R315 to R318) -/

/-- What some units write, one list for each, up to the first that fails; host bytes come in the order of the units. -/
def State.dmaGather (s : State) (d : Dd) (us : List (Nat × Nat)) (host : List Byte) : List (List (Nat × Byte)) × Option DmaRead :=
  match us with
  | [] => ([], none)
  | u :: rest =>
    let len := d.unitLen
    let r := if d.ssp = 1 then .ok (leBytes len (leNat (host.take len))) else s.dmaRead u.1 len
    match r with
    | .ok bs =>
      let t := s.dmaGather d rest (host.drop len)
      (atAddr u.2 (d.convert bs) :: t.1, t.2)
    | r => ([], some r)

/-- The bytes that some units read, each at its address. -/
def Dd.sources (d : Dd) (us : List (Nat × Nat)) : List (Nat × Byte) := us.flatMap (fun u => atAddr u.1 (List.replicate d.unitLen 0))

/-- The read requests and grants of some units: of the host with the PF's requester ID, split as R317 says, or of the targets on the chip. -/
def State.dmaAsk (s : State) (d : Dd) (us : List (Nat × Nat)) : State :=
  if d.ssp = 1 then (s.readReqs 0 (d.sources us)).grant 7 1 else s.each us (fun s u => s.grant (bar2Target u.1) 1)

/-- A run of bytes is written on the chip under the acceptance rules of host writes (R315), where a refused one is discarded and not counted; nothing is written where nothing stands behind it. [DEDUCED: log 128, 129] -/
def State.dmaPut (s : State) (c a : Nat) (bs : List Byte) : State :=
  let no := s.bar2Refuses a bs
  let s := if no then s.put F.DMA_CH_STAT_WR_REFUSED 1 c else s.put F.DMA_CH_BYTES_BYTES (s.g F.DMA_CH_BYTES_BYTES c + bs.length) c
  (s.grant (bar2Target a) 1).bar2Put 1 a bs

/-- A run of bytes is written to the host with the PF's requester ID. -/
def State.dmaPost (s : State) (c a : Nat) (bs : List Byte) : State :=
  ((s.put F.DMA_CH_BYTES_BYTES (s.g F.DMA_CH_BYTES_BYTES c + bs.length) c).grant 7 1).postWrite 0 a bs

/-- The bytes that some units write, in the order in which they move, written: to the host in requests of at most Max_Payload_Size (R317); BYTES counts them. The first write that nothing stands behind ends it. -/
def State.dmaWrite (s : State) (c : Nat) (d : Dd) (l : List (List (Nat × Byte))) : State × Option DmaRead :=
  let ok := l.takeWhile (fun u => d.dsp = 1 || u.all (fun e => !bar2Unused e.1))
  let part := match l[ok.length]? with
    | some u => u.takeWhile (fun e => !bar2Unused e.1)
    | none => []
  let bytes := if d.descends then (ok.reverse).flatten else ok.flatten ++ part
  let s := if d.dsp = 1 then s.each (hostRuns (s.fn 0).mps bytes) (fun s r => s.dmaPost c r.1 r.2)
    else s.each (cutRuns bytes) (fun s r => s.dmaPut c r.1 r.2)
  (s, (l[ok.length]?.bind (fun u => u.find? (fun e => bar2Unused e.1))).map (fun e => DmaRead.decode e.1 true))

/-- Some units of the descriptor in hand move, and are behind the channel; what they meet, if they fail. -/
def State.dmaMove (s : State) (c : Nat) (us : List (Nat × Nat)) (host : List Byte) : State × Option DmaRead :=
  let d : Dd := (s.dma' c).desc
  let g := s.dmaGather d us host
  let w := (s.dmaAsk d (us.take (g.1.length + 1))).dmaWrite c d g.1
  (w.1.updDma c (fun x => { x with pos := x.pos + us.length }), match w.2 with | some e => some e | none => g.2)

/-- The descriptor in hand needs the host, which cannot be reached, or a read while 256 requests are outstanding (R293, R315). -/
def State.dmaWaits (s : State) (c : Nat) : Bool :=
  let d : Dd := (s.dma' c).desc
  ((d.ssp = 1 || d.dsp = 1) && !s.dmaHost) || (d.ssp = 1 && !s.readRoom 1)

/-- The units of the descriptor in hand that have not moved yet. -/
def State.dmaLeft (s : State) (c : Nat) : List (Nat × Nat) := (Dd.order (s.dma' c).desc).drop (s.dma' c).pos

/-- ABORT in FETCH or RUN (R313), after a further n units of the descriptor have moved (R311). [DESIGN CHOICE: log 127] -/
def dmaAbort (c n : Nat) (host : List Byte) (s : State) : State :=
  let stop (s : State) : State := ((s.masterReset 1).put F.DMA_CH_STAT_ABORTED 1 c).setDma c 0
  match s.dmaState c with
  | 1 => stop s
  | 2 => if s.dmaWaits c || s.retiring 1 then stop s else stop (s.dmaMove c ((s.dmaLeft c).take n) host).1
  | _ => s

def execDmaAbort (c : Fin 16) (n : BitVec 32) (host : List Byte) (s : State) : Out := clocked s (dmaAbort c.val n.toNat host)

/-- A descriptor completes (R313, R321). -/
def State.dmaComplete (s : State) (c : Nat) : State :=
  let d : Dd := (s.dma' c).desc
  let s := (s.sat F.DMA_CH_STAT_DONE c).when d.ev (fun s => s.occur (0x40 + c))
  if (s.dma' c).image then s.setDma c 0 else if d.eoc then s.dmaEoc c else s.dmaFetch c d.link false

/-! ### The channels share the port (R322) -/

/-- The units of one turn: at most 512 bytes. -/
def Dd.burst (d : Dd) : Nat := max 1 (512 / d.unitLen)

/-- A channel has a burst to move: it runs, it can reach what it needs, and its bytes are there; those from the host come with the command of their own channel, me. [DESIGN CHOICE: log 233] -/
def State.dmaReady (s : State) (me c : Nat) : Bool :=
  s.dmaState c = 2 && !s.dmaWaits c && !(s.dmaLeft c).isEmpty && (c = me || (Dd.ssp (s.dma' c).desc = 0))

/-- The channel whose turn it is: of the highest class among those ready, the next after the one that had the last turn. -/
def State.dmaTurn (s : State) (me : Nat) : Option Nat :=
  let l := (List.range 16).filter (s.dmaReady me)
  let top := (l.map (fun c => s.g F.DMA_CH_CFG_PRI c)).foldl max 0
  let last := Map.look s.lat.turn top 15
  ((List.range 16).map (fun i => (last + 1 + i) % 16)).find? (fun c => l.contains c && s.g F.DMA_CH_CFG_PRI c = top)

/-- A channel takes its turn: one burst. -/
def State.dmaBurst (s : State) (c : Nat) (host : List Byte) : State :=
  let d : Dd := (s.dma' c).desc
  let s : State := { s with lat.turn := Map.ins s.lat.turn (s.g F.DMA_CH_CFG_PRI c) c }
  let r := s.dmaMove c ((s.dmaLeft c).take d.burst) host
  match r.2 with
  | some e => r.1.dmaReadFail c e
  | none => r.1

/-- The channels take turns until channel me has moved what its descriptor names, or has failed. [DESIGN CHOICE: log 233] -/
def State.dmaTurns (s : State) (fuel me : Nat) (host : List Byte) : State :=
  match fuel with
  | 0 => s
  | k + 1 =>
    if !s.dmaReady me me || s.retiring 1 then s
    else
      match s.dmaTurn me with
      | none => s
      | some c =>
        let d : Dd := (s.dma' c).desc
        if c = me then State.dmaTurns (s.dmaBurst c host) k me (host.drop (d.burst * d.unitLen))
        else State.dmaTurns (s.dmaBurst c []) k me host

/-- The bursts that can be left, at most one for each unit. -/
def State.dmaFuel (s : State) : Nat := ((List.range 16).map (fun c => if s.dmaState c = 2 then (s.dmaLeft c).length else 0)).sum

/-- A channel in RUN moves what its descriptor names, the others their bursts in their turns, and completes it; while the host cannot be reached, a channel that needs it waits (R295), and while the port retires every channel (R311). [DESIGN CHOICE: log 127, 233] -/
def dmaDescDone (c : Nat) (host : List Byte) (s : State) : State :=
  if s.dmaState c != 2 || s.dmaWaits c || s.retiring 1 then s
  else
    let s := s.dmaTurns s.dmaFuel c host
    if s.dmaState c = 2 && (s.dmaLeft c).isEmpty then s.dmaComplete c else s

def execDmaDescDone (c : Fin 16) (host : List Byte) (s : State) : Out := clocked s (dmaDescDone c.val host)

/-- CODE of R323. -/
def dmaCode (e : DmaErr) : Nat :=
  match e with
  | .lattice => 8
  | .host .poisoned => 10
  | .host _ => 9
  | .uncorrectable _ => 10

/-- What an error is beside the failure of the channel (R302, R340). -/
def State.dmaErrLog (s : State) (e : DmaErr) : State :=
  match e with
  | .host h => s.readFails 0 h
  | .uncorrectable w => s.ueRead (w.toNat / 8 * 8)
  | .lattice => s

/-- An error from outside ends a channel in FETCH or RUN after a further n units have moved (R302, R323). [DESIGN CHOICE: log 127] -/
def dmaError (c : Nat) (e : DmaErr) (n : Nat) (host : List Byte) (s : State) : State :=
  match s.dmaState c with
  | 1 => (s.dmaFail c (dmaCode e)).dmaErrLog e
  | 2 => (((s.dmaMove c ((s.dmaLeft c).take n) host).1).dmaFail c (dmaCode e)).dmaErrLog e
  | _ => s

def execDmaError (c : Fin 16) (e : DmaErr) (n : BitVec 32) (host : List Byte) (s : State) : Out := clocked s (dmaError c.val e n.toNat host)

end Sys2Proof.Machine
end

