-- ==== Sys2Proof/Machine/Host.lean ====
section
/-! DEFINITION. The host interface (12: R293 to R305, R324): the link, configuration, MSI-X, mailboxes, rings and vectors of a VF, and its Function Level Reset. -/

namespace Sys2Proof.Machine

/-! ### The link and configuration (R293, R295, R301) -/

def State.vfEn (s : State) : Bool := s.on F.LAT_PCI_STAT_VF_EN
/-- A function that configuration requests reach (R303). [DEDUCED: log 135] -/
def State.fnExists (s : State) (f : Nat) : Bool := f = 0 || (s.vfEn && f ≤ s.g F.LAT_PCI_STAT_NUMVFS)

/-- Every ring of every VF is drained. -/
def State.drainVfs (s : State) : State := s.each ((List.range 8192).filter (fun n => s.ringFn n != 0)) (fun s n => ringDrain n s)

/-- VF Enable clears: the VFs' configuration is gone, and every ring of every VF is drained (R295). [DEDUCED: log 141] -/
def State.vfOff (s : State) : State :=
  State.drainVfs { s.put F.LAT_PCI_STAT_VF_EN 0 with pci.fns := s.pci.fns.filter (fun e => e.1 = 0) }

/-- The configuration of every function is reset, and the endpoint holds no request (R295). [DEDUCED: log 159] -/
def State.linkReset (s : State) : State :=
  let s : State := { s with pci.fns := [], pci.linkUp := false, pci.inq := [] }
  (((s.put F.LAT_PCI_STAT_VF_EN 0).put F.LAT_PCI_STAT_SPEED 0).put F.LAT_PCI_STAT_WIDTH 0).put F.LAT_PCI_STAT_NUMVFS 0

/-- What a link-down does on the chip: the rings of VFs that were enabled are drained, the inbound transactions are retired (R311), nothing else is. [DEDUCED: log 159] -/
def State.linkLost (s : State) (vfs : Bool) : State :=
  (((s.when vfs State.drainVfs).sat F.LAT_PCI_STAT_DOWNS).masterReset 0).raise 43

/-- The link goes down, or a Hot Reset (R295). -/
def pcieLinkDown (s : State) : State := s.linkReset.linkLost s.vfEn

/-- In a freeze the PHY and the data link layer run (R347): configuration is reset at once, and the rest of the chip meets the event at the thaw. [DEDUCED: log 159] -/
def execPcieLinkDown (s : State) : Out :=
  if s.clk = Clk.frozen then .next { s.linkReset with pci.downs := s.pci.downs ++ [s.vfEn] } else clocked s pcieLinkDown

/-- The link-downs of the freeze take effect on the chip. [DEDUCED: log 159] -/
def State.thawLink (s : State) : State :=
  let l := s.pci.downs
  { s with pci.downs := [] }.each l State.linkLost

/-- The link has trained (R293); not while a lane test holds its lanes (R399). -/
def pcieLinkTrained (speed width : Nat) (s : State) : State :=
  if s.pci.linkUp || s.pcieLanesOn || speed = 0 || 5 < speed || !(width = 1 || width = 2 || width = 4 || width = 8) then s
  else ({ s with pci.linkUp := true, pci.trained := speed }.put F.LAT_PCI_STAT_SPEED speed).put F.LAT_PCI_STAT_WIDTH width

/-- In a freeze too (R347). [DEDUCED: log 159] -/
def execPcieLinkTrained (speed : Fin 8) (width : Fin 16) (s : State) : Out :=
  if s.clk = Clk.frozen then .next (pcieLinkTrained speed.val width.val s) else clocked s (pcieLinkTrained speed.val width.val)

/-- A completion of a function; it is sent while the link is up. [DESIGN CHOICE: log 133] -/
def State.answer (s : State) (f status : Nat) (ep : Bool) (data : List Byte) : State :=
  if s.pci.linkUp then { s with hostOut := s.hostOut ++ [.cpl f status ep data] } else s

/-- An Unsupported Request: an error of its function, and a completion unless it was posted (R302, R303). [DEDUCED: log 139] -/
def State.unsupported (s : State) (f : Nat) (posted : Bool) : State :=
  (if posted then s else s.answer f 1 false []).uncorr (if s.fnExists f then f else 0) .unsupported

/-- The bytes of a BAR of a function (R296); 0 where there is none. -/
def barSize (f bar : Nat) : Nat :=
  if f = 0 then (if bar = 0 then 0x1000000 else if bar = 2 then 0x4000000 else if bar = 4 then 0x4000 else 0)
  else if bar = 0 then 0x10000 else 0

/-- A BAR word as it reads (R296): a pair of words for each BAR, the low one with the type bits of a 64-bit, non-prefetchable BAR; a VF's own words read 0. [PRESUMED: log 238] -/
def FnCfg.barWord (c : FnCfg) (f i : Nat) : Nat :=
  let size := barSize f (i / 2 * 2)
  let w := Map.look c.bars i 0
  if f != 0 || size = 0 then 0 else if i % 2 = 0 then w / size * size % 2 ^ 32 + 4 else w

/-- A VF BAR0 word as it reads in the SR-IOV capability (R296, R297): 64-bit and non-prefetchable, of 64 KiB at every system page size. [PRESUMED: log 238] -/
def FnCfg.vfBarWord (c : FnCfg) (i : Nat) : Nat :=
  let w := Map.look c.vfBars i 0
  if i = 0 then w / 0x10000 * 0x10000 % 2 ^ 32 + 4 else w

/-- The codes of the Completion Timeout ranges A to D, with 0 for the default (R302). [PRESUMED: log 238] -/
def ctoCodes : List Nat := [0, 1, 2, 5, 6, 9, 10, 13, 14]

/-- A configuration write that acts (R293, R295, R296, R297, R301, R302). [DEDUCED: log 132] -/
def pcieConfigWrite (f : Nat) (x : CfgItem) (s : State) : State :=
  if !s.pci.linkUp then s
  else if !s.fnExists f then s.unsupported f false
  else
    let s := match x with
      | .bme b => s.updFn f (fun c => { c with bme := b })
      | .d3hot b => s.updFn f (fun c => { c with d3 := b })
      | .mse b => s.updFn f (fun c => { c with mse := b })
      | .msixEnable b => s.updFn f (fun c => { c with msixEn := b })
      | .functionMask b => s.updFn f (fun c => { c with fmask := b })
      | .maxRead n => s.updFn f (fun c => { c with mrrs := 128 * 2 ^ n.val })
      | .maxPayload n => s.updFn f (fun c => { c with mps := 128 * 2 ^ n.val })
      | .bar i w => s.updFn f (fun c => { c with bars := Map.ins c.bars i.val w.toNat })
      | .aerClear e => s.updFn f (fun c => { c with aer := c.aer.filter (· != e) })
      | .aerCorClear => s.updFn f (fun c => { c with aerCor := false })
      | .aerSeverity e ch => s.updFn f (fun c => { c with aerSev := c.aerSev.filter (· != e) ++ (if ch then [e] else []) })
      | .timeoutRange v => s.when (ctoCodes.contains v.val) (fun s => s.updFn f (fun c => { c with cto := v.val }))
      | .aerMask e on => s.updFn f (fun c => { c with aerMasked := c.aerMasked.filter (· != e) ++ (if on then [e] else []) })
      | .ecrc g k => s.updFn f (fun c => { c with ecrcGen := g, ecrcChk := k })
      | .pageSize n => s.when (f = 0 && !s.vfEn) (fun s => s.updFn 0 (fun c => { c with page := n.val }))
      | .vfBar i w => s.when (f = 0) (fun s => s.updFn 0 (fun c => { c with vfBars := Map.ins c.vfBars i.val w.toNat }))
      | .sriov en n =>
        if f != 0 then s
        else if en then
          if s.vfEn then s else (s.put F.LAT_PCI_STAT_NUMVFS n.val).put F.LAT_PCI_STAT_VF_EN 1
        else (s.when s.vfEn State.vfOff).put F.LAT_PCI_STAT_NUMVFS n.val
    (s.answer f 0 false []).flushHeld.flushMsix

/-! ### MSI-X (R300, R301) -/

/-- Nothing outside the always-on region acts while the device is off (R18); in a freeze the message is left pending (R348). -/
def execMsixSend (f : Fn) (v : BitVec 11) (s : State) : Out := if s.clk = .off then .next s else fin (s.msix f.val v.toNat)

def State.setMsix (s : State) (f v : Nat) (g : MsixEnt → MsixEnt) : State := { s with pci.msix := Map.upd s.pci.msix (msixKey f v) {} g }

/-- A vector is unmasked; what was pending is sent once (R301). -/
def msixUnmask (f v : Nat) (s : State) : State :=
  if s.vecCount f ≤ v then s else (s.setMsix f v (fun e => { e with mask := false })).flushMsix

def execMsixUnmask (f : Fn) (v : BitVec 11) (s : State) : Out := clocked s (msixUnmask f.val v.toNat)

/-- LAT_VF_RINGv (R297): FIRST, COUNT and the copies in the VF's page. -/
def vfRingWrite (v w : Nat) (s : State) : State :=
  if v = 0 then s
  else if s.vfEn then s.put F.LAT_STAT_CFG_REFUSED 1
  else
    let s := (s.sput F.LAT_VF_RING_FIRST (bitsOf w 0 13) v).sput F.LAT_VF_RING_COUNT (bitsOf w 16 11) v
    (s.sput F.LAT_VFR_ID2_FIRST (bitsOf w 0 13) v).sput F.LAT_VFR_ID_COUNT (bitsOf w 16 11) v

def execVfRingWrite (v : Fn) (w : W32) (s : State) : Out := clocked s (vfRingWrite v.val w.toNat)

/-- The vectors of all VFs (R300), with v's COUNT taken as n. [DEDUCED: log 130] -/
def State.vecSum (s : State) (v n : Nat) : Nat :=
  ((List.range 64).map (fun f => if f = 0 then 0 else if f = v then n else s.g F.LAT_VF_VEC_COUNT f)).sum

/-- LAT_VF_VECv.COUNT (R300). [DEDUCED: log 130] -/
def vfVecWrite (v w : Nat) (s : State) : State :=
  let n := bitsOf w 0 11
  if v = 0 then s
  else if s.vfEn || n = 0 || 1536 < s.vecSum v n then s.put F.LAT_STAT_CFG_REFUSED 1
  else (s.sput F.LAT_VF_VEC_COUNT n v).sput F.LAT_VFR_ID2_VECS n v

def execVfVecWrite (v : Fn) (w : W32) (s : State) : Out := clocked s (vfVecWrite v.val w.toNat)

/-! ### Mailboxes (R324) -/

/-- A VF whose BAR0 discards writes and answers reads with all ones (R304, R305). [PRESUMED: log 131] -/
def State.vfShut (s : State) (v : Nat) : Bool := s.on F.LAT_VF_STAT_FLR_BUSY v || s.vfFenced v

/-- LAT_VFR_MBCTL.SEND. -/
def vfMboxSend (v : Nat) (s : State) : State :=
  if v = 0 || s.vfShut v then s
  else (s.setBits F.LAT_MBOX_PEND_PEND (2 ^ (v - 1))).msix 0 (s.g F.LAT_MBOX_VEC_VEC)

def execVfMboxSend (v : Fn) (s : State) : Out := clocked s (vfMboxSend v.val)

/-- LAT_VF_STATv.SEND. -/
def pfMboxSend (v : Nat) (s : State) : State :=
  if v = 0 then s else (s.put F.LAT_VFR_STAT_MB_IN 1 v).msix v (s.g F.LAT_VFR_MBCTL_VEC v)

def execPfMboxSend (v : Fn) (s : State) : Out := clocked s (pfMboxSend v.val)

/-! ### Function Level Reset (R304) -/

/-- Both mailboxes and DB_BAD. [PRESUMED: log 131] -/
def State.clrMbox (s : State) (v : Nat) : State :=
  let s := s.each (List.range 16) (fun s j => (s.put F.LAT_VF_MBIN_VAL 0 v j).put F.LAT_VF_MBOUT_VAL 0 v j)
  (s.put F.LAT_VF_STAT_DB_BAD 0 v).put F.LAT_VFR_STAT_DB_BAD 0 v

/-- [PRESUMED: log 131] -/
def vfFlr (v : Nat) (s : State) : State :=
  if v = 0 || !s.fnExists v then s
  else
    let s := s.clrMbox v
    let s : State := { s with
      pci.fns := Map.del s.pci.fns v
      pci.msix := s.pci.msix.map (fun e => if e.1 / 2048 = v then (e.1, { e.2 with mask := true }) else e)
      pci.pba := s.pci.pba.filter (fun k => k / 2048 ≠ v)
      pci.inq := s.pci.inq.filter (fun r => r.1 ≠ v) }
    let s := s.each ((List.range 8192).filter (fun n => s.ringFn n = v)) (fun s n => ringDrain n s)
    (s.put F.LAT_VF_STAT_FLR_BUSY 1 v).masterReset 0

def execVfFlr (v : Fn) (s : State) : Out := clocked s (vfFlr v.val)

def execVfFlrDone (v : Fn) (s : State) : Out := clocked s (fun s => s.put F.LAT_VF_STAT_FLR_BUSY 0 v.val)

end Sys2Proof.Machine
end

