-- ==== Sys2Proof/Machine/Freeze.lean ====
section
/-! DEFINITION. Freeze and thaw (13: R346 to R351). -/

namespace Sys2Proof.Machine

/-- A request for freeze (R346): 0 FREEZE_N is low, 1 the Chord consumer, 2 FLT_FRZ_CTL.SET. It is accepted in OPERATE and TEST; the clocks stop (R347). [DEDUCED: log 151] -/
def freezeRequest (src : Nat) (s : State) : State :=
  let s : State := if src = 0 then { s with flt.frzPin := false } else s
  if s.clk != .running || !(s.mode = 3 || s.mode = 4) || (src = 0 && !s.on F.FLT_FRZ_CTL_PIN_EN) then s
  else
    let old := s.mode
    let s := s.when (src != 0) (fun s => s.put F.FLT_FRZ_CTL_HOLD 1)
    let s := ((s.put F.FLT_FRZ_STAT_SRC src).sat F.FLT_FRZ_STAT_COUNT).put F.GLB_MODE_MODE 5
    { s with clk := .frozen, flt.frozen := 0, flt.frzBy := some src, flt.frzMode := old }

def execFreezeRequest (src : Fin 3) (s : State) : Out := fin (freezeRequest src.val s)

/-- A rising edge of FREEZE_N clears HOLD. -/
def freezePinRise (s : State) : State := if s.flt.frzPin then s else { s with flt.frzPin := true }.put F.FLT_FRZ_CTL_HOLD 0

def execFreezePinRise (s : State) : Out := fin (freezePinRise s)

/-- A request still holds the freeze. [DEDUCED: log 151] -/
def State.frzHeld (s : State) : Bool := s.on F.FLT_FRZ_CTL_HOLD || (!s.flt.frzPin && s.on F.FLT_FRZ_CTL_PIN_EN)

/-- The frozen duration D in ns, a multiple of 32 (R349). [DEDUCED: log 152] -/
def State.frzD (s : State) : Nat := ceilDiv (max 1 s.flt.frozen) 32 * 32

/-- A WAITT whose time has passed wakes with L = 1 (R172). -/
def State.thawWaitt (s : State) (h : Nat) : State :=
  match (s.leadTh h).wait with
  | some (.time t) => if s.hasLead && s.tvPast t then s.wake h (fun s => s.lAll h true) else s
  | _ => s

/-- An armed commit whose cancel deadline passed during the freeze is cancelled with LATE (R350); before holds the state before the thaw. -/
def State.thawCommits (s before : State) : State :=
  s.each s.rtu.commits (fun s c =>
    if c.cancelled || c.fired || c.decided || c.slot.isSome || before.reached (c.at - 200000) || !s.reached (c.at - 200000) then s
    else { s.cancelCommit c 4 with rtu.arms := s.rtu.arms.filter (fun m => !(m.lead = c.lead && m.tc = c.tc)) })

/-- The clocks restart (R349, R350): the bases have advanced by D, the bias has gone on ramping (R347). [DEDUCED: log 122, 152, 153] -/
def thaw (s : State) : State :=
  if s.clk != .frozen || s.frzHeld then s
  else
    let d := s.frzD
    let before := s
    let src := s.flt.frzBy.getD 0
    let s := s.runBases d
    let s : State := { s with
      clk := .running
      flt.frozen := 0
      flt.frzBy := none
      tm.tcis := s.tm.tcis.map (fun e => (e.1, { e.2 with lastEdge := none }))
      mon.ramps := s.mon.ramps.map (fun e => (e.1, { e.2 with pos := biasPos e.2 (s.cycle + d), start := s.cycle })) }
    let s := ((s.put F.FLT_FRZ_DUR_DUR (d / 32 * 5)).put F.GLB_MODE_MODE s.flt.frzMode).putB F.TB_SYNC_STAT_LEVEL (s.pinAt 0)
    let s := s.thawCommits before
    let s := (s.each (List.range 16) (fun s p => s.rotJump p false)).kicksOver
    let s := s.each (List.range 4) (fun s b => s.tpoJump b ((s.tbVal b : Int) - (before.tbVal b : Int)))
    let s := s.each (List.range 16) State.thawWaitt
    ((s.raise 54 src).flushHeld).flushMsix

end Sys2Proof.Machine
end

