-- ==== Sys2Proof/Machine/Chord.lean ====
section
/-! DEFINITION. Chord (13: R326 to R335): channels, groups, consumers, the storm guard, and the EVIN and EVOUT pins. -/

namespace Sys2Proof.Machine

/-- The SLOW cycle: 8 CORE cycles (R22). [DESIGN CHOICE: log 203] -/
def State.slow (s : State) : Nat := s.cycle / 8

/-! ### Consumers (R329, R330) -/

/-- The pulse of a consumer's EVOUT pin has lasted its WIDTH (R329). -/
def State.pulseOver (s : State) (k : Nat) : Bool := Map.look s.evt.pulse k 0 ≤ s.slow
/-- A pulse of WIDTH SLOW cycles begins; 0 acts as 1. -/
def State.startPulse (s : State) (k : Nat) : State :=
  { s.put F.EVT_CONS_BUSY 1 k with evt.pulse := Map.ins s.evt.pulse k (s.slow + max 1 (s.g F.EVT_OUT_WIDTH (k - 1))) }

/-- A consumer would refuse or could not carry out its action. -/
def State.consBusy (s : State) (k : Nat) : Bool :=
  if 1 ≤ k && k ≤ 4 then s.on F.EVT_CONS_BUSY k && !s.pulseOver k
  else if 16 ≤ k && k < 32 then s.dmaState (k - 16) != 0
  else if 32 ≤ k && k < 48 then s.dmaState (k - 32) = 0 || s.dmaState (k - 32) = 4
  else if 48 ≤ k && k < 64 then s.partFenced (k - 48) || s.resuming 0 (k - 48)
  else false

/-- What a consumer does. -/
def State.consAct (s : State) (k : Nat) : State :=
  if 1 ≤ k && k ≤ 4 then s.startPulse k
  else if k = 5 then freezeRequest 1 s
  else if 8 ≤ k && k < 16 then tpoLoad (k - 8) s
  else if 16 ≤ k && k < 32 then dmaStart (k - 16) s
  else if 32 ≤ k && k < 48 then dmaChainKick (k - 32) s
  else if 48 ≤ k && k < 64 then s.askFence 0 (k - 48) false
  else s

/-- A trigger at a consumer: merged with another of its cycle, a miss while busy, else the action. -/
def State.trigger (s : State) (k : Nat) : State :=
  if k = 0 || k = 6 || k = 7 then s
  else if Map.find s.evt.trig k = some s.slow then s.put F.EVT_CONS_COINC 1 k
  else
    let s : State := { s with evt.trig := Map.ins s.evt.trig k s.slow }
    if s.consBusy k then s.sat F.EVT_CONS_MISS k else s.consAct k

/-! ### Groups (R333) -/

/-- The enables as they stood at the start of the SLOW cycle. [DEDUCED: log 149] -/
def State.grpMask (s : State) : Nat := if s.evt.grpAt = some s.slow then s.evt.grpOld else s.g F.EVT_GRP_EN
/-- The first change in a cycle keeps what stood before. [DEDUCED: log 149] -/
def State.grpMark (s : State) : State :=
  if s.evt.grpAt = some s.slow then s else { s with evt.grpAt := some s.slow, evt.grpOld := s.g F.EVT_GRP_EN, evt.grpOn := 0, evt.grpOff := 0 }

/-- The groups that a firing channel switches; a group that both its channels meet in one cycle ends disabled. -/
def State.grpSwitch (s : State) (c : Nat) : State :=
  s.each (List.range 8) (fun s g =>
    let s := s.when (s.on F.EVT_GRPCTL_ON_EN g && s.g F.EVT_GRPCTL_ON_CH g = c) (fun s =>
      let s := s.grpMark
      if bitOf s.evt.grpOff g then s
      else { s.put F.EVT_GRP_EN (orBit (s.g F.EVT_GRP_EN) g) with evt.grpOn := orBit s.evt.grpOn g })
    s.when (s.on F.EVT_GRPCTL_OFF_EN g && s.g F.EVT_GRPCTL_OFF_CH g = c) (fun s =>
      let s := s.grpMark
      { s.put F.EVT_GRP_EN (clrBit (s.g F.EVT_GRP_EN) g) with evt.grpOn := clrBit s.evt.grpOn g, evt.grpOff := orBit s.evt.grpOff g }))

/-! ### Channels (R326, R330, R331, R334) -/

/-- [DEDUCED: log 148] -/
def State.chHist (s : State) (c : Nat) : List Nat := Map.look s.evt.hist c []

/-- The storm guard stops a channel (R334). -/
def State.storm (s : State) (c : Nat) : State :=
  let s := (s.put F.EVT_CH_EN 0 c).put F.EVT_CHSTAT_STORM 1 c
  let s := if s.on F.EVT_STAT_STORM then s else (s.put F.EVT_STAT_STORM 1).put F.EVT_STAT_STORM_CH c
  s.raise 47 c

/-- A channel fires (R326). -/
def State.fire (s : State) (c : Nat) : State :=
  let s : State := { s with
    evt.last := Map.ins s.evt.last c s.slow
    evt.hist := Map.ins s.evt.hist c ((s.slow :: s.chHist c).take 256) }
  let s := (s.setBits F.EVT_FLAG_FLAG (2 ^ c)).trigger (s.g F.EVT_CH_CSEL c)
  let s := s.when (s.on F.EVT_CH_IEN c) (fun s => s.msix 0 (s.g F.EVT_VEC_VEC c))
  (s.occur (0xC0 + c)).grpSwitch c

/-- The 256th firing before this one lies less than 4,096 SLOW cycles back. -/
def State.stormy (s : State) (c : Nat) : Bool :=
  match (s.chHist c)[255]? with
  | some t => s.slow < t + 4096
  | none => false

/-- An occurrence or a raise reaches a channel. -/
def State.reach (s : State) (c : Nat) (isRaise : Bool) : State :=
  if !s.on F.EVT_CH_EN c || !bitOf s.grpMask (s.g F.EVT_CH_GRP c) then s
  else
    match Map.find s.evt.last c with
    | none => if s.stormy c then s.storm c else s.fire c
    | some t =>
      if t = s.slow then s.put F.EVT_CHSTAT_COINC 1 c
      else if !isRaise && s.g F.EVT_CH_RETRIG c != 0 && s.slow < t + s.g F.EVT_CH_RETRIG c then s.sat F.EVT_CHSTAT_RTRG_DROP c
      else if s.stormy c then s.storm c else s.fire c

/-- The producers that exist (R328). -/
def producer (k : Nat) : Bool :=
  (1 ≤ k && k ≤ 5) || (8 ≤ k && k ≤ 0x19) || (0x20 ≤ k && k ≤ 0x6F) || (0xC0 ≤ k && k ≤ 0xFF)

/-- The oldest occurrence reaches the channels that select its producer; a raise by EVRAISE reaches its channel. -/
def chordOccurrence (s : State) : State :=
  match s.evt.occ with
  | [] => s
  | k :: rest =>
    let s : State := { s with evt.occ := rest }
    if 256 ≤ k then s.reach (k - 256) true
    else if producer k then s.each ((List.range 64).filter (fun c => s.g F.EVT_CH_PSEL c = k)) (fun s c => s.reach c false)
    else s

def execChordOccurrence (s : State) : Out := clocked s chordOccurrence

def execEvtRaise (c : Fin 64) (s : State) : Out := clocked s (fun s => s.reach c.val true)

/-- A synchronised sample of an EVIN pin differs from the one before (R332). -/
def evinEdge (i : Nat) (level : Bool) (s : State) : State :=
  if s.on F.EVT_PIN_LEVEL i = level then s
  else
    let m := s.g F.EVT_PIN_MODE i
    (s.putB F.EVT_PIN_LEVEL level i).when (if level then bitOf m 0 else bitOf m 1) (fun s => s.occur (1 + i))

/-- A level that a pin takes during a freeze is met at the thaw (R335). [DESIGN CHOICE: log 150] -/
def execEvinEdge (i : Fin 4) (level : Bool) (s : State) : Out :=
  if s.clk = Clk.frozen then .next { s with evt.pins := Map.ins s.evt.pins i.val level } else clocked s (evinEdge i.val level)

/-- At the thaw the synchronisers go on from their samples before the freeze: a net change of a pin's level is one occurrence (R335). [DESIGN CHOICE: log 150] -/
def State.thawPins (s : State) : State :=
  let l := s.evt.pins
  { s with evt.pins := [] }.each l (fun s e => evinEdge e.1 e.2 s)

/-- The pulse at an EVOUT pin ends once it has lasted its WIDTH. -/
def evoutPulseEnd (i : Nat) (s : State) : State := if s.pulseOver (1 + i) then s.put F.EVT_CONS_BUSY 0 (1 + i) else s

def execEvoutPulseEnd (i : Fin 4) (s : State) : Out := clocked s (evoutPulseEnd i.val)

/-- The level of an EVOUT pin. -/
def State.evout (s : State) (i : Nat) : Bool := (s.on F.EVT_CONS_BUSY (1 + i) && !s.pulseOver (1 + i)) != s.on F.EVT_OUT_POL i

/-- A write of EVT_CHc; with EN = 1 the firing history is cleared (R334). [DEDUCED: log 148] -/
def evtChWrite (c v : Nat) (s : State) : State :=
  let s := s.each [F.EVT_CH_PSEL, F.EVT_CH_CSEL, F.EVT_CH_GRP, F.EVT_CH_EN, F.EVT_CH_IEN, F.EVT_CH_RETRIG] (fun s f => s.sput f (bitsOf v f.lo f.wd) c)
  if s.on F.EVT_CH_EN c then { s with evt.hist := Map.del s.evt.hist c } else s

def execEvtChWrite (c : Fin 64) (v : W32) (s : State) : Out := clocked s (evtChWrite c.val v.toNat)

end Sys2Proof.Machine
end

