-- ==== Sys2Proof/Machine/Faults.lean ====
section
/-! DEFINITION. The fault collector as it is commanded (13: R336 to R340); what a raise does is State.raise of Ops. -/

namespace Sys2Proof.Machine

/-- Where a 64-bit word of a store stands (R340); none for the stores that no address reaches. [DESIGN CHOICE: log 147] -/
def storeWord (store idx : Nat) : Option Nat :=
  match store with
  | 0 => some (progBase + 8 * idx)
  | 1 => some (mapBase + 8 * idx)
  | 2 => some (sqBase + 8 * idx)
  | 4 => some (ctxABase + 8 * idx)
  | 5 => some (repBase + 8 * idx)
  | 6 => some (dmBase 0 + 8 * idx)
  | _ => none

/-- The bits of INFO that a source latches (R340); the others read zero. -/
def infoBits (n : Nat) : Nat :=
  if n ≤ 1 then 0x1FFF000F
  else if 8 ≤ n && n ≤ 23 then 0xFF
  else if 60 ≤ n then 0
  else
    match n with
    | 2 => 0xF7
    | 3 => 1
    | 4 => 0x7F
    | 5 => 0x1FFF0F1F
    | 6 => 0xFFFF000F
    | 7 => 0x1F
    | 24 => 0x1FFFFF0F
    | 25 => 0xF
    | 26 => 0xF
    | 27 => 0xFFFF000F
    | 28 => 0xF
    | 29 => 0xFFFF000F
    | 30 => 7
    | 31 => 7
    | 32 => 0x7F
    | 33 => 0x7F
    | 34 => 0x3F
    | 35 => 1
    | 36 => 3
    | 37 => 0xF
    | 38 => 0xF
    | 41 => 1
    | 42 => 0x3F
    | 44 => 0x77
    | 45 => 0x77
    | 46 => 0xF0F
    | 47 => 0x3F
    | 48 => 0x1FFF
    | 49 => 0x11FFF
    | 50 => 3
    | 51 => 0xFFFF
    | 52 => 0x3FF
    | 54 => 3
    | 55 => 0xF
    | 56 => 0x7FFF
    | 57 => 0xF
    | _ => 0

/-- A source raised by what no other row shows. With SRAM_UE the word that its information names has become uncorrectable. [DESIGN CHOICE: log 147] -/
def faultRaise (n info : Nat) (s : State) : State :=
  let s : State :=
    if n = 24 then
      match storeWord (bitsOf info 0 4) (bitsOf info 8 21) with
      | some w => { s with ueWords := if s.ueWords.contains w then s.ueWords else s.ueWords ++ [w] }
      | none => s
    else s
  s.raise n (info &&& infoBits n)

def execFaultRaise (n : Fin 64) (info : W32) (s : State) : Out := clocked s (faultRaise n.val info.toNat)

/-- A W1C write of FLT_STAT ends the handling windows of the sources it names (R336). A source raised in the same CORE cycle ends set, and its raise is a new instance with its reactions. -/
def fltStatClear (mask : Nat) (s : State) : State :=
  let again := s.flt.again.filter (fun e => e.2.1 = s.cycle && bitOf mask e.1)
  let s := s.w1c F.FLT_STAT_STAT mask
  { s with flt.again := [] }.each again (fun s e => s.raise e.1 e.2.2)

def execFltStatClear (x : MasterWrite) (s : State) : Out := clocked s (fun s => fltStatClear x.v.toNat (s.wideWritten x.m.val R.FLT_STAT))

/-- Writing 1 to FLT_FIRST.VALID (R337). The write comes before the raises of its cycle (R6): the lowest-numbered source set in it is then the first. -/
def fltFirstClear (s : State) : State :=
  match bitList (s.hwOf R.FLT_STAT).set.toNat 64 with
  | [] => (s.w1c F.FLT_FIRST_VALID).w1c F.FLT_FIRST_OVF
  | n :: more =>
    { ((s.put F.FLT_FIRST_VALID 1).put F.FLT_FIRST_SRC n |>.putB F.FLT_FIRST_OVF (!more.isEmpty)).put F.FLT_FIRST_TIME_VAL (s.tbNow 0).toNat with flt.firstAt := s.cycle }

def execFltFirstClear (s : State) : Out := clocked s fltFirstClear

/-- FLT_SOFT raises SOFT0 to SOFT3 (R340). -/
def fltSoft (mask : Nat) (s : State) : State := s.each (bitList mask 4) (fun s i => s.raise (60 + i))

def execFltSoft (mask : BitVec 4) (s : State) : Out := clocked s (fltSoft mask.toNat)

/-- The CORE cycles of a window of WIN ms; 0 acts as 1. -/
def State.ceWindow (s : State) : Nat := 1000000 * max 1 (s.g F.FLT_CE_THR_WIN)
/-- When the window of a store ends: WIN after the one before it. -/
def State.ceDue (s : State) (store : Nat) : Nat := Map.look s.flt.ceAt store s.flt.ceBase + s.ceWindow

/-- A window of corrected errors ends with n of them in a store (R340), WIN after the one before. -/
def ceWindowEnd (store n : Nat) (s : State) : State :=
  if s.cycle < s.ceDue store then s
  else
    let s : State := { s with flt.ceAt := Map.ins s.flt.ceAt store (s.ceDue store) }
    if max 1 (s.g F.FLT_CE_THR_THR) ≤ n then s.raise 25 store else s

def execCeWindowEnd (store : Fin 9) (n : BitVec 32) (s : State) : Out := clocked s (ceWindowEnd store.val n.toNat)

/-- The watchdog of a management processor runs out (R340). -/
def execMpWatchdogExpiry (i : Fin 4) (s : State) : Out := clocked s (fun s => s.raise 50 i.val)

end Sys2Proof.Machine
end

