-- ==== Sys2Proof/Machine/Power.lean ====
section
/-! DEFINITION. Power (14: R353 to R363): the rails and their sequences, rail faults, VHTR headroom and the caps; the loss of REFCLK (R25, R341). DPC0 to DPC7 carry their own numbers, VIO is rail 8. -/

namespace Sys2Proof.Machine

/-! ### Rails (R353, R354) -/

/-- Where a rail's DPC regulates it. -/
def State.railOn (s : State) (r : Nat) : State := if r = 8 then s else (s.put F.DPC_CFG_EN 1 r).put F.DPC_STAT_ON 1 r
def State.railOff (s : State) (r : Nat) : State :=
  if r = 8 then { s with pwr.vio := false } else ((s.put F.DPC_CFG_EN 0 r).put F.DPC_STAT_ON 0 r).put F.DPC_STAT_PG 0 r
def State.railPg (s : State) (r : Nat) : Bool := if r = 8 then s.pwr.vio else s.on F.DPC_STAT_PG r
/-- [DEDUCED: log 161] -/
def State.setPg (s : State) (r : Nat) : State := if r = 8 then { s with pwr.vio := true } else s.put F.DPC_STAT_PG 1 r

/-- The set values of VHTR and of VPICn in mV. -/
def State.vhtrInit (s : State) : Nat := 3300 + 25 * min 348 (s.g F.PWR_SEQ_CFG_VHTR_INIT)
/-- [DEDUCED: log 176] -/
def State.vpicSet (s : State) (n : Nat) : Nat := 600 + 25 * min 176 (s.g F.PWR_VPIC_CFG_VSET n)

/-- DPC4's target in mV. -/
def State.vhtrTarget (s : State) : Nat :=
  if s.on F.PWR_VHTR_CFG_MANUAL then s.g F.DPC_VSET_VSET 4
  else
    let m := ((List.range 16).map (fun t => if bitOf (s.g F.PWR_VHTR_CFG_TMASK) t then Map.look s.pwr.demand t 0 else 0)).foldl max 0
    max 3300 (min 12000 (ceilDiv (m + 800 + 25 * max 4 (min 80 (s.g F.PWR_VHTR_CFG_MARGIN))) 25 * 25))

/-- VHTR_LOW: VHTR as measured is more than 100 mV below the target (R360). -/
def State.vhtrLow (s : State) : State := s.putB F.PWR_STAT_VHTR_LOW (s.g F.DPC_MEAS_V 4 + 100 < s.pwr.vtarget)

/-- VHTR takes its target anew (R359, R360). -/
def State.retarget (s : State) : State :=
  let s : State := { s with pwr.vtarget := s.vhtrTarget }
  (if s.on F.PWR_VHTR_CFG_MANUAL then s else s.put F.DPC_VSET_VSET s.pwr.vtarget 4).vhtrLow

/-! ### Power-up (R355, R356) -/

/-- The enabled VPIC rails in ascending ORDER, ties to the lower n. -/
def State.vpicOrder (s : State) : List Nat :=
  (List.range 4).flatMap (fun o => (List.range 3).filter (fun n => s.on F.PWR_VPIC_CFG_EN n && s.g F.PWR_VPIC_CFG_ORDER n = o))

/-- The rails whose power good a step awaits. -/
def State.stepRails (s : State) (k : Nat) : List Nat :=
  match k with
  | 1 => [8]
  | 2 => [0]
  | 3 => [1]
  | 4 => [2, 3]
  | 6 => [4]
  | 7 => (s.vpicOrder.map (fun n => n + 5)).filter (fun r => !s.railPg r) |>.take 1
  | _ => []

/-- A step begins: its rails are set and turned on; step 7 ends when every enabled VPIC is up. -/
def State.beginStep (s : State) (k : Nat) : State :=
  let s : State := { s with pwr.seq := k }
  match k with
  | 2 => (s.setWord R.DPC_VSET (dpcSet 0) 0).railOn 0
  | 3 => s.railOn 1
  | 4 => (s.railOn 2).railOn 3
  | 6 => (({ s.put F.DPC_VSET_VSET s.vhtrInit 4 with pwr.vtarget := s.vhtrInit }).vhtrLow).railOn 4
  | 7 =>
    match s.stepRails 7 with
    | r :: _ => (s.put F.DPC_VSET_VSET (s.vpicSet (r - 5)) r).railOn r
    | [] => { s with pwr.seq := 8 }
  | _ => s

/-- The step after one (R355). -/
def nextStep (k : Nat) : Nat := if k = 4 then 6 else if k = 6 then 7 else if k = 7 then 7 else k + 1

/-- In OFF with VSTBY good a high level of PWR_REQ starts the power-up sequence (R355), unless a failed one still awaits a low level (R356). [DEDUCED: log 162] -/
def State.powerUp (s : State) : State :=
  if s.clk != .off || s.pwr.seq != 0 || s.pwr.down || !s.pwr.vstby || !s.pwr.req || s.pwr.blocked then s else s.beginStep 1

/-- PWR_REQ rises (R355) after it was low for so many ms; after a failed power-up it must have been low for 10 ms (R356). [DEDUCED: log 162] -/
def pwrReqRise (ms : Nat) (s : State) : State :=
  { s with pwr.req := true, pwr.blocked := s.pwr.blocked && (ms < 10 || s.clk != Clk.off || s.pwr.down) }.powerUp

def execPwrReqRise (ms : BitVec 32) (s : State) : Out := fin (pwrReqRise ms.toNat s)

/-- The root PLL has locked (R355, step 8): chip reset is released, and the device enters BOOT. -/
def State.powerGood (s : State) : State := ({ s with clk := .running, pwr.seq := 0, flt.clkLoss := none }).chipReset

/-- Power good of a rail (R355); with 9 the lock of the root PLL. A rail restarted by itself shows PG too (R358). [DEDUCED: log 161] -/
def railPowerGood (r : Nat) (s : State) : State :=
  if s.pwr.seq = 0 then (if r < 8 && s.on F.DPC_STAT_ON r then s.setPg r else s)
  else if r = 9 then (if s.pwr.seq = 8 then s.powerGood else s)
  else if !(s.stepRails s.pwr.seq).contains r then s
  else
    let k := s.pwr.seq
    let s := s.setPg r
    if k != 7 && (s.stepRails k).any (fun x => !s.railPg x) then s else s.beginStep (nextStep k)

/-- What a DPC measures: signed mV and 1/64 A. -/
def State.setMeas (s : State) (r v i : Nat) : State :=
  if r < 8 then (((s.put F.DPC_MEAS_V v r).put F.DPC_MEAS_I i r).when (r = 4) State.vhtrLow) else s

def execRailPowerGood (r : Fin 10) (v i : BitVec 16) (s : State) : Out := fin (railPowerGood r.val (s.setMeas r.val v.toNat i.toNat))

/-! ### Power-down (R357) -/

/-- The power-down sequence begins: every tile is fenced. -/
def State.powerDown (s : State) : State :=
  if s.clk = .off && s.pwr.seq = 0 then s
  else
    let s := s.each (List.range 16) (fun s t => s.fenceNow 1 t)
    { s with pwr.down := true, pwr.seq := 0 }

/-- The order in which the rails fall: the VPIC rails in descending ORDER, then VHTR, VAOP and VAON, VDDA, VCORE and VIO. [DEDUCED: log 163] -/
def State.fallOrder (s : State) : List Nat :=
  ((List.range 4).flatMap (fun o => (List.range 3).filter (fun n => s.g F.PWR_VPIC_CFG_ORDER n = o))).reverse.map (fun n => n + 5) ++ [4, 3, 2, 1, 0, 8]

/-- Every rail falls, and the device is in OFF. -/
def State.allOff (s : State) : State :=
  let s := s.each s.fallOrder State.railOff
  { s with pwr.down := false, clk := .off, pci.linkUp := false, af.tiles := (List.range 16).map (fun t => (t, { s.tl t with powered := false, linkUp := false })) }

/-- The sequence has ended; while PWR_REQ is high, the device powers up again (R355). [DEDUCED: log 162, 163] -/
def powerDownDone (s : State) : State := if s.pwr.down then s.allOff.powerUp else s

def execPowerDownDone (s : State) : Out := fin (powerDownDone s)

/-- PWR_REQ falls. -/
def execPwrReqFall (s : State) : Out := fin ({ s with pwr.req := false }.powerDown)

/-- VSTBY falls below 2.9 V. -/
def execVstbyLow (s : State) : Out := fin ({ s with pwr.vstby := false }.powerDown)

/-- VSTBY between 2.9 V and 3.0 V for 10 us; the always-on region reports it in a freeze too (R347). [DEDUCED: log 163] -/
def execVstbyBrownout (s : State) : Out := fin (if s.clk = .off then s else s.raise 58)

/-- A step misses its power good (R356): it is recorded, and the rails already up go down. [DEDUCED: log 163] -/
def pwrupStepTimeout (s : State) : State :=
  let k := s.pwr.seq
  if k = 0 then s
  else
    let bad := if k = 1 then some 7 else ((s.stepRails k).filter (fun r => !s.railPg r)).head?
    let s := (s.put F.PWR_SEQ_STAT_FAIL_STEP k).put F.PWR_SEQ_STAT_VALID 1
    { s with pwr.failDpc := bad, pwr.blocked := true, pwr.down := true, pwr.seq := 0 }

def execPwrupStepTimeout (s : State) : Out := fin (pwrupStepTimeout s)

/-- VSTBY becomes good (R355): the always-on registers take their VSTBY power-up values, and the device is in OFF; a high level of PWR_REQ powers it up. [DEDUCED: log 162] -/
def vstbyPowerUp (s : State) : State :=
  if s.pwr.vstby then s
  else
    let s := if s.pwr.down then s.allOff else s
    let s : State := { s with
      clk := .off
      regs := s.regs.filter (fun e => keyReg e.1 < numTileRegs || keyReg e.1 = R.CAR_WR_CNT.id)
      pwr := { s.pwr with vstby := true, seq := 0, blocked := false, down := false, failDpc := none, vio := false, board := [] } }
    (s.each (List.range 5) State.railOff).powerUp

def execVstbyPowerUp (s : State) : Out := fin (vstbyPowerUp s)

/-! ### Rail faults (R358) -/

/-- A DPC qualifies a fault: kind 0 UV, 1 OV, 2 OC; of VIO its loss. During the power-up sequence only a rail that is up can have one, and the fault collector does not run yet. [DEDUCED: log 163] -/
def railFault (r kind : Nat) (s : State) : State :=
  if s.clk = .off && (s.pwr.seq = 0 || !s.railPg r) then s
  else
    let s := if r = 8 then s else s.put (if kind = 0 then F.DPC_STAT_UV else if kind = 1 then F.DPC_STAT_OV else F.DPC_STAT_OC) 1 r
    let s := s.when (s.clk != .off) (fun s => s.raise (if kind = 2 then 31 else 30) (min r 7))
    if r ≤ 3 || r = 8 then (s.railOff r).powerDown
    else if r = 4 then s.railOff 4
    else
      let s := (s.railOff r).put F.PWR_VPIC_CFG_EN 0 (r - 5)
      if s.on F.PWR_VPIC_CFG_FOF (r - 5) then
        s.each (bitList (s.g F.PWR_VPIC_CFG_PMASK (r - 5)) 16) (fun s p => s.askFence 0 p false)
      else s

def execRailFault (r : Fin 9) (kind : Fin 3) (v i : BitVec 16) (s : State) : Out := fin (railFault r.val kind.val (s.setMeas r.val v.toNat i.toNat))

/-- EN = 1 is written to DPC 4 + n, VHTR or a VPIC (R358). -/
def railRestart (n : Nat) (s : State) : State :=
  let r := 4 + n
  if s.on F.DPC_STAT_UV r || s.on F.DPC_STAT_OV r || s.on F.DPC_STAT_OC r then s.put F.PWR_STAT_CFG_REFUSED 1
  else
    let s := if n = 0 then s else (s.put F.PWR_VPIC_CFG_EN 1 (n - 1)).put F.DPC_VSET_VSET (s.vpicSet (n - 1)) r
    s.railOn r

def execRailRestart (n : Fin 4) (s : State) : Out := clocked s (railRestart n.val)

/-- A host write of DPC_VSET0 (R354). [DEDUCED: log 176] -/
def vset0Write (v : Nat) (s : State) : State := if 700 ≤ v && v ≤ 800 then s.sput F.DPC_VSET_VSET v 0 else s.put F.PWR_STAT_CFG_REFUSED 1

def execDpcVset0Write (v : BitVec 16) (s : State) : Out := clocked s (vset0Write v.toNat)

/-- Service Firmware corrects VCORE by so many steps of 5 mV from 700 mV, in OPERATE (R354, R371). -/
def execAvsUpdate (k : Fin 21) (s : State) : Out := clocked s (fun s => if s.mode = 3 then s.put F.DPC_VSET_VSET (700 + 5 * k.val) 0 else s)

/-! ### VHTR headroom and the caps (R359, R360, R363) -/

/-- Whether the measured load exceeds its caps now, and since when without a break (R363). -/
def State.capCheck (s : State) : State :=
  let i := s.g F.PWR_VHTR_ILIM_ILIM < s.g F.PWR_VHTR_LOAD_ITOT
  let h := s.g F.PWR_HDISS_CAP_CAP < s.g F.PWR_VHTR_LOAD_PH
  { (s.putB F.PWR_STAT_ICAP i).putB F.PWR_STAT_HCAP h with
    pwr.capSince := if i || h then some (s.pwr.capSince.getD s.cycle) else none }

/-- The measured load. -/
def State.capMeasure (s : State) (itot ph : Nat) : State :=
  ((s.put F.PWR_VHTR_LOAD_ITOT itot).put F.PWR_VHTR_LOAD_PH ph).capCheck

/-- A channel counts for the demand: I-mode, EN = 1, an active code of 1 % of full scale or more (R359). -/
def State.demands (s : State) (a : Nat) : Bool := s.ga F.AO_CFG_MODE a = 2 && s.ona F.AO_CFG_EN a && 65536 ≤ 100 * s.ga F.AO_ACT_CODE a

/-- The larger of a channel's active and staged currents, in the steps of 2 mA / 65,536 of R33. -/
def State.loadCurrent (s : State) (a : Nat) : Nat :=
  let code := max (s.ga F.AO_ACT_CODE a) (if s.ona F.AO_SHD_STAGED a then s.ga F.AO_SHD_CODE a else 0)
  if s.ga F.AO_CFG_RANGE a = 1 then 10 * code else code

/-- D_t in mV (R359), from the load resistances in ohm that the tile measures. -/
def State.tileDemand (s : State) (t : Nat) (loads : List (Chan × BitVec 16)) : Nat :=
  (loads.map (fun e =>
    let a := t * 1280 + e.1.val
    if s.demands a then ceilDiv (2 * e.2.toNat * s.loadCurrent a) 65536 else 0)).foldl max 0

/-- A tile reports its demand (R359); v is VHTR as measured then, itot and ph the current and dissipation (R363). [DEDUCED: log 163] -/
def vhtrDemand (t : Nat) (loads : List (Chan × BitVec 16)) (v itot ph : Nat) (s : State) : State :=
  let s : State := if bitOf (s.g F.PWR_VHTR_CFG_TMASK) t then { s with pwr.demand := Map.ins s.pwr.demand t (s.tileDemand t loads) } else s
  ((s.put F.DPC_MEAS_V v 4).retarget).capMeasure itot ph

def execVhtrDemandReport (t : Tile) (loads : List (Chan × BitVec 16)) (v itot ph : BitVec 16) (s : State) : Out :=
  clocked s (vhtrDemand t.val loads v.toNat itot.toNat ph.toNat)

/-- A cap has been exceeded for 100 us without a break (R363). -/
def capTimeout (itot ph : Nat) (s : State) : State :=
  let s := s.capMeasure itot ph
  match s.pwr.capSince with
  | some k => if k + 100000 ≤ s.cycle then s.raise 31 4 else s
  | none => s

def execCapExceedTimeout (itot ph : BitVec 16) (s : State) : Out := clocked s (capTimeout itot.toNat ph.toNat)

/-! ### The loss of REFCLK (R25, R341) -/

/-- REFCLK absent (0) or the PLL out of lock (1): the root-derived clocks stop, and the source is recorded. -/
def clkLoss (why : Nat) (s : State) : State :=
  if s.clk = .off || s.clk = .lost then s
  else { (s.put F.FLT_RST_CAUSE_SRC 35).put F.FLT_RST_CAUSE_VALID 1 with clk := .lost, flt.clkLoss := some why }

def execClkLoss (why : Fin 2) (s : State) : Out := fin (clkLoss why.val s)

/-- REFCLK has been present for 1 ms without a break (R341). -/
def clkLossReset (s : State) : State := if s.clk = .lost && s.on F.FLT_REACT_CRST 35 then s.chipReset else s

def execClkLossReset (s : State) : Out := fin (clkLossReset s)

/-! ### Chip reset (R373) -/

/-- RESET_N is low for 1 us. [DEDUCED: log 160] -/
def execChipReset (s : State) : Out := fin (if s.clk = .off then s else s.chipReset)

/-- GLB_CTL.CHIP_RST. -/
def execChipRst (s : State) : Out := clocked s State.chipReset

end Sys2Proof.Machine
end

