-- ==== Sys2Proof/Machine/Manage.lean ====
section
/-! DEFINITION. Boot, the management commands, the answer to an NMI and the device modes (14: R364 to R373; 02, 10: R58, R266). -/

namespace Sys2Proof.Machine

/-! ### PARK, SAFE (R371, R372) -/

/-- What PARK does to the device: partitions as if changed to HOLD, threads stopped, tiles fenced, VCORE at 0.700 V. -/
def State.parkDevice (s : State) : State :=
  let s := s.each (List.range 16) (fun s p => s.setMode p 0)
  let s := s.each (List.range 16) (fun s h => (s.thStop 0 h).thStop 1 h)
  let s := s.each (List.range 16) (fun s t => s.fenceNow 1 t)
  let s : State := if s.mode = 1 then s else { s with pwr.vcore := s.g F.DPC_VSET_VSET 0 }
  s.put F.DPC_VSET_VSET 700 0

/-- SAFE: what PARK does, and every member is fenced. [DEDUCED: log 165] -/
def State.enterSafe (s : State) : State :=
  let s := s.parkDevice
  let s := s.each (List.range 2) (fun s m => s.fenceNow 2 m)
  (s.each (List.range 32) (fun s m => s.fenceNow 3 m)).put F.GLB_MODE_MODE 6

/-! ### Boot (R364 to R366) -/

def State.bootStep (s : State) (k : Nat) : State := s.put F.GLB_BOOT_STAT_STEP k

/-- The memories as step 2 leaves them: every SRAM array initialised (log entry 8); flash is no SRAM. -/
def State.initSram (s : State) : State :=
  { s with mem := s.mem.filter (fun c => flashBase ≤ c.1 && c.1 < mgmtBase), ueWords := [] }

/-- The failure of an earlier power-up is reported (R356). -/
def State.reportPwrup (s : State) : State :=
  match s.pwr.failDpc with
  | some d => { s with pwr.failDpc := none }.raise 30 d
  | none => s

/-- A VPIC rail takes its configuration; EN is copied to its DPC (R376), which turns on or off. [DEDUCED: log 166] -/
def State.applyVpic (s : State) (n : Nat) (w : RWord) : State :=
  let s := s.setWord R.PWR_VPIC_CFG w n
  let s := s.put F.DPC_VSET_VSET (s.vpicSet n) (n + 5)
  if s.on F.PWR_VPIC_CFG_EN n then s.railOn (n + 5) else s.railOff (n + 5)

/-- The bytes of the board configuration record in flash (R364). [DESIGN CHOICE: log 164] -/
def State.boardRecord (s : State) : List Byte :=
  match s.flashItem 5 with
  | some i => s.rdBs (flashBase + i.1) i.2.1
  | none => []

/-- The board configuration record is applied; where its CRC fails, the built-in defaults (R366). [DESIGN CHOICE: log 164; DEDUCED: log 166] -/
def State.boardConfig (s : State) (ok : Bool) : State :=
  if ok then
    let bs := s.boardRecord
    let s : State := { s.setWord R.PWR_SEQ_CFG ((Config.boardVhtrInit bs).zeroExtend 96) with pwr.board := bs }
    let s := s.each (List.range 8) (fun s n => (s.put F.DPC_CFG_PHASES (Config.dpcPhases bs n).toNat n).setWord R.DPC_LIM ((Config.dpcOcl bs n).zeroExtend 96) n)
    s.each (List.range 3) (fun s n => s.applyVpic n ((Config.boardVpic bs n).zeroExtend 96))
  else
    let s := (s.setWord R.PWR_SEQ_CFG 0x15C).bootFail 2
    s.each (List.range 3) (fun s n => s.applyVpic n (setField (s.word R.PWR_VPIC_CFG n) 15 1 0))

/-- Every member starts to load (R251, R263). [DEDUCED: log 100, 101] -/
def State.loadMembers (s : State) : State :=
  s.each (List.range 17) (fun s x => (s.memberTo x 0 1).memberTo x 1 1)

/-- No member is on its way: each is INSYNC or OFFLINE. -/
def State.membersSettled (s : State) : Bool :=
  (List.range 17).all (fun x => (List.range 2).all (fun m => s.mstate x m = 4 || s.mstate x m = 0))

/-- Step 5 for a tile: trained, it is aligned and unfenced, but a tile whose Loop Engine pair has no holder stays fenced (R257); untrained, it stays fenced, and TILE_FAULT is raised (R366). [DEDUCED: log 165] -/
def State.bootTile (s : State) (t : Nat) : State :=
  if (s.tl t).linkUp then (s.put F.TL_TSTAT_VALID 1 t).when (!s.noHolder (1 + t)) (fun s => s.liftFence 1 t)
  else ((s.fenceNow 1 t).fsum t 4).bootFail 5

/-- Every trained tile has been trimmed, or has failed to. [DEDUCED: log 167] -/
def State.trimmed (s : State) : Bool :=
  (List.range 16).all (fun t => !(s.tl t).linkUp || s.on F.CAL_TSTAT_VALID t || s.on F.CAL_TSTAT_CAL_FAIL t)

/-- READY: the device enters OPERATE (R365). [DEDUCED: log 165] -/
def State.ready (s : State) : State :=
  let ms := min 65535 ((s.cycle - s.pwr.bootAt) / 1000000)
  ((s.put F.GLB_BOOT_STAT_READY 1).put F.GLB_BOOT_STAT_MS ms).put F.GLB_MODE_MODE 3

/-- Service Firmware is authenticated: as the images that flash lists decide, or, where the directory lists none, as the command says (R364, R365). [DESIGN CHOICE: log 164] -/
def State.fwOk (s : State) (ok : Bool) : Bool :=
  if (s.flashItem 1).isSome || (s.flashItem 2).isSome then s.firmware.isSome else ok
/-- Its plaintext is loaded at management memory address 0 (R364). -/
def State.fwLoad (s : State) : State :=
  match s.firmware with
  | some p => s.wrBs mgmtBase p
  | none => s
/-- The CRC of the board configuration record agrees; where the directory lists none, as the command says (R364, R366). [DESIGN CHOICE: log 164] -/
def State.boardOk (s : State) (ok : Bool) : Bool :=
  match s.flashItem 5 with
  | some i => s.itemGood i
  | none => ok

/-- The boot step in progress ends: ok is the reading of OTP, and for a flash that lists no image or record the authentication of Service Firmware and the CRC of the board configuration; steps 4 to 6 fail by what happens in them. [DESIGN CHOICE: log 164; DEDUCED: log 167] -/
def bootStepDone (ok : Bool) (s : State) : State :=
  if s.mode != 2 then s
  else
    match s.g F.GLB_BOOT_STAT_STEP with
    | 1 => (({ s with pwr.otpFail := !ok }).when (!ok) (fun s => s.raise 53)).bootStep 2
    | 2 => if s.fwOk ok then (s.initSram.fwLoad.reportPwrup).bootStep 3 else ((s.initSram.bootFail 1).enterSafe)
    | 3 => ((s.boardConfig (s.boardOk ok)).loadMembers).bootStep 4
    | 4 => if s.membersSettled then s.bootStep 5 else s
    | 5 => (s.each (List.range 16) State.bootTile).bootStep 6
    | 6 => if s.trimmed then ({ s with cal.miOff := [], cal.left := [], cal.aoDone := [] }.put F.CAL_STAT_BUSY 0).bootStep 7 else s
    | 7 => s.ready
    | _ => s

def execBootStepDone (ok : Bool) (s : State) : Out := clocked s (bootStepDone ok)

/-! ### The management interface (R367, R368) -/

/-- GO is written to a slot (R367). [DEDUCED: log 169] -/
def mcmdGo (slot : Nat) (s : State) : State :=
  if s.on F.GLB_MCMD_CTL_BUSY slot then s.put F.GLB_MCMD_CTL_OVR 1 slot else s.put F.GLB_MCMD_CTL_BUSY 1 slot

/-- A word of a slot's command block. [DEDUCED: log 169] -/
def State.arg (s : State) (slot k : Nat) : Nat := s.g F.GLB_MCMD_ARG_VAL slot k
def State.arg64 (s : State) (slot k : Nat) : Nat := s.arg slot k + s.arg slot (k + 1) * 2 ^ 32

def modeCmd (code : Nat) : Bool := 1 ≤ code && code ≤ 5
def flashCmd (code : Nat) : Bool := code = 0x50 || code = 0x51

/-- The modes in which a command is accepted (R368); 2, BOOT, and 5, FREEZE, are among "all but OFF". [DEDUCED: log 171] -/
def accepts (code mode : Nat) : Bool :=
  match code with
  | 0x01 => mode = 3
  | 0x02 => mode = 1
  | 0x03 => mode = 3 || mode = 1 || mode = 4
  | 0x04 => true
  | 0x05 => mode = 3
  | 0x10 => mode = 3 || mode = 1 || mode = 4
  | 0x20 => mode = 3
  | 0x40 => true
  | 0x50 => mode = 1 || mode = 6
  | 0x51 => mode = 1 || mode = 6
  | _ => false

/-- [DEDUCED: log 171] -/
def knownCmd (code : Nat) : Bool := code = 0x10 || code = 0x20 || code = 0x40 || modeCmd code || flashCmd code

/-- A command running in another slot conflicts with this one (R367). [DEDUCED: log 169] -/
def State.conflicts (s : State) (slot code tile : Nat) : Bool :=
  s.pwr.mcmd.any (fun e => e.1 != slot && e.2.result != 3 && e.2.result != 4 &&
    ((modeCmd code && modeCmd e.2.code) || (flashCmd code && flashCmd e.2.code)
      || (code = 0x10 && e.2.code = 0x10 && e.2.tile = tile)))

/-- Service Firmware, or in SAFE the boot ROM, answers commands: from the end of boot step 2 on. [DEDUCED: log 171] -/
def State.serving (s : State) : Bool := s.mode != 2 || 3 ≤ s.g F.GLB_BOOT_STAT_STEP

/-- What a command has come to, held until MCMD_COMPLETE posts it. -/
def State.record (s : State) (slot code tile result data : Nat) : State :=
  { s with pwr.mcmd := Map.ins s.pwr.mcmd slot ⟨code, tile, result, data⟩ }

/-- RES.DATA of a command that does nothing: of PATCH_ARB_COMMIT the counter, as ever (R368). -/
def State.idleData (s : State) (code : Nat) : Nat := if code = 0x20 then s.pwr.otp else 0

/-- The command in a slot is carried out once: BUSY, of this code, not carried out yet; refused on a conflict or in the wrong mode. [DEDUCED: log 169] -/
def State.carryOut (s : State) (slot code tile : Nat) (f : State → State) : State :=
  if !s.on F.GLB_MCMD_CTL_BUSY slot || s.arg slot 0 % 256 != code || (Map.find s.pwr.mcmd slot).isSome || !s.serving then s
  else if !accepts code s.mode then s.record slot code tile 4 (s.idleData code)
  else if s.conflicts slot code tile then s.record slot code tile 3 (s.idleData code)
  else f s

/-! ### The mode commands (R370, R372) -/

def parkCmd (slot : Nat) (s : State) : State :=
  s.carryOut slot 1 0 (fun s => ((s.parkDevice).put F.GLB_MODE_MODE 1).record slot 1 0 0 0)

def execPark (slot : Fin 4) (s : State) : Out := clocked s (parkCmd slot.val)

/-- RESUME restores VCORE and starts the resume of every tile; OPERATE follows when the last has ended. [DEDUCED: log 170] -/
def resumeCmd (slot : Nat) (s : State) : State :=
  s.carryOut slot 2 0 (fun s =>
    let s := s.put F.DPC_VSET_VSET s.pwr.vcore 0
    (s.each (List.range 16) (fun s t => s.startResume 1 t)).record slot 2 0 0 0)

def execResume (slot : Fin 4) (s : State) : Out := clocked s (resumeCmd slot.val)

def safeCmd (slot : Nat) (s : State) : State := s.carryOut slot 3 0 (fun s => s.enterSafe.record slot 3 0 0 0)

def execSafe (slot : Fin 4) (s : State) : Out := clocked s (safeCmd slot.val)

/-- SHUTDOWN: its result is posted first, and the power-down sequence follows (R368). -/
def shutdownCmd (slot : Nat) (s : State) : State := s.carryOut slot 4 0 (fun s => s.record slot 4 0 0 0)

def execShutdown (slot : Fin 4) (s : State) : Out := clocked s (shutdownCmd slot.val)

/-- TEST is entered only while every partition is in HOLD and every Rotor Engine is IDLE (R370). [DEDUCED: log 171] -/
def testEnterCmd (slot : Nat) (s : State) : State :=
  s.carryOut slot 5 0 (fun s =>
    if (List.range 16).all (fun p => s.pmode p = 0 && s.roState p = 0) then
      let s := s.each (List.range 16) (fun s h => (s.thStop 0 h).thStop 1 h)
      (s.put F.GLB_MODE_MODE 4).record slot 5 0 0 0
    else s.record slot 5 0 4 0)

def execTestEnter (slot : Fin 4) (s : State) : Out := clocked s (testEnterCmd slot.val)

/-! ### CARAFE_WRITE (R58 to R60) -/

/-- Entries in order from channel k: each is read, and a corrected read is counted (R55); equal ones are skipped, a written one gets new check bits; the entry at which verification failed keeps what it held, and the rest are not written. True where verification failed. [DEDUCED: log 172] -/
def State.carafeEntries (s : State) (t k : Nat) (bad : Option Nat) (l : List W32) : State × Bool :=
  match l with
  | [] => (s, false)
  | v :: rest =>
    let a := t * 1280 + k
    let s := s.when (s.af.carafe.ce.contains a && !s.af.carafe.ue.contains a) (fun s => s.sat F.CAR_CE_CNT_CNT t)
    if s.carafe a = v.toNat && !s.af.carafe.ue.contains a then State.carafeEntries s t (k + 1) bad rest
    else if bad = some k then (s.sat F.CAR_WR_CNT_CNT t 0 4, true)
    else
      let c := s.af.carafe
      let c : CarafeSt := { entry := Map.ins c.entry a v.toNat, ue := c.ue.filter (fun x => x ≠ a), ce := c.ce.filter (fun x => x ≠ a) }
      State.carafeEntries ({ s with af.carafe := c }.sat F.CAR_WR_CNT_CNT t) t (k + 1) bad rest

/-- data is what the host memory at SRC holds, retries the verification retries that succeeded, bad the channel whose entry still mismatched after three; CAR_STAT.BUSY until the command completes (R61). [DEDUCED: log 172; DESIGN CHOICE: log 210] -/
def carafeWrite (slot : Nat) (data : List W32) (retries : Nat) (bad : Option Nat) (s : State) : State :=
  let w := s.arg slot 1
  let t := bitsOf w 0 4
  let first := bitsOf w 4 11
  let n := bitsOf w 15 11
  s.carryOut slot 0x10 t (fun s =>
    if n = 0 || 1280 < n || 1280 < first + n then s.record slot 0x10 t 1 0
    else if data.length != n || !s.mayPost 0 then s
    else if data.any (fun v => bitsOf v.toNat 16 2 = 3 || bitsOf v.toNat 19 13 != 0) then s.record slot 0x10 t 1 0
    else if !(s.tl t).linkUp then s.record slot 0x10 t 6 0
    else
      let r := s.carafeEntries t first bad data
      let s := (r.1.sat F.CAR_WR_CNT_CNT t 0 retries).put F.CAR_STAT_BUSY 1 t
      if r.2 then (s.fsum t 1).record slot 0x10 t 2 (bad.getD 0) else s.record slot 0x10 t 0 0)

def execCarafeWrite (slot : Fin 4) (data : List W32) (retries : BitVec 16) (bad : Option Chan) (s : State) : Out :=
  clocked s (carafeWrite slot.val data retries.toNat (bad.map (fun k => k.val)))

/-! ### PATCH_ARB_COMMIT (R266) -/

/-- V exceeds the counter, and no loaded image has a lower ARB. [DEDUCED: log 173] -/
def State.arbAllowed (s : State) (v : Nat) : Bool :=
  s.pwr.otp < v && v ≤ 64 && (List.range 17).all (fun x => (List.range 2).all (fun m =>
    match (Map.look (s.tw x).mems m {}).arb with
    | some a => v ≤ a
    | none => true))

/-- [DEDUCED: log 173] -/
def patchArbCommit (slot : Nat) (s : State) : State :=
  s.carryOut slot 0x20 0 (fun s =>
    let v := bitsOf (s.arg slot 1) 0 7
    if s.arbAllowed v then { s with pwr.otp := v }.record slot 0x20 0 0 v else s.record slot 0x20 0 1 s.pwr.otp)

def execPatchArbCommit (slot : Fin 4) (s : State) : Out := clocked s (patchArbCommit slot.val)

/-! ### The event log (R368, R369) -/

/-- An entry as its 16 bytes (R368): the source in bits 5 to 0, TB0 in the layout of R173 in the last 12 bytes, and between them what the part makes of the FLT_INFOs. [DESIGN CHOICE: log 247] -/
def logEntryBytes (src info : Nat) (tb : RWord) : List Byte :=
  leBytes 4 (src % 64 + 64 * (Config.logInfo (BitVec.ofNat 32 info)).toNat) ++ leBytes 12 tb.toNat

/-- The 16 bytes of entry i from the oldest; an entry never written reads as zeros. [DEDUCED: log 173; DESIGN CHOICE: log 247] -/
def State.logEntry (s : State) (i : Nat) : List Byte :=
  match s.flt.log[i]? with
  | some e => logEntryBytes e.1 e.2.1 e.2.2
  | none => leBytes 16 0

/-- [DESIGN CHOICE: log 164; DEDUCED: log 173] -/
def logRead (slot : Nat) (s : State) : State :=
  s.carryOut slot 0x40 0 (fun s =>
    let first := bitsOf (s.arg slot 1) 0 8
    let n := bitsOf (s.arg slot 1) 8 8
    if n = 0 then s.record slot 0x40 0 1 0
    else ((s.grant 7 4).postLong 0 (s.arg64 slot 2) ((List.range n).flatMap (fun i => s.logEntry (first + i)))).record slot 0x40 0 0 0)

def execLogRead (slot : Fin 4) (s : State) : Out := clocked s (logRead slot.val)

/-- An entry joins the log of 256; the oldest gives way. -/
def State.logAppend (s : State) (e : Nat × Nat × RWord) : State :=
  { s with flt.log := if s.flt.log.length < 256 then s.flt.log ++ [e] else s.flt.log.drop 1 ++ [e] }

/-- Service Firmware answers the oldest NMI: it is logged, and THERM_CRIT or an uncorrectable word of management memory leads to SAFE. [DEDUCED: log 174] -/
def nmiResponse (s : State) : State :=
  match s.flt.nmi with
  | [] => s
  | e :: rest =>
    if !s.serving then s
    else
      let s := { s with flt.nmi := rest }.logAppend e
      let crit := e.1 = 33 || (e.1 = 24 && bitsOf e.2.1 0 4 = 3)
      if crit && accepts 3 s.mode then s.enterSafe else s

def execNmiResponse (s : State) : Out := clocked s nmiResponse

/-! ### Flash (R364, R368) -/

/-- The arguments of a flash command: offset, length, host address; none where they reach beyond 16 MiB or the 256 MiB of the flash. [DEDUCED: log 172] -/
def State.flashArgs (s : State) (slot : Nat) : Option (Nat × Nat × Nat) :=
  let off := s.arg slot 1
  let n := s.arg slot 2
  if 2 ^ 24 < n || 2 ^ 28 < off + n then none else some (off, n, s.arg64 slot 3)

/-- [DESIGN CHOICE: log 164] -/
def flashRead (slot : Nat) (s : State) : State :=
  s.carryOut slot 0x50 0 (fun s =>
    match s.flashArgs slot with
    | none => s.record slot 0x50 0 1 0
    | some (off, n, addr) => ((s.grant 7 4).postLong 0 addr (s.rdBs (flashBase + off) n)).record slot 0x50 0 0 0)

def execFlashRead (slot : Fin 4) (s : State) : Out := clocked s (flashRead slot.val)

/-- data is what the host memory holds, got what the flash reads after the write: it verifies where the two agree. [DESIGN CHOICE: log 164; DEDUCED: log 172] -/
def flashWrite (slot : Nat) (data got : List Byte) (s : State) : State :=
  s.carryOut slot 0x51 0 (fun s =>
    match s.flashArgs slot with
    | none => s.record slot 0x51 0 1 0
    | some (off, n, _) =>
      if data.length != n || got.length != n || !s.mayPost 0 then s
      else (s.wrBs (flashBase + off) got).record slot 0x51 0 (if got = data then 0 else 2) 0)

def execFlashWrite (slot : Fin 4) (data got : List Byte) (s : State) : Out := clocked s (flashWrite slot.val data got)

/-! ### The end of a command (R367) -/

/-- The result is in GLB_MCMDs_RES, BUSY reads 0, and vector VEC is sent. -/
def State.postResult (s : State) (slot result data : Nat) : State :=
  let s := ((s.put F.GLB_MCMD_RES_RESULT result slot).put F.GLB_MCMD_RES_DATA data slot).put F.GLB_MCMD_CTL_BUSY 0 slot
  { s with pwr.mcmd := Map.del s.pwr.mcmd slot }.msix 0 (s.g F.GLB_MCMD_CTL_VEC slot)

/-- A tile is still in its resume sequence. [DEDUCED: log 170] -/
def State.tilesResuming (s : State) : Bool := s.flt.resumes.any (fun e => e.1 = 1)

/-- A command ends: RESUME once no tile is resuming, and then OPERATE; after SHUTDOWN the power-down sequence begins; an unknown code is answered as such. [DEDUCED: log 169, 170] -/
def mcmdComplete (slot : Nat) (s : State) : State :=
  match Map.find s.pwr.mcmd slot with
  | some r =>
    if r.code = 2 && r.result = 0 && s.tilesResuming then s
    else
      let s := if r.code = 2 && r.result = 0 && s.mode = 1 then s.put F.GLB_MODE_MODE 3 else s
      let s := s.when (r.code = 0x10) (fun s => s.put F.CAR_STAT_BUSY 0 r.tile)
      let s := s.postResult slot r.result r.data
      if r.code = 4 && r.result = 0 then s.powerDown else s
  | none =>
    if s.on F.GLB_MCMD_CTL_BUSY slot && !knownCmd (s.arg slot 0 % 256) && s.serving then s.postResult slot 5 0 else s

def execMcmdComplete (slot : Fin 4) (s : State) : Out := clocked s (mcmdComplete slot.val)

end Sys2Proof.Machine
end

