-- ==== Sys2Proof/Machine/Thermal.lean ====
section
/-! DEFINITION. Temperature (15: R377 to R386): remote inputs, the neighbour cross-check, internal sensors, thresholds. Temperatures are whole numbers of 1/16 °C. -/

namespace Sys2Proof.Machine

/-! ### Conversion (R377 to R380) -/

/-- The quotient of two whole numbers, rounded down or up: the spec gives no rounding (log entry 6). The denominator is positive. -/
def State.roundFree (s : State) (num den : Int) : State × Int :=
  if num % den = 0 then (s, num / den) else (s.bump, num / den + (if s.fresh.getLsbD 0 then 1 else 0))

/-- k ln 4 / q in 10^-5 nV/K. [PRESUMED: log 179] -/
def kLn4 : Int := 11946160509

/-- A temperature of num / den kelvin as a reading, brought into its span of -40.0 to +150.0 °C. [PRESUMED: log 179] -/
def State.kelvin (s : State) (num den : Int) : State × Int :=
  let r := s.roundFree (num * 160 - den * 43704) (den * 10)
  (r.1, clampI (-640) 2400 r.2)

/-- DIODE (R378): the reading, from the two differences in nV. [DESIGN CHOICE: log 178] -/
def State.diodeTemp (s : State) (n : Nat) (d21 d32 : Int) : State × Int :=
  let eta : Int := s.g F.THM_TD_CFG_ETA n
  if s.on F.THM_TD_CFG_AUTO_RS n then s.kelvin ((4 * d21 - d32) * 4096 * 100000) (3 * eta * kLn4)
  else s.kelvin ((d21 + d32 - 9000 * (s.g F.THM_TD_CFG_RS n : Int)) * 4096 * 100000) (2 * eta * kLn4)

/-- The current of THERM in uA. [DESIGN CHOICE: log 178] -/
def State.excite (s : State) (n : Nat) : Int :=
  match s.g F.THM_TD_CFG_IEXC n with
  | 0 => 1
  | 1 => 10
  | _ => 100

/-- The points of a thermistor table as (R in 0.1 ohm, T). -/
def State.thermTable (s : State) (b : Nat) : List (Int × Int) :=
  (List.range 32).map (fun j => ((s.g F.THM_TBL_R_R b j : Int), toSigned 16 (s.g F.THM_TBL_T_T b j)))

/-- Strictly monotonic resistances: rising or falling throughout. -/
def risingTable (l : List (Int × Int)) : Bool :=
  match l with
  | a :: b :: t => a.1 < b.1 && risingTable (b :: t)
  | _ => true
def fallingTable (l : List (Int × Int)) : Bool :=
  match l with
  | a :: b :: t => b.1 < a.1 && fallingTable (b :: t)
  | _ => true

/-- The two points that bracket the resistance num / den. -/
def bracket (l : List (Int × Int)) (num den : Int) : Option ((Int × Int) × (Int × Int)) :=
  match l with
  | a :: b :: t =>
    if (a.1 * den ≤ num && num ≤ b.1 * den) || (b.1 * den ≤ num && num ≤ a.1 * den) then some (a, b) else bracket (b :: t) num den
  | _ => none

/-- THERM (R379): the reading by linear interpolation, from the voltage in uV; none where the input is OPEN. [DESIGN CHOICE: log 178] -/
def State.thermTemp (s : State) (n : Nat) (v : Int) : State × Option Int :=
  let l := s.thermTable (s.g F.THM_TD_CFG_TBL n)
  let den := s.excite n
  let num := 10 * v
  if 1150000 < v || v < 5000 || !(risingTable l || fallingTable l) then (s, none)
  else
    match bracket l num den with
    | none => (s, none)
    | some (a, b) =>
      let dr := b.1 - a.1
      let sg : Int := if dr < 0 then -1 else 1
      let r := s.roundFree (sg * (a.2 * dr * den + (b.2 - a.2) * (num - a.1 * den))) (sg * dr * den)
      (r.1, some (clampI (-640) 2400 r.2))

/-- An input's latest reading, which the next check takes up (R381, R382). -/
def State.setRaw (s : State) (n raw : Nat) : State := { s with thm.raw := Map.ins s.thm.raw n raw }
/-- [DEDUCED: log 181] -/
def State.rawWord (s : State) (n : Nat) : Nat := Map.look s.thm.raw n 0

/-- An input is found OPEN. -/
def State.tdOpen (s : State) (n : Nat) : State :=
  if s.g F.THM_TD_STAT_STATE n = 2 then s
  else { (s.put F.THM_TD_STAT_STATE 2 n).put F.THM_TD_STAT_GOOD 0 n with thm.opened := s.thm.opened ++ [n] }

/-- An input has a reading. -/
def State.tdReading (s : State) (n : Nat) (raw : Int) : State :=
  let s := (s.setRaw n (ofSigned 16 raw)).put F.THM_TD_STAT_STALE 0 n
  if s.g F.THM_TD_STAT_STATE n = 1 then s else s.put F.THM_TD_STAT_STATE 0 n

/-- The measured series resistance in 0.1 ohm; the spec gives no rounding, and no value for a negative one. -/
def State.setRsm (s : State) (n : Nat) (d21 d32 : Int) : State :=
  if d32 < d21 then s.bump.put F.THM_TD_STAT_RSM (s.fresh.toNat % 65536) n
  else
    let r := s.roundFree (d32 - d21) 5400
    r.1.put F.THM_TD_STAT_RSM (min 65535 r.2.toNat) n

/-- The conversion of one input. -/
def State.tdConvert (s : State) (n : Nat) (vlo vhi d21 d32 : Int) : State :=
  let s : State := { s with thm.conv := if s.thm.conv.contains n then s.thm.conv else s.thm.conv ++ [n] }
  if s.g F.THM_TD_CFG_MODE n = 1 then
    let auto := s.on F.THM_TD_CFG_AUTO_RS n
    let s := if auto then s.setRsm n d21 d32 else s
    let r := s.diodeTemp n d21 d32
    if 1100000 < vhi || vlo < 100000 || (auto && 27000000 < d32 - d21) then
      (r.1.setRaw n (ofSigned 16 r.2)).tdOpen n
    else r.1.tdReading n r.2
  else
    match s.thermTemp n vlo with
    | (s, some raw) => s.tdReading n raw
    | (s, none) => (s.bump.setRaw n (s.fresh.toNat % 65536)).tdOpen n

/-- A tile's converter takes its next input: vlo and vhi are the lowest and the highest forward voltage in uV, or vlo the voltage across the thermistor; d21 and d32 the differences in nV. [DESIGN CHOICE: log 178] -/
def tdConversion (t : Nat) (vlo vhi d21 d32 : Int) (s : State) : State :=
  let i := Map.look s.thm.next t 0
  let n := 4 * t + i
  let s : State := { s with thm.next := Map.ins s.thm.next t ((i + 1) % 4) }
  if s.tdOff n || !(s.tl t).linkUp then s else s.tdConvert n vlo vhi d21 d32

def execTdConversion (t : Tile) (vlo vhi d21 d32 : BitVec 32) (s : State) : Out :=
  clocked s (tdConversion t.val vlo.toInt vhi.toInt d21.toInt d32.toInt)

/-- The thresholds of a sensor are armed anew. [DESIGN CHOICE: log 182] -/
def State.thrArm (s : State) (n : Nat) : State :=
  { s with thm.warned := s.thm.warned.filter (fun x => x ≠ n), thm.crit := s.thm.crit.filter (fun x => x ≠ n) }

/-- A write of THM_TDn_CFG (R378, R382): ETA is clamped; a change of OFF begins the input anew, with STALE while its tile's link is down (R380); a TH_EN set by it arms the thresholds. [DESIGN CHOICE: log 182] -/
def tdCfgWrite (n v : Nat) (s : State) : State :=
  let was := s.tdOff n
  let thr := s.on F.THM_TD_CFG_TH_EN n
  let w := BitVec.ofNat 96 v
  let s := s.swWord R.THM_TD_CFG w w n
  let s := s.sput F.THM_TD_CFG_ETA (max 3686 (min 4710 (s.g F.THM_TD_CFG_ETA n))) n
  let s := s.when (!thr && s.on F.THM_TD_CFG_TH_EN n) (fun s => s.thrArm n)
  if s.tdOff n = was then s
  else
    let s : State := { s.thrArm n with
      thm.conv := s.thm.conv.filter (fun x => x ≠ n)
      thm.hasT := s.thm.hasT.filter (fun x => x ≠ n)
      thm.opened := s.thm.opened.filter (fun x => x ≠ n) }
    (((s.put F.THM_TD_STAT_STATE (if was then 0 else 3) n).put F.THM_TD_STAT_GOOD 0 n).put F.THM_TD_STAT_SUB 0 n).putB F.THM_TD_STAT_STALE (was && !(s.tl (n / 4)).linkUp) n

/-! ### Thresholds (R384) -/

/-- A sensor's new value is compared with WARN and CRIT. [DESIGN CHOICE: log 182] -/
def State.threshold (s : State) (sensor : Nat) (t warn crit : Int) : State :=
  let s : State :=
    if warn ≤ t then (if s.thm.warned.contains sensor then s else { s with thm.warned := s.thm.warned ++ [sensor] }.raise 32 sensor)
    else if t < warn - 32 then { s with thm.warned := s.thm.warned.filter (fun x => x ≠ sensor) }
    else s
  if crit ≤ t then (if s.thm.crit.contains sensor then s else { s with thm.crit := s.thm.crit ++ [sensor] }.raise 33 sensor)
  else if t < crit - 32 then { s with thm.crit := s.thm.crit.filter (fun x => x ≠ sensor) }
  else s

/-- An input's T has been set at a check. [DESIGN CHOICE: log 182] -/
def State.tdThreshold (s : State) (n : Nat) : State :=
  if s.on F.THM_TD_CFG_TH_EN n then
    s.threshold n (toSigned 16 (s.g F.THM_TD_VAL_T n)) (toSigned 16 (s.g F.THM_TD_THR_WARN n)) (toSigned 16 (s.g F.THM_TD_THR_CRIT n))
  else s

/-! ### The neighbour cross-check (R381, R382) -/

/-- The neighbours of an input that the register names and enables, itself apart. [DEDUCED: log 183] -/
def State.neighbours (s : State) (n : Nat) : List Nat :=
  let l := [(F.THM_TD_NBR_E0, F.THM_TD_NBR_N0), (F.THM_TD_NBR_E1, F.THM_TD_NBR_N1), (F.THM_TD_NBR_E2, F.THM_TD_NBR_N2), (F.THM_TD_NBR_E3, F.THM_TD_NBR_N3)]
  ((l.filter (fun e => s.on e.1 n)).map (fun e => s.g e.2 n)).eraseDups.filter (fun x => x ≠ n)

def insertInt (x : Int) (l : List Int) : List Int :=
  match l with
  | [] => [x]
  | y :: t => if x ≤ y then x :: y :: t else y :: insertInt x t
def sortInts (l : List Int) : List Int := l.foldr insertInt []

/-- The median of a sorted list: the middle value, or the mean of the two middle ones rounded towards minus infinity. -/
def median (l : List Int) : Int :=
  let k := l.length / 2
  if l.length % 2 = 1 then l.getD k 0 else (l.getD (k - 1) 0 + l.getD k 0) / 2

def State.raw (s : State) (n : Nat) : Int := toSigned 16 (s.rawWord n)

/-- An input enters SUSPECT. -/
def State.tdSuspect (s : State) (n : Nat) : State :=
  let s := (s.put F.THM_TD_STAT_STATE 1 n).put F.THM_TD_STAT_GOOD 0 n
  let s := if s.on F.THM_STAT_SUS_SEEN then s else (s.put F.THM_STAT_SUS_SEEN 1).put F.THM_STAT_FIRST_SUS n
  s.raise 34 n

/-- The state of an input after a check against the sorted values of its usable neighbours. [DEDUCED: log 180] -/
def State.tdJudge (s : State) (n : Nat) (vals : List Int) : State :=
  let spread := vals.getLastD 0 - vals.headD 0
  let judged := 2 ≤ vals.length && spread ≤ (s.g F.THM_CTL_AGREE : Int)
  let d := (s.raw n - median vals).natAbs
  let lim := s.g F.THM_CTL_SUS_THR
  match s.g F.THM_TD_STAT_STATE n with
  | 0 => if judged && lim < d then s.tdSuspect n else s
  | 1 =>
    if !judged then s
    else if lim < 2 * d then s.put F.THM_TD_STAT_GOOD 0 n
    else
      let good := s.g F.THM_TD_STAT_GOOD n + 1
      if max 1 (s.g F.THM_CTL_CLR_N) ≤ good then (s.put F.THM_TD_STAT_STATE 0 n).put F.THM_TD_STAT_GOOD 0 n
      else s.put F.THM_TD_STAT_GOOD good n
  | _ =>
    if s.thm.opened.contains n then
      let s : State := { s with thm.opened := s.thm.opened.filter (fun x => x ≠ n) }
      if 2 ≤ vals.length then s.raise 34 n else s
    else s

/-- T is set at a check (R382), and the thresholds compare it. -/
def State.setT (s : State) (n : Nat) (t sub : Nat) : State :=
  let s := (s.put F.THM_TD_VAL_T t n).put F.THM_TD_STAT_SUB sub n
  { s with thm.hasT := if s.thm.hasT.contains n then s.thm.hasT else s.thm.hasT ++ [n] }.tdThreshold n

/-- RAW and the compensated value of this check, after the state has been judged (R382); a SUSPECT input without two usable neighbours has no stated one (log entry 6). While the tile's link is down both stay (R380). [DEDUCED: log 181] -/
def State.tdCompensate (s : State) (n : Nat) (vals : List Int) : State :=
  if !(s.tl (n / 4)).linkUp then s
  else
  let s := s.put F.THM_TD_VAL_RAW (s.rawWord n) n
  match s.g F.THM_TD_STAT_STATE n with
  | 0 => s.setT n (s.rawWord n) 0
  | 1 => if 2 ≤ vals.length then s.setT n (ofSigned 16 (median vals)) 1 else s.bump.setT n (s.fresh.toNat % 65536) 1
  | _ =>
    if 2 ≤ vals.length then (s.put F.THM_TD_STAT_STALE 0 n).setT n (ofSigned 16 (median vals)) 1
    else (s.put F.THM_TD_STAT_STALE 1 n).put F.THM_TD_STAT_SUB 0 n

/-- The check of every input, every 10 ms; neighbours count as they stood at the previous check. [DEDUCED: log 180] -/
def tdCheck (s : State) : State :=
  let usable := s.thm.usable
  let raws := (List.range 64).map (fun n => sortInts (((s.neighbours n).filter (fun x => usable.contains x)).map s.raw))
  let live := (List.range 64).filter (fun n => !s.tdOff n && s.thm.conv.contains n)
  let s := s.each live (fun s n => (s.tdJudge n (raws.getD n [])).tdCompensate n (raws.getD n []))
  { s with thm.usable := live.filter (fun n => s.g F.THM_TD_STAT_STATE n = 0 && !s.on F.THM_TD_STAT_STALE n) }

def execTdCheck (s : State) : Out := clocked s tdCheck

/-! ### Internal sensors, references, the backup oscillator (R383 to R386) -/

/-- The thresholds of an internal sensor; IS7's stand in the always-on region. -/
def State.isThr (s : State) (i : Nat) : Int × Int :=
  if i = 7 then (toSigned 16 (s.g F.THM_IS7_THR_WARN), toSigned 16 (s.g F.THM_IS7_THR_CRIT))
  else (toSigned 16 (s.g F.THM_IS_THR_WARN i), toSigned 16 (s.g F.THM_IS_THR_CRIT i))

/-- A sensor is read: IS0 to IS6 while the clocks run, IS7 in every mode; its value meets the thresholds in every mode in which an event can be raised, FREEZE among them (R384). [DEDUCED: log 184] -/
def isRead (i v : Nat) (s : State) : State :=
  if s.clk != .running && i != 7 then s
  else
    let s := s.put F.THM_IS_VAL_T v i
    if s.clk = .running || s.clk = .frozen then s.threshold (64 + i) (toSigned 16 v) (s.isThr i).1 (s.isThr i).2 else s

def execIsRead (i : Fin 8) (v : BitVec 16) (s : State) : Out := fin (isRead i.val v.toNat s)

/-- A tile reference's temperature is read (R385). -/
def execRefCompensation (t : Tile) (v : BitVec 16) (s : State) : Out :=
  clocked s (fun s => if (s.tl t.val).linkUp then s.put F.CAL_TTEMP_T v.toNat t.val else s)

/-- The backup oscillator's measured error, where REFCLK is present (R386). [DEDUCED: log 184] -/
def boscCorrection (err : Nat) (valid : Bool) (s : State) : State :=
  if s.clk = .off then s
  else if valid then (s.put F.THM_BOSC_ERR err).put F.THM_BOSC_VALID 1
  else s.put F.THM_BOSC_VALID 0

def execBoscCorrection (err : BitVec 16) (valid : Bool) (s : State) : Out := fin (boscCorrection err.toNat valid s)

end Sys2Proof.Machine
end

