-- ==== Sys2Proof/Machine/Cal.lean ====
section
/-! DEFINITION. Calibration (15: R387 to R392): the trim space, trimming at boot and in service. -/

namespace Sys2Proof.Machine

/-! ### The trim space (R388) -/

/-- A word's factory value. -/
def trimFactory (t w : Nat) : Nat :=
  if w < 0xC00 then 0x80808080
  else if w ≤ 0xC0D then (Config.tileTrim t (4 * w)).toNat
  else if w = 0xC3F then (Config.tileId t).toNat
  else 0

/-- Word w of tile t. -/
def State.trimWord (s : State) (t w : Nat) : Nat := Map.look s.cal.trim (4096 * t + w) (trimFactory t w)
def State.setTrim (s : State) (t w v : Nat) : State := { s with cal.trim := Map.ins s.cal.trim (4096 * t + w) (v % 2 ^ 32) }

/-- A byte of the trim space by its offset. -/
def State.setTrimByte (s : State) (t off : Nat) (b : Byte) : State :=
  let w := s.trimWord t (off / 4)
  let sh := 256 ^ (off % 4)
  s.setTrim t (off / 4) (w - w / sh % 256 * sh + b.toNat * sh)

/-- The set of a channel's current mode and range. -/
def State.trimSet (s : State) (a : Nat) : Nat := (if s.ga F.AO_CFG_MODE a = 2 then 2 else 0) + s.ga F.AO_CFG_RANGE a
def State.setAoTrim (s : State) (a : Nat) (ofs : Byte) (gain : Option Byte) : State :=
  let off := aoChan a * 8 + s.trimSet a * 2
  let s := s.setTrimByte (aoTile a) off ofs
  match gain with
  | some g => s.setTrimByte (aoTile a) (off + 1) g
  | none => s
def State.setMiTrim (s : State) (m : Nat) (ofs gain : Byte) : State :=
  let off := 0x2800 + miPos m * 2
  (s.setTrimByte (miTile m) off ofs).setTrimByte (miTile m) (off + 1) gain

/-! ### Who may trim (R390, R392) -/

/-- The partitions that own an AO or an MI of a tile. -/
def State.tileParts (s : State) (t : Nat) : List Nat :=
  (List.range 16).filter (fun p =>
    (s.ownedBy p).any (fun a => aoTile a = t) || (List.range 1024).any (fun j => s.miOwned (t * 1024 + j) p))

/-- The tiles on which the command in hand runs. -/
def State.calOn (s : State) (t : Nat) : Bool :=
  match s.cal.run with
  | none => false
  | some (1, i) => i = t
  | some (2, p) => (s.ownedBy p).any (fun a => aoTile a = t)
  | some (_, p) => (List.range 1024).any (fun j => s.miOwned (t * 1024 + j) p)

/-- A mode in which trims may be written: HOLD, CHARACTERIZE, MAINTENANCE. -/
def trimMode (m : Nat) : Bool := m = 0 || m = 3 || m = 4

/-- A write of a word is accepted (R392). -/
def State.trimAccepted (s : State) (t w : Nat) : Bool :=
  let ao (k : Nat) : Bool := !s.on F.AO_CFG_OWNED t k || trimMode (s.pm (s.g F.AO_CFG_PART t k))
  let mi (j : Nat) : Bool := !s.on F.MI_CFG_OWNED t j || trimMode (s.pm (s.g F.MI_CFG_PART t j))
  !s.calOn t &&
    (if w < 0xA00 then ao (w / 2)
     else if w < 0xC00 then mi (2 * (w - 0xA00)) && mi (2 * (w - 0xA00) + 1)
     else (s.tileParts t).all (fun p => trimMode (s.pm p)))

/-- An access to CAL_TWIN_DATA (R392): read-only and reserved words ignore writes. -/
def trimAccess (wr : Bool) (v : Nat) (s : State) : State :=
  let word := s.g F.CAL_TWIN_ADDR_WORD
  let t := word / 4096
  let w := word % 4096
  let s : State :=
    if !wr then { s with readData := s.trimWord t w }
    else if 0xC0E ≤ w then s
    else if s.trimAccepted t w then s.setTrim t w v
    else s.put F.CAL_STAT_TRIM_REFUSED 1
  if s.on F.CAL_TWIN_ADDR_INC then s.put F.CAL_TWIN_ADDR_WORD (word + 1) else s

def execTrimWindowAccess (wr : Bool) (v : W32) (s : State) : Out := clocked s (trimAccess wr v.toNat)

/-! ### Commands (R390) -/

/-- GO of CAL_CMD: op 1 TRIM_TILE of tile i, 2 TRIM_AO and 3 TRIM_MI of partition i. -/
def calStart (op i : Nat) (s : State) : State :=
  let ok := if op = 1 then (s.tileParts i).all (fun p => s.pm p = 4) else s.pm i = 4
  let s := (s.put F.CAL_CMD_OP op).put (if op = 1 then F.CAL_CMD_TILE else F.CAL_CMD_PART) i
  if s.on F.CAL_STAT_BUSY || !ok then s.put F.CAL_STAT_CMD_REFUSED 1
  else
    let s := ((s.put F.CAL_STAT_BUSY 1).put F.CAL_STAT_SKIPPED 0).put F.CAL_STAT_RESULT 0
    { s with
      cal.run := some (op, i)
      cal.nextK := []
      cal.failed := s.cal.failed.filter (fun x => !(op = 1 && x = i))
      cal.refd := s.cal.refd.filter (fun x => !(op = 1 && x = i))
      cal.trimmed := s.cal.trimmed.filter (fun x => !(op = 1 && x = i))
      cal.left := if op = 3 then (List.range 16384).filter (fun m => s.miOwned m i) else [] }

/-! ### The stages of a tile (R387, R389) -/

/-- A tile fails calibration: it keeps its tile-level trims. -/
def State.calFail (s : State) (t : Nat) : State :=
  let s := (s.put F.CAL_TSTAT_VALID 0 t).put F.CAL_TSTAT_CAL_FAIL 1 t
  let s := if s.mode = 2 then s.bootFail 6 else s
  { s with cal.failed := t :: s.cal.failed.filter (fun x => x ≠ t) }.raise 57 t

/-- Tile words from offset 0x3000 on. -/
def State.setTileWords (s : State) (t w : Nat) (l : List W32) : State :=
  match l with
  | [] => s
  | v :: rest => State.setTileWords (s.setTrim t w v.toNat) t (w + 1) rest

/-- An input's photodiode is disconnected, or connected again with its trims (R389). -/
def State.miTrimBegin (s : State) (m : Nat) : State := { s with cal.miOff := m :: s.cal.miOff.filter (fun x => x ≠ m) }
def State.miTrimDone (s : State) (m : Nat) (ofs gain : Byte) : State :=
  if !s.cal.miOff.contains m then s
  else { s.setMiTrim m ofs gain with cal.miOff := s.cal.miOff.filter (fun x => x ≠ m), cal.left := s.cal.left.filter (fun x => x ≠ m) }

/-- The tile is being trimmed: by TRIM_TILE, or in boot step 6. -/
def State.trimming (s : State) (t : Nat) : Bool :=
  (s.tl t).linkUp && (s.cal.run = some (1, t) || (s.mode = 2 && s.g F.GLB_BOOT_STAT_STEP = 6))

/-- The references as measured are good, and the tile-level trims stay in range (R387: CAL_VREF in uV, CAL_RSET in mohm). [DESIGN CHOICE: log 186] -/
def State.refsOk (s : State) (vref iref : Nat) (inRange : Bool) : Bool :=
  let v := s.g F.CAL_VREF_VREF
  let want := v * 10 ^ 9
  let i := 4 * s.g F.CAL_RSET_RSET * iref
  inRange && (100 * (max vref v - min vref v) ≤ v) && (50 * (max i want - min i want) ≤ want)

/-- The references of a tile have been checked in this trimming: step 2 of R389 follows. [DESIGN CHOICE: log 186] -/
def State.trimStep (s : State) (t : Nat) : Bool := s.trimming t && s.cal.refd.contains t
/-- Every input of the tile has been trimmed: step 3 follows. [DESIGN CHOICE: log 186] -/
def State.trimAos (s : State) (t : Nat) : Bool := s.trimStep t && !(s.cal.left ++ s.cal.miOff).any (fun m => miTile m = t)
/-- Every output of the tile that is not OFF has been trimmed: step 4 follows. [DESIGN CHOICE: log 186] -/
def State.trimLast (s : State) (t : Nat) : Bool := s.trimAos t && (aosOfTile t).all (fun a => s.ga F.AO_CFG_MODE a = 0 || s.cal.aoDone.contains a)

/-- A stage of TRIM_TILE, in the order of R389. [DESIGN CHOICE: log 186] -/
def trimTile (t : Nat) (x : TrimOp) (s : State) : State :=
  match x with
  | .start => calStart 1 t s
  | .refs vref iref inRange words =>
    if !s.trimming t then s
    else
      let u : State := { s with
        cal.refd := t :: s.cal.refd.filter (fun y => y ≠ t)
        cal.left := s.cal.left.filter (fun m => miTile m ≠ t) ++ (List.range 1024).map (fun j => t * 1024 + j)
        cal.aoDone := s.cal.aoDone.filter (fun a => aoTile a ≠ t) }
      if s.refsOk vref.toNat iref.toNat inRange then { u.setTileWords t 0xC00 (words.take 14) with cal.failed := s.cal.failed.filter (fun y => y ≠ t) }
      else u.calFail t
  | .miBegin m => if s.trimStep t && miTile m.val = t && s.cal.left.contains m.val then s.miTrimBegin m.val else s
  | .miDone m ofs gain => if s.trimStep t && miTile m.val = t then s.miTrimDone m.val ofs gain else s
  | .aoOfs a ofs => if s.trimAos t && aoTile a.val = t && s.ga F.AO_CFG_MODE a.val != 0 then { s.setAoTrim a.val ofs none with cal.aoDone := a.val :: s.cal.aoDone } else s
  | .tcal v =>
    if !s.trimLast t then s
    else
      let s := s.setTrim t 0xC3E v.toNat
      let s := if s.cal.failed.contains t then s else s.put F.CAL_TSTAT_VALID 1 t
      { s with cal.trimmed := t :: s.cal.trimmed.filter (fun y => y ≠ t), cal.refd := s.cal.refd.filter (fun y => y ≠ t) }
  | .aoBegin _ => s
  | .aoSecond _ => s
  | .aoDone _ _ _ _ => s

def execTrimTile (t : Tile) (x : TrimOp) (s : State) : Out := clocked s (trimTile t.val x)

/-! ### TRIM_AO (R390, R391) -/

/-- The next channel of a partition in a tile. [DEDUCED: log 187] -/
def State.nextTrim (s : State) (p t : Nat) : Option Nat :=
  (aosOfTile t).find? (fun a => Map.look s.cal.nextK t 0 ≤ aoChan a && s.ona F.AO_CFG_OWNED a && s.ga F.AO_CFG_PART a = p
    && s.ga F.AO_CFG_MODE a != 0 && s.ona F.AO_CFG_EN a)

/-- A channel is done with, skipped or not. -/
def State.trimNext (s : State) (a : Nat) (skip : Bool) : State :=
  let s := if skip then s.sat F.CAL_STAT_SKIPPED else s
  { s with cal.nextK := Map.ins s.cal.nextK (aoTile a) (aoChan a + 1) }

/-- A code of the measurement (R391): with the precedence of a direct write. [DEDUCED: log 187] -/
def State.measure (s : State) (t : Nat) (m : AoMeas) (code : Nat) : State :=
  { s.actWrite m.ao code 4 with cal.meas := Map.ins s.cal.meas t { m with hit := m.hit || s.actBlocked m.ao 4 } }

/-- A park, a commit or a mode change has reached the channel during its measurement. [DEDUCED: log 187] -/
def State.disturbed (s : State) (m : AoMeas) : Bool := m.hit || (s.aoSt m.ao).strong != m.strong

/-- The controller turns to the next channel of a tile; one that is faulted, or whose tile is fenced or not reached, is skipped. -/
def State.trimBegin (s : State) (p t : Nat) : State :=
  if (Map.find s.cal.meas t).isSome || s.pm p != 4 then s
  else
    match s.nextTrim p t with
    | none => s
    | some a =>
      if s.ona F.AO_STAT_FAULT a || s.tileFenced t || !(s.tl t).linkUp then s.trimNext a true
      else
        let held := !s.con 0 a C.HOLDREQ
        let m : AoMeas := { ao := a, code := s.ga F.AO_ACT_CODE a, held := held, strong := (s.aoSt a).strong }
        let s := if held then (s.cp 0 a C.HOLDREQ 1).ctxRefresh a else s
        s.measure t m 0x1000

/-- The measurement of a channel ends: with both codes measured, or where it is skipped. -/
def State.trimEnd (s : State) (t : Nat) (ofs gain : Byte) (limit : Bool) : State :=
  match (Map.find s.cal.meas t).filter (fun m => m.second || limit || s.disturbed m) with
  | none => s
  | some m =>
    let bad := s.disturbed m
    let s : State := { s with cal.meas := Map.del s.cal.meas t }
    let s := if bad then s else s.actWrite m.ao m.code 4
    let s := if bad || limit then s else s.setAoTrim m.ao ofs (some gain)
    let s := if m.held then (s.cp 0 m.ao C.HOLDREQ 0).ctxRefresh m.ao else s
    s.trimNext m.ao (bad || limit)

/-- A stage of TRIM_AO. [DESIGN CHOICE: log 186; DEDUCED: log 187] -/
def trimAo (p : Nat) (x : TrimOp) (s : State) : State :=
  let run := s.cal.run = some (2, p)
  match x with
  | .start => calStart 2 p s
  | .aoBegin t => if run then s.trimBegin p t.val else s
  | .aoSecond t =>
    if !run then s
    else
      match Map.find s.cal.meas t.val with
      | none => s
      | some m => if s.disturbed m then s else s.measure t.val { m with second := true } 0xF000
  | .aoDone t ofs gain limit => if run then s.trimEnd t.val ofs gain limit else s
  | .refs _ _ _ _ => s
  | .miBegin _ => s
  | .miDone _ _ _ => s
  | .aoOfs _ _ => s
  | .tcal _ => s

def execTrimAo (p : Part) (x : TrimOp) (s : State) : Out := clocked s (trimAo p.val x)

/-! ### TRIM_MI -/

/-- A stage of TRIM_MI. [DESIGN CHOICE: log 186; DEDUCED: log 188, 190] -/
def trimMi (p : Nat) (x : TrimOp) (s : State) : State :=
  let run := s.cal.run = some (3, p)
  match x with
  | .start => calStart 3 p s
  | .miBegin m => if run && s.pm p = 4 && s.cal.left.contains m.val then s.miTrimBegin m.val else s
  | .miDone m ofs gain => if run then s.miTrimDone m.val ofs gain else s
  | .refs _ _ _ _ => s
  | .aoOfs _ _ => s
  | .tcal _ => s
  | .aoBegin _ => s
  | .aoSecond _ => s
  | .aoDone _ _ _ _ => s

def execTrimMi (p : Part) (x : TrimOp) (s : State) : Out := clocked s (trimMi p.val x)

/-! ### The end of a command -/

/-- [DEDUCED: log 188] -/
def State.calEnd (s : State) (result : Nat) : State :=
  { (s.put F.CAL_STAT_BUSY 0).put F.CAL_STAT_RESULT result with cal.run := none, cal.left := [], cal.nextK := [], cal.miOff := [], cal.aoDone := [] }

/-- A command ends: with everything trimmed, or stopped because its partition has left MAINTENANCE. [DEDUCED: log 188] -/
def calCmdDone (s : State) : State :=
  match s.cal.run with
  | none => s
  | some (1, t) =>
    if s.cal.failed.contains t || !(s.tl t).linkUp then s.calEnd 3
    else if s.cal.trimmed.contains t then s.calEnd 0
    else s
  | some (2, p) =>
    if !s.cal.meas.isEmpty then s
    else if (List.range 16).any (fun t => (s.nextTrim p t).isSome) then (if s.pm p != 4 then s.calEnd 1 else s)
    else s.calEnd (if s.g F.CAL_STAT_SKIPPED = 0 then 0 else 2)
  | some (_, p) =>
    if !s.cal.miOff.isEmpty then s
    else if s.cal.left.isEmpty then s.calEnd 0
    else if s.pm p != 4 then s.calEnd 1
    else s

def execCalCmdDone (s : State) : Out := clocked s calCmdDone

end Sys2Proof.Machine
end

