-- ==== Sys2Proof/Machine/Test.lean ====
section
/-! DEFINITION. Link patterns and production test (16: R395 to R408): lane tests, the stimulus, the structural test, the TAP and its lock. -/

namespace Sys2Proof.Machine

/-- TEST mode. A start in any other does nothing but set REFUSED (R396). -/
def State.inTest (s : State) : Bool := s.mode = 4
/-- [DEDUCED: log 191] -/
def State.testRefused (s : State) : State := s.put F.TST_STAT_REFUSED 1

/-! ### Lane tests (R397 to R401) -/

/-- A lane that exists. -/
def laneUsed (l : Nat) : Bool := l < 10 || (64 ≤ l && l < 192)

/-- What a lane's generator and checker are set to. -/
structure LaneCfg where
  pat : Nat
  inv : Bool
  half : Nat
  user : Nat
  len : Nat
  deriving DecidableEq, Repr

def State.laneCfg (s : State) (l : Nat) : LaneCfg :=
  { pat := s.g F.TST_LCFG_PAT l, inv := s.on F.TST_LCFG_INV l, half := if s.g F.TST_LCFG_SQN l = 0 then 16 else s.g F.TST_LCFG_SQN l,
    user := s.g F.TST_UPAT_PAT, len := s.g F.TST_UPLEN_LEN + 1 }

def State.lane (s : State) (l : Nat) : LaneSt := Map.look s.tst.lanes l {}
def State.setLane (s : State) (l : Nat) (x : LaneSt) : State := { s with tst.lanes := Map.ins s.tst.lanes l x }

/-- The two stages that a PRBS adds (R398). -/
def prbsTaps (pat : Nat) : Option (Nat × Nat) :=
  match pat with
  | 1 => some (6, 7)
  | 2 => some (14, 15)
  | 3 => some (18, 23)
  | 4 => some (28, 31)
  | _ => none

/-- The next bit of a pattern, from the last bits of a PRBS (the last one lowest) or the place in one of fixed length. -/
def LaneCfg.bit (c : LaneCfg) (reg place : Nat) : Bool :=
  match prbsTaps c.pat with
  | some (a, b) => bitOf reg (a - 1) != bitOf reg (b - 1)
  | none => if c.pat = 5 then place % (2 * c.half) < c.half else bitOf c.user (place % c.len)

/-- The stream on the line is the inverted pattern: with INV, and once more for the PRBS that O.150 sends inverted. [PRESUMED: log 236] -/
def LaneCfg.flip (c : LaneCfg) : Bool := c.inv != (c.pat = 2 || c.pat = 3 || c.pat = 4)

/-- The patterns that send and compare something: 0 and 7 are OFF. -/
def LaneCfg.active (c : LaneCfg) : Bool := 1 ≤ c.pat && c.pat ≤ 6

def push31 (reg : Nat) (b : Bool) : Nat := (2 * reg + b2n b) % 2 ^ 31

/-- The generator sends a bit, inverted by an INJ that waits (R401). -/
def LaneSt.send (x : LaneSt) (c : LaneCfg) : LaneSt × Bool :=
  let b := c.bit x.gen x.genAt
  ({ x with gen := push31 x.gen b, genAt := x.genAt + 1, inj := x.inj - 1 }, (b != c.flip) != decide (0 < x.inj))

/-- The generator begins its pattern: a PRBS from all ones. [DESIGN CHOICE: log 235] -/
def LaneSt.start (x : LaneSt) : LaneSt := { x with gen := 2 ^ 31 - 1, genAt := 0, inj := 0 }

/-- The checker searches anew. -/
def LaneSt.search (x : LaneSt) : LaneSt := { x with seen := 0, run := 0, n := 0, miss := [] }

/-- A checker at work: whether it is in LOCK, what it has compared, missed and lost, and what the lane's generator has sent meanwhile. -/
structure LaneRun where
  st : LaneSt
  lock : Bool
  bits : Nat := 0
  errs : Nat := 0
  losses : Nat := 0
  out : List Bool := []
  deriving DecidableEq, Repr

/-- A bit in SEARCH (R400): a PRBS checker seeds itself with the first bits and goes on with those received; another tries the next phase at a mismatch. [DESIGN CHOICE: log 235] -/
def LaneRun.seek (x : LaneRun) (c : LaneCfg) (b : Bool) : LaneRun :=
  let y := x.st
  let seed := match prbsTaps c.pat with
    | some (_, n) => n
    | none => 0
  let y : LaneSt :=
    if y.seen < seed then { y with reg := push31 y.reg b, seen := y.seen + 1 }
    else
      let hit := c.bit y.reg y.place = b && (seed = 0 || y.reg % 2 ^ seed != 0)
      { y with reg := push31 y.reg b, place := if hit then y.place + 1 else y.place, run := if hit then y.run + 1 else 0 }
  if y.run < 256 then { x with st := y } else { x with st := { y with n := 0, miss := [] }, lock := true }

/-- A bit in LOCK: it is compared and counted; more than 64 mismatches within 256 bits end it. -/
def LaneRun.compare (x : LaneRun) (c : LaneCfg) (b : Bool) : LaneRun :=
  let y := x.st
  let want := c.bit y.reg y.place
  let bad := want != b
  let miss := (if bad then [y.n] else []) ++ y.miss.filter (fun k => y.n < k + 256)
  let y : LaneSt := { y with reg := push31 y.reg want, place := y.place + 1, n := y.n + 1, miss := miss }
  let x := { x with bits := x.bits + 1, errs := x.errs + b2n bad }
  if 64 < miss.length then { x with st := y.search, lock := false, losses := x.losses + 1 } else { x with st := y }

/-- A bit received, while the generator sends one if it is on; own: the lane's generator is at its other end, and the bit says whether the line inverts it. -/
def LaneRun.take (x : LaneRun) (c : LaneCfg) (gen own : Bool) (r : Bool) : LaneRun :=
  let g := x.st.send c
  let x := if gen then { x with st := g.1, out := x.out ++ [g.2] } else x
  let b := (if own then g.2 != r else r) != c.flip
  if x.lock then x.compare c b else x.seek c b

/-- The generator feeds the checker of its own lane: looped back (R399), or both ends of a Tile Link lane lie in the part (R397). [DEDUCED: log 237] -/
def State.laneOwn (s : State) (l : Nat) : Bool := s.on F.TST_LCFG_GEN_EN l && (64 ≤ l || s.on F.TST_LCFG_LPBK l)

/-- Bits of a generator leave the part on a lane that ends outside it (R397). [DESIGN CHOICE: log 197] -/
def State.laneOut1 (s : State) (l : Nat) (bs : List Bool) : State :=
  if s.laneOwn l then s else { s with tst.sent := s.tst.sent ++ bs.map (fun b => (l, b)) }

/-- What a lane has counted, with what it counted before in the same cycle. -/
def LaneSt.tally (x : LaneSt) (cycle bits errs : Nat) : LaneSt :=
  if x.at_ = cycle then { x with bits := x.bits + bits, errs := x.errs + errs } else { x with at_ := cycle, bits := bits, errs := errs }

/-- Bits arrive at a checker that is on (R400, R401): those of rx from outside, or those of the lane's own generator, with line saying of each whether the line inverts it. [DESIGN CHOICE: log 197] -/
def State.laneBits (s : State) (l : Nat) (rx line : List Bool) : State :=
  let c := s.laneCfg l
  if !c.active then s
  else
    let own := s.laneOwn l
    let r := (if own then line else rx).foldl (fun x b => LaneRun.take x c (s.on F.TST_LCFG_GEN_EN l) own b) { st := s.lane l, lock := s.g F.TST_LSTAT_CSTATE l = 2 }
    let s := (s.setLane l (r.st.tally s.cycle r.bits r.errs)).laneOut1 l r.out
    let s := ((s.sat F.TST_LBITS_BITS l 0 r.bits).sat F.TST_LERR_ERR l 0 r.errs).sat F.TST_LSTAT_LOSSES l 0 r.losses
    (s.put F.TST_LSTAT_CSTATE (if r.lock then 2 else 1) l).when (0 < r.losses) (fun s => s.put F.TST_LSTAT_LOST 1 l)

/-- A checker is returned to SEARCH by a change of its pattern, which counts as a loss. [DEDUCED: log 196] -/
def State.checkerLoss (s : State) (l : Nat) : State :=
  ((((s.setLane l (s.lane l).search).put F.TST_LSTAT_CSTATE 1 l).sat F.TST_LSTAT_LOSSES l)).put F.TST_LSTAT_LOST 1 l

/-- The rate of the PCIe lanes in a lane test, as LAT_PCI_STAT.SPEED codes it: of the last trained link, else 2.5 GT/s (R399). -/
def State.laneRate (s : State) : Nat := if s.pci.trained = 0 then 1 else s.pci.trained

/-- The first lane test of a link takes it out of service (R399). -/
def State.laneOut (s : State) (l : Nat) : State :=
  if l < 8 then (if s.on F.TST_STAT_PCIE_ACTIVE then s else pcieLinkDown { s.put F.TST_STAT_PCIE_ACTIVE 1 with tst.pcieAt := s.cycle })
  else if l < 10 then s.spLoss (l - 8)
  else
    match laneTile l with
    | some t => s.fenceNow 1 t
    | none => s

/-- The last lane test of a link has stopped. -/
def State.laneBack (s : State) (l : Nat) : State :=
  if l < 8 then (if s.pcieLanesOn then s else s.put F.TST_STAT_PCIE_ACTIVE 0)
  else
    match laneTile l with
    | some t => if s.tileLanesOn t then s else s.startResume 1 t
    | none => s

/-- CHK_EN becomes on: a checker that is turned on searches. -/
def State.turnChk (s : State) (l : Nat) (on : Bool) : State :=
  if s.on F.TST_LCFG_CHK_EN l = on then s else (s.setLane l (s.lane l).search).put F.TST_LSTAT_CSTATE (b2n on) l

/-- A write of TST_LCFGL without its W1S bits (R398 to R400). [DEDUCED: log 191, 196] -/
def laneWrite (l v : Nat) (s : State) : State :=
  let new (f : Fld) := bitsOf v f.lo f.wd
  if !laneUsed l then s
  else
    let gen := new F.TST_LCFG_GEN_EN = 1
    let chk := new F.TST_LCFG_CHK_EN = 1
    let was := s.laneOn l
    let moved := [F.TST_LCFG_PAT, F.TST_LCFG_INV, F.TST_LCFG_SQN].any (fun f => s.g f l != new f)
    let lost := moved && s.on F.TST_LCFG_CHK_EN l
    let fresh := moved || (gen && !s.on F.TST_LCFG_GEN_EN l)
    let s := s.each [F.TST_LCFG_PAT, F.TST_LCFG_INV, F.TST_LCFG_SQN, F.TST_LCFG_LPBK] (fun s f => s.sput f (new f) l)
    let s := if fresh then s.setLane l (s.lane l).start else s
    let s := if lost then s.checkerLoss l else s
    if (gen || chk) && !was && !s.inTest then s.testRefused
    else
      let s := ((s.turnChk l chk).sput F.TST_LCFG_GEN_EN (b2n gen) l).sput F.TST_LCFG_CHK_EN (b2n chk) l
      if (gen || chk) && !was then s.laneOut l
      else if was && !(gen || chk) then s.laneBack l
      else s

def execLaneTestEnable (l : Fin 256) (v : W32) (s : State) : Out :=
  clocked s (fun s => if v.getLsbD 8 || v.getLsbD 9 then laneWrite l.val v.toNat s else s)

def execLaneTestDisable (l : Fin 256) (v : W32) (s : State) : Out :=
  clocked s (fun s => if v.getLsbD 8 || v.getLsbD 9 then s else laneWrite l.val v.toNat s)

/-- Both enables of a lane clear. -/
def State.laneStop (s : State) (l : Nat) : State :=
  if s.laneOn l then (((s.turnChk l false).put F.TST_LCFG_GEN_EN 0 l).put F.TST_LCFG_CHK_EN 0 l).laneBack l else s

/-- TST_PCIE_TMO ms of a PCIe lane test are over (0 acts as 1): every one stops. [DESIGN CHOICE: log 197] -/
def pcieLaneTimeout (s : State) : State :=
  if s.on F.TST_STAT_PCIE_ACTIVE && s.tst.pcieAt + 1000000 * max 1 (s.g F.TST_PCIE_TMO_MS) ≤ s.cycle then s.each (List.range 8) State.laneStop
  else s

def execPcieLaneTestTimeout (s : State) : Out := clocked s pcieLaneTimeout

/-- Bits reach a checker that searches; after 256 consecutive matches it is in LOCK. [DESIGN CHOICE: log 197] -/
def checkerLock (l : Nat) (rx line : List Bool) (s : State) : State := if s.g F.TST_LSTAT_CSTATE l = 1 then s.laneBits l rx line else s

def execCheckerLock (l : Fin 256) (rx line : List Bool) (s : State) : Out := clocked s (checkerLock l.val rx line)

/-- Bits reach a checker in LOCK; more than 64 mismatches within 256 bits return it to SEARCH. [DESIGN CHOICE: log 197] -/
def checkerLossEvt (l : Nat) (rx line : List Bool) (s : State) : State := if s.g F.TST_LSTAT_CSTATE l = 2 then s.laneBits l rx line else s

def execCheckerLoss (l : Fin 256) (rx line : List Bool) (s : State) : Out := clocked s (checkerLossEvt l.val rx line)

/-- A write of TST_UPAT: a change returns every enabled checker to SEARCH (R400). [DEDUCED: log 196] -/
def upatWrite (v : Nat) (s : State) : State :=
  if s.g F.TST_UPAT_PAT = v % 2 ^ 64 then s
  else (s.sput F.TST_UPAT_PAT v).each ((List.range 256).filter (fun l => laneUsed l && s.on F.TST_LCFG_CHK_EN l)) State.checkerLoss

/-- A bit that leaves the lane's generator reaches a checker at work. -/
def State.laneTaken (s : State) (l : Nat) : Bool := s.on F.TST_LCFG_CHK_EN l && (s.laneCfg l).active

/-- INJ inverts one bit of the generator's output (R401): the next that it sends as a checker of the lane takes bits, or, with none, the one that it sends now. [DESIGN CHOICE: log 197] -/
def laneInj (l : Nat) (s : State) : State :=
  let x : LaneSt := { s.lane l with inj := 1 }
  if !s.on F.TST_LCFG_GEN_EN l then s
  else if s.laneTaken l then s.setLane l x
  else (s.setLane l (x.send (s.laneCfg l)).1).laneOut1 l [(x.send (s.laneCfg l)).2]

def execInj (l : Fin 256) (s : State) : Out := clocked s (laneInj l.val)

/-- CLR: what was counted in this cycle is counted after it. [DESIGN CHOICE: log 197] -/
def laneClr (l : Nat) (s : State) : State :=
  let now := (s.lane l).at_ = s.cycle
  (s.put F.TST_LERR_ERR (if now then (s.lane l).errs else 0) l).put F.TST_LBITS_BITS (if now then (s.lane l).bits else 0) l

def execLaneClr (l : Fin 256) (s : State) : Out := clocked s (laneClr l.val)

/-! ### The stimulus (R402 to R404) -/

/-- The fields of TST_STIM_CTL that a write sets. -/
def State.stimCtl (s : State) (t v : Nat) : State :=
  s.each [F.TST_STIM_CTL_WAVE, F.TST_STIM_CTL_HOLD, F.TST_STIM_CTL_DELAY, F.TST_STIM_CTL_NAVG] (fun s f => s.sput f (bitsOf v f.lo f.wd) t)

/-- START is refused: no entry of either kind is enabled, or the mean does not fit into HOLD. [DEDUCED: log 192] -/
def State.stimRefused (s : State) (t : Nat) : Bool :=
  !s.inTest || ((s.stimEntries t).isEmpty && (s.stimResps t).isEmpty)
    || s.stimHold t * 1000 < s.g F.TST_STIM_CTL_DELAY t * 1000 + (s.g F.TST_STIM_CTL_NAVG t + 1) * 512

/-- A stimulus or a structural test of the tile runs. [DEDUCED: log 192] -/
def State.testBusy (s : State) (t : Nat) : Bool := s.on F.TST_STIM_STAT_BUSY t || s.on F.TST_OS_STAT_BUSY t

/-- START: the first edge is due at the first whole microsecond of the tile's TB0 replica that lies at least 1 us ahead. [DEDUCED: log 195] -/
def State.stimBegin (s : State) (t : Nat) : State :=
  let held := (s.stimEntries t).map (fun e => (s.g F.TST_SE0_K t e, s.g F.AO_ACT_CODE t (s.g F.TST_SE0_K t e)))
  let tot : List RespTot := (s.stimResps t).map (fun r => { idx := r })
  let start := ceilDiv (s.replicaU t + usU) usU * 1000
  let mis := (s.stimResps t).map (fun r => t * 1024 + s.g F.TST_RE0_J t r)
  let s := (s.each (s.stimResps t) (fun s r => s.setWord R.TST_RE3 0 t r)).each mis (fun s m => s.updMi m (fun y => { y with stim := true }))
  (s.put F.TST_STIM_STAT_BUSY 1 t).setStim t { tot := tot, startNs := start, held := held, mis := mis }

/-- A write of TST_STIM_CTL with START. [DEDUCED: log 192] -/
def stimStart (t v : Nat) (s : State) : State :=
  let s := s.stimCtl t v
  if s.stimRefused t then s.testRefused
  else if s.testBusy t then s
  else s.stimBegin t

def execStimStart (t : Tile) (v : W32) (s : State) : Out := clocked s (stimStart t.val v.toNat)

/-- The next edge of a stimulus, once its instant has come: the level before it ends, and every enabled AO moves. -/
def stimEdge (t : Nat) (s : State) : State :=
  match Map.find s.tst.stim t with
  | none => s
  | some st =>
    let n := st.n
    if s.stimCount t ≤ n || s.replica t < st.startNs + 1000 * s.stimAt t n then s
    else
      let st := s.stimFold t st
      let st : StimSt := { st with edge := s.cycle, window := s.stimWin t n, n := n + 1, acc := (s.stimResps t).map (fun r => { idx := r }) }
      (s.each (s.stimEntries t) (fun s e => s.stimWrite t (s.g F.TST_SE0_K t e) (s.stimCode t e n))).setStim t st

def execStimEdge (t : Tile) (s : State) : Out := clocked s (stimEdge t.val)

/-- A mean and whether it lies in its window; one that no full set of samples backs is a free value and fails (log entry 6). [DEDUCED: log 194] -/
def State.stimMean (s : State) (sum n : Nat) (lack : Bool) (lo hi : Nat) : State × Nat × Bool :=
  if lack then (s.bump, s.fresh.toNat % 4096, false)
  else (s, sum / max n 1, lo ≤ sum / max n 1 && sum / max n 1 ≤ hi)

/-- A response entry is judged (R403): its word 3, and whether both its means pass. -/
def State.stimJudge (s : State) (t : Nat) (x : RespTot) : State × Bool :=
  let a := s.stimMean x.sa x.na x.lackA (s.g F.TST_RE1_LO t x.idx) (s.g F.TST_RE1_HI t x.idx)
  let b := a.1.stimMean x.sb x.nb x.lackB (s.g F.TST_RE2_LO t x.idx) (s.g F.TST_RE2_HI t x.idx)
  let s := b.1
  let s := (s.put F.TST_RE3_MEAN_A a.2.1 t x.idx).put F.TST_RE3_MEAN_B b.2.1 t x.idx
  let s := (s.putB F.TST_RE3_PASS_A a.2.2 t x.idx).putB F.TST_RE3_PASS_B b.2.2 t x.idx
  ((s.put F.TST_RE3_DONE 1 t x.idx).putB F.TST_RE3_NOSAMP (x.lackA || x.lackB) t x.idx, a.2.2 && b.2.2)

/-- The stimulus ends, HOLD after its last edge. -/
def stimEnd (t : Nat) (s : State) : State :=
  match Map.find s.tst.stim t with
  | none => s
  | some st =>
    if st.n < s.stimCount t || s.replica t < st.startNs + 1000 * s.stimEndAt t then s
    else
      let st := s.stimFold t st
      let r := st.tot.foldl (fun (r : State × Bool) x =>
        let j := r.1.stimJudge t x
        (j.1, r.2 && j.2)) (s, true)
      r.1.stimOver t (if r.2 then 0 else 1) st

def execStimEnd (t : Tile) (s : State) : Out := clocked s (stimEnd t.val)

def execStimAbort (t : Tile) (s : State) : Out := clocked s (fun s => s.stimAbort t.val)

/-! ### The structural test (R405, R406) -/

/-- An output is OFF for a structural test, whatever has written its setting in the same cycle (R405). [DEDUCED: log 198] -/
def State.osOff (s : State) (a : Nat) : State :=
  ((s.modeChange a 0 (s.ga F.AO_CFG_RANGE a)).pa F.AO_CFG_MODE 0 a).updAo a (fun x => { x with cut := none })

/-- A write of TST_OS_CTL with START: every AO OFF, the bias to 0 V, samples withheld. [DEDUCED: log 198] -/
def osStart (t v : Nat) (s : State) : State :=
  let s := s.each [F.TST_OS_CTL_KELV_MAX, F.TST_OS_CTL_RS_THR] (fun s f => s.sput f (bitsOf v f.lo f.wd) t)
  if !s.inTest then s.testRefused
  else if s.testBusy t then s
  else
    let s := s.each (aosOfTile t) State.osOff
    (s.put F.TST_OS_STAT_BUSY 1 t).biasTo t 0

def execOsStart (t : Tile) (v : W32) (s : State) : Out := clocked s (osStart t.val v.toNat)

/-- What stands at a site of a tile (R419). -/
inductive SiteKind where
  | ao | kelvin | mi | other | untested
  deriving DecidableEq, Repr

/-- [DEDUCED: log 198] -/
def siteKind (i : Nat) : SiteKind :=
  match i % 5 with
  | 0 => .ao
  | 1 => .kelvin
  | 2 => if i / 5 < 1024 then .mi else if i / 5 < 1160 then .other else .untested
  | _ => .untested

/-- The sites of a depth line of a tile (R418). -/
def lineLen (t : Nat) : Nat := if 5 ≤ t && t ≤ 10 then 320 else 100

/-- The site pass: 0 PASS, 1 OPEN, 2 SHORT. [DEDUCED: log 198] -/
def State.sitePass (s : State) (t : Nat) (x : OsMeas) : Nat :=
  match siteKind x.site.val with
  | .ao => if s.g F.TST_OS_CTL_KELV_MAX t < x.kelv.toNat then 1 else if x.gnd.toNat < s.g F.TST_OS_CTL_RS_THR t then 2 else 0
  | .mi => if 1100 < x.mv.toNat then 1 else if x.mv.toNat < 100 then 2 else 0
  | _ => 0

/-- The neighbours of a site with what each rises by, in mV. [DEDUCED: log 198] -/
def neighbourSites (t : Nat) (x : OsMeas) : List (Nat × Nat) :=
  let d := lineLen t
  let i := x.site.val
  (if i % d = 0 then [] else [(i - 1, x.prev.toNat)]) ++ (if i % d = d - 1 then [] else [(i + 1, x.succ.toNat)])
    ++ (if i < d then [] else [(i - d, x.left.toNat)]) ++ (if 6400 ≤ i + d then [] else [(i + d, x.right.toNat)])

/-- A site keeps the first fault found. -/
def mark (m : Map Nat) (i code : Nat) : Map Nat := if (Map.find m i).isSome then m else Map.ins m i code

/-- The bridge pass of one site that passed. [DEDUCED: log 198] -/
def bridgeSite (t : Nat) (m : Map Nat) (x : OsMeas) : Map Nat :=
  ((neighbourSites t x).filter (fun e => 50 < e.2 && siteKind e.1 != .untested)).foldl
    (fun m e => mark (mark m e.1 3) x.site.val 3) m

/-- The sites of a tile in ascending order, each with what is measured at it. [DEDUCED: log 198] -/
def osAll (x : OsRun) : List OsMeas :=
  (List.finRange 6400).map (fun i => (x.sites.find? (fun e => e.site = i)).getD { x.rest with site := i })

/-- The faults of a tile by site: the site pass, then the bridge pass over the sites that passed it. -/
def State.osFaults (s : State) (t : Nat) (l : List OsMeas) : Map Nat :=
  let first := l.foldl (fun m x => if s.sitePass t x = 0 then m else mark m x.site.val (s.sitePass t x)) []
  (l.filter (fun x => siteKind x.site.val != .untested && (Map.find first x.site.val).isNone)).foldl (bridgeSite t) first

/-- A word of the map: 16 sites of two bits. -/
def osWord (m : Map Nat) (w : Nat) : Nat := ((List.range 16).map (fun b => Map.look m (16 * w + b) 0 * 4 ^ b)).sum

/-- The structural test has ended. -/
def osDone (t : Nat) (x : OsRun) (s : State) : State :=
  if !s.on F.TST_OS_STAT_BUSY t then s
  else
    let m := s.osFaults t (osAll x)
    let s := s.each (List.range 400) (fun s w => s.setWord R.TST_OS_MAP (BitVec.ofNat 96 (osWord m w)) t w)
    (s.put F.TST_OS_STAT_NFAIL m.length t).osOver t (if m.isEmpty then 0 else 1)

def execOsDone (t : Tile) (x : OsRun) (s : State) : Out := clocked s (osDone t.val x)

def execOsAbort (t : Tile) (s : State) : Out := clocked s (fun s => s.osAbort t.val)

/-! ### Leaving TEST (R396) -/

/-- The device has left TEST: every test stops. -/
def testExitStop (s : State) : State :=
  if s.mode = 4 || s.mode = 5 then s
  else
    let s := s.each (List.range 192) State.laneStop
    s.each (List.range 16) (fun s t => (s.stimAbort t).osAbort t)

def execTestExitStop (s : State) : Out := clocked s testExitStop

/-! ### The TAP and the debug lock (R407, R408) -/

def State.unlocked (s : State) : Bool := s.on F.TST_DBG_UNLOCKED
/-- An instruction that a locked TAP does not load. -/
def lockedOp (op : Nat) : Bool := op = 0x00 || op = 0x02 || op = 0x08 || op = 0x09 || op = 0x10
/-- An opcode not listed acts as BYPASS. [DEDUCED: log 199] -/
def tapOp (op : Nat) : Nat := if lockedOp op || op = 0x01 || op = 0x20 then op else 0xFF

/-- What drives the digital output balls: the block itself, the cells of the boundary register, or nothing. -/
inductive BallDrive
  | block
  | boundary
  | highZ
  deriving DecidableEq, Repr

/-- EXTEST and CLAMP give the digital balls to the boundary register, HIGHZ lets them float, and every other instruction leaves them to the block (R407). The register itself is beyond this model. [PRESUMED: log 254] -/
def State.ballDrive (s : State) : BallDrive :=
  if s.clk = .off then .block
  else if s.tst.ir = 0x00 || s.tst.ir = 0x08 then .boundary
  else if s.tst.ir = 0x09 then .highZ
  else .block

/-- Update-IR. IDCODE brings its value into the data register. [DEDUCED: log 201; PRESUMED: log 254] -/
def tapUpdateIr (op : Nat) (s : State) : State :=
  if s.clk = .off then s
  else if lockedOp op && !s.unlocked then { s with tst.ir := 0xFF }.raise 59
  else
    let s : State := { s with tst.ir := tapOp op }
    if op = 0x01 then { s with readData := 0x0B512C5B } else s

def execTapUpdateIr (op : Byte) (s : State) : Out := fin (tapUpdateIr op.toNat s)

/-- The status byte of UNLOCK. -/
def State.unlockStat (s : State) : Nat :=
  b2n s.unlocked + 2 * b2n s.tst.verify.isSome + 4 * s.g F.TST_DBG_LOCKOUT + 16 * s.g F.TST_DBG_FAILS

/-- Capture-DR and Update-DR of UNLOCK; a signature submitted while one is verified is not taken up. [DEDUCED: log 199] -/
def unlock (x : UnlockOp) (s : State) : State :=
  if s.clk = .off || s.tst.ir != 0x20 then s
  else
    match x with
    | .capture n => { s with tst.nonce := some n, readData := n.toNat + Config.devId.toNat * 2 ^ 256 + s.unlockStat * 2 ^ 320 }
    | .submit sig => if s.tst.verify.isSome then s else { s with tst.verify := some (s.tst.nonce, sig) }

def execUnlock (x : UnlockOp) (s : State) : Out := fin (unlock x s)

/-- An attempt fails: it is counted, and the nonce is invalid. -/
def State.unlockFails (s : State) : State :=
  let s := { s with tst.nonce := none }.sat F.TST_DBG_FAILS
  (if 8 ≤ s.g F.TST_DBG_FAILS then s.put F.TST_DBG_LOCKOUT 1 else s).raise 59

/-- Whose key verifies a signature over the captured 320 bits: the vendor's (false), the customer's (true). [DEDUCED: log 199] -/
def debugKey (n : BitVec 256) (sig : BitVec 768) : Option Bool :=
  [false, true].find? (fun k => Config.debugSig k (Config.devId ++ n) sig)

/-- The key that UNLOCK_VERIFY_DONE names, if it says that the signature verifies. [DESIGN CHOICE: log 11] -/
def verdict (ok customer : Bool) : Option Bool := if ok then some customer else none

/-- MP0 has verified the signature. The command stands for the verdict that the keys give and for no other. [DEDUCED: log 199] -/
def unlockVerifyDone (ok customer : Bool) (s : State) : State :=
  match s.tst.verify with
  | none => s
  | some (n, sig) =>
    let key := n.bind (fun n => debugKey n sig)
    if key != verdict ok customer then s
    else
      let s : State := { s with tst.verify := none }
      match key with
      | some customer => if s.on F.TST_DBG_LOCKOUT then s.unlockFails else (s.put F.TST_DBG_UNLOCKED 1).putB F.TST_DBG_KEY customer
      | none => s.unlockFails

def execUnlockVerifyDone (ok customer : Bool) (s : State) : Out := clocked s (unlockVerifyDone ok customer)

def execRelock (s : State) : Out := clocked s (fun s => s.put F.TST_DBG_UNLOCKED 0)

end Sys2Proof.Machine
end

