-- ==== Sys2Proof/Machine/Access.lean ====
section
/-! DEFINITION. Register space as a master of the Lattice or the TAP reads and writes it (R5 to R8, R29, R30, R306, R312): which register an address names, what it reads as, and what a write of it does. Master 8 stands for the access port of the TAP. -/

namespace Sys2Proof.Machine

/-! ### Which register an address names (R29, R30) -/

/-- The instance of a register, and the byte within it, that an address falls into. -/
def Reg.hit (r : Reg) (a : Nat) : Option (Nat × Nat × Nat) :=
  if a < r.addr then none
  else
    let o := a - r.addr
    let i := if r.si = 0 then 0 else o / r.si
    let o := if r.si = 0 then o else o % r.si
    let j := if r.sj = 0 then 0 else o / r.sj
    let k := if r.sj = 0 then o else o % r.sj
    if i < r.ni && j < r.nj && k < r.bytes then some (i, j, k) else none

/-- The registers of VF v begin at v = 1. [DEDUCED: log 143] -/
def Reg.stands (r : Reg) (i : Nat) : Bool := !(R.LAT_VF_RING.id ≤ r.id && r.id ≤ R.LAT_VFR_MBCTL.id && i = 0)

/-- A register and the place in it that an address names. -/
structure Place where
  reg : Reg
  i : Nat
  j : Nat
  k : Nat

def findReg (l : List Reg) (a : Nat) : Option Place :=
  match l with
  | [] => none
  | r :: t =>
    match r.hit a with
    | some (i, j, k) => if r.stands i then some ⟨r, i, j, k⟩ else none
    | none => findReg t a

/-- The block of Vertex B shows the shared Sequencer registers too. [DEDUCED: log 143] -/
def seqB (a : Nat) : Bool := 0x1C0000 ≤ a && a < 0x200000
/-- [DEDUCED: log 143] -/
def placeAt (a : Nat) : Option Place :=
  match findReg regList a with
  | some p => some p
  | none => if seqB a then findReg regList (a - 0x40000) else none

/-- A word of a trace buffer (R187). -/
def traceAddr (a : Nat) : Option Nat :=
  if 0x190000 ≤ a && a < 0x1A0000 then some (trcBase 0 + (a - 0x190000))
  else if 0x1D0000 ≤ a && a < 0x1E0000 then some (trcBase 1 + (a - 0x1D0000))
  else none

/-- The target of a register access: the tile hub for a tile window, else the registers (R306). -/
def regTarget (a : Nat) : Nat := if 0x400000 ≤ a && a < 0x800000 then 1 else 0

/-- Registers that stand in a tile: without its link an access is not completed (R310). -/
def Place.inTile (p : Place) : Bool := (p.reg.scope = .tile && p.reg.id != R.TL_TSTAT.id) || p.reg.id = R.CAR_WR_CNT.id
/-- [DEDUCED: log 146] -/
def State.cutOff (s : State) (p : Place) : Bool := p.inTile && !(s.tl p.i).linkUp

/-! ### What a register reads as -/

/-- A field that shows what the part holds elsewhere. -/
abbrev View := Nat × (State → Nat → Nat → Nat → RWord)
/-- [DEDUCED: log 143] -/
def viewF (f : Fld) (g : State → Nat → Nat → Nat) : View :=
  (f.reg.id, fun s i j _ => setField (s.seen f.reg i j) f.lo f.wd (g s.before i j))
/-- A command bit that stays set while its action runs (R5): set at once by the write that starts the action, and still read as set in the cycle in which the hardware ends it. -/
def cmdBits (r : Reg) (l : List (Fld × (State → Nat → Nat → Bool))) : View :=
  (r.id, fun s i j _ => l.foldl (fun w e => setField w e.1.lo e.1.wd (b2n (e.2 s i j || e.2 s.before i j))) (s.seen r i j))
/-- One such bit in its register. -/
def cmdBit (f : Fld) (g : State → Nat → Nat → Bool) : View := cmdBits f.reg [(f, g)]
/-- 32 bits, bit n for the channel 32 w + n of a tile. -/
def mapWord (w : Nat) (g : Nat → Bool) : Nat := ((List.range 32).map (fun b => if g (32 * w + b) then 2 ^ b else 0)).sum
/-- A map of the channels of a tile whose context is in a state (R111). -/
def State.stateMap (s : State) (t w st : Nat) : Nat := mapWord w (fun k => s.cg 0 (1280 * t + k) C.STATE = st)
/-- Milliseconds since a member's last completed sweep, saturating (R258). -/
def State.sweepAge (s : State) (x m : Nat) : Nat :=
  match (Map.look (s.tw x).mems m {}).sweepAt with
  | some t => min 255 ((s.cycle - t) / 1000000)
  | none => 255

/-- CAR_ENTRY (R55): a corrected read says so; of an uncorrectable one bits 18 to 0 read zero. -/
def State.carEntry (s : State) (a : Nat) : Nat :=
  if s.af.carafe.ue.contains a then 2 ^ 31
  else s.carafe a % 2 ^ 19 + (if s.af.carafe.ce.contains a then 2 ^ 30 else 0)
/-- An entry of an active focus list (R75). -/
def State.focEntry (s : State) (t j : Nat) : Nat :=
  match (s.md t (j / 16)).active[j % 16]? with
  | some e => e.j + 2 ^ 10 + s.focusLeft (s.md t (j / 16)).mode e * 2 ^ 16
  | none => 0
def State.scanStat (s : State) (t d : Nat) : RWord :=
  let x := s.md t d
  let w := s.word R.MI_SCAN_STAT t d
  let put (w : RWord) (f : Fld) (v : Nat) := setField w f.lo f.wd v
  put (put (put w F.MI_SCAN_STAT_POS (min x.pos x.len)) F.MI_SCAN_STAT_ACTIVE (b2n (x.pass || x.delay.isSome))) F.MI_SCAN_STAT_FCNT x.active.length

def views : List View :=
  [ (R.TB_NOW.id, fun s i _ _ => s.before.tbNow i),
    viewF F.MI_SQ_STAT_ABOVE (fun s q _ => b2n (s.g F.MI_SQ_CTL_THRESH q != 0 && s.g F.MI_SQ_CTL_THRESH q ≤ s.sqFill q)),
    viewF F.AO_FLT_SUM_MAP (fun s t w => mapWord w (fun k => s.on F.AO_STAT_FAULT t k)),
    viewF F.AO_LIM_SUM_MAP (fun s t w => mapWord w (fun k => s.on F.AO_STAT_LIMIT t k)),
    viewF F.AO_TILE_STAT_FLT_CNT (fun s t _ => ((List.range 1280).filter (fun k => s.on F.AO_STAT_FAULT t k)).length),
    (R.CAR_ENTRY.id, fun s t k _ => BitVec.ofNat 96 (s.before.carEntry (1280 * t + k))),
    (R.MI_SCAN_STAT.id, fun s t d _ => s.before.scanStat t d),
    (R.MI_FOC.id, fun s t j _ => BitVec.ofNat 96 (s.before.focEntry t j)),
    viewF F.LE_LOAD_CUR_LOAD (fun s t _ => s.load false t),
    viewF F.LE_LOAD_PRO_LOAD (fun s t _ => s.load true t),
    viewF F.LE_FOCUS_STAT_USED (fun s t _ => s.slotsUsed t),
    viewF F.LE_DITHER_CHIP (fun s t _ => s.chip t),
    viewF F.LE_LOCK_SUM_MAP (fun s t w => s.stateMap t w 2),
    viewF F.LE_RAIL_SUM_MAP (fun s t w => s.stateMap t w 3),
    viewF F.LE_FAULT_SUM_MAP (fun s t w => s.stateMap t w 4),
    viewF F.EVT_CONS_BUSY (fun s k _ => b2n (s.consBusy k)),
    viewF F.SEQ_HEALTH_AGE (fun s m _ => s.sweepAge 0 m),
    viewF F.LE_HEALTH_AGE (fun s t m => s.sweepAge (t + 1) m),
    viewF F.CAL_TSTAT_TCAL (fun s t _ => s.trimWord t 0xC3E),
    (R.SEQ_THR_PC.id, fun s h _ m => BitVec.ofNat 96 (s.before.th m h).pc &&& R.SEQ_THR_PC.rw),
    viewF F.RTU_ROT_STAT_STATE (fun s p _ => s.roState p),
    viewF F.RTU_ROT_CYC_N (fun s p _ => s.cycN p),
    cmdBit F.RTU_PCTL_LOAD (fun s p _ => (s.rp p).loading),
    cmdBit F.BRS_RING_CTL_DRAIN (fun s n _ => (s.ring n).draining),
    cmdBit F.SEQ_LEASE_CTL_MOVE (fun s _ _ => s.on F.SEQ_LEASE_STAT_MOVE_PEND),
    cmdBit F.LE_LEASE_CTL_MOVE (fun s t _ => s.on F.LE_LEASE_STAT_MOVE_PEND t) ]

/-- A fence or an unfence command of FLT_FENCE_CTL is in progress. -/
def State.cmdRuns (s : State) (fence : Bool) : Bool := s.flt.cmds.any (fun c => c.2.2 = fence)
/-- A RESTART of a member has not yet ended, in SYNC or OFFLINE (R251). -/
def State.restarting (s : State) (x m : Nat) : Bool := s.mstate x m != 0 && s.mstate x m != 4

/-- A DMA channel runs a descriptor, from the register image or from memory (R313). -/
def State.dmaRuns (s : State) (c : Nat) (image : Bool) : Bool :=
  (s.g F.DMA_CH_STAT_STATE c = 1 || s.g F.DMA_CH_STAT_STATE c = 2) && (s.dma' c).image = image

/-- Command bits of type W1S that stay set while their action runs (R5). -/
def views2 : List View :=
  [ cmdBits R.FLT_FENCE_CTL [(F.FLT_FENCE_CTL_FENCE, fun s _ _ => s.cmdRuns true), (F.FLT_FENCE_CTL_UNFENCE, fun s _ _ => s.cmdRuns false)],
    cmdBits R.TB_CTL
      [ (F.TB_CTL_STEP, fun s b _ => (s.tb b).pendStep.any (fun x => x.2.1)),
        (F.TB_CTL_STEP_OFF, fun s b _ => (s.tb b).pendStep.any (fun x => !x.2.1)),
        (F.TB_CTL_AMORT, fun s b _ => (s.tb b).amort.isSome),
        (F.TB_CTL_AMORT_STOP, fun s b _ => (s.tb b).amort.any (fun x => x.stopAt.isSome)) ],
    cmdBit F.TST_LCFG_INJ (fun s l _ => s.on F.TST_LCFG_GEN_EN l && 0 < (s.lane l).inj),
    cmdBit F.TB_TPO_CTL_LOAD (fun s n _ => (s.tpo n).load.isSome),
    cmdBit F.CAL_CMD_GO (fun s _ _ => s.on F.CAL_STAT_BUSY),
    cmdBit F.TST_STIM_CTL_START (fun s t _ => s.on F.TST_STIM_STAT_BUSY t),
    cmdBit F.TST_OS_CTL_START (fun s t _ => s.on F.TST_OS_STAT_BUSY t),
    cmdBit F.SEQ_MEMBER_CTL_RESTART (fun s m _ => s.restarting 0 m),
    cmdBit F.LE_MEMBER_CTL_RESTART (fun s t m => s.restarting (t + 1) m),
    cmdBits R.RTU_ROT_CTL
      [ (F.RTU_ROT_CTL_STOP, fun s p _ => (s.ro p).stopPend), (F.RTU_ROT_CTL_STOP_NOW, fun s p _ => (s.ro p).stopNow),
        (F.RTU_ROT_CTL_SWAP, fun s p _ => s.on F.RTU_ROT_STAT_SWAP_PEND p) ],
    cmdBit F.RTU_ROT_LRN_CLR (fun s p _ => s.on F.RTU_ROT_LSTAT_CLR_BUSY p),
    cmdBit F.GLB_MCMD_CTL_GO (fun s n _ => s.on F.GLB_MCMD_CTL_BUSY n),
    cmdBits R.DMA_CH_CTL
      [ (F.DMA_CH_CTL_START, fun s c _ => s.dmaRuns c true), (F.DMA_CH_CTL_CHAIN_START, fun s c _ => s.dmaRuns c false),
        (F.DMA_CH_CTL_CHAIN_KICK, fun s c _ => s.on F.DMA_CH_STAT_KICK_PEND c) ],
    (R.SEQ_THR_CTL.id, fun s h _ m =>
      let stop (s : State) := (s.th m h).stop
      let redirect (s : State) := (s.th m h).redirect
      setField (setField (s.seen R.SEQ_THR_CTL h) 1 1 (b2n (stop s || stop s.before))) 2 1 (b2n (redirect s || redirect s.before))) ]

/-- What a register reads as, through the block of member b. [DEDUCED: log 111] -/
def State.view (s : State) (p : Place) (b : Nat) : RWord :=
  (match (views ++ views2).find? (fun e => e.1 = p.reg.id) with
   | some e => e.2 s p.i p.j b
   | none => s.seen p.reg p.i p.j) &&& ~~~ p.reg.wo

/-! ### Reads (R5, R6, R8, R269) -/

/-- The bits of n words from word k on. -/
def wordMask (k n : Nat) : RWord := fieldMask (32 * k) (32 * n)

/-- The fields that a read of n words from word k on clears (R5). Where the hardware has set such a field in this cycle it ends set (R6): a counter with what it has counted in the cycle. -/
def State.readClear (s : State) (p : Place) (n : Nat) : State :=
  let rc := p.reg.rc &&& wordMask (p.k / 4) n
  let h := s.hwOf p.reg p.i p.j
  let cnt := (s.word p.reg p.i p.j &&& rc) - (h.old &&& rc)
  let left := if h.set &&& rc = 0 then 0 else if cnt = 0 then rc &&& (- rc) else cnt &&& rc
  s.when (rc != 0) (fun s => s.swWord p.reg ((s.word p.reg p.i p.j &&& ~~~ rc) ||| left) (h.old &&& ~~~ rc) p.i p.j)

/-- A read of n words of one register by master m, through the block of member b. Only the TAP leaves RC fields and the timestamp queues as they are. -/
def State.readReg (s : State) (m b : Nat) (p : Place) (n : Nat) : State :=
  let key := p.reg.key p.i p.j
  let w := p.k / 4
  let v := s.view p b
  let last := w + n = p.reg.bytes / 4
  let part (x : RWord) : Nat := getField x (32 * w) (32 * n)
  if m != 8 && w = 0 && p.reg.id = R.TB_TCI_TS.id then tciTsRead p.i m (n = 2) s
  else if m != 8 && w = 0 && p.reg.id = R.SP_TSQ_TS.id then spTsqRead p.i m (n = 2) s
  else if p.reg.id = R.SEQ_DMWIN_DATA.id then dmwinAccess m p.i (if n = 2 then 0 else w + 1) false 0 s
  else if p.reg.id = R.CAL_TWIN_DATA.id then trimAccess false 0 s
  else if p.reg.bytes = 4 then
    let s := s.when (p.reg.id = R.CAR_ENTRY.id && s.af.carafe.ce.contains (1280 * p.i + p.j)) (fun s => s.sat F.CAR_CE_CNT_CNT p.i)
    let s := s.when (p.reg.id = R.LAT_VFR_STAT.id) (fun s => s.put F.LAT_VF_STAT_DB_BAD 0 p.i)
    { s.when (m != 8) (fun s => s.readClear p 1) with readData := part v }
  else if w = 0 then
    let s := if last then dropLatch m key s else s.setLatch m key v
    { s with readData := part v }
  else
    match Map.find s.latches (latchKey m key) with
    | some x => { s.when last (dropLatch m key) with readData := part x }
    | none => { s with readData := part v }

/-- A read of one word at an address: a register, a trace buffer, the collateral reports and plans (R152), or an unused offset, which reads zero (R7). -/
def State.readWord (s : State) (m a : Nat) : State :=
  match placeAt a with
  | some p =>
    if m != 8 && s.cutOff p then { latTimeout m 1 false a s with readData := 0xFFFFFFFF }
    else s.readReg m (b2n (seqB a)) p 1
  | none =>
    match traceAddr a with
    | some x => { s with readData := s.rdN x 4 }
    | none => { s with readData := (s.rtuRegion a).getD 0 }

/-- A read of 64 bits: of one register where it holds both words, else of two. [DEDUCED: log 142] -/
def State.readWide (s : State) (m a : Nat) : State :=
  match placeAt a with
  | some p =>
    if p.k + 8 ≤ p.reg.bytes && !(m != 8 && s.cutOff p) then s.readReg m (b2n (seqB a)) p 2
    else
      let lo := s.readWord m a
      let hi := lo.readWord m (a + 4)
      { hi with readData := lo.readData + hi.readData * 2 ^ 32 }
  | none =>
    let lo := s.readWord m a
    let hi := lo.readWord m (a + 4)
    { hi with readData := lo.readData + hi.readData * 2 ^ 32 }

def State.readSpace (s : State) (m a : Nat) (wide : Bool) : State := if wide then s.readWide m a else s.readWord m a

/-- A read of register space by a master of the Lattice. [DEDUCED: log 146] -/
def regRead (m a : Nat) (wide : Bool) (s : State) : State :=
  let t := regTarget a
  if s.retiring m then s
  else if !latPath m t then ({ s with readData := 0 }).latDecode m t false a
  else (s.grant t m).readSpace m a wide

def execReg64LatchRead (m : Fin 8) (addr : BitVec 24) (wide : Bool) (s : State) : Out :=
  clocked s (regRead m.val (addr.toNat / (if wide then 8 else 4) * (if wide then 8 else 4)) wide)

/-! ### Writes by field type (R5, R6) -/

/-- A write as it reaches a register: the instance, the register's value with the written bytes in place, the bits written (zero elsewhere), their mask, and for the doorbells of the frame rings what host memory holds. -/
structure Wr where
  i : Nat
  j : Nat
  v : Nat
  d : RWord
  m : RWord
  mem : List (List Byte × List Byte)

/-- A write by the field types alone; RWL fields follow the lock of FLT (R5, R6). A hardware update of the same cycle stands over the write, and a W1C bit that it sets ends set. -/
def State.typed (s : State) (r : Reg) (x : Wr) : State :=
  let h := s.hwOf r x.i x.j
  let rw := (r.rw ||| (if s.on F.FLT_CFG_LOCK then 0 else r.rwl)) &&& x.m
  let put (w rw w1c : RWord) : RWord := ((w &&& ~~~ rw) ||| (x.d &&& rw)) &&& ~~~ (x.d &&& w1c)
  s.swWord r (put (s.word r x.i x.j) (rw &&& ~~~ h.mask) (r.w1c &&& ~~~ h.set)) (put h.old rw r.w1c) x.i x.j

/-- Bit f is written with 1. -/
def Wr.has (x : Wr) (f : Fld) : Bool := bitOf x.d.toNat f.lo
def Wr.get (x : Wr) (f : Fld) : Nat := bitsOf x.v f.lo f.wd

/-! ### Writes that do more than their field types -/

def sqCtlWrite (x : Wr) (s : State) : State := (s.typed R.MI_SQ_CTL x).when (x.has F.MI_SQ_CTL_CLR) (sqClr x.i)

def pctlWrite (x : Wr) (s : State) : State :=
  let s := s.when (x.has F.RTU_PCTL_LOAD && !(s.rp x.i).loading) (rtuLoad x.i)
  let s := s.when (x.has F.RTU_PCTL_PLAN_CLR) (rtuPlanClr x.i)
  s.when (x.has F.RTU_PCTL_CACHE_CLR) (fun s => s.cacheClear x.i)

/-- [DEDUCED: log 145] -/
def rotCtlWrite (x : Wr) (s : State) : State :=
  let s := s.when (x.has F.RTU_ROT_CTL_GO) (fun s => (s.rotGo x.i).1)
  let s := s.when (x.has F.RTU_ROT_CTL_STOP) (fun s => s.rotStop x.i)
  let s := s.when (x.has F.RTU_ROT_CTL_STOP_NOW) (fun s => s.rotStopNow x.i)
  let s := s.when (x.has F.RTU_ROT_CTL_SWAP) (fun s => (s.rotSwap x.i).1)
  s.when (x.has F.RTU_ROT_CTL_SWAP_CANCEL) (fun s => s.put F.RTU_ROT_STAT_SWAP_PEND 0 x.i)

/-- A write whose LEN a tile refuses is refused whole, CLR with it (R168). -/
def rotLrnWrite (x : Wr) (s : State) : State :=
  (lrnWrite x.i x.v s).when (x.has F.RTU_ROT_LRN_CLR && (s.lrnLate x.i x.v).isEmpty) (learnClr x.i)
def rotBufWrite (x : Wr) (s : State) : State := s.when (x.j % 256 < 132) (rotorBufWrite x.i (x.j / 256) (x.j % 256) x.v)

/-- SEQ_THR_STATn is mirrored: START_REFUSED is cleared on both members (R194). -/
def thrStatWrite (x : Wr) (s : State) : State :=
  s.when (x.has F.SEQ_THR_STAT_START_REFUSED) (fun s => (s.w1c F.SEQ_THR_STAT_START_REFUSED 1 0 x.j).w1c F.SEQ_THR_STAT_START_REFUSED 1 1 x.j)

def thrCtlWrite (x : Wr) (s : State) : State :=
  let s := s.when (x.has F.SEQ_THR_CTL_START) (threadStart x.i)
  let s := s.when (x.has F.SEQ_THR_CTL_STOP) (threadStop x.i)
  s.when (x.has F.SEQ_THR_CTL_REDIRECT) (threadRedirect x.i)

/-- SEQ_THR_MODEn.D2 is written only while the thread is STOPPED (R191). -/
def thrModeWrite (x : Wr) (s : State) : State :=
  let d2 := s.g F.SEQ_THR_MODE_D2 x.i
  let stopped := s.thState s.lead x.i = 0
  (s.typed R.SEQ_THR_MODE x).when (!stopped) (fun s => s.sput F.SEQ_THR_MODE_D2 d2 x.i)

def ringCtlWrite (x : Wr) (s : State) : State :=
  let s := if x.has F.BRS_RING_CTL_INIT then ringInit x.i x.v s else ringEnWrite x.i x.v s
  s.when (x.has F.BRS_RING_CTL_DRAIN) (ringDrain x.i)

/-- The lease configuration of a pair (R249, R254); MISC_ABORT is the Sequencers' alone. -/
def leaseCfgWrite (r : Reg) (pair : Nat) (x : Wr) (s : State) : State :=
  ((s.typed r x).when (pair != 0) (fun s => s.sput F.LE_LEASE_CFG_MISC_ABORT 0 (pair - 1))).suspSync pair

/-- [DEDUCED: log 145] -/
def tbCtlWrite (x : Wr) (s : State) : State :=
  let s := (s.typed R.TB_CTL x).when (x.i != 0) (fun s => s.sput F.TB_CTL_FORCE 0 x.i)
  let s := s.when (x.has F.TB_CTL_STEP) (stepCmd x.i)
  let s := s.when (x.has F.TB_CTL_STEP_OFF) (stepOff x.i)
  let s := s.when (x.has F.TB_CTL_AMORT) (amortCmd x.i)
  s.when (x.has F.TB_CTL_AMORT_STOP) (amortStop x.i)

def tpoCtlWrite (x : Wr) (s : State) : State := (s.typed R.TB_TPO_CTL x).when (x.has F.TB_TPO_CTL_LOAD) (tpoLoad x.i)
def tciCtlWrite (x : Wr) (s : State) : State := (s.typed R.TB_TCI_CTL x).when (x.has F.TB_TCI_CTL_CLR) (tciClr x.i)

def maxFrmWrite (x : Wr) (s : State) : State := s.sput F.SP_MAXFRM_MAX (max 1518 (min 9600 (x.get F.SP_MAXFRM_MAX))) x.i
/-- The base of a frame ring is written only while the rings are not active. -/
def frBaseWrite (r : Reg) (x : Wr) (s : State) : State := if s.on F.SP_FR_CTL_EN x.i then s else s.typed r x
def frCtlWrite (x : Wr) (s : State) : State := if x.has F.SP_FR_CTL_INIT then spFrInit x.i x.v s else s.typed R.SP_FR_CTL x
/-- The address and size that a receive descriptor holds (R285). -/
def rxBuf (d : List Byte × List Byte) : W64 × BitVec 14 := (BitVec.ofNat 64 (leNat (d.1.take 8)), BitVec.ofNat 14 (leNat ((d.1.drop 8).take 4)))

def vfrMbctlWrite (x : Wr) (s : State) : State := (s.typed R.LAT_VFR_MBCTL x).when (x.has F.LAT_VFR_MBCTL_SEND) (vfMboxSend x.i)

/-- DMA_CH_DESC, CFG and NEXT are writable only in IDLE (R325). -/
def dmaRegWrite (r : Reg) (x : Wr) (s : State) : State := if s.dmaState x.i = 0 then s.typed r x else s.put F.DMA_CH_STAT_REFUSED 1 x.i
/-- [DESIGN CHOICE: log 127; DEDUCED: log 145] -/
def dmaCtlWrite (x : Wr) (s : State) : State :=
  let s := s.when (x.has F.DMA_CH_CTL_START) (dmaStart x.i)
  let s := s.when (x.has F.DMA_CH_CTL_CHAIN_START) (dmaChainStart x.i)
  let s := s.when (x.has F.DMA_CH_CTL_CHAIN_KICK) (dmaChainKick x.i)
  let s := s.when (x.has F.DMA_CH_CTL_ABORT) (dmaAbort x.i 0 [])
  s.when (x.has F.DMA_CH_CTL_CLEAR) (fun s => s.dmaClear x.i)

/-- A host write of EVT_GRP stands before what channels change in its cycle (R333). [DEDUCED: log 149] -/
def grpWrite (x : Wr) (s : State) : State :=
  let s := s.grpMark.typed R.EVT_GRP x
  s.put F.EVT_GRP_EN ((x.get F.EVT_GRP_EN ||| s.evt.grpOn) &&& (255 - s.evt.grpOff))

/-- FLT_REACTs; BRST reads 0 where the source has no block reset (R338). -/
def reactWrite (x : Wr) (s : State) : State := (s.typed R.FLT_REACT x).when (!hasBrst x.i) (fun s => s.sput F.FLT_REACT_BRST 0 x.i)

/-- FLT_CFG.LOCK stays set until chip reset (R6). -/
def fltCfgWrite (x : Wr) (s : State) : State := (s.typed R.FLT_CFG x).when (s.on F.FLT_CFG_LOCK) (fun s => s.sput F.FLT_CFG_LOCK 1)

def fenceCtlWrite (x : Wr) (s : State) : State :=
  let r := x.get F.FLT_FENCE_CTL_REGION
  let k := x.get F.FLT_FENCE_CTL_INDEX
  let s := s.typed R.FLT_FENCE_CTL x
  let s := s.when (x.has F.FLT_FENCE_CTL_FENCE) (fltFence r k)
  s.when (x.has F.FLT_FENCE_CTL_UNFENCE) (fltUnfence r k)

/-- FLT_FRZ_CTL (R346): SET requests freeze; enabling FREEZE_N while it is low does too. -/
def frzCtlWrite (x : Wr) (s : State) : State :=
  let s := s.typed R.FLT_FRZ_CTL x
  let s := s.when (x.has F.FLT_FRZ_CTL_SET) (freezeRequest 2)
  s.when (!s.flt.frzPin) (freezeRequest 0)

def pmodeWrite (x : Wr) (s : State) : State :=
  (s.typed R.GLB_PMODE x).when (x.has F.GLB_PMODE_GO) (pmodeRequest x.i (x.get F.GLB_PMODE_REQ))
def mcmdCtlWrite (x : Wr) (s : State) : State := (s.typed R.GLB_MCMD_CTL x).when (x.has F.GLB_MCMD_CTL_GO) (mcmdGo x.i)

def vhtrCfgWrite (x : Wr) (s : State) : State := (s.typed R.PWR_VHTR_CFG x).retarget

/-- PWR_VPICn_CFG: EN restarts or turns off the rail, and a new set value is taken while it is on (R358). [DEDUCED: log 176] -/
def vpicCfgWrite (x : Wr) (s : State) : State :=
  let was := s.g F.PWR_VPIC_CFG_EN x.i
  let s := (s.typed R.PWR_VPIC_CFG x).put F.PWR_VPIC_CFG_EN was x.i
  if x.get F.PWR_VPIC_CFG_EN = 0 then (s.put F.PWR_VPIC_CFG_EN 0 x.i).railOff (x.i + 5)
  else if was = 1 then s.put F.DPC_VSET_VSET (s.vpicSet x.i) (x.i + 5)
  else railRestart (x.i + 1) s

/-- DPC_CFGn.EN of VHTR and the VPIC rails. -/
def dpcCfgWrite (x : Wr) (s : State) : State :=
  if x.i < 4 then s
  else if x.has F.DPC_CFG_EN then (if s.on F.DPC_CFG_EN x.i then s else railRestart (x.i - 4) s)
  else (s.railOff x.i).when (4 < x.i) (fun s => s.put F.PWR_VPIC_CFG_EN 0 (x.i - 5))

/-- DPC_VSETn (R354, R359). [DEDUCED: log 176] -/
def dpcVsetWrite (x : Wr) (s : State) : State :=
  let v := x.get F.DPC_VSET_VSET
  if x.i = 0 then vset0Write v s
  else if x.i = 4 && s.on F.PWR_VHTR_CFG_MANUAL then
    if 3300 ≤ v && v ≤ 12000 then (s.put F.DPC_VSET_VSET v 4).retarget else s.put F.PWR_STAT_CFG_REFUSED 1
  else s

def dpcLimWrite (x : Wr) (s : State) : State :=
  if x.get F.DPC_LIM_OCL ≤ (Config.dpcOcl s.pwr.board x.i).toNat then s.typed R.DPC_LIM x else s.put F.PWR_STAT_CFG_REFUSED 1

/-- CAL_VREF and CAL_RSET, refused outside 2.490 V to 2.510 V and 9.900 to 10.100 kilohm (R387). -/
def calRefWrite (r : Reg) (lo hi : Nat) (x : Wr) (s : State) : State :=
  let v := (BitVec.ofNat 96 x.v &&& r.rw).toNat
  if lo ≤ v && v ≤ hi then s.typed r x else s.put F.CAL_STAT_CFG_REFUSED 1

def calCmdWrite (x : Wr) (s : State) : State :=
  let op := x.get F.CAL_CMD_OP
  (s.typed R.CAL_CMD x).when (x.has F.CAL_CMD_GO && op != 0)
    (calStart op (if op = 1 then x.get F.CAL_CMD_TILE else x.get F.CAL_CMD_PART))

def lcfgWrite (x : Wr) (s : State) : State :=
  let s := laneWrite x.i x.v s
  let s := s.when (x.has F.TST_LCFG_INJ) (laneInj x.i)
  s.when (x.has F.TST_LCFG_CLR) (laneClr x.i)

def stimCtlWrite (x : Wr) (s : State) : State :=
  let s := if x.has F.TST_STIM_CTL_START then stimStart x.i x.v s else s.stimCtl x.i x.v
  s.when (x.has F.TST_STIM_CTL_ABORT) (fun s => s.stimAbort x.i)

def osCtlWrite (x : Wr) (s : State) : State :=
  let s := if x.has F.TST_OS_CTL_START then osStart x.i x.v s else s.typed R.TST_OS_CTL x
  s.when (x.has F.TST_OS_CTL_ABORT) (fun s => s.osAbort x.i)

/-- AO_STAT: LIMIT is W1C; FAULT releases the fault (R53). -/
def aoStatWrite (x : Wr) (s : State) : State :=
  let s := s.when (x.has F.AO_STAT_LIMIT) (fun s => s.w1c F.AO_STAT_LIMIT 1 x.i x.j)
  s.when (x.has F.AO_STAT_FAULT) (releaseFault (1280 * x.i + x.j))

/-- LE_CTL: with RUN the tile's contexts leave HELD or enter it (R110). -/
def leCtlWrite (x : Wr) (s : State) : State :=
  let run := s.g F.LE_CTL_RUN x.i
  let s := s.typed R.LE_CTL x
  if s.g F.LE_CTL_RUN x.i = run then s else s.refreshTile x.i

/-- LE_CMD: 1 RESTART, 2 HOLD, 3 RELEASE of a channel (R112, R113); of a K that names no channel it does nothing. [DESIGN CHOICE: log 248] -/
def leCmdWrite (x : Wr) (s : State) : State :=
  let k := x.get F.LE_CMD_K
  let a := 1280 * x.i + k
  if 1280 ≤ k then s
  else
    match x.get F.LE_CMD_OP with
    | 1 => leRestart a s
    | 2 => leHold a s
    | 3 => leRelease a s
    | _ => s

/-- The registers whose writes do more than their field types say. [DEDUCED: log 145] -/
def handlers : List (Nat × (Wr → State → State)) :=
  [ (R.MI_SQ_CTL.id, sqCtlWrite),
    (R.MI_SQ_RD.id, fun x => sqRdWrite x.i x.v),
    (R.MI_CFG.id, fun x => miCfgWrite (1024 * x.i + x.j) x.v),
    (R.MI_BIAS.id, fun x => miBiasWrite x.i (x.get F.MI_BIAS_CODE)),
    (R.MI_SCAN_CTL.id, fun x => scanCtlWrite x.i x.j x.v),
    (R.MI_FOCUS_CTL.id, fun x s => focusCtlWrite x.i (s.typed R.MI_FOCUS_CTL x)),
    (R.RTU_PCTL.id, pctlWrite),
    (R.RTU_ROT_CFG.id, fun x => rotCfgWrite x.i x.v),
    (R.RTU_ROT_CTL.id, rotCtlWrite),
    (R.RTU_ROT_LRN.id, rotLrnWrite),
    (R.RTU_ROT_BUF.id, rotBufWrite),
    (R.SEQ_THR_CTL.id, thrCtlWrite),
    (R.SEQ_THR_STAT.id, thrStatWrite),
    (R.SEQ_THR_CODE.id, fun x => thrCodeWrite x.i false x.v),
    (R.SEQ_THR_NCODE.id, fun x => thrCodeWrite x.i true x.v),
    (R.SEQ_THR_MODE.id, thrModeWrite),
    (R.BRS_RQ_BASE.id, fun x => ringCfgWrite x.i 0 x.v),
    (R.BRS_CQ_BASE.id, fun x => ringCfgWrite x.i 1 x.v),
    (R.BRS_RING_CFG.id, fun x => ringCfgWrite x.i 2 x.v),
    (R.BRS_RING_CFG2.id, fun x => ringCfgWrite x.i 3 x.v),
    (R.BRS_RING_SIZE.id, fun x => ringCfgWrite x.i 4 x.v),
    (R.BRS_RQ_PI.id, fun x => rqDoorbell x.i x.v),
    (R.BRS_CQ_CI.id, fun x => cqDoorbell x.i x.v),
    (R.BRS_RING_CTL.id, ringCtlWrite),
    (R.BRS_PORT_CFG.id, fun x => portEnable x.i x.v),
    (R.BRS_MP_CFG.id, fun x => mprofWrite x.i 0 x.v),
    (R.BRS_MP_CIR.id, fun x => mprofWrite x.i 1 x.v),
    (R.BRS_MP_PIR.id, fun x => mprofWrite x.i 2 x.v),
    (R.BRS_MP_BKT.id, fun x => mprofWrite x.i 3 x.v),
    (R.BRS_SP_CFG.id, fun x => sprofWrite x.i 0 x.v),
    (R.BRS_SP_RATE.id, fun x => sprofWrite x.i 1 x.v),
    (R.BRS_SVC_CFG.id, fun x => svcCfgWrite x.i x.v) ]

/-- The rest of them. -/
def handlers2 : List (Nat × (Wr → State → State)) :=
  [ (R.SEQ_LEASE_CFG.id, fun x => leaseCfgWrite R.SEQ_LEASE_CFG 0 x),
    (R.LE_LEASE_CFG.id, fun x => leaseCfgWrite R.LE_LEASE_CFG (x.i + 1) x),
    (R.SEQ_LEASE_CTL.id, fun x s => s.when (x.has F.SEQ_LEASE_CTL_MOVE) (leaseMove 0)),
    (R.LE_LEASE_CTL.id, fun x s => s.when (x.has F.LE_LEASE_CTL_MOVE) (leaseMove (x.i + 1))),
    (R.SEQ_MEMBER_CTL.id, fun x s => s.when (x.has F.SEQ_MEMBER_CTL_RESTART) (fun s => s.restartMember 0 x.i)),
    (R.LE_MEMBER_CTL.id, fun x s => s.when (x.has F.LE_MEMBER_CTL_RESTART) (fun s => s.restartMember (x.i + 1) x.j)),
    (R.TB_CTL.id, tbCtlWrite),
    (R.TB_INC.id, fun x => tbIncWrite x.i x.v),
    (R.TB_TPO_CTL.id, tpoCtlWrite),
    (R.TB_TCI_CTL.id, tciCtlWrite),
    (R.SP_CFG.id, fun x => spCfgWrite x.i x.v),
    (R.SP_MAXFRM.id, maxFrmWrite),
    (R.SP_TC_CTL.id, fun x => spTcEnable (x.has F.SP_TC_CTL_EN)),
    (R.SP_TXR_BASE.id, frBaseWrite R.SP_TXR_BASE),
    (R.SP_RXR_BASE.id, frBaseWrite R.SP_RXR_BASE),
    (R.SP_FR_CTL.id, frCtlWrite),
    (R.SP_TXR_PI.id, fun x => spTxrDoorbell x.i x.v x.mem),
    (R.SP_RXR_PI.id, fun x => spRxrDoorbell x.i x.v (x.mem.map rxBuf)),
    (R.LAT_VF_RING.id, fun x => vfRingWrite x.i x.v),
    (R.LAT_VF_VEC.id, fun x => vfVecWrite x.i x.v),
    (R.LAT_VF_STAT.id, fun x s => s.when (x.has F.LAT_VF_STAT_SEND) (pfMboxSend x.i)),
    (R.LAT_VFR_MBCTL.id, vfrMbctlWrite),
    (R.DMA_CH_DESC.id, dmaRegWrite R.DMA_CH_DESC),
    (R.DMA_CH_CFG.id, dmaRegWrite R.DMA_CH_CFG),
    (R.DMA_CH_NEXT.id, dmaRegWrite R.DMA_CH_NEXT),
    (R.DMA_CH_CTL.id, dmaCtlWrite),
    (R.EVT_CH.id, fun x => evtChWrite x.i x.v),
    (R.EVT_RAISE.id, fun x s => s.reach (x.get F.EVT_RAISE_CH) true),
    (R.EVT_GRP.id, grpWrite) ]

def handlers3 : List (Nat × (Wr → State → State)) :=
  [ (R.FLT_STAT.id, fun x => fltStatClear x.d.toNat),
    (R.FLT_FIRST.id, fun x s => s.when (x.has F.FLT_FIRST_VALID) fltFirstClear),
    (R.FLT_CFG.id, fltCfgWrite),
    (R.FLT_REACT.id, reactWrite),
    (R.FLT_SOFT.id, fun x => fltSoft (x.get F.FLT_SOFT_RAISE)),
    (R.FLT_FENCE_CTL.id, fenceCtlWrite),
    (R.FLT_FRZ_CTL.id, frzCtlWrite),
    (R.GLB_CTL.id, fun x s => s.when (x.has F.GLB_CTL_CHIP_RST) State.chipReset),
    (R.GLB_PMODE.id, pmodeWrite),
    (R.GLB_MCMD_CTL.id, mcmdCtlWrite),
    (R.PWR_VHTR_CFG.id, vhtrCfgWrite),
    (R.PWR_VPIC_CFG.id, vpicCfgWrite),
    (R.PWR_VHTR_ILIM.id, fun x s => (s.typed R.PWR_VHTR_ILIM x).capCheck),
    (R.PWR_HDISS_CAP.id, fun x s => (s.typed R.PWR_HDISS_CAP x).capCheck),
    (R.DPC_CFG.id, dpcCfgWrite),
    (R.DPC_VSET.id, dpcVsetWrite),
    (R.DPC_LIM.id, dpcLimWrite),
    (R.THM_TD_CFG.id, fun x => tdCfgWrite x.i x.v),
    (R.CAL_VREF.id, calRefWrite R.CAL_VREF 2490000 2510000),
    (R.CAL_RSET.id, calRefWrite R.CAL_RSET 9900000 10100000),
    (R.CAL_CMD.id, calCmdWrite),
    (R.TST_UPAT.id, fun x => upatWrite x.v),
    (R.TST_DBG.id, fun x s => s.when (x.has F.TST_DBG_RELOCK) (fun s => s.put F.TST_DBG_UNLOCKED 0)),
    (R.TST_LCFG.id, lcfgWrite),
    (R.TST_STIM_CTL.id, stimCtlWrite),
    (R.TST_OS_CTL.id, osCtlWrite),
    (R.AO_CFG.id, fun x => aoCfgWrite (1280 * x.i + x.j) x.v),
    (R.AO_DIR.id, fun x => aoDirWrite (1280 * x.i + x.j) (x.get F.AO_DIR_CODE)),
    (R.AO_STAT.id, aoStatWrite),
    (R.LE_CTL.id, leCtlWrite),
    (R.LE_DITHER.id, fun x s => (s.ditherMark x.i).typed R.LE_DITHER x),
    (R.LE_FOCUS.id, fun x => leFocusWrite x.i (x.get F.LE_FOCUS_SLOTS) (x.get F.LE_FOCUS_FCOST)),
    (R.LE_CMD.id, leCmdWrite) ]

def handler (id : Nat) : Option (Wr → State → State) :=
  ((handlers ++ handlers2 ++ handlers3).find? (fun e => e.1 = id)).map (fun e => e.2)

/-- A write of n words of one register by master m. -/
def State.writeReg (s : State) (m : Nat) (p : Place) (n v : Nat) (mem : List (List Byte × List Byte)) : State :=
  let w := p.k / 4
  let mask := wordMask w n
  let d := (BitVec.ofNat 96 v <<< (32 * w)) &&& mask
  let x : Wr := ⟨p.i, p.j, ((s.word p.reg p.i p.j &&& ~~~ mask) ||| d).toNat, d, mask, mem⟩
  let s := s.when (p.reg.bytes != 4) (fun s => s.wideWritten m p.reg p.i p.j)
  if p.reg.id = R.SEQ_DMWIN_DATA.id then dmwinAccess m p.i (if n = 2 then 0 else w + 1) true v s
  else if p.reg.id = R.CAL_TWIN_DATA.id then trimAccess true v s
  else
    match handler p.reg.id with
    | some h => h x s
    | none => s.typed p.reg x

/-- A write of one word at an address; an unused offset ignores it (R7). -/
def State.writeWord (s : State) (m a v : Nat) (mem : List (List Byte × List Byte)) : State :=
  match placeAt a with
  | some p => if m != 8 && s.cutOff p then latTimeout m 1 true a s else s.writeReg m p 1 (v % 2 ^ 32) mem
  | none => s

/-- [DEDUCED: log 142] -/
def State.writeSpace (s : State) (m a : Nat) (wide : Bool) (v : Nat) (mem : List (List Byte × List Byte)) : State :=
  if !wide then s.writeWord m a v mem
  else
    match placeAt a with
    | some p =>
      if p.k + 8 ≤ p.reg.bytes && !(m != 8 && s.cutOff p) then s.writeReg m p 2 v mem
      else (s.writeWord m a v mem).writeWord m (a + 4) (v / 2 ^ 32) mem
    | none => s.writeWord m (a + 4) (v / 2 ^ 32) mem

/-- A write of register space by a master of the Lattice (R306, R311, R312). [DEDUCED: log 146] -/
def regWrite (m a : Nat) (wide : Bool) (v : Nat) (mem : List (List Byte × List Byte)) (s : State) : State :=
  let t := regTarget a
  if s.retiring m then s
  else if !latPath m t then s.latDecode m t true a
  else (s.grant t m).writeSpace m a wide v mem

def execRegisterWrite (m : Fin 8) (addr : BitVec 24) (wide : Bool) (v : W64) (mem : List (List Byte × List Byte)) (s : State) : Out :=
  clocked s (regWrite m.val (addr.toNat / (if wide then 8 else 4) * (if wide then 8 else 4)) wide v.toNat mem)

/-! ### Widths and alignments that are not accepted (R8) -/

def badWidth (m a : Nat) (wr : Bool) (s : State) : State :=
  let t := regTarget a
  if s.retiring m then s
  else if !latPath m t then (if wr then s else { s with readData := 0 }).latDecode m t wr a
  else ((if wr then s else { s with readData := 0xFFFFFFFF }).grant t m).latDecode m t wr a

def execBadWidthAccess (m : Fin 8) (addr : BitVec 24) (wr : Bool) (s : State) : Out := clocked s (badWidth m.val addr.toNat wr)

end Sys2Proof.Machine
end

