-- ==== Sys2Proof/Machine/Pcie.lean ====
section
/-! DEFINITION. Requests from the host (12: R294 to R305, R324; 13: R348) and what they reach: registers, BAR2, MSI-X tables, the VF window; the end of a retirement (R311) and of a freeze (R349); and the IEEE 1687 network (16: R409). -/

namespace Sys2Proof.Machine

/-! ### The doorbells of a VF (R298, R299) -/

/-- A refused access to a doorbell slot counts in both views of DB_BAD. -/
def State.dbBad (s : State) (v : Nat) : State := (s.sat F.LAT_VF_STAT_DB_BAD v).sat F.LAT_VFR_STAT_DB_BAD v

/-- What word w of a slot reads as; the views clear nothing. -/
def State.slotWord (s : State) (n w : Nat) : Nat :=
  match w with
  | 0 => (s.seen R.BRS_RQ_PI n).toNat
  | 1 => (s.seen R.BRS_RQ_CI n).toNat
  | 2 => (s.seen R.BRS_CQ_PI n).toNat
  | 3 => (s.seen R.BRS_CQ_CI n).toNat
  | 4 => (s.seen R.BRS_RING_STAT n).toNat
  | 5 => (s.seen R.BRS_RING_CNT n).toNat
  | 6 => (s.seen R.BRS_RING_FQ n).toNat
  | _ => 0

/-- Slot i of VF v names a ring that is v's. -/
def State.slotOk (s : State) (v i : Nat) : Bool :=
  let n := s.g F.LAT_VF_RING_FIRST v + i
  i < min 1024 (s.g F.LAT_VF_RING_COUNT v) && n < 8192 && s.ringFn n = v

/-- An access to word w of slot i of VF v. -/
def vfSlot (v i w : Nat) (wr : Bool) (x : Nat) (s : State) : State :=
  let n := s.g F.LAT_VF_RING_FIRST v + i
  if v = 0 then s
  else if s.vfShut v then (if wr then s else { s with readData := 0xFFFFFFFF })
  else if !s.slotOk v i then (if wr then s else { s with readData := 0 }).dbBad v
  else if !wr then { s with readData := s.slotWord n w }
  else if w = 0 then rqDoorbell n x s
  else if w = 3 then cqDoorbell n x s
  else s

def execVfDoorbellAccess (v : Fn) (i : Fin 1024) (w : Fin 8) (wr : Bool) (x : W32) (s : State) : Out :=
  clocked s (vfSlot v.val i.val w.val wr x.toNat)

/-! ### MSI-X tables and PBAs (R296, R298, R301) -/

/-- The 16 bytes of an entry: address, data, vector control. -/
def MsixEnt.bytes (e : MsixEnt) : List Byte := leBytes 8 e.addr ++ leBytes 4 e.data ++ leBytes 4 (b2n e.mask)
def msixOf (bs : List Byte) : MsixEnt := ⟨leNat (bs.take 8), leNat ((bs.drop 8).take 4), bitOf (leNat ((bs.drop 12).take 4)) 0⟩

/-- [DEDUCED: log 137] -/
def State.tableByte (s : State) (f o : Nat) : Byte := if o / 16 < s.vecCount f then (s.msixEnt f (o / 16)).bytes.getD (o % 16) 0 else 0
/-- [DEDUCED: log 137] -/
def State.pbaByte (s : State) (f o : Nat) : Byte :=
  BitVec.ofNat 8 ((List.range 8).map (fun b => if s.pci.pba.contains (msixKey f (8 * o + b)) then 2 ^ b else 0)).sum

/-- Bytes are written into a table; what was pending under an entry now unmasked is sent. [DEDUCED: log 137] -/
def State.tableWrite (s : State) (f o : Nat) (bs : List Byte) : State :=
  let vs := ((List.range ((o % 16 + bs.length + 15) / 16)).map (fun i => o / 16 + i)).filter (fun v => v < s.vecCount f)
  (s.each vs (fun s v =>
    let old := (s.msixEnt f v).bytes
    let new := (List.range 16).map (fun k =>
      let a := 16 * v + k
      if o ≤ a && a < o + bs.length then bs.getD (a - o) 0 else old.getD k 0)
    s.setMsix f v (fun _ => msixOf new))).flushMsix

/-- BAR4 of the PF: its table at 0, its PBA at 0x2000. -/
def State.bar4Byte (s : State) (o : Nat) : Byte :=
  if o < 0x2000 then s.tableByte 0 o else if o < 0x2040 then s.pbaByte 0 (o - 0x2000) else 0

/-! ### Registers and BAR2 as the host reads them -/

/-- A width that register space takes (R8). [DEDUCED: log 140] -/
def goodWidth (o n : Nat) : Bool := (n = 4 && o % 4 = 0) || (n = 8 && o % 8 = 0)
def ones (n : Nat) : List Byte := List.replicate n 0xFF

/-- A read of BAR0 of the PF (R303, R310); timeout: its target does not complete it. -/
def bar0Read (o n : Nat) (timeout : Bool) (s : State) : State :=
  if !goodWidth o n then (badWidth 0 o false s).answer 0 0 false (ones n)
  else if timeout then (latTimeout 0 (regTarget o) false o s).answer 0 0 false (ones n)
  else
    let s := regRead 0 o (n = 8) s
    s.answer 0 0 false (leBytes n s.readData)

def bar0Write (o : Nat) (bs : List Byte) (mem : List (List Byte × List Byte)) (s : State) : State :=
  if goodWidth o bs.length then regWrite 0 o (bs.length = 8) (leNat bs) mem s else badWidth 0 o true s

/-- A read of BAR2 (R32): unused offsets read zero, an uncorrectable word poisons the completion. -/
def bar2Read (o n : Nat) (s : State) : State :=
  let s := s.grant (bar2Target o) 0
  let bs := (List.range n).map (fun i => if bar2Unused (o + i) then 0 else s.bar2Byte (o + i))
  let s := match (List.range n).find? (fun i => bar2Unused (o + i)) with
    | some i => s.latDecode 0 (bar2Target (o + i)) false (o + i)
    | none => s
  match s.ueIn o n with
  | some w => (s.ueRead w).answer 0 0 true bs
  | none => s.answer 0 0 false bs

/-! ### The VF window (R298, R304, R305, R324) -/

/-- Where an offset of the VF register page stands: TB_NOW0 and TB_NOW1, the mailboxes, else the VF's registers. -/
def vfPage (v o : Nat) : Nat :=
  if 0xF010 ≤ o && o < 0xF01C then 0x40010 + (o - 0xF010)
  else if 0xF020 ≤ o && o < 0xF02C then 0x40110 + (o - 0xF020)
  else if 0xF040 ≤ o && o < 0xF080 then 0x62040 + v * 0x80 + (o - 0xF040)
  else if 0xF080 ≤ o && o < 0xF0C0 then 0x62000 + v * 0x80 + (o - 0xF080)
  else 0x10000000 + v * 0x10000 + o

/-- One word of the VF's BAR0 is read, a doorbell slot or the register page. -/
def vfWordRead (v o : Nat) (s : State) : State :=
  if o < 0x8000 then vfSlot v (o / 32) (o % 32 / 4) false 0 s else s.readWord 0 (vfPage v o)

def vfWordWrite (v o x : Nat) (s : State) : State :=
  if o < 0x8000 then vfSlot v (o / 32) (o % 32 / 4) true x s
  else if 0xF040 ≤ o && o < 0xF080 then s.put F.LAT_VF_MBOUT_VAL x v ((o - 0xF040) / 4)
  else if 0xF000 ≤ o && o < 0xF010 then s.writeWord 0 (vfPage v o) x []
  else s

/-- A read of a VF's BAR0. [DEDUCED: log 140] -/
def vfRead (v o n : Nat) (timeout : Bool) (s : State) : State :=
  if s.vfShut v then s.answer v 0 false (ones n)
  else if 0x8000 ≤ o && o < 0xF000 then
    s.answer v 0 false ((List.range n).map (fun i =>
      if o + i < 0xE000 then s.tableByte v (o + i - 0x8000) else if o + i < 0xE0C0 then s.pbaByte v (o + i - 0xE000) else 0))
  else if !goodWidth o n then (badWidth 0 o false s).answer v 0 false (ones n)
  else if timeout then (latTimeout 0 0 false o s).answer v 0 false (ones n)
  else
    let s := s.grant 0 0
    if n = 4 then
      let s := vfWordRead v o s
      s.answer v 0 false (leBytes 4 s.readData)
    else if 0xF000 ≤ o then
      let s := s.readWide 0 (vfPage v o)
      s.answer v 0 false (leBytes 8 s.readData)
    else
      let lo := vfWordRead v o s
      let hi := vfWordRead v (o + 4) lo
      hi.answer v 0 false (leBytes 4 lo.readData ++ leBytes 4 hi.readData)

/-- [DEDUCED: log 140] -/
def vfWrite (v o : Nat) (bs : List Byte) (s : State) : State :=
  if s.vfShut v then s
  else if 0x8000 ≤ o && o < 0xE000 then s.tableWrite v (o - 0x8000) bs
  else if 0xE000 ≤ o && o < 0xF000 then s
  else if !goodWidth o bs.length then badWidth 0 o true s
  else
    let x := leNat bs
    let s := vfWordWrite v o (x % 2 ^ 32) (s.grant 0 0)
    if bs.length = 8 then vfWordWrite v (o + 4) (x / 2 ^ 32) s else s

/-! ### Requests (R293, R294, R303, R365) -/

/-- Whether a memory request is decoded: the function exists, its Memory Space Enable is 1 or its reset is in progress (R304), and the bytes lie in the BAR. [DEDUCED: log 135] -/
def State.decoded (s : State) (f bar o n : Nat) : Bool :=
  s.fnExists f && ((s.fn f).mse || (f != 0 && s.on F.LAT_VF_STAT_FLR_BUSY f)) && o + n ≤ barSize f bar

/-- The bit of an error in the status and severity words of AER (R302). [PRESUMED: log 238] -/
def aerBit (e : PcieErr) : Nat :=
  match e with
  | .dataLink => 4
  | .poisoned => 12
  | .timeout => 14
  | .completerAbort => 15
  | .unexpected => 16
  | .overflow => 17
  | .malformed => 18
  | .ecrc => 19
  | .unsupported => 20

/-- A word of AER: the bits of the errors of R302, the others as they stand in x. -/
def aerWord (on : PcieErr → Bool) (x : Nat) : Nat :=
  [PcieErr.dataLink, .poisoned, .timeout, .completerAbort, .unexpected, .overflow, .malformed, .ecrc, .unsupported].foldl
    (fun x e => x - bitsOf x (aerBit e) 1 * 2 ^ aerBit e + b2n (on e) * 2 ^ aerBit e) x

/-- The number of a capability and how many bits hold it (R293). [DEDUCED: log 136; PRESUMED: log 238] -/
def capIdent (k : CapId) : Nat × Nat :=
  match k with
  | .power => (8, 0x01)
  | .express => (8, 0x10)
  | .msix => (8, 0x11)
  | .aer => (16, 0x0001)
  | .serial => (16, 0x0003)
  | .ari => (16, 0x000E)
  | .sriov => (16, 0x0010)
  | .secondary => (16, 0x0019)
  | .dataLink => (16, 0x0025)
  | .phy16 => (16, 0x0026)
  | .margining => (16, 0x0027)
  | .phy32 => (16, 0x002A)

/-- Double word r of a function is word i of a capability. [DEDUCED: log 136] -/
def capWord (f r : Nat) (k : CapId) (i : Nat) : Bool := r = (Config.capAt (f = 0) k).toNat + i
/-- The capability that begins at a double word: all of R293 in the PF, and in a VF those of a function. -/
def capHead (f r : Nat) : Option CapId :=
  ((if f = 0 then [CapId.sriov, .serial, .secondary, .dataLink, .phy16, .phy32, .margining] else []) ++ [CapId.power, .express, .msix, .aer, .ari]).find? (fun k => capWord f r k 0)

/-- The words of the SR-IOV capability of the PF (R296, R297): no VF migration, its control, InitialVFs and TotalVFs, NumVFs, offset and stride, the VF Device ID, the page sizes, and the words of VF BAR0. [DEDUCED: log 136] -/
def State.sriovWord (s : State) (i : Nat) : Option Nat :=
  let c := s.fn 0
  match i with
  | 2 => some (b2n s.vfEn)
  | 3 => some (63 + 63 * 2 ^ 16)
  | 4 => some (s.g F.LAT_PCI_STAT_NUMVFS)
  | 5 => some (1 + 2 ^ 16)
  | 6 => some (0x5121 * 2 ^ 16)
  | 7 => some 0x1F
  | 8 => some (2 ^ c.page)
  | 9 => some (c.vfBarWord 0)
  | 10 => some (c.vfBarWord 1)
  | 11 => some 0
  | 12 => some 0
  | 13 => some 0
  | 14 => some 0
  | 15 => some 0
  | _ => none

/-- The double words of configuration space that the spec gives a value: the identity and the Interrupt Pin (R293, R294), the BAR words (R296), and, where the part has placed them, the words of the Device Serial Number, SR-IOV (R297) and MSI-X (R296, R300) capabilities. [DEDUCED: log 136; PRESUMED: log 238] -/
def State.cfgWord (s : State) (f r : Nat) : Option Nat :=
  let c := s.fn f
  let sriov := (Config.capAt true .sriov).toNat
  if r = 0 then some ((if f = 0 then 0x5120 else 0x5121) * 2 ^ 16 + 0xC5D2)
  else if r = 2 then some 0x118000B0
  else if 4 ≤ r && r < 10 then some (c.barWord f (r - 4))
  else if r = 11 then some 0x0001C5D2
  else if capWord f r .serial 1 then some (Config.devId.toNat % 2 ^ 32)
  else if capWord f r .serial 2 then some (Config.devId.toNat / 2 ^ 32)
  else if f = 0 && sriov + 2 ≤ r && r < sriov + 16 then s.sriovWord (r - sriov)
  else if capWord f r .msix 1 then some (if f = 0 then 4 else 0x8000)
  else if capWord f r .msix 2 then some (if f = 0 then 0x2004 else 0xE000)
  else none

/-- Bits v of width w at place lo of a double word x. -/
def cfgBits (lo w v x : Nat) : Nat := x - bitsOf x lo w * 2 ^ lo + v % 2 ^ w * 2 ^ lo

/-- The words of the PCI Express capability (R293, R294, R302), of which the spec gives some bits: the payload size and, in a VF, Function Level Reset; the sizes in force; speed and width of the link, without ASPM; speed and width in force; Completion Timeout ranges A to D and 10-bit tags, without AtomicOps, LTR and TPH; the Completion Timeout Value; the link speeds. [DEDUCED: log 136] -/
def State.expressWord (s : State) (f i x : Nat) : Nat :=
  let c := s.fn f
  match i with
  | 0 => cfgBits 0 8 0x10 x
  | 1 => cfgBits 0 3 2 (cfgBits 28 1 (b2n (f != 0)) x)
  | 2 => cfgBits 5 3 (c.mps / 128 / 2) (cfgBits 12 3 (Nat.log2 (c.mrrs / 128)) x)
  | 3 => cfgBits 0 4 5 (cfgBits 4 6 8 (cfgBits 10 2 0 x))
  | 4 => cfgBits 16 4 (s.g F.LAT_PCI_STAT_SPEED) (cfgBits 20 6 (s.g F.LAT_PCI_STAT_WIDTH) x)
  | 9 => cfgBits 0 4 15 (cfgBits 7 3 0 (cfgBits 11 3 0 (cfgBits 16 2 3 x)))
  | 10 => cfgBits 0 4 c.cto x
  | 11 => cfgBits 1 7 0x1F x
  | _ => x

/-- The words of AER (R302): status, mask, severity, the correctable errors, and ECRC generation and checking. -/
def FnCfg.aerReg (c : FnCfg) (i x : Nat) : Nat :=
  match i with
  | 0 => cfgBits 0 16 1 x
  | 1 => aerWord (fun e => c.aer.contains e) x
  | 2 => aerWord (fun e => c.aerMasked.contains e) x
  | 3 => aerWord c.fatal x
  | 4 => if c.aerCor then x else 0
  | 6 => cfgBits 5 4 (1 + 2 * b2n c.ecrcGen + 4 + 8 * b2n c.ecrcChk) x
  | _ => x

/-- A double word as it is read: the bits of a word that the spec gives only in part stand beside free ones (log entry 6): Command, Interrupt Pin, Table Size with the bits of MSI-X, PCI Express, AER, SR-IOV's VF Migration, ARI without a next function, the power state, and the numbers of the capabilities. [DEDUCED: log 136; PRESUMED: log 238] -/
def State.cfgRead (s : State) (f r : Nat) : State × Nat :=
  let c := s.fn f
  let x := getField s.fresh 0 32
  let express := (Config.capAt (f = 0) .express).toNat
  let aer := (Config.capAt (f = 0) .aer).toNat
  match s.cfgWord f r with
  | some v => (s, v)
  | none =>
    (s.bump,
      if r = 1 then cfgBits 1 2 (b2n c.mse + 2 * b2n c.bme) x
      else if r = 15 then cfgBits 8 8 0 x
      else if capWord f r .msix 0 then cfgBits 0 8 0x11 (cfgBits 16 11 (s.vecCount f - 1) (cfgBits 30 2 (b2n c.fmask + 2 * b2n c.msixEn) x))
      else if express ≤ r && r < express + 12 then s.expressWord f (r - express) x
      else if aer ≤ r && r < aer + 7 then c.aerReg (r - aer) x
      else if f = 0 && capWord f r .sriov 1 then cfgBits 0 1 0 x
      else if capWord f r .ari 1 then cfgBits 0 16 0 x
      else if capWord f r .power 1 then cfgBits 0 2 (if c.d3 then 3 else 0) x
      else match capHead f r with
        | some k => cfgBits 0 (capIdent k).1 (capIdent k).2 x
        | none => x)

/-- A request that reaches the device is carried out. [DEDUCED: log 132, 159] -/
def serve (f : Nat) (r : PcieReq) (s : State) : State :=
  match r with
  | .atomic => s.unsupported f false
  | .io => s.unsupported f false
  | .outside posted => s.unsupported f posted
  | .config reg =>
    if s.fnExists f then
      let x := s.cfgRead f reg.toNat
      x.1.answer f 0 false (leBytes 4 x.2)
    else s.unsupported f false
  | .configWrite x => pcieConfigWrite f x s
  | .error e => s.uncorr (if s.fnExists f then f else 0) e
  | .correctable => s.updFn f (fun c => { c with aerCor := true })
  | .read bar o n timeout =>
    if !s.decoded f bar.val o.toNat n.val then s.unsupported f false
    else if f != 0 then vfRead f o.toNat n.val timeout s
    else if bar = 0 then bar0Read o.toNat n.val timeout s
    else if bar = 2 then bar2Read o.toNat n.val s
    else s.answer 0 0 false ((List.range n.val).map (fun i => s.bar4Byte (o.toNat + i)))
  | .write bar o data poisoned mem =>
    if !s.decoded f bar.val o.toNat data.length then s.unsupported f true
    else if poisoned then s.uncorr f .poisoned
    else if f != 0 then vfWrite f o.toNat data s
    else if bar = 0 then bar0Write o.toNat data mem s
    else if bar = 2 then s.bar2Write 0 o.toNat data
    else if o.toNat < 0x2000 then s.tableWrite 0 o.toNat data
    else s

/-- Requests are answered fully from the end of boot step 2 on (R365). [DEDUCED: log 138] -/
def State.earlyBoot (s : State) : Bool := s.mode = 2 && s.g F.GLB_BOOT_STAT_STEP ≤ 2

/-- A request arrives: kept in order during a freeze (R348) and while the inbound port retires (R311). [DEDUCED: log 132, 135, 138, 159] -/
def receive (f : Nat) (r : PcieReq) (s : State) : State :=
  if !s.pci.linkUp then s
  else if s.clk = .frozen || (s.clk = .running && s.retiring 0) then { s with pci.inq := s.pci.inq ++ [(f, r)] }
  else if s.clk != .running then s
  else if s.earlyBoot then
    match r with
    | .config _ | .configWrite _ => s.answer f 2 false []
    | _ => s
  else serve f r s

def execPcieRequest (f : Fn) (r : PcieReq) (s : State) : Out := fin (receive f.val r s)

/-- A configuration write is a request like the others (R303, R348). -/
def execPcieConfigWrite (f : Fn) (x : CfgItem) (s : State) : Out := fin (receive f.val (.configWrite x) s)

/-- The requests that waited are carried out in order of arrival. -/
def State.drainIn (s : State) : State :=
  let q := s.pci.inq
  { s with pci.inq := [] }.each q (fun s e => receive e.1 e.2 s)

/-! ### The end of a retirement and of a freeze (R311, R348, R349) -/

/-- A master's port accepts requests again. [DESIGN CHOICE: log 123] -/
def retireDone (m : Nat) (s : State) : State :=
  let s := s.put F.LAT_STAT_RETIRE (clrBit (s.g F.LAT_STAT_RETIRE) m)
  if m = 0 then s.drainIn else s

def execRetireDone (m : Fin 8) (s : State) : Out := clocked s (retireDone m.val)

/-- The clocks restart, and what the endpoint has kept is processed. [DEDUCED: log 159] -/
def thawAll (s : State) : State :=
  let t := thaw s
  if s.clk = .frozen && t.clk = .running then t.thawPins.thawLink.drainIn else t

def execThaw (s : State) : Out := fin (thawAll s)

/-! ### The IEEE 1687 network (R409) -/

/-- The TST registers (R410). [DEDUCED: log 200] -/
def testAddr (a : Nat) : Bool :=
  (0xA0000 ≤ a && a < 0xB0000) || (0x400000 ≤ a && a < 0x800000 && 0x8000 ≤ a % 0x40000 && a % 0x40000 < 0x10000)
def alignTo (n a : Nat) : Nat := a / n * n
def aligned (a : BitVec 24) (wide : Bool) : Nat := alignTo (if wide then 8 else 4) a.toNat

/-- A register of a thread. [DEDUCED: log 200] -/
def State.thrReg (s : State) (m h : Nat) (r : ThrReg) : Nat :=
  match r with
  | .g n => ((s.th m h).gr n.val).toNat
  | .t n => ((s.th m h).tr n.val).toNat
  | .scr n => (s.scrRead m h n.toNat).getD 0

/-- [DEDUCED: log 200] -/
def jtagRead (s : State) (v : Nat) : State := { s with readData := v }

/-- While the clocks run, a target grants the test controller (R306, R309). -/
def State.testGrant (s : State) (t : Nat) : State := s.when (s.clk = .running) (fun s => s.grant t 7)
/-- Nothing stands behind a BAR2 offset: an access of the test controller is refused (R312). [DESIGN CHOICE: log 246] -/
def State.testGap (s : State) (a : Nat) (wr : Bool) : State := s.when (s.clk = .running && bar2Unused a) (fun s => s.latDecode 7 (bar2Target a) wr a)

/-- An access of an instrument. Writes act only while the clocks run; the pipelines of the Loop Engines are free values (log entry 6). [DEDUCED: log 200] -/
def jtag (x : JtagOp) (s : State) : State :=
  let runs := s.clk = .running
  match x with
  | .clearHold => s.put F.FLT_FRZ_CTL_HOLD 0
  | .freezeTimer => jtagRead s (s.flt.frozen * 5 / 32)
  | .regRead a wide => (s.testGrant (regTarget a.toNat)).readSpace 8 (aligned a wide) wide
  | .regWrite a wide v mem => s.when runs (fun s => (s.testGrant (regTarget a.toNat)).writeSpace 8 (aligned a wide) wide v.toNat mem)
  | .memRead a =>
    let s := (s.testGrant (bar2Target a.toNat)).testGap a.toNat false
    let s := match s.ueIn a.toNat 1 with
      | some w => s.when runs (fun s => s.ueRead w)
      | none => s
    jtagRead s (if bar2Unused a.toNat then 0 else (s.bar2Byte a.toNat).toNat)
  | .memWrite a b => s.when runs (fun s =>
      let s := (s.testGrant (bar2Target a.toNat)).testGap a.toNat true
      s.when (!bar2Unused a.toNat) (fun s => s.bar2Put 7 a.toNat [b]))
  | .thread m h r => jtagRead s (s.thrReg m.val h.val r)
  | .engine _ _ _ => jtagRead s.bump (getField s.fresh 0 64)
  | .testRead a wide => if testAddr a.toNat then (s.testGrant (regTarget a.toNat)).readSpace 8 (aligned a wide) wide else s
  | .testWrite a wide v => s.when (runs && testAddr a.toNat) (fun s => (s.testGrant (regTarget a.toNat)).writeSpace 8 (aligned a wide) wide v.toNat [])

def execIjtagAccess (x : JtagOp) (s : State) : Out :=
  if s.clk = .off || !s.unlocked || s.tst.ir != 0x10 then .next s else fin (jtag x s)

end Sys2Proof.Machine
end

