-- ==== Sys2Proof/Machine/Dispatch.lean ====
section
/-! DEFINITION. One arm for each command: the meaning that the command has. -/

namespace Sys2Proof.Machine

def exec (i : Instr) (s : State) : Host.Outcome State Fault Refusal :=
  match i with
  | .registerWrite m addr wide v mem => Sys2Proof.Machine.execRegisterWrite m addr wide v mem s
  | .reg64LatchRead m addr wide => Sys2Proof.Machine.execReg64LatchRead m addr wide s
  | .badWidthAccess m addr wr => Sys2Proof.Machine.execBadWidthAccess m addr wr s
  | .tilePowerUp t => Sys2Proof.Machine.execTilePowerUp t s
  | .tileLinkCrcFail t => Sys2Proof.Machine.execTileLinkCrcFail t s
  | .tileLinkRetry t good => Sys2Proof.Machine.execTileLinkRetry t good s
  | .tileWatchdogExpiry t => Sys2Proof.Machine.execTileWatchdogExpiry t s
  | .tileLinkTrained t => Sys2Proof.Machine.execTileLinkTrained t s
  | .clkLoss why => Sys2Proof.Machine.execClkLoss why s
  | .clkLossReset => Sys2Proof.Machine.execClkLossReset s
  | .aoCfgWrite a v => Sys2Proof.Machine.execAoCfgWrite a v s
  | .aoDirWrite a code => Sys2Proof.Machine.execAoDirWrite a code s
  | .limitQualified a => Sys2Proof.Machine.execLimitQualified a s
  | .sadcConversion t reading aux lim => Sys2Proof.Machine.execSadcConversion t reading aux lim s
  | .faultRelease a => Sys2Proof.Machine.execFaultRelease a s
  | .loopOutputArrival => Sys2Proof.Machine.execLoopOutputArrival s
  | .commitStrobe p => Sys2Proof.Machine.execCommitStrobe p s
  | .miCfgWrite m v => Sys2Proof.Machine.execMiCfgWrite m v s
  | .madcSample t d code sat => Sys2Proof.Machine.execMadcSample t d code sat s
  | .sampleForwardArrival => Sys2Proof.Machine.execSampleForwardArrival s
  | .fwdTokenRefill t b => Sys2Proof.Machine.execFwdTokenRefill t b s
  | .sqCopyArrival => Sys2Proof.Machine.execSqCopyArrival s
  | .sqRdWrite q v => Sys2Proof.Machine.execSqRdWrite q v s
  | .sqClr q => Sys2Proof.Machine.execSqClr q s
  | .miBiasWrite t code => Sys2Proof.Machine.execMiBiasWrite t code s
  | .biasRampDone t ibias => Sys2Proof.Machine.execBiasRampDone t ibias s
  | .biasOverload t => Sys2Proof.Machine.execBiasOverload t s
  | .scanCtlWrite t d v => Sys2Proof.Machine.execScanCtlWrite t d v s
  | .scanTimerTick t d => Sys2Proof.Machine.execScanTimerTick t d s
  | .scanCommitDelayExpiry t d => Sys2Proof.Machine.execScanCommitDelayExpiry t d s
  | .scanPassEnd t d => Sys2Proof.Machine.execScanPassEnd t d s
  | .focusExpiry t d => Sys2Proof.Machine.execFocusExpiry t d s
  | .loopUpdate a => Sys2Proof.Machine.execLoopUpdate a s
  | .loopTick a => Sys2Proof.Machine.execLoopTick a s
  | .commitUpdate a => Sys2Proof.Machine.execCommitUpdate a s
  | .contextWrite bank a off bs => Sys2Proof.Machine.execContextWrite bank a off bs s
  | .leRestart a => Sys2Proof.Machine.execLeRestart a s
  | .leHold a => Sys2Proof.Machine.execLeHold a s
  | .leRelease a => Sys2Proof.Machine.execLeRelease a s
  | .leFocusWrite t slots fcost => Sys2Proof.Machine.execLeFocusWrite t slots fcost s
  | .mapStoreWrite off bs => Sys2Proof.Machine.execMapStoreWrite off bs s
  | .stateMirrorApply => Sys2Proof.Machine.execStateMirrorApply s
  | .rtuLoad p => Sys2Proof.Machine.execRtuLoad p s
  | .rtuLoadDone p => Sys2Proof.Machine.execRtuLoadDone p s
  | .rtuPlanClr p => Sys2Proof.Machine.execRtuPlanClr p s
  | .rtuCacheClr p => Sys2Proof.Machine.execRtuCacheClr p s
  | .routeJobStart => Sys2Proof.Machine.execRouteJobStart s
  | .routeJobDone bad => Sys2Proof.Machine.execRouteJobDone bad s
  | .stagingWord t => Sys2Proof.Machine.execStagingWord t s
  | .stageBurstAck t => Sys2Proof.Machine.execStageBurstAck t s
  | .cacheFill t => Sys2Proof.Machine.execCacheFill t s
  | .cacheLoad t => Sys2Proof.Machine.execCacheLoad t s
  | .armMessage p t => Sys2Proof.Machine.execArmMessage p t s
  | .armReply p t loads pw => Sys2Proof.Machine.execArmReply p t loads pw s
  | .cancelDeadline p => Sys2Proof.Machine.execCancelDeadline p s
  | .cancelMessage p t => Sys2Proof.Machine.execCancelMessage p t s
  | .commitReport p t => Sys2Proof.Machine.execCommitReport p t s
  | .commitClose p => Sys2Proof.Machine.execCommitClose p s
  | .rotCtlGo p => Sys2Proof.Machine.execRotCtlGo p s
  | .rotCtlStop p => Sys2Proof.Machine.execRotCtlStop p s
  | .rotCtlStopNow p => Sys2Proof.Machine.execRotCtlStopNow p s
  | .rotCtlSwap p => Sys2Proof.Machine.execRotCtlSwap p s
  | .rotCtlSwapCancel p => Sys2Proof.Machine.execRotCtlSwapCancel p s
  | .rotorBufWrite p b w v => Sys2Proof.Machine.execRotorBufWrite p b w v s
  | .rotCfgWrite p v => Sys2Proof.Machine.execRotCfgWrite p v s
  | .rotorSlotLoad p => Sys2Proof.Machine.execRotorSlotLoad p s
  | .rotorSkipCheck p loads pw => Sys2Proof.Machine.execRotorSkipCheck p loads pw s
  | .rotorSyncEdge p => Sys2Proof.Machine.execRotorSyncEdge p s
  | .syncLost p => Sys2Proof.Machine.execSyncLost p s
  | .learnWindowOpen p => Sys2Proof.Machine.execLearnWindowOpen p s
  | .learnWindowClose p => Sys2Proof.Machine.execLearnWindowClose p s
  | .lrnWrite p v => Sys2Proof.Machine.execLrnWrite p v s
  | .learnClr p => Sys2Proof.Machine.execLearnClr p s
  | .learnClrDone p => Sys2Proof.Machine.execLearnClrDone p s
  | .repTableWrite a off bs => Sys2Proof.Machine.execRepTableWrite a off bs s
  | .add h => Sys2Proof.Machine.execAdd h s
  | .sub h => Sys2Proof.Machine.execSub h s
  | .and h => Sys2Proof.Machine.execAnd h s
  | .or h => Sys2Proof.Machine.execOr h s
  | .xor h => Sys2Proof.Machine.execXor h s
  | .shl h => Sys2Proof.Machine.execShl h s
  | .shr h => Sys2Proof.Machine.execShr h s
  | .sar h => Sys2Proof.Machine.execSar h s
  | .mul h => Sys2Proof.Machine.execMul h s
  | .min h => Sys2Proof.Machine.execMin h s
  | .max h => Sys2Proof.Machine.execMax h s
  | .cmp h => Sys2Proof.Machine.execCmp h s
  | .addi h => Sys2Proof.Machine.execAddi h s
  | .andi h => Sys2Proof.Machine.execAndi h s
  | .ori h => Sys2Proof.Machine.execOri h s
  | .lui h => Sys2Proof.Machine.execLui h s
  | .ld8 h => Sys2Proof.Machine.execLd8 h s
  | .ld16 h => Sys2Proof.Machine.execLd16 h s
  | .ld32 h => Sys2Proof.Machine.execLd32 h s
  | .ld64 h => Sys2Proof.Machine.execLd64 h s
  | .st8 h => Sys2Proof.Machine.execSt8 h s
  | .st16 h => Sys2Proof.Machine.execSt16 h s
  | .st32 h => Sys2Proof.Machine.execSt32 h s
  | .st64 h => Sys2Proof.Machine.execSt64 h s
  | .br h => Sys2Proof.Machine.execBr h s
  | .jal h => Sys2Proof.Machine.execJal h s
  | .jr h => Sys2Proof.Machine.execJr h s
  | .jrE h upcOk => Sys2Proof.Machine.execJrE h upcOk s
  | .trap h => Sys2Proof.Machine.execTrap h s
  | .fenceM h => Sys2Proof.Machine.execFenceM h s
  | .scrr h => Sys2Proof.Machine.execScrr h s
  | .scrw h => Sys2Proof.Machine.execScrw h s
  | .halt h => Sys2Proof.Machine.execHalt h s
  | .nop h => Sys2Proof.Machine.execNop h s
  | .timegetNow h => Sys2Proof.Machine.execTimegetNow h s
  | .timegetSec h => Sys2Proof.Machine.execTimegetSec h s
  | .timegetNs h => Sys2Proof.Machine.execTimegetNs h s
  | .timegetFrac h => Sys2Proof.Machine.execTimegetFrac h s
  | .timegetTbn h => Sys2Proof.Machine.execTimegetTbn h s
  | .timegetDiff h => Sys2Proof.Machine.execTimegetDiff h s
  | .timeadd h => Sys2Proof.Machine.execTimeadd h s
  | .timeaddSet h => Sys2Proof.Machine.execTimeaddSet h s
  | .timeaddMov h => Sys2Proof.Machine.execTimeaddMov h s
  | .timeaddCmp h => Sys2Proof.Machine.execTimeaddCmp h s
  | .timeaddRound h => Sys2Proof.Machine.execTimeaddRound h s
  | .waitt h => Sys2Proof.Machine.execWaitt h s
  | .waittWake h => Sys2Proof.Machine.execWaittWake h s
  | .waite h => Sys2Proof.Machine.execWaite h s
  | .waiteWake h => Sys2Proof.Machine.execWaiteWake h s
  | .evraise h => Sys2Proof.Machine.execEvraise h s
  | .trace h => Sys2Proof.Machine.execTrace h s
  | .eventEntry h => Sys2Proof.Machine.execEventEntry h s
  | .d2Instruction h e => Sys2Proof.Machine.execD2Instruction h e s
  | .d2MicroTrap h upc step ut tt => Sys2Proof.Machine.execD2MicroTrap h upc step ut tt s
  | .threadStart h => Sys2Proof.Machine.execThreadStart h s
  | .threadStop h => Sys2Proof.Machine.execThreadStop h s
  | .threadRedirect h => Sys2Proof.Machine.execThreadRedirect h s
  | .psWrite off bs => Sys2Proof.Machine.execPsWrite off bs s
  | .dmwinDataAccess m part wr v => Sys2Proof.Machine.execDmwinDataAccess m part wr v s
  | .thrCodeWrite h new v => Sys2Proof.Machine.execThrCodeWrite h new v s
  | .admitPop h => Sys2Proof.Machine.execAdmitPop h s
  | .admitPopWake h => Sys2Proof.Machine.execAdmitPopWake h s
  | .cplPost h => Sys2Proof.Machine.execCplPost h s
  | .cplPostDefer h => Sys2Proof.Machine.execCplPostDefer h s
  | .route h => Sys2Proof.Machine.execRoute h s
  | .routeWait h => Sys2Proof.Machine.execRouteWait h s
  | .routeWaitWake h => Sys2Proof.Machine.execRouteWaitWake h s
  | .permLoad h => Sys2Proof.Machine.execPermLoad h s
  | .planClr h => Sys2Proof.Machine.execPlanClr h s
  | .planClrLast h => Sys2Proof.Machine.execPlanClrLast h s
  | .shSet h => Sys2Proof.Machine.execShSet h s
  | .shList h => Sys2Proof.Machine.execShList h s
  | .stage h => Sys2Proof.Machine.execStage h s
  | .stageFill h => Sys2Proof.Machine.execStageFill h s
  | .stageCache h => Sys2Proof.Machine.execStageCache h s
  | .arm h => Sys2Proof.Machine.execArm h s
  | .armResume h => Sys2Proof.Machine.execArmResume h s
  | .commitWait h => Sys2Proof.Machine.execCommitWait h s
  | .commitWaitWake h => Sys2Proof.Machine.execCommitWaitWake h s
  | .abort h => Sys2Proof.Machine.execAbort h s
  | .abortWake h => Sys2Proof.Machine.execAbortWake h s
  | .lawSet h => Sys2Proof.Machine.execLawSet h s
  | .leBar h => Sys2Proof.Machine.execLeBar h s
  | .leBarWake h => Sys2Proof.Machine.execLeBarWake h s
  | .partMode h => Sys2Proof.Machine.execPartMode h s
  | .fenceP h => Sys2Proof.Machine.execFenceP h s
  | .unfenceP h => Sys2Proof.Machine.execUnfenceP h s
  | .sampFocus h => Sys2Proof.Machine.execSampFocus h s
  | .sampFocusEn h => Sys2Proof.Machine.execSampFocusEn h s
  | .budgetChk h => Sys2Proof.Machine.execBudgetChk h s
  | .rotorLoad h => Sys2Proof.Machine.execRotorLoad h s
  | .rotorGo h => Sys2Proof.Machine.execRotorGo h s
  | .rotorStop h => Sys2Proof.Machine.execRotorStop h s
  | .rotorStopWake h => Sys2Proof.Machine.execRotorStopWake h s
  | .rqDoorbell n v => Sys2Proof.Machine.execRqDoorbell n v s
  | .cqDoorbell n v => Sys2Proof.Machine.execCqDoorbell n v s
  | .ringFetchIssue n => Sys2Proof.Machine.execRingFetchIssue n s
  | .entryArrival n k bs => Sys2Proof.Machine.execEntryArrival n k bs s
  | .ringFetchError n x => Sys2Proof.Machine.execRingFetchError n x s
  | .meterRefill => Sys2Proof.Machine.execMeterRefill s
  | .admitStep p => Sys2Proof.Machine.execAdmitStep p s
  | .budgetRenewal p => Sys2Proof.Machine.execBudgetRenewal p s
  | .xpPayloadFetch p => Sys2Proof.Machine.execXpPayloadFetch p s
  | .xpPayloadWritten p err bs => Sys2Proof.Machine.execXpPayloadWritten p err bs s
  | .itrHoldoffExpiry n => Sys2Proof.Machine.execItrHoldoffExpiry n s
  | .ringEnWrite n v => Sys2Proof.Machine.execRingEnWrite n v s
  | .ringInit n v => Sys2Proof.Machine.execRingInit n v s
  | .ringDrain n => Sys2Proof.Machine.execRingDrain n s
  | .ringDrainDone n => Sys2Proof.Machine.execRingDrainDone n s
  | .ringCfgWrite n w x => Sys2Proof.Machine.execRingCfgWrite n w x s
  | .portEnable p v => Sys2Proof.Machine.execPortEnable p v s
  | .mprofWrite n w v => Sys2Proof.Machine.execMprofWrite n w v s
  | .sprofWrite n w v => Sys2Proof.Machine.execSprofWrite n w v s
  | .svcCfgWrite v x => Sys2Proof.Machine.execSvcCfgWrite v x s
  | .schedFrame => Sys2Proof.Machine.execSchedFrame s
  | .leaseRenewal x m => Sys2Proof.Machine.execLeaseRenewal x m s
  | .leaseExpiry x => Sys2Proof.Machine.execLeaseExpiry x s
  | .leaseMove x => Sys2Proof.Machine.execLeaseMove x s
  | .handover x => Sys2Proof.Machine.execHandover x s
  | .memberRestart x m => Sys2Proof.Machine.execMemberRestart x m s
  | .patchLoadDone x m code g => Sys2Proof.Machine.execPatchLoadDone x m code g s
  | .selftestDone x m ok cls ua => Sys2Proof.Machine.execSelftestDone x m ok cls ua s
  | .resyncDone x m => Sys2Proof.Machine.execResyncDone x m s
  | .digestCompare x other => Sys2Proof.Machine.execDigestCompare x other s
  | .digestTimeout x => Sys2Proof.Machine.execDigestTimeout x s
  | .diagDone x hf sf => Sys2Proof.Machine.execDiagDone x hf sf s
  | .selftestSweepDone x m ok cls ua => Sys2Proof.Machine.execSelftestSweepDone x m ok cls ua s
  | .machineCheck x m e ua => Sys2Proof.Machine.execMachineCheck x m e ua s
  | .tbIncWrite b x => Sys2Proof.Machine.execTbIncWrite b x s
  | .tbIncApply b => Sys2Proof.Machine.execTbIncApply b s
  | .step b => Sys2Proof.Machine.execStep b s
  | .stepOff b => Sys2Proof.Machine.execStepOff b s
  | .tbStepApply b => Sys2Proof.Machine.execTbStepApply b s
  | .amort b => Sys2Proof.Machine.execAmort b s
  | .amortStartApply b => Sys2Proof.Machine.execAmortStartApply b s
  | .amortDone b => Sys2Proof.Machine.execAmortDone b s
  | .amortStop b => Sys2Proof.Machine.execAmortStop b s
  | .amortStopApply b => Sys2Proof.Machine.execAmortStopApply b s
  | .replicaRealign t x => Sys2Proof.Machine.execReplicaRealign t x s
  | .tpoLoad n => Sys2Proof.Machine.execTpoLoad n s
  | .tpoEdge n => Sys2Proof.Machine.execTpoEdge n s
  | .tciEdge n falling e => Sys2Proof.Machine.execTciEdge n falling e s
  | .tciTsRead n m wide => Sys2Proof.Machine.execTciTsRead n m wide s
  | .tciClr n => Sys2Proof.Machine.execTciClr n s
  | .syncInEdge rising e => Sys2Proof.Machine.execSyncInEdge rising e s
  | .spCfgWrite p v => Sys2Proof.Machine.execSpCfgWrite p v s
  | .spLinkLoss p => Sys2Proof.Machine.execSpLinkLoss p s
  | .spFrameRx p bs fcs k => Sys2Proof.Machine.execSpFrameRx p bs fcs k s
  | .spFrameTx p k => Sys2Proof.Machine.execSpFrameTx p k s
  | .spTxrDoorbell p v fr => Sys2Proof.Machine.execSpTxrDoorbell p v fr s
  | .spRxrDoorbell p v bufs => Sys2Proof.Machine.execSpRxrDoorbell p v bufs s
  | .spFrInit p v => Sys2Proof.Machine.execSpFrInit p v s
  | .spTsqRead p m wide => Sys2Proof.Machine.execSpTsqRead p m wide s
  | .spTcEnable en => Sys2Proof.Machine.execSpTcEnable en s
  | .forwardReady p => Sys2Proof.Machine.execForwardReady p s
  | .pcieLinkDown => Sys2Proof.Machine.execPcieLinkDown s
  | .pcieConfigWrite f x => Sys2Proof.Machine.execPcieConfigWrite f x s
  | .pcieRequest f r => Sys2Proof.Machine.execPcieRequest f r s
  | .vfDoorbellAccess v k w wr x => Sys2Proof.Machine.execVfDoorbellAccess v k w wr x s
  | .vfFlr v => Sys2Proof.Machine.execVfFlr v s
  | .vfFlrDone v => Sys2Proof.Machine.execVfFlrDone v s
  | .vfRingWrite v w => Sys2Proof.Machine.execVfRingWrite v w s
  | .vfVecWrite v w => Sys2Proof.Machine.execVfVecWrite v w s
  | .msixSend f v => Sys2Proof.Machine.execMsixSend f v s
  | .msixUnmask f v => Sys2Proof.Machine.execMsixUnmask f v s
  | .vfMboxSend v => Sys2Proof.Machine.execVfMboxSend v s
  | .pfMboxSend v => Sys2Proof.Machine.execPfMboxSend v s
  | .latStarvePromote t heads => Sys2Proof.Machine.execLatStarvePromote t heads s
  | .latTimeoutExpiry m t wr x => Sys2Proof.Machine.execLatTimeoutExpiry m t wr x s
  | .latDecodeError m t wr x => Sys2Proof.Machine.execLatDecodeError m t wr x s
  | .masterReset m => Sys2Proof.Machine.execMasterReset m s
  | .retireDone m => Sys2Proof.Machine.execRetireDone m s
  | .dmaStart c => Sys2Proof.Machine.execDmaStart c s
  | .dmaChainStart c => Sys2Proof.Machine.execDmaChainStart c s
  | .dmaChainKick c => Sys2Proof.Machine.execDmaChainKick c s
  | .dmaAbort c n host => Sys2Proof.Machine.execDmaAbort c n host s
  | .dmaClear c => Sys2Proof.Machine.execDmaClear c s
  | .dmaFetchDone c host => Sys2Proof.Machine.execDmaFetchDone c host s
  | .dmaDescDone c host => Sys2Proof.Machine.execDmaDescDone c host s
  | .dmaError c e n host => Sys2Proof.Machine.execDmaError c e n host s
  | .chordOccurrence => Sys2Proof.Machine.execChordOccurrence s
  | .evtRaise c => Sys2Proof.Machine.execEvtRaise c s
  | .evinEdge k level => Sys2Proof.Machine.execEvinEdge k level s
  | .evoutPulseEnd k => Sys2Proof.Machine.execEvoutPulseEnd k s
  | .evtChWrite c v => Sys2Proof.Machine.execEvtChWrite c v s
  | .faultRaise n info => Sys2Proof.Machine.execFaultRaise n info s
  | .fltStatClear x => Sys2Proof.Machine.execFltStatClear x s
  | .fltFirstClear => Sys2Proof.Machine.execFltFirstClear s
  | .fltSoft mask => Sys2Proof.Machine.execFltSoft mask s
  | .ceWindowEnd store n => Sys2Proof.Machine.execCeWindowEnd store n s
  | .nmiResponse => Sys2Proof.Machine.execNmiResponse s
  | .fltFence region idx => Sys2Proof.Machine.execFltFence region idx s
  | .fenceTakeEffect => Sys2Proof.Machine.execFenceTakeEffect s
  | .fltUnfence region idx => Sys2Proof.Machine.execFltUnfence region idx s
  | .resumeDone region idx => Sys2Proof.Machine.execResumeDone region idx s
  | .resumeStepTimeout region idx => Sys2Proof.Machine.execResumeStepTimeout region idx s
  | .freezeRequest src => Sys2Proof.Machine.execFreezeRequest src s
  | .freezePinRise => Sys2Proof.Machine.execFreezePinRise s
  | .thaw => Sys2Proof.Machine.execThaw s
  | .pwrReqRise ms => Sys2Proof.Machine.execPwrReqRise ms s
  | .railPowerGood r v k => Sys2Proof.Machine.execRailPowerGood r v k s
  | .pwrupStepTimeout => Sys2Proof.Machine.execPwrupStepTimeout s
  | .pwrReqFall => Sys2Proof.Machine.execPwrReqFall s
  | .vstbyLow => Sys2Proof.Machine.execVstbyLow s
  | .vstbyBrownout => Sys2Proof.Machine.execVstbyBrownout s
  | .powerDownDone => Sys2Proof.Machine.execPowerDownDone s
  | .railFault r kind v k => Sys2Proof.Machine.execRailFault r kind v k s
  | .railRestart n => Sys2Proof.Machine.execRailRestart n s
  | .dpcVset0Write v => Sys2Proof.Machine.execDpcVset0Write v s
  | .avsUpdate k => Sys2Proof.Machine.execAvsUpdate k s
  | .vhtrDemandReport t loads v itot ph => Sys2Proof.Machine.execVhtrDemandReport t loads v itot ph s
  | .capExceedTimeout itot ph => Sys2Proof.Machine.execCapExceedTimeout itot ph s
  | .bootStepDone ok => Sys2Proof.Machine.execBootStepDone ok s
  | .park slot => Sys2Proof.Machine.execPark slot s
  | .resume slot => Sys2Proof.Machine.execResume slot s
  | .safe slot => Sys2Proof.Machine.execSafe slot s
  | .shutdown slot => Sys2Proof.Machine.execShutdown slot s
  | .testEnter slot => Sys2Proof.Machine.execTestEnter slot s
  | .carafeWrite slot data retries bad => Sys2Proof.Machine.execCarafeWrite slot data retries bad s
  | .patchArbCommit slot => Sys2Proof.Machine.execPatchArbCommit slot s
  | .logRead slot => Sys2Proof.Machine.execLogRead slot s
  | .flashRead slot => Sys2Proof.Machine.execFlashRead slot s
  | .flashWrite slot data got => Sys2Proof.Machine.execFlashWrite slot data got s
  | .mcmdComplete slot => Sys2Proof.Machine.execMcmdComplete slot s
  | .chipReset => Sys2Proof.Machine.execChipReset s
  | .chipRst => Sys2Proof.Machine.execChipRst s
  | .pmodeRequest p code => Sys2Proof.Machine.execPmodeRequest p code s
  | .tdConversion t vlo vhi d21 d32 => Sys2Proof.Machine.execTdConversion t vlo vhi d21 d32 s
  | .tdCheck => Sys2Proof.Machine.execTdCheck s
  | .isRead k v => Sys2Proof.Machine.execIsRead k v s
  | .refCompensation t v => Sys2Proof.Machine.execRefCompensation t v s
  | .boscCorrection err valid => Sys2Proof.Machine.execBoscCorrection err valid s
  | .trimTile t x => Sys2Proof.Machine.execTrimTile t x s
  | .trimAo p x => Sys2Proof.Machine.execTrimAo p x s
  | .trimMi p x => Sys2Proof.Machine.execTrimMi p x s
  | .calCmdDone => Sys2Proof.Machine.execCalCmdDone s
  | .trimWindowAccess wr v => Sys2Proof.Machine.execTrimWindowAccess wr v s
  | .laneTestEnable l v => Sys2Proof.Machine.execLaneTestEnable l v s
  | .laneTestDisable l v => Sys2Proof.Machine.execLaneTestDisable l v s
  | .pcieLaneTestTimeout => Sys2Proof.Machine.execPcieLaneTestTimeout s
  | .checkerLock l rx line => Sys2Proof.Machine.execCheckerLock l rx line s
  | .checkerLoss l rx line => Sys2Proof.Machine.execCheckerLoss l rx line s
  | .inj l => Sys2Proof.Machine.execInj l s
  | .laneClr l => Sys2Proof.Machine.execLaneClr l s
  | .stimStart t v => Sys2Proof.Machine.execStimStart t v s
  | .stimEdge t => Sys2Proof.Machine.execStimEdge t s
  | .stimEnd t => Sys2Proof.Machine.execStimEnd t s
  | .stimAbort t => Sys2Proof.Machine.execStimAbort t s
  | .osStart t v => Sys2Proof.Machine.execOsStart t v s
  | .osDone t x => Sys2Proof.Machine.execOsDone t x s
  | .osAbort t => Sys2Proof.Machine.execOsAbort t s
  | .testExitStop => Sys2Proof.Machine.execTestExitStop s
  | .tapUpdateIr op => Sys2Proof.Machine.execTapUpdateIr op s
  | .unlock x => Sys2Proof.Machine.execUnlock x s
  | .unlockVerifyDone ok customer => Sys2Proof.Machine.execUnlockVerifyDone ok customer s
  | .relock => Sys2Proof.Machine.execRelock s
  | .ijtagAccess x => Sys2Proof.Machine.execIjtagAccess x s
  | .spBlockLock p => Sys2Proof.Machine.execSpBlockLock p s
  | .pcieLinkTrained speed width => Sys2Proof.Machine.execPcieLinkTrained speed width s
  | .vstbyPowerUp => Sys2Proof.Machine.execVstbyPowerUp s
  | .mpWatchdogExpiry k => Sys2Proof.Machine.execMpWatchdogExpiry k s

end Sys2Proof.Machine
end

