-- ==== Sys2Proof/Safety.lean ====
section
/-! DEFINITION. What counts as a sound state between commands, in the terms that statements use. -/

namespace Sys2Proof.Machine

/-- No reset that a fault called for is outstanding: block resets and chip reset are taken up in the step that raises them (R338, R340). -/
abbrev State.Quiet (s : State) : Prop := s.flt.brst = [] ∧ s.flt.crst = false

/-- The memories are in canonical form. -/
abbrev State.MemOk (s : State) : Prop := Memory.wf s.mem

/-- The root-derived clocks run, and nothing is outstanding. -/
abbrev State.Ready (s : State) : Prop := s.clk = Clk.running ∧ s.Quiet

/-- Thread h of member m may issue, and what it issues next is i. -/
def State.issues (s : State) (m h : Nat) (i : OIns) : Bool :=
  s.canIssue m h && (match s.fetch m h with
    | .ok j => j = i
    | .error _ => false)

/-- The members of a list issue i one after the other: each finds the condition g, makes the step f, and the next finds what that leaves. -/
def inStep (h : Nat) (i : OIns) (g : Nat → State → Bool) (f : Nat → State → State) : List Nat → State → Bool
  | [], _ => true
  | m :: ms, s => s.issues m h i && g m s && inStep h i g f ms (f m s)

/-- From s to t nothing changes but what belongs to a thread's own instruction: the registers of thread h in the members ms, its state word, its code range and the halt map, and the order in which the Lattice has granted (R170, R177, R309). -/
structure ThreadOnly (ms : List Nat) (h : Nat) (s t : State) : Prop where
  rest : t = { s with regs := t.regs, hw := t.hw, seq.thr := t.seq.thr, lat.last := t.lat.last, lat.since := t.lat.since }
  threads : ∀ m k, m < 2 → k < 16 → m ∉ ms ∨ k ≠ h → t.th m k = s.th m k
  words : ∀ (r : Reg) (a b : Nat), a < 16384 → b < 4096 → r.id ≠ R.SEQ_THR_STAT.id → r.id ≠ R.SEQ_STAT.id → r.id ≠ R.SEQ_THR_CODE.id → t.word r a b = s.word r a b

/-- The lead member issues the switching instruction i of thread h. -/
def State.leadIssues (s : State) (h : Nat) (i : OIns) : Bool := s.hasLead && s.issues s.lead h i

/-- A command of a root-clocked block (R22, R25, R347). The others are the events of a tile's supplies and watchdog, of the clocks, the endpoint, its link and its configuration (log 159), the freeze pin, the event, capture and SYNC_IN pins and the thaw, of the rails and their sequencer, of chip reset, the backup oscillator and its sensors, and of the test access port. -/
def rootClocked (c : Instr) : Bool :=
  match c with
  | .tilePowerUp _
  | .tileWatchdogExpiry _
  | .clkLoss _
  | .clkLossReset
  | .pcieRequest _ _
  | .msixSend _ _
  | .freezeRequest _
  | .freezePinRise
  | .thaw
  | .pwrReqRise _
  | .railPowerGood _ _ _
  | .pwrupStepTimeout
  | .pwrReqFall
  | .vstbyLow
  | .powerDownDone
  | .railFault _ _ _ _
  | .chipReset
  | .isRead _ _
  | .boscCorrection _ _
  | .tapUpdateIr _
  | .unlock _
  | .ijtagAccess _
  | .vstbyPowerUp
  | .vstbyBrownout
  | .evinEdge _ _
  | .tciEdge _ _ _
  | .syncInEdge _ _
  | .pcieLinkDown
  | .pcieLinkTrained _ _
  | .pcieConfigWrite _ _ => false
  | _ => true

end Sys2Proof.Machine
end

