-- ==== Sys2Proof/Certificates/Slice0/Obligations.lean ====
section
/-! DEFINITION. The statements for the provers: what a command does, by the rules of the spec. Each clause of a statement names the conditions on the state and the operands under which the command has the effect stated, as an equation for the whole next state or as what holds of it. -/

open Sys2Proof Sys2Proof.Machine

/-- A step carries out the command at the front of the queue. Parts of it are the model's choices: log entries 5, 15. -/
def Obligations.StepFront : Prop :=
  (∀ (c : Instr) (rest : List Instr) (s : State),
    step { s with pending := c :: rest } = exec c { s with pending := rest }) ∧
  (∀ (s : State),
    s.pending = [] →
    step s = .next s.tick)

/-- Tile Links: a frame that fails, its retries, the watchdog, training and a tile's power-up. Parts of it are the model's choices: log entries 15, 22, 30, 92, 158, 189. -/
def Obligations.TileLinks : Prop :=
  (∀ (s : State) (t : Tile),
    s.Ready →
    (s.tl t).linkUp = true →
    (s.tl t).badFrame = false →
    exec (.tileLinkCrcFail t) s = .next (s.updTl t (fun x => { x with badFrame := true, retry := 0 }))) ∧
  (∀ (s : State) (t : Tile),
    s.Ready →
    (s.tl t).badFrame = true →
    exec (.tileLinkRetry t true) s = .next (s.updTl t (fun x => { x with badFrame := false, retry := 0 })) ∧
    ((s.tl t).retry + 1 < 8 → exec (.tileLinkRetry t false) s = .next (s.updTl t (fun x => { x with retry := x.retry + 1 }))) ∧
    ((s.tl t).retry = 7 → exec (.tileLinkRetry t false) s = .next ((s.linkDown t).loseBursts t).settle)) ∧
  (∀ (s : State) (t : Tile),
    s.Ready →
    s.tileLanesOn t = false →
    exec (.tileWatchdogExpiry t) s = .next (((s.parkTile t).updTl t (fun x => { x with wdog := true, told := false })).askFence 1 t false).settle) ∧
  (∀ (s : State) (t : Tile) (b r v : State),
    s.Ready →
    (s.tl t).linkUp = false →
    (s.tl t).powered = true →
    s.tileLanesOn t = false →
    (b = (let u := s.updTl t (fun x => { x with linkUp := true, badFrame := false, retry := 0 }); ({ u with tm.reps := Map.upd u.tm.reps t {} (fun y => { y with due := u.cycle }) } : State))) →
    (r = (if (s.tl t).needReinit then b.tileReinit t else b)) →
    (v = (r.updTl t (fun x => { x with told := true })).fsum t 5) →
    ((r.tl t).wdog = false ∨ (r.tl t).told = true → exec (.tileLinkTrained t) s = .next r.settle) ∧
    ((r.tl t).wdog = true → (r.tl t).told = false → bitOf (v.g F.FLT_FENCED_PT_TILE) t = false → v.flt.fences = [] →
      exec (.tileLinkTrained t) s = .next (v.askFence 1 t false).settle) ∧
    ((r.tl t).wdog = true → (r.tl t).told = false → bitOf (v.g F.FLT_FENCED_PT_TILE) t = true → exec (.tileLinkTrained t) s = .next v.settle)) ∧
  (∀ (s : State) (t : Tile),
    exec (.tilePowerUp t) s = .next ((s.tileOn t).tileReinit t).settle)

/-- Writes of AO_CFG and AO_DIR, fault release, the limit flag and loop outputs at an actuator output. Parts of it are the model's choices: log entries 7, 14, 15, 17, 20, 21, 22, 177, 198, 240. -/
def Obligations.AoWrites : Prop :=
  (∀ (s : State) (a : Ao) (v : W32),
    s.clk = Clk.running →
    s.Quiet →
    s.ga F.AO_CFG_OWNED a = 0 →
    (bitsOf v.toNat 0 2 = 3 → exec (.aoCfgWrite a v) s = .next (s.put F.AO_TILE_STAT_CFG_ERR 1 (aoTile a))) ∧
    (bitsOf v.toNat 0 2 ≠ 3 → exec (.aoCfgWrite a v) s = .next
      ((((if s.ga F.AO_CFG_MODE a = bitsOf v.toNat 0 2 ∧ s.ga F.AO_CFG_RANGE a = bitsOf v.toNat 2 1 then s
          else s.modeChange a (if s.on F.TST_OS_STAT_BUSY (aoTile a) then 0 else bitsOf v.toNat 0 2) (bitsOf v.toNat 2 1)).sput F.AO_CFG_EN (bitsOf v.toNat 3 1) (aoTile a) (aoChan a)
        |>.sput F.AO_CFG_CLOAD (bitsOf v.toNat 4 8) (aoTile a) (aoChan a) |>.sput F.AO_CFG_ILIM (bitsOf v.toNat 12 2) (aoTile a) (aoChan a) |>.sput F.AO_CFG_TOLSEL (bitsOf v.toNat 14 2) (aoTile a) (aoChan a)
        |>.sput F.AO_CFG_PART (bitsOf v.toNat 16 4) (aoTile a) (aoChan a) |>.sput F.AO_CFG_OWNED (bitsOf v.toNat 20 1) (aoTile a) (aoChan a)
        |>.sput F.AO_CFG_OPENCHK (bitsOf v.toNat 21 1) (aoTile a) (aoChan a)).ctxRefresh a)).settle)) ∧
  (∀ (s : State) (a : Ao) (code : BitVec 16),
    s.Ready →
    s.ona F.AO_CFG_OWNED a = true →
    s.pm (s.ga F.AO_CFG_PART a) = 3 ∨ s.pm (s.ga F.AO_CFG_PART a) = 4 →
    s.ona F.AO_STAT_FAULT a = false →
    s.tileFenced (aoTile a) = false →
    s.partFenced (s.ga F.AO_CFG_PART a) = false →
    s.cal.meas = [] →
    s.wroteNow a = none →
    (s.capped a code.toNat = false → exec (.aoDirWrite a code) s = .next
      (((s.pa F.AO_ACT_CODE code.toNat a).pa F.AO_STAT_PARKED 0 a).updAo a (fun x => { x with
        lastW := some ⟨s.cycle, 4, s.ga F.AO_ACT_CODE a⟩
        moves := if s.ga F.AO_ACT_CODE a = code.toNat then x.moves.filter (fun m => m.1 != s.cycle && s.cycle ≤ m.1 + 16000)
          else (s.cycle, absDiff (s.ga F.AO_ACT_CODE a) code.toNat) :: x.moves.filter (fun m => m.1 != s.cycle && s.cycle ≤ m.1 + 16000) }))) ∧
    (s.capped a code.toNat = true → exec (.aoDirWrite a code) s = .next s)) ∧
  (∀ (s : State) (a : Ao) (code : BitVec 16),
    s.Ready →
    s.ona F.AO_CFG_OWNED a = false ∨ (s.pm (s.ga F.AO_CFG_PART a) ≠ 3 ∧ s.pm (s.ga F.AO_CFG_PART a) ≠ 4) ∨ s.ona F.AO_STAT_FAULT a = true ∨ s.tileFenced (aoTile a) = true ∨ s.partFenced (s.ga F.AO_CFG_PART a) = true ∨ s.actBlocked a 4 = true →
    exec (.aoDirWrite a code) s = .next (s.put F.AO_TILE_STAT_DIR_REFUSED 1 (aoTile a))) ∧
  (∀ (s : State) (a : Ao),
    s.clk = Clk.running →
    s.ona F.AO_STAT_FAULT a = true →
    exec (.faultRelease a) s = .next ((((s.pa F.AO_STAT_FAULT 0 a).pa F.AO_STAT_FAILCNT 0 a).sadcAsk a).chanSum (aoTile a)).settle) ∧
  (∀ (s : State) (a : Ao),
    s.Ready →
    (s.supervised (aoTile a) (aoChan a) = true → exec (.limitQualified a) s = .next ((s.pa F.AO_STAT_LIMIT 1 a).sadcAsk a)) ∧
    (s.supervised (aoTile a) (aoChan a) = false → exec (.limitQualified a) s = .next s)) ∧
  (∀ (s : State) (o : LoopOut) (rest : List LoopOut),
    s.Ready →
    s.le.outs = o :: rest →
    (o.gen ≠ (s.aoSt o.ao).gen ∨ s.ona F.AO_CFG_OWNED o.ao = false → exec .loopOutputArrival s = .next { s with le.outs := rest }) ∧
    (o.gen = (s.aoSt o.ao).gen → s.ona F.AO_CFG_OWNED o.ao = true → s.ona F.AO_STAT_FAULT o.ao = false → s.tileFenced (aoTile o.ao) = false →
      s.partFenced (s.ga F.AO_CFG_PART o.ao) = false → s.noHolder (1 + aoTile o.ao) = false → s.capped o.ao o.code = false →
      exec .loopOutputArrival s = .next (({ s with le.outs := rest }.actWrite o.ao o.code 5)))) ∧
  (∀ (s : State) (a : Nat),
    (s.tl (aoTile a)).powered = true →
    s.on F.TST_OS_STAT_BUSY (aoTile a) = false →
    s.ga F.AO_CFG_MODE a = 2 →
    s.ona F.AO_CFG_EN a = true →
    (s.on F.DPC_STAT_PG 4 = false → s.drive a = .amp 0) ∧
    (s.on F.DPC_STAT_PG 4 = true → s.drive a = .amp (if s.ga F.AO_CFG_RANGE a = 1 then 10 * s.ga F.AO_ACT_CODE a else s.ga F.AO_ACT_CODE a)))

/-- A supervision conversion of a tile, and the loss of REFCLK. Parts of it are the model's choices: log entries 8, 15, 59, 160, 189, 198. -/
def Obligations.Supervision : Prop :=
  (∀ (s : State) (t : Tile) (k : Nat) (reading : BitVec 16) (aux : Nat) (lim : Bool) (u : State),
    s.Ready →
    (s.tl t).sadc.prio = [(k, 0)] →
    s.supervised t k = true →
    (u = ((s.updSadc t (fun q => { q with prio := [] })).pa F.AO_RB_READING reading.toNat (t * 1280 + k)).pa F.AO_RB_VALID 1 (t * 1280 + k)) →
    (u.ona F.AO_STAT_FAULT (t * 1280 + k) = true → exec (.sadcConversion t reading aux lim) s = .next u) ∧
    (u.ona F.AO_STAT_FAULT (t * 1280 + k) = false → u.failCause (t * 1280 + k) reading.toNat aux lim = none →
      exec (.sadcConversion t reading aux lim) s = .next ((u.pa F.AO_RB_FAILED 0 (t * 1280 + k)).pa F.AO_STAT_FAILCNT 0 (t * 1280 + k))) ∧
    (∀ c, u.ona F.AO_STAT_FAULT (t * 1280 + k) = false → u.failCause (t * 1280 + k) reading.toNat aux lim = some c →
      exec (.sadcConversion t reading aux lim) s = .next (let n := min (u.ga F.AO_STAT_FAILCNT (t * 1280 + k) + 1) (u.tol F.AO_TOL_CONFIRM (t * 1280 + k) + 1)
        let v := ((u.pa F.AO_RB_FAILED 1 (t * 1280 + k)).pa F.AO_STAT_FAILCNT n (t * 1280 + k)).sadcAsk (t * 1280 + k)
        if n = v.tol F.AO_TOL_CONFIRM (t * 1280 + k) + 1 then v.chanFault (t * 1280 + k) c else v).settle)) ∧
  (∀ (s : State) (why : Fin 2),
    s.Ready →
    exec (.clkLoss why) s = .next { (s.put F.FLT_RST_CAUSE_SRC 35).put F.FLT_RST_CAUSE_VALID 1 with clk := .lost, flt.clkLoss := some why.val }) ∧
  (∀ (s : State),
    s.clk = Clk.lost →
    s.Quiet →
    (s.on F.FLT_REACT_CRST 35 = true → exec .clkLossReset s = .next s.chipReset.settle) ∧
    (s.on F.FLT_REACT_CRST 35 = false → exec .clkLossReset s = .next s))

/-- Monitor inputs and converters: configuration, bias, conversions, the scan and focus. Parts of it are the model's choices: log entries 14, 15, 23, 24, 26, 35, 45, 190, 204, 205, 209, 222. -/
def Obligations.MonitorInputs : Prop :=
  (∀ (s : State) (m : Mi) (v : W32),
    s.Ready →
    s.gm F.MI_CFG_OWNED m = bitsOf v.toNat F.MI_CFG_OWNED.lo F.MI_CFG_OWNED.wd →
    s.gm F.MI_CFG_PART m = bitsOf v.toNat F.MI_CFG_PART.lo F.MI_CFG_PART.wd →
    exec (.miCfgWrite m v) s = .next
      (((if s.gm F.MI_CFG_RANGE m = bitsOf v.toNat F.MI_CFG_RANGE.lo F.MI_CFG_RANGE.wd then s else s.setRange m (bitsOf v.toNat F.MI_CFG_RANGE.lo F.MI_CFG_RANGE.wd)).updMi m
        (fun x => { x with
          wrote := some s.cycle
          low := if bitsOf v.toNat F.MI_CFG_AUTO.lo F.MI_CFG_AUTO.wd = 0 ∨ (s.gm F.MI_CFG_HOLD m = 1 ∧ bitsOf v.toNat F.MI_CFG_HOLD.lo F.MI_CFG_HOLD.wd = 0) then 0 else x.low })).each
        [F.MI_CFG_AUTO, F.MI_CFG_HOLD, F.MI_CFG_SQSEL, F.MI_CFG_SQEN, F.MI_CFG_DECIM, F.MI_CFG_PART, F.MI_CFG_OWNED]
        (fun s f => s.sput f (bitsOf v.toNat f.lo f.wd) (miTile m) (miPos m)))) ∧
  (∀ (s : State) (t : Tile) (code : Byte),
    s.Ready →
    ((s.sput F.MI_BIAS_CODE code.toNat t).on F.TST_OS_STAT_BUSY t = false → exec (.miBiasWrite t code) s = .next
      ({ s.sput F.MI_BIAS_CODE code.toNat t with
          mon.ramps := Map.ins s.mon.ramps t ⟨biasPos (s.ramp t) s.cycle, s.cycle, 12000 * min code.toNat 250⟩ }.putB F.MI_TILE_STAT_BIAS_RAMP
        (biasPos (s.ramp t) s.cycle != 12000 * min code.toNat 250) t)) ∧
    ((s.sput F.MI_BIAS_CODE code.toNat t).on F.TST_OS_STAT_BUSY t = true → exec (.miBiasWrite t code) s = .next (s.sput F.MI_BIAS_CODE code.toNat t))) ∧
  (∀ (s : State) (t : Tile) (i : Byte),
    s.Ready →
    biasPos (s.ramp t) s.cycle = (s.ramp t).target →
    exec (.biasRampDone t i) s = .next ((s.put F.MI_TILE_STAT_BIAS_RAMP 0 t).put F.MI_BIAS_IBIAS i.toNat t)) ∧
  (∀ (s : State) (t : Tile),
    s.clk = Clk.running →
    exec (.biasOverload t) s = .next (((s.put F.MI_TILE_STAT_BIAS_OVL 1 t).put F.MI_BIAS_IBIAS 200 t).fsum t 2).settle) ∧
  (∀ (s : State) (t : Tile) (d : Madc) (code : BitVec 12) (sat : Bool) (u : State) (c : Option Flight),
    s.Ready →
    s.madcRuns = true →
    s.cycle % 4 = 0 →
    (s.md t d).edge ≠ some s.cycle →
    s.startConv t d = (u, c) →
    ((u.md t d).pipe.length < 10 → exec (.madcSample t d code sat) s = .next (u.updMd t d (fun x => { x with edge := some s.cycle, pipe := (u.md t d).pipe ++ [c] })).settle) ∧
    (∀ f p, (u.md t d).pipe = f :: p → p.length = 9 → exec (.madcSample t d code sat) s = .next (match f with
      | some x => (u.updMd t d (fun x => { x with edge := some s.cycle, pipe := p ++ [c] })).convert t x code.toNat sat
      | none => u.updMd t d (fun x => { x with edge := some s.cycle, pipe := p ++ [c] })).settle)) ∧
  (∀ (s : State) (t : Tile) (d : Madc) (code : BitVec 12) (sat : Bool),
    s.Ready →
    s.madcRuns = false ∨ s.cycle % 4 ≠ 0 ∨ (s.md t d).edge = some s.cycle →
    exec (.madcSample t d code sat) s = .next s) ∧
  (∀ (s : State) (t d : Nat),
    (s.md t d).active = [] →
    (s.md t d).pass = true →
    (s.md t d).pos ≤ (s.md t d).len →
    (s.md t d).mode ≠ 1 →
    (s.md t d).delay = none →
    (s.startConv t d).2 = if s.on F.MI_SCAN_IDLE t (256 * d + (s.md t d).pos) then none
      else some ⟨8 * s.g F.MI_SCAN_I t (256 * d + (s.md t d).pos) + d, false, s.cycle, s.g F.MI_SCAN_STAT_SEQ t d⟩) ∧
  (∀ (s : State) (t : Tile) (d : Madc) (v : W32) (u : State),
    s.Ready →
    (u = s.each [F.MI_SCAN_CTL_MODE, F.MI_SCAN_CTL_TPART, F.MI_SCAN_CTL_LEN, F.MI_SCAN_CTL_DELAY] (fun s f => s.sput f (bitsOf v.toNat f.lo f.wd) t d)) →
    ((s.md t d).pass = true ∨ s.g F.MI_SCAN_CTL_MODE t d = u.g F.MI_SCAN_CTL_MODE t d → exec (.scanCtlWrite t d v) s = .next u) ∧
    ((s.md t d).pass = false → s.g F.MI_SCAN_CTL_MODE t d ≠ u.g F.MI_SCAN_CTL_MODE t d → u.g F.MI_SCAN_CTL_MODE t d = 0 →
      (s.md t d).active = [] → exec (.scanCtlWrite t d v) s = .next ((u.updMd t d (fun x => { x with mode := 0, pass := false, delay := none, slot := 0 })).startPass t d))) ∧
  (∀ (s : State) (t : Tile) (d : Madc),
    s.Ready →
    (s.md t d).mode = 1 →
    (s.md t d).timer ≤ s.cycle →
    s.madcRuns = true →
    (s.md t d).pass = false ∨ (s.md t d).pos ≤ (s.md t d).len →
    exec (.scanTimerTick t d) s = .next (let u := s.updMd t d (fun y => { y with timer := y.timer + 4 * max 1 (s.g F.MI_SCAN_PER_PERIOD t d) })
      if (s.md t d).pass then u.sat F.MI_SCAN_STAT_TRIG_MISS t d else u.startPass t d)) ∧
  (∀ (s : State) (t : Tile) (d : Madc) (due : Nat),
    s.Ready →
    (s.md t d).delay = some due →
    due ≤ s.cycle →
    exec (.scanCommitDelayExpiry t d) s = .next ((s.updMd t d (fun x => { x with delay := none })).startPass t d)) ∧
  (∀ (s : State) (t : Tile) (d : Madc),
    s.Ready →
    (s.md t d).pass = true →
    (s.md t d).mode = s.g F.MI_SCAN_CTL_MODE t d →
    ((s.md t d).pos ≤ (s.md t d).len ∨ s.cycle < (s.md t d).walked + 4 → exec (.scanPassEnd t d) s = .next s) ∧
    ((s.md t d).len < (s.md t d).pos → (s.md t d).walked + 4 ≤ s.cycle →
      exec (.scanPassEnd t d) s = .next (if (s.md t d).mode = 0 then s.startPass t d else s.updMd t d (fun y => { y with pass := false })))) ∧
  (∀ (s : State) (t : Tile) (d : Madc),
    s.Ready →
    (s.md t d).active.filter (s.focusOver (s.md t d).mode) = [] →
    exec (.focusExpiry t d) s = .next (s.updMd t d (fun x => { x with active := x.active.filter (fun e => !s.focusOver x.mode e), gone := some (s.goneNow t d) }))) ∧
  (∀ (s : State) (t : Tile) (d : Madc) (e : FocEnt),
    s.Ready →
    (s.md t d).active = [e] →
    s.focusOver (s.md t d).mode e = true →
    exec (.focusExpiry t d) s = .next (((s.updMd t d (fun x => { x with
      active := x.active.filter (fun e => !s.focusOver x.mode e)
      gone := some { s.goneNow t d with slots := (s.goneNow t d).slots ++ s.slotsOf (t * 1024 + e.j) } })).updMi (t * 1024 + e.j)
      (fun y => { y with low := 0 })).releaseSlots (t * 1024 + e.j)))

/-- Forwarded samples, token buckets and Sample Queues. Parts of it are the model's choices: log entries 14, 15, 28, 134, 206, 234. -/
def Obligations.SampleQueues : Prop :=
  (∀ (s : State) (t m : Nat) (x : Samp) (rest : List (Nat × Nat × Samp)),
    s.Ready →
    s.mon.fwd = (t, m, x) :: rest →
    ((s.tl t).linkUp = false ∨ s.forwards (miTile m) = false → exec .sampleForwardArrival s = .next { s with mon.fwd := rest }) ∧
    ((s.tl t).linkUp = true → s.forwards (miTile m) = true → exec .sampleForwardArrival s = .next (if (s.tok t).inb = 0 then { s with mon.fwd := rest }.put F.MI_TILE_STAT_FWD_DROP 1 t
      else ({ s with mon.fwd := rest }.updTok t (fun k => { k with inb := k.inb - 1 })).deliver t m x))) ∧
  (∀ (s : State) (t : Tile) (b : Fin 3),
    s.Ready →
    125 * (Map.look s.mon.refills (3 * t + b) 0 + 1) ≤ 8 * s.cycle →
    exec (.fwdTokenRefill t b) s = .next ({ s with mon.refills := Map.ins s.mon.refills (3 * t + b) (Map.look s.mon.refills (3 * t + b) 0 + 1) }.updTok t
      (fun k => if b.val = 0 then { k with out := min 16 (k.out + 1) } else if b.val = 1 then { k with inb := min 16 (k.inb + 1) } else { k with sq := min 16 (k.sq + 1) }))) ∧
  (∀ (s : State) (q w : Nat) (rest : List (Nat × Nat)) (u : State),
    s.Ready →
    s.mon.sq = (q, w) :: rest →
    u = { s with mon.sq := rest } →
    (s.on F.MI_SQ_CTL_EN q = false → exec .sqCopyArrival s = .next u) ∧
    (s.on F.MI_SQ_CTL_EN q = true → (s.g F.MI_SQ_WR_WR q + 1) % 131072 = s.sqRdStart q →
      exec .sqCopyArrival s = .next ((u.put F.MI_SQ_STAT_OVF 1 q).sat F.MI_SQ_DROP_CNT q)) ∧
    (s.on F.MI_SQ_CTL_EN q = true → (s.g F.MI_SQ_WR_WR q + 1) % 131072 ≠ s.sqRdStart q → s.g F.MI_SQ_CTL_THRESH q = 0 →
      exec .sqCopyArrival s = .next ((u.wrN (sqBase + q * 0x80000 + s.g F.MI_SQ_WR_WR q * 4) 4 w).put F.MI_SQ_WR_WR ((s.g F.MI_SQ_WR_WR q + 1) % 131072) q))) ∧
  (∀ (s : State) (q : Fin 16) (v : BitVec 17),
    s.Ready →
    exec (.sqRdWrite q v) s = .next (if s.sqFill q < (v.toNat + 131072 - s.g F.MI_SQ_RD_RD q) % 131072 then s.put F.MI_SQ_STAT_RD_ERR 1 q
      else { s with mon.rdOld := Map.ins s.mon.rdOld q (s.cycle, s.sqRdStart q) }.sput F.MI_SQ_RD_RD v.toNat q)) ∧
  (∀ (s : State) (q : Fin 16),
    s.Ready →
    exec (.sqClr q) s = .next ((((s.put F.MI_SQ_WR_WR 0 q).put F.MI_SQ_RD_RD 0 q).put F.MI_SQ_DROP_CNT 0 q).put F.MI_SQ_STAT_OVF 0 q))

/-- Loop Engines: updates, ticks, the commit update and the commands on contexts. Parts of it are the model's choices: log entries 5, 7, 14, 15, 32, 33, 35, 36, 37, 39, 40, 41, 123, 213, 216, 217, 219, 221, 243, 244, 245, 250, 251. -/
def Obligations.LoopEngines : Prop :=
  (∀ (s : State) (a : Ao),
    s.clk = Clk.running →
    s.con 0 a C.TSRC = false →
    s.noHolder (1 + aoTile a) = false →
    s.cg 0 a C.LAW ≠ 0 ∧ s.cg 0 a C.LAW ≠ 3 →
    s.ctxRunning a = true →
    s.isOuter a = false →
    (s.cs a).due = false →
    (s.nextSamp a = none → s.Quiet → exec (.loopUpdate a) s = .next s) ∧
    (∀ x u, s.nextSamp a = some x → u = (s.updCs a (fun c => { c with lastSerial := x.serial, waiting := c.waiting.tail })).askSlot a x →
      (u.cs a).lastConv = none → u.ctxUe a = none → exec (.loopUpdate a) s = .next (u.update a x false).settle) ∧
    (∀ x u e, s.nextSamp a = some x → u = (s.updCs a (fun c => { c with lastSerial := x.serial, waiting := c.waiting.tail })).askSlot a x →
      (u.cs a).lastConv = none → u.ctxUe a = some e → exec (.loopUpdate a) s = .next (u.sramUe e.1 e.2).settle)) ∧
  (∀ (s : State) (a : Ao) (x : Samp) (u : State),
    s.clk = Clk.running →
    s.lastSamp (aoTile a) (s.cg 0 a C.MI1) = some x →
    s.con 0 a C.TSRC = true →
    s.noHolder (1 + aoTile a) = false →
    s.cg 0 a C.LAW ≠ 0 ∧ s.cg 0 a C.LAW ≠ 3 →
    s.ctxRunning a = true →
    s.isOuter a = false →
    (s.cs a).due = false →
    s.tickNow a = true →
    (u = s.updCs a (fun c => { c with tick := some s.cycle })) →
    u.ctxUe a = none →
    exec (.loopTick a) s = .next (u.update a x true).settle) ∧
  (∀ (s : State) (a : Ao) (u : State),
    s.Ready →
    (u = s.updCs a (fun c => { c with due := false })) →
    ((s.cs a).due = false → exec (.commitUpdate a) s = .next s) ∧
    ((s.cs a).due = true → (aosOfTile (aoTile a)).filter (fun (x : Nat) => decide (x ≤ a.val) && (s.cs x).due) = [a.val] → s.noHolder (1 + aoTile a) = true ∨ s.ctxRunning a = false →
      exec (.commitUpdate a) s = .next (s.updCs a (fun c => { c with due := false, waiting := [] }))) ∧
    ((s.cs a).due = true → (aosOfTile (aoTile a)).filter (fun (x : Nat) => decide (x ≤ a.val) && (s.cs x).due) = [a.val] → s.noHolder (1 + aoTile a) = false → s.ctxRunning a = true → u.ctxUe a = none →
      exec (.commitUpdate a) s = .next ((u.sendOut a (u.outCode a (u.ffp a + u.cgS 0 a C.I)).1 (u.innerOf a)).noteOut a (u.outCode a (u.ffp a + u.cgS 0 a C.I)).1 (u.cgS 0 a C.I)).settle)) ∧
  (∀ (s : State) (bank : Fin 2) (a : Ao) (off : Fin 128) (bs : List Byte),
    s.Ready →
    (s.ona F.AO_CFG_OWNED a = true → s.pm (s.ga F.AO_CFG_PART a) = 1 ∨ s.pm (s.ga F.AO_CFG_PART a) = 2 →
      exec (.contextWrite bank a off bs) s = .next ((s.grant 1 0).put F.LE_STAT_WR_REFUSED 1 (aoTile a))) ∧
    (s.pm (s.ga F.AO_CFG_PART a) ≠ 1 → s.pm (s.ga F.AO_CFG_PART a) ≠ 2 →
      exec (.contextWrite bank a off bs) s = .next ((s.grant 1 0).ctxUnit bank a off bs srcHost false).1.settle)) ∧
  (∀ (s : State) (a : Ao),
    s.Ready →
    (s.cg 0 a C.STATE ≠ 4 ∨ s.leNone a = true → exec (.leRestart a) s = .next s) ∧
    (s.cg 0 a C.STATE = 4 → s.leNone a = false → s.mayRestart a = false →
      exec (.leRestart a) s = .next ((s.leErr a 0 srcReg 6).put F.LE_STAT_RESTART_REFUSED 1 (aoTile a)).settle) ∧
    (s.cg 0 a C.STATE = 4 → s.leNone a = false → s.mayRestart a = true → exec (.leRestart a) s = .next
      (((((s.each [C.I, C.ACC, C.ACCN, C.MCNT, C.KICK0, C.LCNT, C.RCNT, C.UPDCNT] (fun s f => s.cp 0 a f 0)).cp 0 a C.STATE 1).updCs a
        (fun c => { c with lastConv := none, started := false, swept := false, fbprev := 0 })).ctxRefresh a)).settle)) ∧
  (∀ (s : State) (a : Ao),
    s.clk = Clk.running →
    exec (.leHold a) s = .next ((s.cp 0 a C.HOLDREQ 1).ctxRefresh a).settle ∧ exec (.leRelease a) s = .next ((s.cp 0 a C.HOLDREQ 0).ctxRefresh a).settle) ∧
  (∀ (s : State) (t : Tile) (slots fcost : Byte) (u : State),
    s.Ready →
    u = (s.sput F.LE_FOCUS_SLOTS slots.toNat t).sput F.LE_FOCUS_FCOST fcost.toNat t →
    (u.load false t ≤ leBudget → u.load true t ≤ leBudget → exec (.leFocusWrite t slots fcost) s = .next u) ∧
    (leBudget < u.load false t ∨ leBudget < u.load true t →
      exec (.leFocusWrite t slots fcost) s = .next ((s.leErr (t * 1280) 0 srcReg 0).leOvercommit t (max (u.load false t) (u.load true t))).settle))

/-- The Map Store, its mirror, loading a descriptor, clearing plans and caches, and the turn of a routing job. Parts of it are the model's choices: log entries 1, 7, 15, 43, 49, 50, 53, 123, 134, 147, 175. -/
def Obligations.Routing : Prop :=
  (∀ (s u : State) (off : BitVec 24) (bs : List Byte),
    s.Ready →
    u = s.grant 3 0 →
    (u.libBusy off.toNat bs.length = true → exec (.mapStoreWrite off bs) s = .next { u with rtu.heldW := u.rtu.heldW ++ [(off.toNat, bs)] }) ∧
    (u.libBusy off.toNat bs.length = false → (List.range bs.length).all (fun i => u.mapAccepts (off.toNat + i) = some true) = true →
      exec (.mapStoreWrite off bs) s = .next ({ u.mapBytes off.toNat bs with ueWords := ueLeft (u.mapBytes off.toNat bs).ueWords (mapBase + off.toNat) bs.length }).settle)) ∧
  (∀ (s : State) (off c : Nat) (b : Byte) (rest : List (Nat × Nat × Byte)),
    s.Ready →
    s.rtu.mirror = (off, c, b) :: rest →
    c + 2000 ≤ s.cycle →
    exec .stateMirrorApply s = .next (if s.live (aoTile ((off - 0x100000) / 64))
      then { s with rtu.mirror := rest, mem := Memory.wr s.mem (mirrorBase + off) b } else { s with rtu.mirror := rest })) ∧
  (∀ (s : State) (p : Part),
    s.Ready →
    (s.pm p ≠ 0 → exec (.rtuLoad p) s = .next (s.put F.RTU_STAT_MAP_REFUSED 1)) ∧
    (s.pm p = 0 → exec (.rtuLoad p) s = .next (((s.put F.RTU_PSTAT_DESC_VALID 0 p).updRp p (fun r => { r with loading := true, desc := {}, com := [], circ := [], cells := [], pcells := [], plan := [], closed := false, carry := [], mend := [], tent := none, hint := none, cached := [], cmiss := false })).cacheClear p).settle)) ∧
  (∀ (s : State) (p : Part) (u v : State),
    s.Ready →
    (s.rp p).loading = true →
    s.engGated = false →
    (u = (s.updRp p (fun r => { r with loading := false })).grant 3 6) →
    (v = ((u.put F.RTU_PSTAT_DESC_ERR 0 p).put F.RTU_PSTAT_DESC_VALID 1 p).updRp p (fun r => { r with desc := s.descAt p })) →
    ((s.descAt p).kind = 0 → exec (.rtuLoadDone p) s = .next (u.put F.RTU_PSTAT_DESC_ERR 0 p)) ∧
    ((s.descAt p).kind ≠ 0 → u.descErr p (s.descAt p) ≠ 0 → exec (.rtuLoadDone p) s = .next (u.put F.RTU_PSTAT_DESC_ERR (u.descErr p (s.descAt p)) p)) ∧
    ((s.descAt p).kind ≠ 0 → u.descErr p (s.descAt p) = 0 → v.on F.RTU_PCFG_BASE_VALID p = false → exec (.rtuLoadDone p) s = .next v)) ∧
  (∀ (s : State) (p : Part),
    s.Ready →
    exec (.rtuPlanClr p) s = .next (if s.pm p = 0 then s.updRp p RtPart.revert else s)) ∧
  (∀ (s : State) (p : Part),
    s.Ready →
    exec (.rtuCacheClr p) s = .next ({ s with rtu.cache := s.rtu.cache.filter (fun c => c.part ≠ p.val) }.each (List.range 16) State.pcSync)) ∧
  (∀ (s : State) (p : Nat),
    s.Ready →
    (s.on F.RTU_STAT_BUSY = true ∨ s.engGated = true ∨ ((List.range 16).map (fun i => (s.rtu.served + 1 + i) % 16)).find? (fun p => (s.rp p).job.isSome) = none →
      exec .routeJobStart s = .next s) ∧
    (s.on F.RTU_STAT_BUSY = false → s.engGated = false → ((List.range 16).map (fun i => (s.rtu.served + 1 + i) % 16)).find? (fun p => (s.rp p).job.isSome) = some p →
      exec .routeJobStart s = .next ((({ s with rtu.served := p }.put F.RTU_STAT_BUSY 1).put F.RTU_STAT_CUR_PART p).updRp p
        (fun r => { r.openPlan with running := true })))) ∧
  (∀ (s : State) (p : Nat) (j : Job) (u : State),
    s.clk = Clk.running →
    p = s.g F.RTU_STAT_CUR_PART →
    (s.rp p).job = some j →
    (s.rp p).running = true →
    s.engGated = false →
    (∀ res, u.settle = u → (u, res) = s.runJob p j → exec (.routeJobDone false) s = .next
      (((u.endJob p j res ((u.rp p).plan.length - (s.rp p).plan.length)).put F.RTU_STAT_BUSY 0).releaseHeld).settle) ∧
    (u = (s.put F.RTU_STAT_FAULT 1).raise 26 p → exec (.routeJobDone true) s = .next
      (((u.endJob p j 8 ((u.rp p).plan.length - (s.rp p).plan.length)).put F.RTU_STAT_BUSY 0).releaseHeld).settle))

/-- Staging words, burst acknowledgements, plan-cache fills and loads. Parts of it are the model's choices: log entries 15, 49, 165. -/
def Obligations.Staging : Prop :=
  (∀ (s : State) (t : Tile) (b : Burst) (w : SWord) (rest : List SWord),
    s.clk = Clk.running →
    (s.findBurst (fun b => b.tile = t.val && b.kind ≤ 1 && !b.words.isEmpty) = some b) →
    b.words = w :: rest →
    exec (.stagingWord t) s = .next ((s.stageWord b.part w).1.updBurst b { b with
      words := rest, sent := b.sent ++ [w.ao], refused := if (s.stageWord b.part w).2 then b.refused else b.refused ++ [w.ao] }).settle) ∧
  (∀ (s : State) (t : Tile) (b : Burst),
    s.clk = Clk.running →
    (s.findBurst (fun b => b.tile = t.val && b.complete) = some b) →
    (b.kind = 2 → exec (.stageBurstAck t) s = .next (((s.dropBurst b).updRp b.part (fun r => { r with fillRef := r.fillRef + (if b.refused.isEmpty then 0 else 1) })).stageEnd b.part).settle) ∧
    (b.kind = 0 ∨ b.kind = 1 ∨ b.kind = 3 → exec (.stageBurstAck t) s = .next (((s.dropBurst b).updRp b.part (fun r =>
      { r with refused := r.refused + b.refused.length, plan := if b.kind = 0 then ackPlan r.plan b else r.plan })).stageEnd b.part).settle) ∧
    (b.kind = 4 → exec (.stageBurstAck t) s = .next
      ({ s.dropBurst b with rot := Map.upd s.rot b.part {} (fun r => { r with loaded := r.loaded ++ [b.tile], ackAt := s.tbVal 0 }) } : State).settle)) ∧
  (∀ (s : State) (t : Tile) (b : Burst),
    s.clk = Clk.running →
    (s.findBurst (fun b => b.tile = t.val && b.kind = 2 && !b.ready) = some b) →
    s.cacheSlot t b.part b.slot = none →
    (((s.rtu.cache.filter (fun c => c.tile = t.val && c.bank = b.part / 4 && c.slot != b.slot)).map (fun c => c.words.length)).sum + b.words.length ≤ 65536) →
    exec (.cacheFill t) s = .next ((({ s with rtu.cache := s.rtu.cache.filter (fun c => !(c.tile = t.val && c.bank = b.part / 4 && c.slot = b.slot)) ++
      [CacheSlot.mk t (b.part / 4) b.slot b.part b.words] } : State).pcSync t).updBurst b { b with ready := true }).settle) ∧
  (∀ (s : State) (t : Tile) (b : Burst) (c : CacheSlot),
    s.clk = Clk.running →
    (s.findBurst (fun b => b.tile = t.val && b.kind = 2 && !b.ready) = some b) →
    s.cacheSlot t b.part b.slot = some c →
    c.part ≠ b.part →
    (((s.rtu.cache.filter (fun c => c.tile = t.val && c.bank = b.part / 4 && c.slot != b.slot)).map (fun c => c.words.length)).sum + b.words.length ≤ 65536) →
    exec (.cacheFill t) s = .next (s.updBurst b { b with ready := true, refused := [b.tile] }).settle) ∧
  (∀ (s : State) (t : Tile) (b : Burst),
    s.clk = Clk.running →
    (s.findBurst (fun b => b.tile = t.val && (b.kind = 3 || b.kind = 4) && !b.ready) = some b) →
    b.kind = 3 →
    (s.cacheSlot t b.part b.slot = none → exec (.cacheLoad t) s = .next (s.updBurst b { b with ready := true, refused := [] }).settle) ∧
    (∀ c, s.cacheSlot t b.part b.slot = some c → c.part = b.part → exec (.cacheLoad t) s = .next
      ((s.stageWords b.part c.words).1.updBurst b { b with ready := true, refused := (s.stageWords b.part c.words).2 }).settle) ∧
    (∀ c, s.cacheSlot t b.part b.slot = some c → c.part ≠ b.part → exec (.cacheLoad t) s = .next
      ((s.updRp b.part (fun r => { r with cmiss := true })).updBurst b { b with ready := true, refused := c.words.map (fun w => w.ao) }).settle))

/-- Arming, replies, the cancel deadline, cancellation, the strobe, reports and the close of a commit. Parts of it are the model's choices: log entries 15, 38, 47, 51, 53, 54, 58, 60, 241. -/
def Obligations.Commits : Prop :=
  (∀ (s : State) (p : Part) (t : Tile) (c c' : Commit),
    s.Ready →
    (s.findCommit p (fun c => c.toArm.contains t.val) = some c) →
    c' = { c with toArm := c.toArm.erase t.val } →
    (s.live t = false → exec (.armMessage p t) s = .next (s.updCommit c c')) ∧
    (s.live t = true → s.on F.TL_TSTAT_VALID t = false ∨ s.passedIn t (c.at - 100000) = true → exec (.armMessage p t) s = .next
      (((s.put F.AO_CMT_STAT_MISS 1 t).updCommit c { c' with toReply := Map.ins c'.toReply t 2 }).raise 27 (p + 65536 *
        ((List.range 16).filter (fun u => u = t.val || Map.find c.toReply u = some 2 || Map.find c.replies u = some 2)).foldl (fun v u => orBit v u) 0)).settle) ∧
    (s.live t = true → s.on F.TL_TSTAT_VALID t = true → s.passedIn t (c.at - 100000) = false → c.slot = none → s.formSubs t c.mask = none →
      exec (.armMessage p t) s = .next ((s.put F.AO_CMT_STAT_NOGO 1 t).updCommit c { c' with toReply := Map.ins c'.toReply t 1 })) ∧
    (∀ subs, s.live t = true → s.on F.TL_TSTAT_VALID t = true → s.passedIn t (c.at - 100000) = false → c.slot = none → s.formSubs t c.mask = some subs →
      exec (.armMessage p t) s = .next (({ s with rtu.arms := s.rtu.arms ++ [{ lead := p, tile := t, mask := c.mask, tc := c.tc, subs := subs, adj := c.adj }] } : State).updCommit c
        { c' with toReply := Map.ins c'.toReply t 0 }))) ∧
  (∀ (s : State) (p : Part) (t : Tile) (loads : List (Chan × BitVec 16)) (pw : Nat) (c c' : Commit),
    s.Ready →
    (s.findCommit p (fun c => (Map.find c.toReply t).isSome) = some c) →
    c' = { c with toReply := Map.del c.toReply t, replies := Map.ins c.replies t (Map.look c.toReply t 0) } →
    (Map.look c.toReply t 0 ≠ 0 → exec (.armReply p t loads pw) s = .next (s.updCommit c c')) ∧
    (Map.look c.toReply t 0 = 0 → exec (.armReply p t loads pw) s = .next (s.updCommit c { c' with
      sumI := c.sumI + s.currentAfter t c.mask, sumIV := c.sumIV + s.powerAfter c.mask (loads.map (fun e => (t.val * 1280 + e.1.val, e.2.toNat))) pw }))) ∧
  (∀ (s : State) (p : Part) (c : Commit) (nogo : List Nat),
    s.clk = Clk.running →
    (s.findCommit p (fun c => !c.decided && !c.cancelled && !c.fired && c.slot.isNone && s.reached (c.at - 200000)) = some c) →
    (nogo = (List.range 16).filter (fun t => Map.find c.replies t = some 1)) →
    (nogo ≠ [] → exec (.cancelDeadline p) s = .next ((s.cancelCommit c 6).raise 29 (p + 65536 * nogo.foldl (fun v u => orBit v u) 0)).settle) ∧
    (nogo = [] → s.overCaps c.sumI c.sumIV = true → exec (.cancelDeadline p) s = .next (((s.cancelCommit c 6).put F.PWR_STAT_CAP_NOGO 1).raise 29 p).settle) ∧
    (nogo = [] → s.overCaps c.sumI c.sumIV = false → exec (.cancelDeadline p) s = .next (s.updCommit c { c with decided := true }).settle)) ∧
  (∀ (s : State) (p : Part) (t : Tile) (c : Commit),
    s.Ready →
    (s.findCommit p (fun c => c.toCancel.contains t.val && !c.toArm.contains t.val) = some c) →
    s.live t = true →
    (s.rtu.arms.any (fun m => m.lead = p.val && m.tile = t.val && m.tc = c.tc) = true) →
    s.passedIn t (c.at - 20000) = false →
    c.toCancel.erase t.val ≠ [] →
    exec (.cancelMessage p t) s = .next ((({ s with rtu.arms := s.rtu.arms.filter (fun m => !(m.lead = p.val && m.tile = t.val && m.tc = c.tc)) } : State).put F.AO_CMT_STAT_CANCELLED 1 t).updCommit c
      { c with toCancel := c.toCancel.erase t.val })) ∧
  (∀ (s : State) (p : Part),
    s.clk = Clk.running →
    exec (.commitStrobe p) s = .next (let u := s.each (s.rtu.commits.filter (fun c => c.lead = p.val && !c.cancelled && !c.fired && s.reached c.at)) State.fireCommit
      u.each (u.rtu.arms.filter (fun m => m.lead = p.val)) State.fireArm).settle) ∧
  (∀ (s : State) (p : Part) (t : Tile) (m : ArmSt) (c : Commit) (u : State),
    s.Ready →
    s.live t = true →
    (s.rtu.arms.find? (fun m => m.lead = p.val && m.tile = t.val && m.count ≤ m.next) = some m) →
    u = { s with rtu.arms := s.rtu.arms.erase m } →
    (u.findCommit p (fun c => c.tc = m.tc && c.fired) = some c) →
    exec (.commitReport p t) s = .next (u.updCommit c { c with done := c.done ++ m.done, missed := c.missed ++ m.missed, reported := c.reported ++ [t.val] })) ∧
  (∀ (s : State) (p : Part) (c : Commit),
    s.clk = Clk.running →
    (s.findCommit p (fun c => c.fired) = some c) →
    (s.rtu.arms.any (fun m => m.lead = p.val && m.tc = c.tc && s.live m.tile && m.next < m.count) = false) →
    exec (.commitClose p) s = .next ((({ s with rtu.commits := s.rtu.commits.erase c, rtu.arms := s.rtu.arms.filter (fun m => !(m.lead = p.val && m.tc = c.tc)) } : State).each
      (bitList c.mask 16) (fun s q => s.closePart c q)).rotStopped p).settle)

/-- Rotor Engines: GO, STOP, STOP_NOW, SWAP and its cancellation, buffer and configuration writes. Parts of it are the model's choices: log entries 14, 15, 53, 57, 58, 209, 223, 224, 228, 242. -/
def Obligations.RotorControl : Prop :=
  (∀ (s : State) (p : Part),
    s.Ready →
    (s.roRuns p = true → exec (.rotCtlGo p) s = .next s) ∧
    (s.roRuns p = false → s.bufErr p (1 - s.actBuf p) ≠ 0 →
      exec (.rotCtlGo p) s = .next (s.put F.RTU_ROT_STAT_SWAP_ERR (s.bufErr p (1 - s.actBuf p)) p)) ∧
    (∀ u v, s.roRuns p = false → s.bufErr p (1 - s.actBuf p) = 0 →
      u = ((s.each ((s.ownedBy p).filter (fun a => s.ona F.AO_SHD_STAGED a)) State.unstage).focusDrop p).updRp p (fun r => { r with circ := r.com, pcells := r.cells, closed := true, carry := [], mend := [], tent := none, hint := none }) →
      v = u.updRo p (fun r => { r with slot := 0, dues := [], own := 0, begun := none, begins := [], skips := 0, stopPend := false, stopNow := false, edge := none, wait := [], ask := none, lib := if u.roState p = 4 then r.lib else none }) →
      exec (.rotCtlGo p) s = .next ((((((v.put F.RTU_ROT_STAT_ACT_BUF (1 - s.actBuf p) p).put F.RTU_ROT_STAT_STATE 1 p).put F.RTU_ROT_STAT_SYNC_OK 0 p).put F.RTU_ROT_STAT_SWAP_PEND 0 p).put F.RTU_ROT_CYC_N 0 p).startLoad p).settle)) ∧
  (∀ (s : State) (p : Part),
    s.Ready →
    (s.roState p = 0 → exec (.rotCtlStop p) s = .next (s.updRo p (fun r => { r with ask := none }))) ∧
    (s.roState p = 4 → s.slotOpen p = false → exec (.rotCtlStop p) s = .next ((s.rotIdle p).updRo p (fun r => { r with ask := none })).settle) ∧
    (s.roState p = 4 → s.slotOpen p = true → exec (.rotCtlStop p) s = .next ((s.updRo p (fun r => { r with stopNow := true })).updRo p (fun r => { r with ask := none }))) ∧
    (s.roState p ≠ 0 → s.roState p ≠ 4 → s.slotCommit p = none → exec (.rotCtlStop p) s = .next ((s.updRo p (fun r => { r with stopPend := true })).updRo p (fun r => { r with ask := none }))) ∧
    (∀ c f, s.roState p ≠ 0 → s.roState p ≠ 4 → s.slotCommit p = some c → c.slot = some f → f.slot = 0 → s.reached (c.at - 200000) = false →
      exec (.rotCtlStop p) s = .next (((s.unfire c).updRo p (fun r => { r with stopPend := true })).updRo p (fun r => { r with ask := none })).settle)) ∧
  (∀ (s : State) (p : Part),
    s.Ready →
    (s.roState p = 0 → exec (.rotCtlStopNow p) s = .next (s.updRo p (fun r => { r with ask := none }))) ∧
    (∀ u : State, s.roState p ≠ 0 → u = s.callBack p → u.slotOpen p = false → exec (.rotCtlStopNow p) s = .next ((u.rotIdle p).updRo p (fun r => { r with ask := none })).settle) ∧
    (∀ u : State, s.roState p ≠ 0 → u = s.callBack p → u.slotOpen p = true →
      exec (.rotCtlStopNow p) s = .next ((u.updRo p (fun r => { r with stopNow := true, dues := [], wait := [] })).updRo p (fun r => { r with ask := none })).settle)) ∧
  (∀ (s : State) (p : Part),
    s.Ready →
    (s.on F.RTU_ROT_STAT_SWAP_PEND p = true → exec (.rotCtlSwap p) s = .next (s.put F.RTU_ROT_STAT_BUF_REFUSED 1 p)) ∧
    (s.on F.RTU_ROT_STAT_SWAP_PEND p = false → s.bufErr p (1 - s.actBuf p) ≠ 0 →
      exec (.rotCtlSwap p) s = .next ((s.put F.RTU_ROT_STAT_SWAP_ERR (s.bufErr p (1 - s.actBuf p)) p).put F.RTU_ROT_STAT_BUF_REFUSED 1 p)) ∧
    (s.on F.RTU_ROT_STAT_SWAP_PEND p = false → s.bufErr p (1 - s.actBuf p) = 0 → exec (.rotCtlSwap p) s = .next (s.put F.RTU_ROT_STAT_SWAP_PEND 1 p)) ∧
    exec (.rotCtlSwapCancel p) s = .next (s.put F.RTU_ROT_STAT_SWAP_PEND 0 p)) ∧
  (∀ (s : State) (p : Part) (b : Fin 2) (w : Fin 132) (v : W32),
    s.Ready →
    exec (.rotorBufWrite p b w v) s = .next (if s.bufOpen p b then s.sput F.RTU_ROT_BUF_VAL (v.toNat &&& bufMask w) p (b * 256 + w) else s.put F.RTU_ROT_STAT_BUF_REFUSED 1 p)) ∧
  (∀ (s : State) (p : Part) (v : W32),
    s.Ready →
    (s.roState p ≠ 0 → exec (.rotCfgWrite p v) s = .next (s.put F.RTU_ROT_STAT_BUF_REFUSED 1 p)) ∧
    (s.roState p = 0 → exec (.rotCfgWrite p v) s = .next (s.each [F.RTU_ROT_CFG_SRC, F.RTU_ROT_CFG_EDGE, F.RTU_ROT_CFG_SKIP_MAX, F.RTU_ROT_CFG_LOSTN, F.RTU_ROT_CFG_SYNC_DLY]
      (fun s f => s.sput f (bitsOf v.toNat f.lo f.wd) p))))

/-- Rotor slots, SYNC_IN edges, learning windows and the repetitive tables. Parts of it are the model's choices: log entries 1, 7, 14, 15, 19, 39, 56, 57, 58, 60, 61, 62, 63, 123, 134, 209, 224, 241, 242. -/
def Obligations.RotorSlots : Prop :=
  (∀ (s : State) (p : Part),
    s.Ready →
    (s.roRuns p = false → (s.ro p).stopNow = false → exec (.rotorSlotLoad p) s = .next s) ∧
    ((s.ro p).stopNow = true → s.slotOpen p = false → exec (.rotorSlotLoad p) s = .next (s.rotIdle p).settle) ∧
    (s.roRuns p = true → (s.ro p).stopNow = false → (s.ro p).loading = false → s.slotCommit p = none → s.rtu.arms = [] →
      exec (.rotorSlotLoad p) s = .next ((s.applySwap p).startLoad p).settle)) ∧
  (∀ (s : State) (p : Part) (loads : List (Ao × BitVec 16)) (pw tc : Nat) (rest : List Nat) (ov : Bool),
    s.clk = Clk.running →
    (s.syncDecide p).rotStart p = s →
    s.roRuns p = true →
    (s.ro p).stopNow = false →
    (s.ro p).stopPend = false →
    (s.ro p).dues = tc :: rest →
    s.reached ((tc : Int) - 500000) = true →
    (ov = s.overCaps (((List.range 16).filter s.live).map (fun t => s.currentAfter t (2 ^ p.val))).sum (s.powerAfter (2 ^ p.val) (loads.map (fun e => (e.1.val, e.2.toNat))) pw)) →
    (s.loadReady p = false → exec (.rotorSkipCheck p loads pw) s = .next (s.skipSlot p tc true []).settle) ∧
    (s.loadReady p = true → (s.ro p).nogo ≠ [] → exec (.rotorSkipCheck p loads pw) s = .next (s.skipSlot p tc false (s.ro p).nogo).settle) ∧
    (s.loadReady p = true → (s.ro p).nogo = [] → ov = true →
      exec (.rotorSkipCheck p loads pw) s = .next ((s.put F.PWR_STAT_CAP_NOGO 1).skipSlot p tc false []).settle) ∧
    (s.loadReady p = true → (s.ro p).nogo = [] → ov = false → exec (.rotorSkipCheck p loads pw) s = .next (s.fireSlot p tc).settle)) ∧
  (∀ (s : State) (p : Part) (e : SyncEdge) (u : State),
    s.clk = Clk.running →
    s.Quiet →
    (s.tm.edges.find? (fun e => e.part = p.val) = some e) →
    u = { s with tm.edges := s.tm.edges.erase e } →
    (u.roSync p = false ∨ u.roRuns p = false ∨ (u.ro p).stopNow = true ∨ u.g F.RTU_ROT_CFG_EDGE p ≠ (if e.rising then 0 else 1) →
      exec (.rotorSyncEdge p) s = .next u) ∧
    (u.roSync p = true → u.roRuns p = true → (u.ro p).stopNow = false → u.g F.RTU_ROT_CFG_EDGE p = (if e.rising then 0 else 1) →
      exec (.rotorSyncEdge p) s = .next (u.syncEdge p e.ps).settle)) ∧
  (∀ (s : State) (p : Part) (e d tc : Nat) (u : State),
    s.clk = Clk.running →
    (s.ro p).edge = some (e, d) →
    s.roSync p = true →
    s.g F.RTU_ROT_CFG_LOSTN p ≠ 0 →
    s.roState p = 1 ∨ s.roState p = 2 →
    s.reached ((e + 1000 * s.g F.RTU_ROT_CFG_LOSTN p * d : Nat) : Int) = true →
    tc = e + 1000 * s.g F.RTU_ROT_CFG_LOSTN p * d + 1000 * s.syncDly p →
    (u = (((((s.put F.RTU_ROT_STAT_LOST 1 p).put F.RTU_ROT_STAT_SYNC_OK 0 p).put F.RTU_ROT_STAT_STATE 3 p).setEnd p tc).updRo p (fun r => { r with dues := r.dues ++ [tc] })).raise 37 p) →
    exec (.syncLost p) s = .next (if u.reached (tc : Int) then u.rotJump p false else u).settle) ∧
  (∀ (s : State) (p : Part),
    s.Ready →
    exec (.learnWindowOpen p) s = .next (s.updRo p (fun r => { r with wins := r.wins.map (fun w =>
      if w.since = none ∧ s.reached w.openAt = true ∧ (∀ e, w.endAt = some e → s.reached e = false) then { w with since := some s.cycle } else w) }))) ∧
  (∀ (s : State) (p : Part) (w : Win) (rest : List Win) (e : Nat),
    s.clk = Clk.running →
    s.Quiet →
    (s.ro p).wins = w :: rest →
    w.endAt = some e →
    s.reached e = true →
    (s.on F.RTU_ROT_LRN_LEN p = false ∨ s.on F.RTU_ROT_LRN_FRZ p = true →
      exec (.learnWindowClose p) s = .next (s.updRo p (fun r => { r with wins := r.wins.erase w }))) ∧
    (s.on F.RTU_ROT_LRN_LEN p = true → s.on F.RTU_ROT_LRN_FRZ p = false → exec (.learnWindowClose p) s = .next
      ((s.each ((s.ownedBy p).filter (fun a => w.tiles.contains (aoTile a) && s.learner a)) (fun s a => s.learnOne p w.slot a (Map.look w.acc a (0, 0)))).updRo p
        (fun r => { r with wins := r.wins.erase w })).settle)) ∧
  (∀ (s : State) (p : Part) (v : W32),
    s.Ready →
    (s.lrnLate p v.toNat = [] → exec (.lrnWrite p v) s = .next (s.each [F.RTU_ROT_LRN_LEN, F.RTU_ROT_LRN_FRZ, F.RTU_ROT_LRN_GSH, F.RTU_ROT_LRN_MINN, F.RTU_ROT_LRN_GAMMA]
      (fun s f => s.sput f (bitsOf v.toNat f.lo f.wd) p))) ∧
    (∀ t l, s.lrnLate p v.toNat = [(t, l)] → exec (.lrnWrite p v) s = .next (((s.put F.RTU_ROT_LSTAT_OVC 1 p).leErr (t * 1280) 0 srcReg 0).leOvercommit t l).settle) ∧
    (bitOf v.toNat 0 = false → s.lrnLate p v.toNat = [])) ∧
  (∀ (s : State) (p : Part),
    s.Ready →
    exec (.learnClr p) s = .next (if s.on F.RTU_ROT_LRN_LEN p = true ∧ s.on F.RTU_ROT_LRN_FRZ p = false then s else s.put F.RTU_ROT_LSTAT_CLR_BUSY 1 p)) ∧
  (∀ (s : State) (p : Part),
    s.Ready →
    s.on F.RTU_ROT_LSTAT_CLR_BUSY p = true →
    ∃ t : State, exec (.learnClrDone p) s = .next (t.put F.RTU_ROT_LSTAT_CLR_BUSY 0 p) ∧ t = { s with mem := t.mem } ∧
      ∀ k, Memory.rd t.mem k = if repBase ≤ k ∧ k < repBase + 20480 * 128 ∧ s.ona F.AO_CFG_OWNED ((k - repBase) / 128) = true ∧ s.ga F.AO_CFG_PART ((k - repBase) / 128) = p
        then 0 else Memory.rd s.mem k) ∧
  (∀ (s u : State) (a : Ao) (off : Fin 128) (bs : List Byte),
    s.Ready →
    u = s.grant 1 0 →
    exec (.repTableWrite a off bs) s = .next (if s.ona F.AO_CFG_OWNED a = true ∧ s.pm (s.ga F.AO_CFG_PART a) = 2 ∧ s.on F.RTU_ROT_LRN_LEN (s.ga F.AO_CFG_PART a) = true ∧
      s.on F.RTU_ROT_LRN_FRZ (s.ga F.AO_CFG_PART a) = false then u.put F.RTU_ROT_LSTAT_WR_REFUSED 1 (s.ga F.AO_CFG_PART a)
      else u.wrBs (repBase + a * 128 + off) (bs.take (128 - off))))

/-- Obrix arithmetic and logic: results, flags and the step to the next instruction on every member in step. Parts of it are the model's choices: log entry 80. -/
def Obligations.ObrixAlu : Prop :=
  (∀ (s : State) (h : Thr) (i : OIns) (g : Nat → State → Bool) (f : Nat → State → State),
    s.Ready →
    i.opc = 1 →
    (g = fun _ _ => true) →
    (f = fun m s => (s.updTh m h (fun x => (x.setG i.d (x.gr i.s1 + x.gr i.s2)).setStatus (flagsAdd x.status (x.gr i.s1) (x.gr i.s2)))).retire m h i) →
    inStep h i g f s.lock s = true →
    exec (.add h) s = .next (s.each s.lock (fun s m => f m s))) ∧
  (∀ (s : State) (h : Thr) (i : OIns) (g : Nat → State → Bool) (f : Nat → State → State),
    s.Ready →
    i.opc = 2 →
    (g = fun _ _ => true) →
    (f = fun m s => (s.updTh m h (fun x => (x.setG i.d (x.gr i.s1 - x.gr i.s2)).setStatus (flagsSub x.status (x.gr i.s1) (x.gr i.s2)))).retire m h i) →
    inStep h i g f s.lock s = true →
    exec (.sub h) s = .next (s.each s.lock (fun s m => f m s))) ∧
  (∀ (s : State) (h : Thr) (i : OIns) (g : Nat → State → Bool) (f : Nat → State → State),
    s.Ready →
    i.opc = 3 →
    (g = fun _ _ => true) →
    (f = fun m s => (s.updTh m h (fun x => (x.setG i.d (x.gr i.s1 &&& x.gr i.s2)).setStatus (flagsLogic x.status (x.gr i.s1 &&& x.gr i.s2)))).retire m h i) →
    inStep h i g f s.lock s = true →
    exec (.and h) s = .next (s.each s.lock (fun s m => f m s))) ∧
  (∀ (s : State) (h : Thr) (i : OIns) (g : Nat → State → Bool) (f : Nat → State → State),
    s.Ready →
    i.opc = 4 →
    (g = fun _ _ => true) →
    (f = fun m s => (s.updTh m h (fun x => (x.setG i.d (x.gr i.s1 ||| x.gr i.s2)).setStatus (flagsLogic x.status (x.gr i.s1 ||| x.gr i.s2)))).retire m h i) →
    inStep h i g f s.lock s = true →
    exec (.or h) s = .next (s.each s.lock (fun s m => f m s))) ∧
  (∀ (s : State) (h : Thr) (i : OIns) (g : Nat → State → Bool) (f : Nat → State → State),
    s.Ready →
    i.opc = 5 →
    (g = fun _ _ => true) →
    (f = fun m s => (s.updTh m h (fun x => (x.setG i.d (x.gr i.s1 ^^^ x.gr i.s2)).setStatus (flagsLogic x.status (x.gr i.s1 ^^^ x.gr i.s2)))).retire m h i) →
    inStep h i g f s.lock s = true →
    exec (.xor h) s = .next (s.each s.lock (fun s m => f m s))) ∧
  (∀ (s : State) (h : Thr) (i : OIns) (g : Nat → State → Bool) (f : Nat → State → State),
    s.Ready →
    i.opc = 6 →
    (g = fun _ _ => true) →
    (f = fun m s => (s.updTh m h (fun x => (x.setG i.d ((x.gr i.s1) <<< (shiftBy x i))).setStatus (flagsShift x.status ((x.gr i.s1) <<< (shiftBy x i)) (shlOut (x.gr i.s1) (shiftBy x i))))).retire m h i) →
    inStep h i g f s.lock s = true →
    exec (.shl h) s = .next (s.each s.lock (fun s m => f m s))) ∧
  (∀ (s : State) (h : Thr) (i : OIns) (g : Nat → State → Bool) (f : Nat → State → State),
    s.Ready →
    i.opc = 7 →
    (g = fun _ _ => true) →
    (f = fun m s => (s.updTh m h (fun x => (x.setG i.d ((x.gr i.s1) >>> (shiftBy x i))).setStatus (flagsShift x.status ((x.gr i.s1) >>> (shiftBy x i)) (shrOut (x.gr i.s1) (shiftBy x i))))).retire m h i) →
    inStep h i g f s.lock s = true →
    exec (.shr h) s = .next (s.each s.lock (fun s m => f m s))) ∧
  (∀ (s : State) (h : Thr) (i : OIns) (g : Nat → State → Bool) (f : Nat → State → State),
    s.Ready →
    i.opc = 8 →
    (g = fun _ _ => true) →
    (f = fun m s => (s.updTh m h (fun x => (x.setG i.d (BitVec.sshiftRight (x.gr i.s1) (shiftBy x i))).setStatus (flagsShift x.status (BitVec.sshiftRight (x.gr i.s1) (shiftBy x i)) (shrOut (x.gr i.s1) (shiftBy x i))))).retire m h i) →
    inStep h i g f s.lock s = true →
    exec (.sar h) s = .next (s.each s.lock (fun s m => f m s))) ∧
  (∀ (s : State) (h : Thr) (i : OIns) (g : Nat → State → Bool) (f : Nat → State → State),
    s.Ready →
    i.opc = 9 →
    (g = fun _ _ => decide (i.func = 0)) →
    (f = fun m s => (s.updTh m h (fun x => (x.setG i.d (x.gr i.s1 * x.gr i.s2)).setStatus (flagsMulLow x.status (x.gr i.s1) (x.gr i.s2)))).retire m h i) →
    inStep h i g f s.lock s = true →
    exec (.mul h) s = .next (s.each s.lock (fun s m => f m s))) ∧
  (∀ (s : State) (h : Thr) (i : OIns) (g : Nat → State → Bool) (f : Nat → State → State),
    s.Ready →
    i.opc = 9 →
    (g = fun _ _ => decide (i.func = 1)) →
    (f = fun m s => (s.updTh m h (fun x => (x.setG i.d (BitVec.ofInt 64 ((x.gr i.s1).toInt * (x.gr i.s2).toInt / 2 ^ 64))).setStatus (withCV (withZN x.status (BitVec.ofInt 64 ((x.gr i.s1).toInt * (x.gr i.s2).toInt / 2 ^ 64))) false false))).retire m h i) →
    inStep h i g f s.lock s = true →
    exec (.mul h) s = .next (s.each s.lock (fun s m => f m s))) ∧
  (∀ (s : State) (h : Thr) (i : OIns) (g : Nat → State → Bool) (f : Nat → State → State),
    s.Ready →
    i.opc = 9 →
    (g = fun _ _ => decide (i.func = 2)) →
    (f = fun m s => (s.updTh m h (fun x => (x.setG i.d (BitVec.ofNat 64 ((x.gr i.s1).toNat * (x.gr i.s2).toNat / 2 ^ 64))).setStatus (withCV (withZN x.status (BitVec.ofNat 64 ((x.gr i.s1).toNat * (x.gr i.s2).toNat / 2 ^ 64))) false false))).retire m h i) →
    inStep h i g f s.lock s = true →
    exec (.mul h) s = .next (s.each s.lock (fun s m => f m s))) ∧
  (∀ (s : State) (h : Thr) (i : OIns) (g : Nat → State → Bool) (f : Nat → State → State),
    s.Ready →
    i.opc = 10 →
    (g = fun _ _ => true) →
    (f = fun m s => (s.updTh m h (fun x => (x.setG i.d (if below i.func (x.gr i.s2) (x.gr i.s1) then x.gr i.s2 else x.gr i.s1)).setStatus (withZN x.status (if below i.func (x.gr i.s2) (x.gr i.s1) then x.gr i.s2 else x.gr i.s1)))).retire m h i) →
    inStep h i g f s.lock s = true →
    exec (.min h) s = .next (s.each s.lock (fun s m => f m s))) ∧
  (∀ (s : State) (h : Thr) (i : OIns) (g : Nat → State → Bool) (f : Nat → State → State),
    s.Ready →
    i.opc = 11 →
    (g = fun _ _ => true) →
    (f = fun m s => (s.updTh m h (fun x => (x.setG i.d (if below i.func (x.gr i.s1) (x.gr i.s2) then x.gr i.s2 else x.gr i.s1)).setStatus (withZN x.status (if below i.func (x.gr i.s1) (x.gr i.s2) then x.gr i.s2 else x.gr i.s1)))).retire m h i) →
    inStep h i g f s.lock s = true →
    exec (.max h) s = .next (s.each s.lock (fun s m => f m s))) ∧
  (∀ (s : State) (h : Thr) (i : OIns) (g : Nat → State → Bool) (f : Nat → State → State),
    s.Ready →
    i.opc = 12 ∧ i.d = 0 →
    (g = fun _ _ => true) →
    (f = fun m s => (s.updTh m h (fun x => x.setStatus (flagsSub x.status (x.gr i.s1) (x.gr i.s2)))).retire m h i) →
    inStep h i g f s.lock s = true →
    exec (.cmp h) s = .next (s.each s.lock (fun s m => f m s))) ∧
  (∀ (s : State) (h : Thr) (i : OIns) (g : Nat → State → Bool) (f : Nat → State → State),
    s.Ready →
    i.opc = 16 →
    (g = fun _ _ => true) →
    (f = fun m s => (s.updTh m h (fun x => (x.setG i.d (x.gr i.s1 + BitVec.ofInt 64 i.imm)).setStatus (flagsAdd x.status (x.gr i.s1) (BitVec.ofInt 64 i.imm)))).retire m h i) →
    inStep h i g f s.lock s = true →
    exec (.addi h) s = .next (s.each s.lock (fun s m => f m s))) ∧
  (∀ (s : State) (h : Thr) (i : OIns) (g : Nat → State → Bool) (f : Nat → State → State),
    s.Ready →
    i.opc = 17 →
    (g = fun _ _ => true) →
    (f = fun m s => (s.updTh m h (fun x => (x.setG i.d (x.gr i.s1 &&& BitVec.ofNat 64 i.uimm)).setStatus (flagsLogic x.status (x.gr i.s1 &&& BitVec.ofNat 64 i.uimm)))).retire m h i) →
    inStep h i g f s.lock s = true →
    exec (.andi h) s = .next (s.each s.lock (fun s m => f m s))) ∧
  (∀ (s : State) (h : Thr) (i : OIns) (g : Nat → State → Bool) (f : Nat → State → State),
    s.Ready →
    i.opc = 18 →
    (g = fun _ _ => true) →
    (f = fun m s => (s.updTh m h (fun x => (x.setG i.d (x.gr i.s1 ||| BitVec.ofNat 64 i.uimm)).setStatus (flagsLogic x.status (x.gr i.s1 ||| BitVec.ofNat 64 i.uimm)))).retire m h i) →
    inStep h i g f s.lock s = true →
    exec (.ori h) s = .next (s.each s.lock (fun s m => f m s))) ∧
  (∀ (s : State) (h : Thr) (i : OIns) (g : Nat → State → Bool) (f : Nat → State → State),
    s.Ready →
    i.opc = 19 →
    (g = fun _ _ => true) →
    (f = fun m s => (s.updTh m h (fun x => (x.setG i.d (if i.len = 8 then BitVec.ofNat 64 i.uimm <<< 32 else BitVec.ofInt 64 i.imm <<< 14)).setStatus x.status)).retire m h i) →
    inStep h i g f s.lock s = true →
    exec (.lui h) s = .next (s.each s.lock (fun s m => f m s)))

/-- Obrix loads and stores: what they read and write when aligned and mapped, and what a misaligned or unmapped one raises. Parts of it are the model's choices: log entries 1, 15, 41, 80, 93, 123, 246. -/
def Obligations.ObrixMemory : Prop :=
  (∀ (s : State) (h : Thr) (i : OIns) (g : Nat → State → Bool) (f : Nat → State → State),
    s.Ready →
    i.opc = 32 →
    (g = fun m s => (memAddr (s.th m h) i % 1 = 0) && (match threadAddr h (memAddr (s.th m h) i) with | some (k, _) => (s.ueIn k 1).isNone | none => false)) →
    (f = fun m s => ((s.thrAsk m ((threadAddr h (memAddr (s.th m h) i)).getD (0, false)).1 1).updTh m h (fun x => x.setG i.d (BitVec.ofNat 64 (leNat (s.bar2Bytes (((threadAddr h (memAddr (s.th m h) i)).getD (0, false)).1) 1))))).retire m h i) →
    inStep h i g f s.lock s = true →
    exec (.ld8 h) s = .next (s.each s.lock (fun s m => f m s)).settle) ∧
  (∀ (s : State) (h : Thr) (i : OIns) (g : Nat → State → Bool) (f : Nat → State → State),
    s.Ready →
    i.opc = 33 →
    (g = fun m s => (memAddr (s.th m h) i % 2 = 0) && (match threadAddr h (memAddr (s.th m h) i) with | some (k, _) => (s.ueIn k 2).isNone | none => false)) →
    (f = fun m s => ((s.thrAsk m ((threadAddr h (memAddr (s.th m h) i)).getD (0, false)).1 2).updTh m h (fun x => x.setG i.d (BitVec.ofNat 64 (leNat (s.bar2Bytes (((threadAddr h (memAddr (s.th m h) i)).getD (0, false)).1) 2))))).retire m h i) →
    inStep h i g f s.lock s = true →
    exec (.ld16 h) s = .next (s.each s.lock (fun s m => f m s)).settle) ∧
  (∀ (s : State) (h : Thr) (i : OIns) (g : Nat → State → Bool) (f : Nat → State → State),
    s.Ready →
    i.opc = 34 →
    (g = fun m s => (memAddr (s.th m h) i % 4 = 0) && (match threadAddr h (memAddr (s.th m h) i) with | some (k, _) => (s.ueIn k 4).isNone | none => false)) →
    (f = fun m s => ((s.thrAsk m ((threadAddr h (memAddr (s.th m h) i)).getD (0, false)).1 4).updTh m h (fun x => x.setG i.d (BitVec.ofNat 64 (leNat (s.bar2Bytes (((threadAddr h (memAddr (s.th m h) i)).getD (0, false)).1) 4))))).retire m h i) →
    inStep h i g f s.lock s = true →
    exec (.ld32 h) s = .next (s.each s.lock (fun s m => f m s)).settle) ∧
  (∀ (s : State) (h : Thr) (i : OIns) (g : Nat → State → Bool) (f : Nat → State → State),
    s.Ready →
    i.opc = 35 →
    (g = fun m s => (memAddr (s.th m h) i % 8 = 0) && (match threadAddr h (memAddr (s.th m h) i) with | some (k, _) => (s.ueIn k 8).isNone | none => false)) →
    (f = fun m s => ((s.thrAsk m ((threadAddr h (memAddr (s.th m h) i)).getD (0, false)).1 8).updTh m h (fun x => x.setG i.d (BitVec.ofNat 64 (leNat (s.bar2Bytes (((threadAddr h (memAddr (s.th m h) i)).getD (0, false)).1) 8))))).retire m h i) →
    inStep h i g f s.lock s = true →
    exec (.ld64 h) s = .next (s.each s.lock (fun s m => f m s)).settle) ∧
  (∀ (s : State) (h : Thr) (i : OIns) (g : Nat → State → Bool) (f : Nat → State → State),
    s.Ready →
    i.opc = 36 →
    (g = fun m s => (memAddr (s.th m h) i % 1 = 0) && (match threadAddr h (memAddr (s.th m h) i) with | some (_, w) => w | none => false)) →
    (f = fun m s => (s.when (s.holds 0 m) (fun s => ((s.grant (thrTarget (dmBase h + memAddr (s.th m h) i)) (2 + m)).dmStore (dmBase h + memAddr (s.th m h) i) (leBytes 1 ((s.th m h).gr i.d).toNat)).passEffect 0 (leBytes 8 (memAddr (s.th m h) i) ++ leBytes 1 ((s.th m h).gr i.d).toNat))).retire m h i) →
    inStep h i g f s.lock s = true →
    exec (.st8 h) s = .next (s.each s.lock (fun s m => f m s))) ∧
  (∀ (s : State) (h : Thr) (i : OIns) (g : Nat → State → Bool) (f : Nat → State → State),
    s.Ready →
    i.opc = 37 →
    (g = fun m s => (memAddr (s.th m h) i % 2 = 0) && (match threadAddr h (memAddr (s.th m h) i) with | some (_, w) => w | none => false)) →
    (f = fun m s => (s.when (s.holds 0 m) (fun s => ((s.grant (thrTarget (dmBase h + memAddr (s.th m h) i)) (2 + m)).dmStore (dmBase h + memAddr (s.th m h) i) (leBytes 2 ((s.th m h).gr i.d).toNat)).passEffect 0 (leBytes 8 (memAddr (s.th m h) i) ++ leBytes 2 ((s.th m h).gr i.d).toNat))).retire m h i) →
    inStep h i g f s.lock s = true →
    exec (.st16 h) s = .next (s.each s.lock (fun s m => f m s))) ∧
  (∀ (s : State) (h : Thr) (i : OIns) (g : Nat → State → Bool) (f : Nat → State → State),
    s.Ready →
    i.opc = 38 →
    (g = fun m s => (memAddr (s.th m h) i % 4 = 0) && (match threadAddr h (memAddr (s.th m h) i) with | some (_, w) => w | none => false)) →
    (f = fun m s => (s.when (s.holds 0 m) (fun s => ((s.grant (thrTarget (dmBase h + memAddr (s.th m h) i)) (2 + m)).dmStore (dmBase h + memAddr (s.th m h) i) (leBytes 4 ((s.th m h).gr i.d).toNat)).passEffect 0 (leBytes 8 (memAddr (s.th m h) i) ++ leBytes 4 ((s.th m h).gr i.d).toNat))).retire m h i) →
    inStep h i g f s.lock s = true →
    exec (.st32 h) s = .next (s.each s.lock (fun s m => f m s))) ∧
  (∀ (s : State) (h : Thr) (i : OIns) (g : Nat → State → Bool) (f : Nat → State → State),
    s.Ready →
    i.opc = 39 →
    (g = fun m s => (memAddr (s.th m h) i % 8 = 0) && (match threadAddr h (memAddr (s.th m h) i) with | some (_, w) => w | none => false)) →
    (f = fun m s => (s.when (s.holds 0 m) (fun s => ((s.grant (thrTarget (dmBase h + memAddr (s.th m h) i)) (2 + m)).dmStore (dmBase h + memAddr (s.th m h) i) (leBytes 8 ((s.th m h).gr i.d).toNat)).passEffect 0 (leBytes 8 (memAddr (s.th m h) i) ++ leBytes 8 ((s.th m h).gr i.d).toNat))).retire m h i) →
    inStep h i g f s.lock s = true →
    exec (.st64 h) s = .next (s.each s.lock (fun s m => f m s))) ∧
  (∀ (s : State) (h : Thr) (i : OIns) (g : Nat → State → Bool) (f : Nat → State → State),
    s.Ready →
    i.opc = 35 →
    (g = fun m s => (memAddr (s.th m h) i % 8 != 0)) →
    (f = fun m s => s.excAt m h 2 0 (some (memAddr (s.th m h) i))) →
    inStep h i g f s.lock s = true →
    exec (.ld64 h) s = .next (s.each s.lock (fun s m => f m s))) ∧
  (∀ (s : State) (h : Thr) (i : OIns) (g : Nat → State → Bool) (f : Nat → State → State),
    s.Ready →
    i.opc = 35 →
    (g = fun m s => (memAddr (s.th m h) i % 8 = 0) && (threadAddr h (memAddr (s.th m h) i)).isNone) →
    (f = fun m s => s.excAt m h 3 0 (some (memAddr (s.th m h) i))) →
    inStep h i g f s.lock s = true →
    exec (.ld64 h) s = .next (s.each s.lock (fun s m => f m s))) ∧
  (∀ (s : State) (h : Thr) (i : OIns) (g : Nat → State → Bool) (f : Nat → State → State),
    s.Ready →
    i.opc = 38 →
    (g = fun m s => (memAddr (s.th m h) i % 4 != 0)) →
    (f = fun m s => s.excAt m h 2 0 (some (memAddr (s.th m h) i))) →
    inStep h i g f s.lock s = true →
    exec (.st32 h) s = .next (s.each s.lock (fun s m => f m s))) ∧
  (∀ (s : State) (h : Thr) (i : OIns) (g : Nat → State → Bool) (f : Nat → State → State),
    s.Ready →
    i.opc = 38 →
    (g = fun m s => (memAddr (s.th m h) i % 4 = 0) && (threadAddr h (memAddr (s.th m h) i)).isNone) →
    (f = fun m s => s.excAt m h 3 0 (some (memAddr (s.th m h) i))) →
    inStep h i g f s.lock s = true →
    exec (.st32 h) s = .next (s.each s.lock (fun s m => f m s)))

/-- Obrix branches, jumps, TRAP, control registers, HALT, NOP and FENCE.M. Parts of it are the model's choices: log entries 66, 80. -/
def Obligations.ObrixControl : Prop :=
  (∀ (s : State) (h : Thr) (i : OIns) (g : Nat → State → Bool) (f : Nat → State → State),
    s.Ready →
    i.opc = 48 →
    (g = fun m s => condHolds (s.th m h).status i.d && decide (0 ≤ braTarget (s.th m h) i) && s.inCode h (braTarget (s.th m h) i).toNat) →
    (f = fun m s => s.retireTo m h (braTarget (s.th m h) i).toNat) →
    inStep h i g f s.lock s = true →
    exec (.br h) s = .next (s.each s.lock (fun s m => f m s))) ∧
  (∀ (s : State) (h : Thr) (i : OIns) (g : Nat → State → Bool) (f : Nat → State → State),
    s.Ready →
    i.opc = 48 →
    (g = fun m s => !condHolds (s.th m h).status i.d) →
    (f = fun m s => s.retire m h i) →
    inStep h i g f s.lock s = true →
    exec (.br h) s = .next (s.each s.lock (fun s m => f m s))) ∧
  (∀ (s : State) (h : Thr) (i : OIns) (g : Nat → State → Bool) (f : Nat → State → State),
    s.Ready →
    i.opc = 48 →
    (g = fun m s => condHolds (s.th m h).status i.d && !(decide (0 ≤ braTarget (s.th m h) i) && s.inCode h (braTarget (s.th m h) i).toNat)) →
    (f = fun m s => s.excAt m h 4 0 (some (ofSigned 64 (braTarget (s.th m h) i)))) →
    inStep h i g f s.lock s = true →
    exec (.br h) s = .next (s.each s.lock (fun s m => f m s))) ∧
  (∀ (s : State) (h : Thr) (i : OIns) (g : Nat → State → Bool) (f : Nat → State → State),
    s.Ready →
    i.opc = 49 →
    (g = fun m s => decide (0 ≤ braTarget (s.th m h) i) && s.inCode h (braTarget (s.th m h) i).toNat) →
    (f = fun m s => (s.updTh m h (fun x => x.setG i.d (BitVec.ofNat 64 (x.pc + i.len)))).retireTo m h (braTarget (s.th m h) i).toNat) →
    inStep h i g f s.lock s = true →
    exec (.jal h) s = .next (s.each s.lock (fun s m => f m s))) ∧
  (∀ (s : State) (h : Thr) (i : OIns) (g : Nat → State → Bool) (f : Nat → State → State),
    s.Ready →
    i.opc = 50 ∧ i.func = 0 →
    (g = fun m s => decide (((s.th m h).gr i.s1).toNat % 4 = 0) && s.inCode h ((s.th m h).gr i.s1).toNat) →
    (f = fun m s => (s.updTh m h (fun x => x.setG i.d (BitVec.ofNat 64 (x.pc + i.len)))).retireTo m h ((s.th m h).gr i.s1).toNat) →
    inStep h i g f s.lock s = true →
    exec (.jr h) s = .next (s.each s.lock (fun s m => f m s))) ∧
  (∀ (s : State) (h : Thr) (i : OIns) (g : Nat → State → Bool) (f : Nat → State → State),
    s.Ready →
    i.opc = 50 ∧ i.func = 0 →
    (g = fun m s => ((s.th m h).gr i.s1).toNat % 4 != 0) →
    (f = fun m s => s.excAt m h 2 0 (some ((s.th m h).gr i.s1).toNat)) →
    inStep h i g f s.lock s = true →
    exec (.jr h) s = .next (s.each s.lock (fun s m => f m s))) ∧
  (∀ (s : State) (h : Thr) (ok : Bool) (i : OIns) (g : Nat → State → Bool) (f : Nat → State → State),
    s.Ready →
    i.opc = 50 ∧ i.func = 1 →
    (g = fun m s => decide (((s.th m h).gr i.s1).toNat % 4 = 0) && s.inCode h ((s.th m h).gr i.s1).toNat && !bitOf (s.th m h).status bitMT) →
    (f = fun m s => (s.updTh m h (fun x => x.jrE x.status (x.pc + i.len) i.d)).retireTo m h ((s.th m h).gr i.s1).toNat) →
    inStep h i g f s.lock s = true →
    exec (.jrE h ok) s = .next (s.each s.lock (fun s m => f m s))) ∧
  (∀ (s : State) (h : Thr) (i : OIns) (g : Nat → State → Bool) (f : Nat → State → State),
    s.Ready →
    i.opc = 56 →
    (g = fun _ _ => true) →
    (f = fun m s => s.exc m h { code := 7, info := i.func, epc := (s.th m h).pc + 4 }) →
    inStep h i g f s.lock s = true →
    exec (.trap h) s = .next (s.each s.lock (fun s m => f m s))) ∧
  (∀ (s : State) (h : Thr) (i : OIns) (g : Nat → State → Bool) (f : Nat → State → State),
    s.Ready →
    i.opc = 57 →
    (g = fun _ _ => true) →
    (f = fun m s => s.retire m h i) →
    inStep h i g f s.lock s = true →
    exec (.fenceM h) s = .next (s.each s.lock (fun s m => f m s))) ∧
  (∀ (s : State) (h : Thr) (i : OIns) (g : Nat → State → Bool) (f : Nat → State → State),
    s.Ready →
    i.opc = 63 →
    (g = fun _ _ => true) →
    (f = fun m s => s.retire m h i) →
    inStep h i g f s.lock s = true →
    exec (.nop h) s = .next (s.each s.lock (fun s m => f m s))) ∧
  (∀ (s : State) (h : Thr) (i : OIns) (g : Nat → State → Bool) (f : Nat → State → State),
    s.Ready →
    i.opc = 62 →
    (g = fun _ _ => true) →
    (f = fun m s => (s.retire m h i).thHalt m h 3) →
    inStep h i g f s.lock s = true →
    exec (.halt h) s = .next (s.each s.lock (fun s m => f m s))) ∧
  (∀ (s : State) (h : Thr) (i : OIns) (g : Nat → State → Bool) (f : Nat → State → State),
    s.Ready →
    i.opc = 58 →
    (g = fun m s => (s.scrRead m h i.func).isSome) →
    (f = fun m s => (s.updTh m h (fun x => x.setG i.d (BitVec.ofNat 64 ((s.scrRead m h i.func).getD 0)))).retire m h i) →
    inStep h i g f s.lock s = true →
    exec (.scrr h) s = .next (s.each s.lock (fun s m => f m s))) ∧
  (∀ (s : State) (h : Thr) (i : OIns) (g : Nat → State → Bool) (f : Nat → State → State),
    s.Ready →
    i.opc = 58 →
    (g = fun m s => (s.scrRead m h i.func).isNone) →
    (f = fun m s => s.excAt m h 1 58) →
    inStep h i g f s.lock s = true →
    exec (.scrr h) s = .next (s.each s.lock (fun s m => f m s))) ∧
  (∀ (s : State) (h : Thr) (i : OIns) (g : Nat → State → Bool) (f : Nat → State → State),
    s.Ready →
    i.opc = 59 ∧ i.func ≠ 5 ∧ i.func ≠ 64 →
    (g = fun _ _ => (scrMask i.func).isSome) →
    (f = fun m s => (s.updTh m h (fun x => x.setScr i.func ((x.gr i.s1).toNat &&& (scrMask i.func).getD 0))).retire m h i) →
    inStep h i g f s.lock s = true →
    exec (.scrw h) s = .next (s.each s.lock (fun s m => f m s))) ∧
  (∀ (s : State) (h : Thr) (i : OIns) (g : Nat → State → Bool) (f : Nat → State → State),
    s.Ready →
    i.opc = 59 ∧ i.func = 5 →
    (g = fun m s => bitOf ((s.th m h).gr i.s1).toNat 1 == (s.th m h).inD2) →
    (f = fun m s => (s.updTh m h (fun x => x.setScr scrMode ((((s.th m h).gr i.s1).toNat &&& 1) + 2 * b2n (s.th m h).inD2))).retire m h i) →
    inStep h i g f s.lock s = true →
    exec (.scrw h) s = .next (s.each s.lock (fun s m => f m s))) ∧
  (∀ (s : State) (h : Thr) (i : OIns) (g : Nat → State → Bool) (f : Nat → State → State),
    s.Ready →
    i.opc = 59 →
    (g = fun _ _ => (scrMask i.func).isNone) →
    (f = fun m s => s.excAt m h 1 59) →
    inStep h i g f s.lock s = true →
    exec (.scrw h) s = .next (s.each s.lock (fun s m => f m s)))

/-- Obrix time instructions: TIMEGET, TIMEADD, WAITT and TRACE. Parts of it are the model's choices: log entries 15, 75, 80. -/
def Obligations.ObrixTime : Prop :=
  (∀ (s : State) (h : Thr) (i : OIns) (g : Nat → State → Bool) (f : Nat → State → State),
    s.Ready →
    i.opc = 64 ∧ i.func % 8 = 0 →
    (g = fun _ _ => true) →
    (f = fun m s => (s.updTh m h (fun x => x.setT i.d (s.tbNow (i.func / 8 % 4)))).retire m h i) →
    inStep h i g f s.lock s = true →
    exec (.timegetNow h) s = .next (s.each s.lock (fun s m => f m s))) ∧
  (∀ (s : State) (h : Thr) (i : OIns) (g : Nat → State → Bool) (f : Nat → State → State),
    s.Ready →
    i.opc = 64 ∧ i.func % 8 = 1 →
    (g = fun _ _ => true) →
    (f = fun m s => (s.updTh m h (fun x => x.setG i.d (BitVec.ofNat 64 (getField (x.tr i.s1) 48 48)))).retire m h i) →
    inStep h i g f s.lock s = true →
    exec (.timegetSec h) s = .next (s.each s.lock (fun s m => f m s))) ∧
  (∀ (s : State) (h : Thr) (i : OIns) (g : Nat → State → Bool) (f : Nat → State → State),
    s.Ready →
    i.opc = 64 ∧ i.func % 8 = 2 →
    (g = fun _ _ => true) →
    (f = fun m s => (s.updTh m h (fun x => x.setG i.d (BitVec.ofNat 64 (getField (x.tr i.s1) 18 30)))).retire m h i) →
    inStep h i g f s.lock s = true →
    exec (.timegetNs h) s = .next (s.each s.lock (fun s m => f m s))) ∧
  (∀ (s : State) (h : Thr) (i : OIns) (g : Nat → State → Bool) (f : Nat → State → State),
    s.Ready →
    i.opc = 64 ∧ i.func % 8 = 3 →
    (g = fun _ _ => true) →
    (f = fun m s => (s.updTh m h (fun x => x.setG i.d (BitVec.ofNat 64 (getField (x.tr i.s1) 2 16)))).retire m h i) →
    inStep h i g f s.lock s = true →
    exec (.timegetFrac h) s = .next (s.each s.lock (fun s m => f m s))) ∧
  (∀ (s : State) (h : Thr) (i : OIns) (g : Nat → State → Bool) (f : Nat → State → State),
    s.Ready →
    i.opc = 64 ∧ i.func % 8 = 4 →
    (g = fun _ _ => true) →
    (f = fun m s => (s.updTh m h (fun x => x.setG i.d (BitVec.ofNat 64 (getField (x.tr i.s1) 0 2)))).retire m h i) →
    inStep h i g f s.lock s = true →
    exec (.timegetTbn h) s = .next (s.each s.lock (fun s m => f m s))) ∧
  (∀ (s : State) (h : Thr) (i : OIns) (g : Nat → State → Bool) (f : Nat → State → State),
    s.Ready →
    i.opc = 64 ∧ i.func % 8 = 5 →
    (g = fun m s => decide (tvBase ((s.th m h).tr i.s1) = tvBase ((s.th m h).tr i.s2))) →
    (f = fun m s => (s.updTh m h (fun x => x.setG i.d (BitVec.ofInt 64 (timeDiff (x.tr i.s1) (x.tr i.s2))))).retire m h i) →
    inStep h i g f s.lock s = true →
    exec (.timegetDiff h) s = .next (s.each s.lock (fun s m => f m s))) ∧
  (∀ (s : State) (h : Thr) (i : OIns) (g : Nat → State → Bool) (f : Nat → State → State),
    s.Ready →
    i.opc = 64 ∧ i.func % 8 = 5 →
    (g = fun m s => !decide (tvBase ((s.th m h).tr i.s1) = tvBase ((s.th m h).tr i.s2))) →
    (f = fun m s => s.excAt m h 6 5) →
    inStep h i g f s.lock s = true →
    exec (.timegetDiff h) s = .next (s.each s.lock (fun s m => f m s))) ∧
  (∀ (s : State) (h : Thr) (i : OIns) (g : Nat → State → Bool) (f : Nat → State → State),
    s.Ready →
    i.opc = 65 ∧ i.func % 8 = 0 →
    (g = fun m s => (tvMake ((tvFine ((s.th m h).tr i.s1) : Int) + (if i.len = 8 then i.imm else ((s.th m h).gr i.s2).toInt) * 65536) (tvBase ((s.th m h).tr i.s1))).isSome) →
    (f = fun m s => (s.updTh m h (fun x => x.setT i.d ((tvMake ((tvFine ((s.th m h).tr i.s1) : Int) + (if i.len = 8 then i.imm else ((s.th m h).gr i.s2).toInt) * 65536) (tvBase ((s.th m h).tr i.s1))).getD 0))).retire m h i) →
    inStep h i g f s.lock s = true →
    exec (.timeadd h) s = .next (s.each s.lock (fun s m => f m s))) ∧
  (∀ (s : State) (h : Thr) (i : OIns) (g : Nat → State → Bool) (f : Nat → State → State),
    s.Ready →
    i.opc = 65 ∧ i.func % 8 = 0 →
    (g = fun m s => (tvMake ((tvFine ((s.th m h).tr i.s1) : Int) + (if i.len = 8 then i.imm else ((s.th m h).gr i.s2).toInt) * 65536) (tvBase ((s.th m h).tr i.s1))).isNone) →
    (f = fun m s => s.excAt m h 6 0) →
    inStep h i g f s.lock s = true →
    exec (.timeadd h) s = .next (s.each s.lock (fun s m => f m s))) ∧
  (∀ (s : State) (h : Thr) (i : OIns) (g : Nat → State → Bool) (f : Nat → State → State),
    s.Ready →
    i.opc = 65 ∧ i.func % 8 = 1 →
    (g = fun m s => ((if 10 ^ 9 ≤ ((s.th m h).gr i.s2).toNat then none else tvMake ((((((s.th m h).gr i.s1).toNat * 10 ^ 9 + ((s.th m h).gr i.s2).toNat) * 65536 : Nat)) : Int) (i.func / 8 % 4))).isSome) →
    (f = fun m s => (s.updTh m h (fun x => x.setT i.d (((if 10 ^ 9 ≤ ((s.th m h).gr i.s2).toNat then none else tvMake ((((((s.th m h).gr i.s1).toNat * 10 ^ 9 + ((s.th m h).gr i.s2).toNat) * 65536 : Nat)) : Int) (i.func / 8 % 4))).getD 0))).retire m h i) →
    inStep h i g f s.lock s = true →
    exec (.timeaddSet h) s = .next (s.each s.lock (fun s m => f m s))) ∧
  (∀ (s : State) (h : Thr) (i : OIns) (g : Nat → State → Bool) (f : Nat → State → State),
    s.Ready →
    i.opc = 65 ∧ i.func % 8 = 1 →
    (g = fun m s => ((if 10 ^ 9 ≤ ((s.th m h).gr i.s2).toNat then none else tvMake ((((((s.th m h).gr i.s1).toNat * 10 ^ 9 + ((s.th m h).gr i.s2).toNat) * 65536 : Nat)) : Int) (i.func / 8 % 4))).isNone) →
    (f = fun m s => s.excAt m h 6 1) →
    inStep h i g f s.lock s = true →
    exec (.timeaddSet h) s = .next (s.each s.lock (fun s m => f m s))) ∧
  (∀ (s : State) (h : Thr) (i : OIns) (g : Nat → State → Bool) (f : Nat → State → State),
    s.Ready →
    i.opc = 65 ∧ i.func % 8 = 4 →
    (g = fun m s => ((if ((s.th m h).gr i.s2).toNat = 0 || 10 ^ 9 % ((s.th m h).gr i.s2).toNat != 0 then none else tvMake (((ceilDiv (tvFine ((s.th m h).tr i.s1)) (((s.th m h).gr i.s2).toNat * 65536) * (((s.th m h).gr i.s2).toNat * 65536) : Nat)) : Int) (tvBase ((s.th m h).tr i.s1)))).isSome) →
    (f = fun m s => (s.updTh m h (fun x => x.setT i.d (((if ((s.th m h).gr i.s2).toNat = 0 || 10 ^ 9 % ((s.th m h).gr i.s2).toNat != 0 then none else tvMake (((ceilDiv (tvFine ((s.th m h).tr i.s1)) (((s.th m h).gr i.s2).toNat * 65536) * (((s.th m h).gr i.s2).toNat * 65536) : Nat)) : Int) (tvBase ((s.th m h).tr i.s1)))).getD 0))).retire m h i) →
    inStep h i g f s.lock s = true →
    exec (.timeaddRound h) s = .next (s.each s.lock (fun s m => f m s))) ∧
  (∀ (s : State) (h : Thr) (i : OIns) (g : Nat → State → Bool) (f : Nat → State → State),
    s.Ready →
    i.opc = 65 ∧ i.func % 8 = 4 →
    (g = fun m s => ((if ((s.th m h).gr i.s2).toNat = 0 || 10 ^ 9 % ((s.th m h).gr i.s2).toNat != 0 then none else tvMake (((ceilDiv (tvFine ((s.th m h).tr i.s1)) (((s.th m h).gr i.s2).toNat * 65536) * (((s.th m h).gr i.s2).toNat * 65536) : Nat)) : Int) (tvBase ((s.th m h).tr i.s1)))).isNone) →
    (f = fun m s => s.excAt m h 6 4) →
    inStep h i g f s.lock s = true →
    exec (.timeaddRound h) s = .next (s.each s.lock (fun s m => f m s))) ∧
  (∀ (s : State) (h : Thr) (i : OIns) (g : Nat → State → Bool) (f : Nat → State → State),
    s.Ready →
    i.opc = 65 ∧ i.func % 8 = 2 →
    (g = fun _ _ => true) →
    (f = fun m s => (s.updTh m h (fun x => x.setT i.d (x.tr i.s1))).retire m h i) →
    inStep h i g f s.lock s = true →
    exec (.timeaddMov h) s = .next (s.each s.lock (fun s m => f m s))) ∧
  (∀ (s : State) (h : Thr) (i : OIns) (g : Nat → State → Bool) (f : Nat → State → State),
    s.Ready →
    i.opc = 65 ∧ i.func % 8 = 3 →
    (g = fun m s => decide (tvBase ((s.th m h).tr i.s1) = tvBase ((s.th m h).tr i.s2))) →
    (f = fun m s => (s.updTh m h (fun x => x.setStatus (flagsTime x.status (tvFine (x.tr i.s1)) (tvFine (x.tr i.s2))))).retire m h i) →
    inStep h i g f s.lock s = true →
    exec (.timeaddCmp h) s = .next (s.each s.lock (fun s m => f m s))) ∧
  (∀ (s : State) (h : Thr) (i : OIns) (g : Nat → State → Bool) (f : Nat → State → State),
    s.Ready →
    i.opc = 65 ∧ i.func % 8 = 3 →
    (g = fun m s => !decide (tvBase ((s.th m h).tr i.s1) = tvBase ((s.th m h).tr i.s2))) →
    (f = fun m s => s.excAt m h 6 3) →
    inStep h i g f s.lock s = true →
    exec (.timeaddCmp h) s = .next (s.each s.lock (fun s m => f m s))) ∧
  (∀ (s : State) (h : Thr) (i : OIns) (g : Nat → State → Bool) (f : Nat → State → State),
    s.Ready →
    i.opc = 66 →
    (g = fun m s => s.tvPast ((s.th m h).tr i.s1)) →
    (f = fun m s => (s.updTh m h (fun x => x.setStatus (withL x.status true))).retire m h i) →
    inStep h i g f s.lock s = true →
    exec (.waitt h) s = .next (s.each s.lock (fun s m => f m s))) ∧
  (∀ (s : State) (h : Thr) (i : OIns) (g : Nat → State → Bool) (f : Nat → State → State),
    s.Ready →
    i.opc = 66 →
    (g = fun m s => !s.tvPast ((s.th m h).tr i.s1)) →
    (f = fun m s => (s.updTh m h (fun x => { x with wait := some (.time ((s.th m h).tr i.s1)) })).setThState m h 2) →
    inStep h i g f s.lock s = true →
    exec (.waitt h) s = .next (s.each s.lock (fun s m => f m s))) ∧
  (∀ (s : State) (h : Thr) (i : OIns) (g : Nat → State → Bool) (f : Nat → State → State),
    s.Ready →
    i.opc = 69 →
    (g = fun _ _ => true) →
    (f = fun m s => (s.when (bitOf (s.g F.SEQ_TRC_CTL_THR_EN m) h) (fun s => s.trace m h i.func ((s.th m h).gr i.s1))).retire m h i) →
    inStep h i g f s.lock s = true →
    exec (.trace h) s = .next (s.each s.lock (fun s m => f m s)))

/-- Waking of WAITT and WAITE, events, EVRAISE, D2 code, thread control and the Program Store. Parts of it are the model's choices: log entries 1, 12, 14, 15, 38, 65, 67, 68, 75, 80, 93, 123, 134, 175, 228. -/
def Obligations.Threads : Prop :=
  (∀ (s : State) (h : Thr) (t : RWord),
    s.Ready →
    (s.leadTh h).wait = some (.time t) →
    (s.hasLead = true → s.tvReached t = true → exec (.waittWake h) s = .next (s.wake h (fun s => s.lAll h false)).settle) ∧
    (s.tvReached t = false → exec (.waittWake h) s = .next s)) ∧
  (∀ (s : State) (h : Thr) (i : OIns) (mask : Nat),
    s.clk = Clk.running →
    i.opc = 0x43 →
    s.leadIssues h i = true →
    mask = ((s.leadTh h).gr i.s1).toNat →
    (mask &&& s.g F.EVT_PERM_WATCH_VAL h ≠ mask → exec (.waite h) s = .next (s.excAll h 0x03 0 none).settle) ∧
    (mask &&& s.g F.EVT_PERM_WATCH_VAL h = mask → s.watched h &&& mask ≠ 0 →
      exec (.waite h) s = .next ((s.waiteEnd h i.d (s.watched h &&& mask) (bitOf i.func 0)).retireAll h i).settle) ∧
    (mask &&& s.g F.EVT_PERM_WATCH_VAL h = mask → s.watched h &&& mask = 0 → bitOf i.func 1 = false →
      exec (.waite h) s = .next (s.waitAll h (.event i.d mask (bitOf i.func 0) none) true).settle)) ∧
  (∀ (s : State) (h : Thr) (d mask : Nat) (clear : Bool),
    s.Ready →
    (s.leadTh h).wait = some (.event d mask clear none) →
    (s.hasLead = true → s.watched h &&& mask ≠ 0 → exec (.waiteWake h) s = .next (s.wake h (fun s => s.waiteEnd h d (s.watched h &&& mask) clear)).settle) ∧
    (s.watched h &&& mask = 0 → exec (.waiteWake h) s = .next s)) ∧
  (∀ (s : State) (h : Thr) (i : OIns) (c : Nat),
    s.clk = Clk.running →
    i.opc = 0x44 →
    s.leadIssues h i = true →
    (c = if 64 ≤ i.func then i.func % 64 else ((s.leadTh h).gr i.s1).toNat % 64) →
    (bitOf (s.g F.EVT_PERM_RAISE_VAL h) c = true → exec (.evraise h) s = .next ((s.occur (256 + c)).retireAll h i).settle) ∧
    (bitOf (s.g F.EVT_PERM_RAISE_VAL h) c = false → exec (.evraise h) s = .next (s.excAll h 0x03 0 none).settle)) ∧
  (∀ (s : State) (h : Thr) (m : Nat),
    s.Ready →
    s.lock = [m] →
    (s.takeable m h = 0 → exec (.eventEntry h) s = .next s) ∧
    (s.takeable m h ≠ 0 → (s.th m h).inD2 = false → (s.thState m h = 1 ∧ (s.th m h).wait = none) ∨ s.thState m h = 2 →
      exec (.eventEntry h) s = .next ((((s.abandon m h).updTh m h (fun x => x.enter { code := 0x10, info := lowestBit (s.takeable m h), epc := x.pc })).setThState m h 1).put F.SEQ_THR_STAT_CAUSE 0x10 m h))) ∧
  (∀ (s : State) (h : Thr) (m : Nat) (e : D2Effect) (u : State),
    s.clk = Clk.running →
    s.lock = [m] →
    s.d2Runs m h = true →
    s.fetchBad h (s.th m h).pc (s.th m h).pc = none →
    e.switching = false →
    (u = s.updTh m h (fun x => let y := e.t.foldl (fun x y => x.setT y.1.val y.2) (e.g.foldl (fun x y => x.setG y.1.val y.2) x); { y.setStatus (y.status / 32 * 32 + e.flags.toNat) with d2 := {} })) →
    exec (.d2Instruction h e) s = .next ((u.when (u.holds 0 m) (fun w =>
      ((w.when (!e.stores.isEmpty) (fun x => x.grant 4 (2 + m))).dmStores (e.stores.map (fun y => (dmBase h + y.1.val, y.2)))).passEffect 0 (e.stores.map (fun y => y.2)))).retireTo m h e.pc.toNat).settle) ∧
  (∀ (s : State) (h : Thr) (m : Nat) (upc : BitVec 13) (step : W64) (ut : List W64) (tt : List RWord) (f : List Byte),
    s.Ready →
    s.lock = [m] →
    f = frameBytes (s.th m h) (s.microMatch 0 m upc.toNat) step.toNat ut tt →
    (s.takeable m h = 0 → exec (.d2MicroTrap h upc step ut tt) s = .next s) ∧
    (s.takeable m h ≠ 0 → s.d2Runs m h = true → s.fetchBad h (s.th m h).pc (s.th m h).pc = none → exec (.d2MicroTrap h upc step ut tt) s = .next
      (((s.when (s.holds 0 m) (fun u => ((u.grant 4 (2 + m)).dmStore (frameAddr h (s.th m h)) f).passEffect 0 f)).updTh m h (fun x =>
        { (x.enter { code := 0x10, info := lowestBit (s.takeable m h), epc := x.pc }).setStatus
            (orBit (x.enter { code := 0x10, info := lowestBit (s.takeable m h), epc := x.pc }).status bitMT) with d2 := {} })).put F.SEQ_THR_STAT_CAUSE 0x10 m h).settle)) ∧
  (∀ (s : State) (h : Thr),
    s.Ready →
    (s.quiet = true → exec (.threadStart h) s = .next s) ∧
    (s.quiet = false → exec (.threadStart h) s = .next (s.each s.lock (fun s m => s.startTh m h)).settle) ∧
    (∀ m, s.lock = [m] → s.thState m h = 1 → (s.th m h).wait = none → exec (.threadStop h) s = .next (s.thStop m h) ∧ exec (.threadRedirect h) s = .next (s.thRedirect m h)) ∧
    (∀ m x, s.lock = [m] → s.thState m h = 1 → (s.th m h).wait = some x → exec (.threadStop h) s = .next (s.updTh m h (fun x => { x with stop := true })) ∧
      exec (.threadRedirect h) s = .next (s.updTh m h (fun x => { x with redirect := true }))) ∧
    (∀ m, s.lock = [m] → s.thState m h = 0 → exec (.threadStop h) s = .next s ∧ exec (.threadRedirect h) s = .next s)) ∧
  (∀ (s : State) (off : BitVec 21) (bs : List Byte),
    s.Ready →
    ((List.range bs.length).any (fun i => s.runningCode (off.toNat + i)) = true →
      exec (.psWrite off bs) s = .next (((s.grant 2 0).put F.SEQ_STAT_PS_REFUSED 1 0).put F.SEQ_STAT_PS_REFUSED 1 1)) ∧
    ((List.range bs.length).any (fun i => s.runningCode (off.toNat + i)) = false →
      exec (.psWrite off bs) s = .next ((s.grant 2 0).wrBs (progBase + off.toNat) (bs.take (0x200000 - off.toNat))))) ∧
  (∀ (s x : State) (m : Member) (v : W64) (a : Nat) (w : State → State),
    s.Ready →
    x = s.grant 0 0 →
    a = dmBase (s.g F.SEQ_DMWIN_ADDR_PART m) + 8 * s.g F.SEQ_DMWIN_ADDR_WORD m →
    s.on F.SEQ_DMWIN_ADDR_INC m = true →
    (w = fun u => u.put F.SEQ_DMWIN_ADDR_WORD (s.g F.SEQ_DMWIN_ADDR_WORD m + 1) m) →
    exec (.dmwinDataAccess m 0 false v) s = .next (w { dropLatch 0 (dmwinKey m) x with readData := s.rdN a 8 }) ∧
    exec (.dmwinDataAccess m 1 false v) s = .next (w { x.setLatch 0 (dmwinKey m) (BitVec.ofNat 96 (s.rdN a 8)) with readData := s.rdN a 4 }) ∧
    (∀ y, Map.find s.latches (latchKey 0 (dmwinKey m)) = some y →
      exec (.dmwinDataAccess m 2 false v) s = .next { dropLatch 0 (dmwinKey m) x with readData := getField y 32 32 }) ∧
    (Map.find s.latches (latchKey 0 (dmwinKey m)) = none → exec (.dmwinDataAccess m 2 false v) s = .next { x with readData := s.rdN (a + 4) 4 }) ∧
    exec (.dmwinDataAccess m 0 true v) s = .next (w { (dropLatch 0 (dmwinKey m) x).wrBs a (leBytes 8 v.toNat) with
      seq.dmHost := s.seq.dmHost.filter (fun e => e.2 = s.cycle) ++ (List.range 8).map (fun i => (a + i, s.cycle)) })) ∧
  (∀ (s : State) (h : Thr) (v : W32),
    s.Ready →
    (512 < bitsOf v.toNat 0 9 + bitsOf v.toNat 16 10 ∨ s.thState s.lead h ≠ 0 →
      exec (.thrCodeWrite h false v) s = .next ((s.put F.SEQ_STAT_CFG_REFUSED 1 0).put F.SEQ_STAT_CFG_REFUSED 1 1)) ∧
    (bitsOf v.toNat 0 9 + bitsOf v.toNat 16 10 ≤ 512 → s.thState s.lead h = 0 →
      exec (.thrCodeWrite h false v) s = .next ((s.sput F.SEQ_THR_CODE_BASE (bitsOf v.toNat 0 9) h).sput F.SEQ_THR_CODE_SIZE (bitsOf v.toNat 16 10) h)) ∧
    (bitsOf v.toNat 0 9 + bitsOf v.toNat 16 10 ≤ 512 →
      exec (.thrCodeWrite h true v) s = .next ((s.sput F.SEQ_THR_NCODE_BASE (bitsOf v.toNat 0 9) h).sput F.SEQ_THR_NCODE_SIZE (bitsOf v.toNat 16 10) h)))

/-- Obrix switching: ADMIT.POP, CPL.POST, ROUTE, PERM.LOAD and the waits for them. Parts of it are the model's choices: log entries 7, 43, 64, 70, 77, 78, 79, 80, 89, 246. -/
def Obligations.SwitchRequests : Prop :=
  (∀ (s : State) (h : Thr) (i : OIns),
    s.clk = Clk.running →
    i.opc = 128 →
    s.leadIssues h i = true →
    allModes.contains (s.pm h) = true →
    (s.gOf h i.s1 % 64 ≠ 0 → exec (.admitPop h) s = .next (s.excAll h 2 0 (some (s.gOf h i.s1))).settle) ∧
    (s.gOf h i.s1 % 64 = 0 → 0x40000 ≤ s.gOf h i.s1 → exec (.admitPop h) s = .next (s.excAll h 3 0 (some (s.gOf h i.s1))).settle) ∧
    (∀ y, s.gOf h i.s1 % 64 = 0 → s.gOf h i.s1 < 0x40000 → s.popSlot h = some y → exec (.admitPop h) s = .next ((s.popTo h i.d (s.gOf h i.s1) y).retireAll h i).settle) ∧
    (s.gOf h i.s1 % 64 = 0 → s.gOf h i.s1 < 0x40000 → s.popSlot h = none → i.func = 0 → exec (.admitPop h) s = .next (((s.wrAll h i.d 0).zAll h true).retireAll h i).settle) ∧
    (s.gOf h i.s1 % 64 = 0 → s.gOf h i.s1 < 0x40000 → s.popSlot h = none → i.func = 1 → exec (.admitPop h) s = .next (s.waitAll h (.pop i.d (s.gOf h i.s1)) true).settle)) ∧
  (∀ (s : State) (h : Thr) (d a : Nat),
    s.Ready →
    (s.leadTh h).wait = some (.pop d a) →
    (∀ y, s.hasLead = true → s.popSlot h = some y → exec (.admitPopWake h) s = .next (s.wake h (fun s => s.popTo h d a y)).settle) ∧
    (s.popSlot h = none → exec (.admitPopWake h) s = .next s)) ∧
  (∀ (s : State) (h : Thr) (i : OIns),
    s.clk = Clk.running →
    i.opc = 129 ∧ i.func = 0 →
    s.leadIssues h i = true →
    allModes.contains (s.pm h) = true →
    (bitsOf (s.gOf h i.s2) 8 24 ≠ 0 ∨ 9 < s.gOf h i.s2 % 256 → exec (.cplPost h) s = .next (s.swExc h swArg i).settle) ∧
    (bitsOf (s.gOf h i.s2) 8 24 = 0 → s.gOf h i.s2 % 256 ≤ 9 → exec (.cplPost h) s = .next (s.withRec h (s.gOf h i.s1) i (fun _ x u => (u.closeRec h x ((s.gOf h i.s2) % 256) ((s.gOf h i.s2) / 2 ^ 32)).retireAll h i)).settle)) ∧
  (∀ (s : State) (h : Thr) (i : OIns),
    s.clk = Clk.running →
    i.opc = 129 ∧ i.func = 1 →
    s.leadIssues h i = true →
    allModes.contains (s.pm h) = true →
    (s.gOf h i.s2 ≠ 0 → exec (.cplPostDefer h) s = .next (s.swExc h swArg i).settle) ∧
    (s.gOf h i.s2 = 0 → exec (.cplPostDefer h) s = .next (s.withRec h (s.gOf h i.s1) i (fun _ x s => (if x.orphan then s.dropRec h x.slot else if s.mayDefer h x.req then s.deferReq h x else s.closeRec h x 4 0).retireAll h i)).settle)) ∧
  (∀ (s : State) (h : Thr) (i : OIns),
    s.clk = Clk.running →
    i.opc = 130 →
    s.leadIssues h i = true →
    allModes.contains (s.pm h) = true →
    (s.jobOut h = true → exec (.route h) s = .next (s.swExc h swBusy i).settle) ∧
    (∀ bs x u, s.jobOut h = false → s.swRead h (s.gOf h i.s1) 64 64 = .ok bs → u = s.swAsk h (s.gOf h i.s1) 64 → u.findRec h (leNat ((bs.drop 12).take 2)) = some x → x.req.typ ≠ 1 → x.req.typ ≠ 2 → exec (.route h) s = .next (u.swExc h swRec i).settle) ∧
    (∀ bs x u, s.jobOut h = false → s.swRead h (s.gOf h i.s1) 64 64 = .ok bs → u = s.swAsk h (s.gOf h i.s1) 64 → u.findRec h (leNat ((bs.drop 12).take 2)) = some x → x.req.typ = 2 → u.recOps h bs x = none → u.pm h ≠ 2 → exec (.route h) s = .next ((u.failJob h { ring := some x.req.ring, handle := some x.handle, priv := x.req.priv, pol := 0, ops := [], perm := none } 4).retireAll h i).settle) ∧
    (∀ bs x ops u, s.jobOut h = false → s.swRead h (s.gOf h i.s1) 64 64 = .ok bs → u = s.swAsk h (s.gOf h i.s1) 64 → u.findRec h (leNat ((bs.drop 12).take 2)) = some x → x.req.typ = 1 → u.recOps h bs x = some ops → exec (.route h) s = .next ((u.submit h { ring := some x.req.ring, handle := some x.handle, priv := x.req.priv, pol := 1, ops := ops, perm := none }).retireAll h i).settle)) ∧
  (∀ (s : State) (h : Thr) (i : OIns),
    s.clk = Clk.running →
    i.opc = 131 →
    s.leadIssues h i = true →
    allModes.contains (s.pm h) = true →
    (s.jobOut h = false → exec (.routeWait h) s = .next ((s.routeResult h i.d).retireAll h i).settle) ∧
    (s.jobOut h = true → i.func = 1 → exec (.routeWait h) s = .next (((s.wrAll h i.d 0xFF).zAll h false).retireAll h i).settle) ∧
    (s.jobOut h = true → i.func = 0 → exec (.routeWait h) s = .next (s.waitAll h (.route i.d) true).settle)) ∧
  (∀ (s : State) (h : Thr) (d : Nat),
    s.Ready →
    (s.leadTh h).wait = some (.route d) →
    (s.hasLead = true → s.jobOut h = false → exec (.routeWaitWake h) s = .next (s.wake h (fun s => s.routeResult h d)).settle) ∧
    (¬(s.jobOut h = false) → exec (.routeWaitWake h) s = .next s)) ∧
  (∀ (s : State) (h : Thr) (i : OIns),
    s.clk = Clk.running →
    i.opc = 132 →
    s.leadIssues h i = true →
    allModes.contains (s.pm h) = true →
    (s.jobOut h = true → exec (.permLoad h) s = .next (s.swExc h swBusy i).settle) ∧
    (s.jobOut h = false → i.s2 = 0 → exec (.permLoad h) s = .next ((s.submit h { ring := none, handle := none, priv := false, pol := 0, ops := [], perm := some (s.gOf h i.s1 % 4096), full := decide (i.func = 1) }).retireAll h i).settle) ∧
    (∀ bs x u, s.jobOut h = false → i.s2 ≠ 0 → s.swRead h (s.gOf h i.s2) 64 64 = .ok bs → u = s.swAsk h (s.gOf h i.s2) 64 → u.findRec h (leNat ((bs.drop 12).take 2)) = some x → exec (.permLoad h) s = .next ((u.submit h { ring := some x.req.ring, handle := some x.handle, priv := x.req.priv, pol := 2, ops := [], perm := some (s.gOf h i.s1 % 4096), full := decide (i.func = 1) }).retireAll h i).settle))

/-- Obrix switching: PLAN.CLR, SH.SET, SH.LIST, STAGE and its forms, ARM, COMMIT.WAIT and ABORT. Parts of it are the model's choices: log entries 7, 15, 38, 52, 53, 64, 71, 72, 74, 76, 80, 246. -/
def Obligations.SwitchStaging : Prop :=
  (∀ (s : State) (h : Thr) (i : OIns),
    s.clk = Clk.running →
    i.opc = 133 ∧ i.func = 0 →
    s.leadIssues h i = true →
    hscm.contains (s.pm h) = true →
    (s.armed h = true → exec (.planClr h) s = .next (s.swExc h swArmed i).settle) ∧
    (s.armed h = false → s.jobOut h = true → exec (.planClr h) s = .next (s.swExc h swBusy i).settle) ∧
    (s.armed h = false → s.jobOut h = false → exec (.planClr h) s = .next ((s.planClr h).retireAll h i).settle)) ∧
  (∀ (s : State) (h : Thr) (i : OIns),
    s.clk = Clk.running →
    i.opc = 133 ∧ i.func = 1 →
    s.leadIssues h i = true →
    hscm.contains (s.pm h) = true →
    (s.armed h = true → exec (.planClrLast h) s = .next (s.swExc h swArmed i).settle) ∧
    (s.armed h = false → s.jobOut h = true → exec (.planClrLast h) s = .next (s.swExc h swBusy i).settle) ∧
    (s.armed h = false → s.jobOut h = false → exec (.planClrLast h) s = .next ((s.withdrawLast h).retireAll h i).settle)) ∧
  (∀ (s : State) (h : Thr) (i : OIns),
    s.clk = Clk.running →
    i.opc = 134 →
    s.leadIssues h i = true →
    hscm.contains (s.pm h) = true →
    (s.armed h = true → exec (.shSet h) s = .next (s.swExc h swArmed i).settle) ∧
    (s.armed h = false → 20480 ≤ s.gOf h i.s1 → exec (.shSet h) s = .next (s.swExc h swArg i).settle) ∧
    (s.armed h = false → s.gOf h i.s1 < 20480 → exec (.shSet h) s = .next (s.sendAll h i.d 3 (byTile h 1 0 [⟨s.gOf h i.s1, 0, true, s.gOf h i.s2 % 65536⟩])).settle)) ∧
  (∀ (s : State) (h : Thr) (i : OIns),
    s.clk = Clk.running →
    i.opc = 135 →
    s.leadIssues h i = true →
    hscm.contains (s.pm h) = true →
    (s.armed h = true → exec (.shList h) s = .next (s.swExc h swArmed i).settle) ∧
    (s.armed h = false → s.gOf h i.s2 = 0 ∨ 1024 < s.gOf h i.s2 → exec (.shList h) s = .next (s.swExc h swArg i).settle) ∧
    (∀ bs ws, s.armed h = false → 0 < s.gOf h i.s2 → s.gOf h i.s2 ≤ 1024 → s.swRead h (s.gOf h i.s1) (4 * s.gOf h i.s2) 8 = .ok bs → ws = (List.range (s.gOf h i.s2)).map (fun k => leNat ((bs.drop (4 * k)).take 4)) → ws.any (fun w => 20480 ≤ w % 32768) = false → exec (.shList h) s = .next ((s.swAsk h (s.gOf h i.s1) (4 * s.gOf h i.s2)).sendAll h i.d 3 (byTile h 1 0 (ws.map (fun w => ⟨w % 32768, 0, true, bitsOf w 16 16⟩)))).settle)) ∧
  (∀ (s : State) (h : Thr) (i : OIns),
    s.clk = Clk.running →
    i.opc = 136 ∧ i.func = 0 →
    s.leadIssues h i = true →
    hscm.contains (s.pm h) = true →
    (s.armed h = true → exec (.stage h) s = .next (s.swExc h swArmed i).settle) ∧
    (s.armed h = false → s.jobOut h = true → exec (.stage h) s = .next (s.swExc h swBusy i).settle) ∧
    (∀ u, s.armed h = false → s.jobOut h = false → u = s.updRp h (fun r => { r.openPlan with tent := none, hint := if r.openPlan.plan.any (fun e => !e.stg) then none else r.openPlan.hint }) → exec (.stage h) s = .next (u.sendAll h i.d 0 (byTile h 0 0 (planWords ((u.rp h).plan.filter (fun e => !e.stg))))).settle)) ∧
  (∀ (s : State) (h : Thr) (i : OIns),
    s.clk = Clk.running →
    i.opc = 136 ∧ i.func = 1 →
    s.leadIssues h i = true →
    hscm.contains (s.pm h) = true →
    (s.armed h = true → exec (.stageFill h) s = .next (s.swExc h swArmed i).settle) ∧
    (s.armed h = false → s.jobOut h = true → exec (.stageFill h) s = .next (s.swExc h swBusy i).settle) ∧
    (s.armed h = false → s.jobOut h = false → 64 ≤ s.gOf h i.s1 → exec (.stageFill h) s = .next (s.swExc h swArg i).settle) ∧
    (∀ u, s.armed h = false → s.jobOut h = false → s.gOf h i.s1 < 64 → u = s.updRp h (fun r => { r.openPlan with tent := none }) → exec (.stageFill h) s = .next (u.sendAll h i.d 1 (((u.rp h).desc.tiles).map (fun t => ({ part := h, tile := t, kind := 2, slot := u.gOf h i.s1, words := (planWords (u.rp h).plan).filter (fun w => aoTile w.ao = t) } : Burst)))).settle)) ∧
  (∀ (s : State) (h : Thr) (i : OIns),
    s.clk = Clk.running →
    i.opc = 136 ∧ i.func = 2 →
    s.leadIssues h i = true →
    hscm.contains (s.pm h) = true →
    (s.armed h = true → exec (.stageCache h) s = .next (s.swExc h swArmed i).settle) ∧
    (s.armed h = false → s.jobOut h = true → exec (.stageCache h) s = .next (s.swExc h swBusy i).settle) ∧
    (∀ u, s.armed h = false → s.jobOut h = false → s.gOf h i.s1 < 64 → u = s.updRp h RtPart.openPlan → (u.rp h).plan ≠ [] → exec (.stageCache h) s = .next (u.swExc h swPlan i).settle) ∧
    (∀ u w, s.armed h = false → s.jobOut h = false → s.gOf h i.s1 < 64 → u = s.updRp h RtPart.openPlan → (u.rp h).plan = [] → w = u.updRp h (fun r => { r with tent := none, hint := some (if bitOf (u.gOf h i.s2) 12 then some (u.gOf h i.s2 % 4096) else none), cached := u.cacheAos h (u.gOf h i.s1), cmiss := false }) → exec (.stageCache h) s = .next (w.sendAll h i.d 2 (((List.range 16).filter w.live).map (fun t => ({ part := h, tile := t, kind := 3, slot := u.gOf h i.s1 } : Burst)))).settle)) ∧
  (∀ (s : State) (h : Thr) (i : OIns) (mask : Nat),
    s.clk = Clk.running →
    i.opc = 137 →
    s.leadIssues h i = true →
    scm.contains (s.pm h) = true →
    (mask = (if s.gOf h i.s2 % 65536 = 0 then 2 ^ h.val else s.gOf h i.s2 % 65536)) →
    (s.armed h = true → exec (.arm h) s = .next (s.swExc h swArmed i).settle) ∧
    (s.armed h = false → tvBase ((s.leadTh h).tr i.s1) ≠ 0 → exec (.arm h) s = .next (s.swExc h swArg i).settle) ∧
    (s.armed h = false → tvBase ((s.leadTh h).tr i.s1) = 0 → s.staging mask = true → exec (.arm h) s = .next (s.waitAll h (.arm i.d ((s.leadTh h).tr i.s1) mask (wtOf i)) true).settle) ∧
    (s.armed h = false → tvBase ((s.leadTh h).tr i.s1) = 0 → s.staging mask = false → exec (.arm h) s = .next ((s.armEnd h i.d mask ((s.leadTh h).tr i.s1) (wtOf i)).retireAll h i).settle)) ∧
  (∀ (s : State) (h : Thr) (i : OIns),
    s.clk = Clk.running →
    i.opc = 137 →
    s.leadIssues h i = true →
    scm.contains (s.pm h) = false →
    exec (.arm h) s = .next (s.swExc h swMode i).settle) ∧
  (∀ (s : State) (h : Thr) (d : Nat) (t : RWord) (mask : Nat) (wt : Option Nat),
    s.Ready →
    (s.leadTh h).wait = some (.arm d t mask wt) →
    (s.hasLead = true → s.staging mask = false → scm.contains (s.pm h) = true → s.armed h = false → exec (.armResume h) s = .next (s.wake h (fun s => s.armEnd h d mask t wt)).settle) ∧
    (s.hasLead = true → s.staging mask = false → scm.contains (s.pm h) = true → s.armed h = true → exec (.armResume h) s = .next ((s.each s.lock (fun u m => u.setThState m h 1)).swExc h swArmed { opc := 0x89 }).settle) ∧
    (s.hasLead = true → s.staging mask = false → scm.contains (s.pm h) = false → exec (.armResume h) s = .next ((s.each s.lock (fun u m => u.setThState m h 1)).swExc h swMode { opc := 0x89 }).settle) ∧
    (¬(s.staging mask = false) → exec (.armResume h) s = .next s)) ∧
  (∀ (s : State) (h : Thr) (i : OIns),
    s.clk = Clk.running →
    i.opc = 138 →
    s.leadIssues h i = true →
    allModes.contains (s.pm h) = true →
    (s.armed h = true ∨ s.unclosed h = true → exec (.commitWait h) s = .next (s.waitAll h (.commit i.d (wtOf i)) true).settle) ∧
    (s.armed h = false ∧ s.unclosed h = false → exec (.commitWait h) s = .next ((s.commitResult h i.d (wtOf i)).retireAll h i).settle)) ∧
  (∀ (s : State) (h : Thr) (d : Nat) (wt : Option Nat),
    s.Ready →
    (s.leadTh h).wait = some (.commit d wt) →
    (s.hasLead = true → s.armed h = false ∧ s.unclosed h = false → exec (.commitWaitWake h) s = .next (s.wake h (fun s => s.commitResult h d wt)).settle) ∧
    (¬(s.armed h = false ∧ s.unclosed h = false) → exec (.commitWaitWake h) s = .next s)) ∧
  (∀ (s : State) (h : Thr) (i : OIns),
    s.clk = Clk.running →
    i.opc = 139 →
    s.leadIssues h i = true →
    hscm.contains (s.pm h) = true →
    (∀ c, s.cancellable h = some c → exec (.abort h) s = .next (((s.cancelCommit c 5).abortEffects h).swDone h i 0).settle) ∧
    (s.cancellable h = none → s.armed h = true ∨ s.unclosed h = true → exec (.abort h) s = .next (s.waitAll h (.abort i.d) true).settle) ∧
    (s.cancellable h = none → s.armed h = false ∧ s.unclosed h = false → exec (.abort h) s = .next ((s.abortEffects h).swDone h i 2).settle)) ∧
  (∀ (s : State) (h : Thr) (d : Nat),
    s.Ready →
    (s.leadTh h).wait = some (.abort d) →
    (s.hasLead = true → s.armed h = false ∧ s.unclosed h = false → exec (.abortWake h) s = .next (s.wake h (fun s => s.wrAll h d 1)).settle) ∧
    (¬(s.armed h = false ∧ s.unclosed h = false) → exec (.abortWake h) s = .next s))

/-- Obrix switching: LAW.SET, LE.BAR, SAMP.FOCUS, PART.MODE, FENCE.P, UNFENCE.P, BUDGET.CHK and the ROTOR instructions. Parts of it are the model's choices: log entries 7, 15, 25, 57, 58, 64, 69, 73, 80, 87, 154, 156, 223, 224, 228, 229, 242, 246. -/
def Obligations.SwitchLoops : Prop :=
  (∀ (s : State) (h : Thr) (i : OIns),
    s.clk = Clk.running →
    i.opc = 140 →
    s.leadIssues h i = true →
    allModes.contains (s.pm h) = true →
    (20480 ≤ s.gOf h i.s1 → exec (.lawSet h) s = .next (s.swExc h swArg i).settle) ∧
    (∀ bs v, s.gOf h i.s1 < 20480 → s.swRead h (s.gOf h i.s2) 128 64 = .ok bs → v = s.swAsk h (s.gOf h i.s2) 128 → v.ona F.AO_CFG_OWNED (s.gOf h i.s1) = false ∨ v.ga F.AO_CFG_PART (s.gOf h i.s1) ≠ h → exec (.lawSet h) s = .next (v.swDone h i 1).settle) ∧
    (∀ bs v u, s.gOf h i.s1 < 20480 → s.swRead h (s.gOf h i.s2) 128 64 = .ok bs → v = s.swAsk h (s.gOf h i.s2) 128 → v.ona F.AO_CFG_OWNED (s.gOf h i.s1) = true → v.ga F.AO_CFG_PART (s.gOf h i.s1) = h → u = v.lawUnit h i.d (s.gOf h i.s1) (i.func % 2) bs → exec (.lawSet h) s = .next (u.1.swDone h i (if u.2 then 0 else 1)).settle)) ∧
  (∀ (s : State) (h : Thr) (i : OIns),
    s.clk = Clk.running →
    i.opc = 141 →
    s.leadIssues h i = true →
    allModes.contains (s.pm h) = true →
    (i.func = 0 → s.settled ((s.rp h).exch.getD []) = true → exec (.leBar h) s = .next ((s.barEnd h i.d ((s.rp h).exch.getD [])).retireAll h i).settle) ∧
    (i.func = 0 → s.settled ((s.rp h).exch.getD []) = false → exec (.leBar h) s = .next (s.waitAll h (.bar i.d ((s.rp h).exch.getD []) none) true).settle) ∧
    (i.func = 1 → s.settled ((s.rp h).exch.getD []) = false → s.tvReached ((s.leadTh h).tr i.s2) = false → exec (.leBar h) s = .next (s.waitAll h (.bar i.d ((s.rp h).exch.getD []) (some ((s.leadTh h).tr i.s2))) true).settle)) ∧
  (∀ (s : State) (h : Thr) (d : Nat) (l : List Nat) (tmo : Option RWord),
    s.Ready →
    (s.leadTh h).wait = some (.bar d l tmo) →
    (s.hasLead = true → s.barDone l tmo = true → exec (.leBarWake h) s = .next (s.wake h (fun s => s.barEnd h d l)).settle) ∧
    (¬(s.barDone l tmo = true) → exec (.leBarWake h) s = .next s)) ∧
  (∀ (s : State) (h : Thr) (i : OIns),
    s.clk = Clk.running →
    i.opc = 145 ∧ i.func = 0 →
    s.leadIssues h i = true →
    allModes.contains (s.pm h) = true →
    (16384 ≤ s.gOf h i.s1 → exec (.sampFocus h) s = .next (s.swExc h swArg i).settle) ∧
    (s.gOf h i.s1 < 16384 → s.miOwned (s.gOf h i.s1) h = false → exec (.sampFocus h) s = .next (s.swDone h i 1).settle) ∧
    (∀ l, s.gOf h i.s1 < 16384 → s.miOwned (s.gOf h i.s1) h = true → l = (s.md (miTile (s.gOf h i.s1)) (miMadc (s.gOf h i.s1))).shadow → exec (.sampFocus h) s = .next ((s.focusAdd h (s.gOf h i.s1)).swDone h i (if 16 ≤ l.length ∧ l.contains (h.val, miPos (s.gOf h i.s1)) = false then 2 else 0)).settle)) ∧
  (∀ (s : State) (h : Thr) (i : OIns),
    s.clk = Clk.running →
    i.opc = 145 ∧ i.func = 1 →
    s.leadIssues h i = true →
    allModes.contains (s.pm h) = true →
    (exec (.sampFocusEn h) s = .next ((s.each (List.range 16) (fun u t => u.put F.MI_FOCUS_CTL_PEN (setBitTo (u.g F.MI_FOCUS_CTL_PEN t) h (decide (s.gOf h i.s1 % 2 = 1))) t)).swDone h i 0).settle)) ∧
  (∀ (s : State) (h : Thr) (i : OIns),
    s.clk = Clk.running →
    i.opc = 142 →
    s.leadIssues h i = true →
    allModes.contains (s.pm h) = true →
    (4 < s.gOf h i.s1 % 16 → exec (.partMode h) s = .next (s.swExc h swArg i).settle) ∧
    (s.gOf h i.s1 % 16 ≤ 4 → (s.askMode h (s.gOf h i.s1 % 16)).2 = false → exec (.partMode h) s = .next ((s.askMode h (s.gOf h i.s1 % 16)).1.swDone h i 1).settle) ∧
    (s.gOf h i.s1 % 16 ≤ 4 → (s.askMode h (s.gOf h i.s1 % 16)).2 = true → exec (.partMode h) s = .next (({ (s.askMode h (s.gOf h i.s1 % 16)).1 with seq.pmAt := Map.ins s.seq.pmAt h (s.cycle, s.gOf h i.s1 % 16) }).swDone h i 0).settle)) ∧
  (∀ (s : State) (h : Thr) (i : OIns),
    s.clk = Clk.running →
    i.opc = 143 →
    s.leadIssues h i = true →
    allModes.contains (s.pm h) = true →
    (bitOf (s.g F.SEQ_THR_SWP_FMASK h) (s.gOf h i.s1 % 16) = true → exec (.fenceP h) s = .next ((s.retireAll h i).fenceNow 0 (s.gOf h i.s1 % 16)).settle) ∧
    (bitOf (s.g F.SEQ_THR_SWP_FMASK h) (s.gOf h i.s1 % 16) = false → exec (.fenceP h) s = .next (s.swExc h swPerm i).settle)) ∧
  (∀ (s : State) (h : Thr) (i : OIns),
    s.clk = Clk.running →
    i.opc = 144 →
    s.leadIssues h i = true →
    allModes.contains (s.pm h) = true →
    (bitOf (s.g F.SEQ_THR_SWP_FMASK h) (s.gOf h i.s1 % 16) = true → s.partFenced (s.gOf h i.s1 % 16) = true → s.resuming 0 (s.gOf h i.s1 % 16) = false → s.on F.FLT_FENCE_STAT_BUSY = false → exec (.unfenceP h) s = .next ((s.startResume 0 (s.gOf h i.s1 % 16)).swDone h i 0).settle) ∧
    (bitOf (s.g F.SEQ_THR_SWP_FMASK h) (s.gOf h i.s1 % 16) = true → s.partFenced (s.gOf h i.s1 % 16) = false ∨ s.resuming 0 (s.gOf h i.s1 % 16) = true ∨ s.on F.FLT_FENCE_STAT_BUSY = true → exec (.unfenceP h) s = .next ((s.put F.FLT_FENCE_STAT_REFUSED 1).swDone h i 1).settle) ∧
    (bitOf (s.g F.SEQ_THR_SWP_FMASK h) (s.gOf h i.s1 % 16) = false → exec (.unfenceP h) s = .next (s.swExc h swPerm i).settle)) ∧
  (∀ (s : State) (h : Thr) (i : OIns),
    s.clk = Clk.running →
    i.opc = 146 →
    s.leadIssues h i = true →
    allModes.contains (s.pm h) = true →
    (∀ r : W64, r = BitVec.ofInt 64 (s.remain h) - (s.leadTh h).gr i.s1 → exec (.budgetChk h) s = .next (((s.each s.lock (fun u m => u.updTh m h (fun x => x.setStatus (withZN x.status r)))).wrAll h i.d r).retireAll h i).settle)) ∧
  (∀ (s : State) (h : Thr) (i : OIns),
    s.clk = Clk.running →
    i.opc = 192 →
    s.leadIssues h i = true →
    allModes.contains (s.pm h) = true →
    (∀ bs u, s.swRead h (s.gOf h i.s1) 528 8 = .ok bs → u = (s.swAsk h (s.gOf h i.s1) 528).digestDue 0 h 0 → u.bufOpen h (1 - u.actBuf h) = false → exec (.rotorLoad h) s = .next ((u.put F.RTU_ROT_STAT_BUF_REFUSED 1 h).swDone h i 1).settle) ∧
    (∀ bs u, s.swRead h (s.gOf h i.s1) 528 8 = .ok bs → u = (s.swAsk h (s.gOf h i.s1) 528).digestDue 0 h 0 → u.bufOpen h (1 - u.actBuf h) = true → i.func = 0 → exec (.rotorLoad h) s = .next ((u.rotImage h (1 - u.actBuf h) bs).swDone h i 0).settle) ∧
    (∀ bs u v, s.swRead h (s.gOf h i.s1) 528 8 = .ok bs → u = (s.swAsk h (s.gOf h i.s1) 528).digestDue 0 h 0 → u.bufOpen h (1 - u.actBuf h) = true → i.func = 1 → v = u.rotImage h (1 - u.actBuf h) bs → exec (.rotorLoad h) s = .next ((v.rotSwap h).1.swDone h i (v.rotSwap h).2).settle)) ∧
  (∀ (s : State) (h : Thr) (i : OIns),
    s.clk = Clk.running →
    i.opc = 193 →
    s.leadIssues h i = true →
    allModes.contains (s.pm h) = true →
    (exec (.rotorGo h) s = .next ((s.rotGo h).1.swDone h i (s.rotGo h).2).settle)) ∧
  (∀ (s : State) (h : Thr) (i : OIns),
    s.clk = Clk.running →
    i.opc = 194 →
    s.leadIssues h i = true →
    allModes.contains (s.pm h) = true →
    (s.roState h = 0 → exec (.rotorStop h) s = .next (s.swDone h i 1).settle) ∧
    (s.roState h ≠ 0 → i.func = 0 → exec (.rotorStop h) s = .next ((s.rotStop h).swDone h i 0).settle) ∧
    (s.roState h ≠ 0 → i.func = 1 → exec (.rotorStop h) s = .next ((s.rotStopNow h).swDone h i 0).settle) ∧
    (∀ u, s.roState h ≠ 0 → i.func = 2 ∨ i.func = 3 → u = s.rotAsk h (decide (i.func = 3)) → u.roState h = 0 → exec (.rotorStop h) s = .next (u.swDone h i 0).settle) ∧
    (∀ u, s.roState h ≠ 0 → i.func = 2 ∨ i.func = 3 → u = s.rotAsk h (decide (i.func = 3)) → u.roState h ≠ 0 → exec (.rotorStop h) s = .next (u.waitAll h (.rotor i.d) true).settle)) ∧
  (∀ (s : State) (h : Thr) (d : Nat),
    s.Ready →
    (s.leadTh h).wait = some (.rotor d) →
    (s.hasLead = true → s.roState h = 0 → exec (.rotorStopWake h) s = .next (s.wake h (fun s => s.wrAll h d 0)).settle) ∧
    (¬(s.roState h = 0) → exec (.rotorStopWake h) s = .next s))

/-- The rings: doorbells, fetching and its errors, INIT, EN, the configuration, drains and held-back messages. Parts of it are the model's choices: log entries 14, 15, 84, 86, 91, 123, 139, 141, 226. -/
def Obligations.RingQueues : Prop :=
  (∀ (s : State) (n : Ring) (v : W32),
    s.clk = Clk.running →
    (s.on F.BRS_RING_CFG_KIND n = true → exec (.rqDoorbell n v) s = .next s.settle) ∧
    (s.on F.BRS_RING_CFG_KIND n = false → v.toNat % 32768 < s.rqLen n → exec (.rqDoorbell n v) s = .next (s.sput F.BRS_RQ_PI_PI (v.toNat % 32768) n).settle) ∧
    (s.on F.BRS_RING_CFG_KIND n = false → s.rqLen n ≤ v.toNat % 32768 → exec (.rqDoorbell n v) s = .next ((s.put F.BRS_RING_STAT_DB_ERR 1 n).ringErr n).settle)) ∧
  (∀ (s : State) (n : Ring) (v : W32),
    s.clk = Clk.running →
    (v.toNat % 32768 < s.cqLen n → exec (.cqDoorbell n v) s = .next (s.sput F.BRS_CQ_CI_CI (v.toNat % 32768) n).settle) ∧
    (s.cqLen n ≤ v.toNat % 32768 → exec (.cqDoorbell n v) s = .next ((s.put F.BRS_RING_STAT_DB_ERR 1 n).ringErr n).settle)) ∧
  (∀ (s : State) (n : Ring),
    s.Ready →
    (s.on F.BRS_RING_CTL_EN n = false ∨ s.on F.BRS_RING_CFG_KIND n = true ∨ s.on F.BRS_RING_STAT_HALTED n = true ∨ (s.ring n).draining = true ∨ s.mayPost (s.ringFn n) = false ∨
        4 ≤ (openReads (s.ring n).reads).length ∨ s.readRoom 1 = false ∨ s.mode = 2 ∨ s.readLen n = 0 → exec (.ringFetchIssue n) s = .next s) ∧
    (s.on F.BRS_RING_CTL_EN n = true → s.on F.BRS_RING_CFG_KIND n = false → s.on F.BRS_RING_STAT_HALTED n = false → (s.ring n).draining = false → s.mayPost (s.ringFn n) = true →
      (openReads (s.ring n).reads).length < 4 → s.readRoom 1 = true → s.mode ≠ 2 → s.readLen n ≠ 0 →
      exec (.ringFetchIssue n) s = .next (((s.readReq (s.ringFn n) (64 * s.g F.BRS_RQ_BASE_BASE n + 64 * s.nextIdx n) (64 * s.readLen n)).grant 7 5).updRing n
        (fun r => { r with reads := r.reads ++ [⟨s.nextIdx n, s.readLen n, none⟩] })).settle)) ∧
  (∀ (s : State) (n : Ring) (k : Fin 4) (bs : List Byte),
    s.clk = Clk.running →
    ((openReads (s.ring n).reads)[k.val]? = none → exec (.entryArrival n k bs) s = .next s.settle) ∧
    (∀ i u, (openReads (s.ring n).reads)[k.val]? = some i → u = s.updRing n (fun x => { x with reads := x.reads.modify i (fun r => { r with got := some bs }) }) →
      exec (.entryArrival n k bs) s = .next ((u.examineReads (u.ring n).reads.length n).syncRounds).settle)) ∧
  (∀ (s : State) (n : Ring) (x : FetchErr),
    s.clk = Clk.running →
    (∀ i, (openReads (s.ring n).reads)[x.read.val]? = some i → exec (.ringFetchError n x) s = .next
      (((((s.updRing n (fun x => { x with reads := x.reads.take i })).put F.BRS_RING_STAT_HALTED 1 n).put F.BRS_RING_STAT_FETCH_ERR 1 n).ringErr n).readFails
        ((s.updRing n (fun x => { x with reads := x.reads.take i })).ringFn n) x.err).settle) ∧
    ((openReads (s.ring n).reads)[x.read.val]? = none → exec (.ringFetchError n x) s = .next s.settle)) ∧
  (∀ (s : State) (n : Ring) (v : W32),
    s.Ready →
    exec (.ringEnWrite n v) s = .next ((s.sput F.BRS_RING_CTL_EN (bitsOf v.toNat 0 1) n).sput F.BRS_RING_CTL_ITR (bitsOf v.toNat 8 8) n)) ∧
  (∀ (s : State) (n : Ring) (v : W32) (u : State),
    s.Ready →
    (s.on F.BRS_RING_CTL_EN n = true ∨ s.on F.BRS_RING_STAT_BUSY n = true → u = s.put F.BRS_RING_STAT_CFG_REFUSED 1 n →
      exec (.ringInit n v) s = .next ((u.sput F.BRS_RING_CTL_EN (bitsOf v.toNat 0 1) n).sput F.BRS_RING_CTL_ITR (bitsOf v.toNat 8 8) n)) ∧
    (s.on F.BRS_RING_CTL_EN n = false → s.on F.BRS_RING_STAT_BUSY n = false →
      u = (((((((s.updRing n (fun r => { r with reads := [] })).put F.BRS_RQ_PI_PI 0 n).put F.BRS_RQ_CI_CI 0 n).put F.BRS_CQ_PI_PI 0 n).put F.BRS_CQ_CI_CI 0 n).put F.BRS_CQ_PI_PHASE 1 n).put F.BRS_RING_STAT_HALTED 0 n) →
      exec (.ringInit n v) s = .next ((u.sput F.BRS_RING_CTL_EN (bitsOf v.toNat 0 1) n).sput F.BRS_RING_CTL_ITR (bitsOf v.toNat 8 8) n))) ∧
  (∀ (s : State) (n : Ring),
    s.clk = Clk.running →
    exec (.ringDrain n) s = .next (if (s.ring n).draining then s else s.drainRing n).settle) ∧
  (∀ (s : State) (n : Ring),
    s.Ready →
    exec (.ringDrainDone n) s = .next (if (s.ring n).draining then (s.put F.BRS_RING_CTL_EN 0 n).updRing n (fun r => { r with draining := false }) else s)) ∧
  (∀ (s w : State) (n : Ring) (k : Fin 5) (m : Fin 9) (v : W64),
    s.Ready →
    (w = (if k = 0 then s.wideWritten m R.BRS_RQ_BASE n else if k = 1 then s.wideWritten m R.BRS_CQ_BASE n else s)) →
    (s.on F.BRS_RING_CTL_EN n = true ∨ s.on F.BRS_RING_STAT_BUSY n = true → exec (.ringCfgWrite n k ⟨m, v⟩) s = .next (w.put F.BRS_RING_STAT_CFG_REFUSED 1 n)) ∧
    (s.on F.BRS_RING_CTL_EN n = false → s.on F.BRS_RING_STAT_BUSY n = false → k = 0 → exec (.ringCfgWrite n k ⟨m, v⟩) s = .next (w.sput F.BRS_RQ_BASE_BASE (bitsOf v.toNat F.BRS_RQ_BASE_BASE.lo F.BRS_RQ_BASE_BASE.wd) n)) ∧
    (s.on F.BRS_RING_CTL_EN n = false → s.on F.BRS_RING_STAT_BUSY n = false → k = 1 → exec (.ringCfgWrite n k ⟨m, v⟩) s = .next (w.sput F.BRS_CQ_BASE_BASE (bitsOf v.toNat F.BRS_CQ_BASE_BASE.lo F.BRS_CQ_BASE_BASE.wd) n)) ∧
    (s.on F.BRS_RING_CTL_EN n = false → s.on F.BRS_RING_STAT_BUSY n = false → k = 4 → exec (.ringCfgWrite n k ⟨m, v⟩) s = .next
      ((s.sput F.BRS_RING_SIZE_RQ_LOG2 (bitsOf v.toNat F.BRS_RING_SIZE_RQ_LOG2.lo F.BRS_RING_SIZE_RQ_LOG2.wd) n).sput F.BRS_RING_SIZE_CQ_LOG2 (bitsOf v.toNat F.BRS_RING_SIZE_CQ_LOG2.lo F.BRS_RING_SIZE_CQ_LOG2.wd) n)) ∧
    (∀ u, s.on F.BRS_RING_CTL_EN n = false → s.on F.BRS_RING_STAT_BUSY n = false → k = 2 →
      u = [F.BRS_RING_CFG_SVC, F.BRS_RING_CFG_KIND, F.BRS_RING_CFG_PRIV, F.BRS_RING_CFG_OVH, F.BRS_RING_CFG_MPROF].foldl (fun u f => u.sput f (bitsOf v.toNat f.lo f.wd) n) s →
      exec (.ringCfgWrite n k ⟨m, v⟩) s = .next (if s.g F.BRS_RING_CFG_MPROF n = u.g F.BRS_RING_CFG_MPROF n then u
        else u.updRing n (fun r => { r with meter := some (u.mpDepth (u.g F.BRS_RING_CFG_MPROF n)) }))) ∧
    (∀ u, s.on F.BRS_RING_CTL_EN n = false → s.on F.BRS_RING_STAT_BUSY n = false → k = 3 →
      u = [F.BRS_RING_CFG2_SPROF, F.BRS_RING_CFG2_VEC, F.BRS_RING_CFG2_FN, F.BRS_RING_CFG2_SP, F.BRS_RING_CFG2_RWT].foldl (fun u f => u.sput f (bitsOf v.toNat f.lo f.wd) n) s →
      exec (.ringCfgWrite n k ⟨m, v⟩) s = .next (if s.g F.BRS_RING_CFG2_SPROF n = u.g F.BRS_RING_CFG2_SPROF n then u
        else u.updRing n (fun r => { r with s := some (u.spDepth (u.g F.BRS_RING_CFG2_SPROF n)) })))) ∧
  (∀ (s : State) (n : Ring),
    s.Ready →
    ((s.ring n).lastMsg = none → exec (.itrHoldoffExpiry n) s = .next s) ∧
    (∀ c, (s.ring n).lastMsg = some c → (s.ring n).msgDue = true → c + 1000 * s.g F.BRS_RING_CTL_ITR n ≤ s.cycle → exec (.itrHoldoffExpiry n) s = .next
      (((s.updRing n (fun r => { r with lastMsg := some s.cycle, msgDue := false })).msix (s.ringFn n) (s.g F.BRS_RING_CFG2_VEC n))).settle) ∧
    (∀ c, (s.ring n).lastMsg = some c → (s.ring n).msgDue = false ∨ s.cycle < c + 1000 * s.g F.BRS_RING_CTL_ITR n → exec (.itrHoldoffExpiry n) s = .next s))

/-- Refills, profiles and services, admission and budget renewal, a port's enable, extended payloads, schedule frames. Parts of it are the model's choices: log entries 1, 14, 15, 84, 85, 87, 88, 90, 123, 134, 139, 165. -/
def Obligations.PortAdmission : Prop :=
  (∀ (s : State),
    s.Ready →
    s.cycle < s.brs.refill + 1000 →
    exec .meterRefill s = .next s) ∧
  (∀ (s : State),
    s.clk = Clk.running →
    s.brs.refill + 1000 ≤ s.cycle →
    exec .meterRefill s = .next (({ s with brs := { s.brs with
        rings := s.brs.rings.map (fun e => (e.1, { e.2 with meter := e.2.meter.map (s.meterFill (s.g F.BRS_RING_CFG_MPROF e.1)), s := e.2.s.map (s.shapeFill (s.g F.BRS_RING_CFG2_SPROF e.1)) }))
        svcs := s.brs.svcs.map (fun e => (e.1, { e.2 with s := e.2.s.map (s.shapeFill e.2.sprof) }))
        mpDef := s.brs.mpDef.map (fun e => (e.1, s.meterFill e.1 e.2))
        spDef := s.brs.spDef.map (fun e => (e.1, s.shapeFill e.1 e.2))
        refill := s.brs.refill + 1000 } } : State).syncRounds).settle) ∧
  (∀ (s : State) (n : Byte) (w : Fin 4) (v : W32) (t u : State),
    s.clk = Clk.running →
    (t = (if w.val = 0 then [F.BRS_MP_CFG_MODE, F.BRS_MP_CFG_RST] else if w.val = 1 then [F.BRS_MP_CIR_CIR] else if w.val = 2 then [F.BRS_MP_PIR_PIR] else [F.BRS_MP_BKT_CBS, F.BRS_MP_BKT_PBS]).foldl (fun u f => u.sput f (bitsOf v.toNat f.lo f.wd) n.toNat) s) →
    u = { t with brs.mpDef := Map.upd t.brs.mpDef n.toNat (0, 0) id } →
    exec (.mprofWrite n w v) s = .next (if (s.g F.BRS_MP_CFG_MODE n.toNat, s.mpDepth n.toNat) = (u.g F.BRS_MP_CFG_MODE n.toNat, u.mpDepth n.toNat) then u else u.mpSet n.toNat).settle) ∧
  (∀ (s : State) (n : Byte) (w : Fin 2) (v : W32) (t u : State),
    s.clk = Clk.running →
    (t = (if w.val = 0 then [F.BRS_SP_CFG_MODE, F.BRS_SP_CFG_RST, F.BRS_SP_CFG_DEPTH] else [F.BRS_SP_RATE_RATE]).foldl (fun u f => u.sput f (bitsOf v.toNat f.lo f.wd) n.toNat) s) →
    u = { t with brs.spDef := Map.upd t.brs.spDef n.toNat 0 id } →
    exec (.sprofWrite n w v) s = .next ((if (s.g F.BRS_SP_CFG_MODE n.toNat, s.spDepth n.toNat) = (u.g F.BRS_SP_CFG_MODE n.toNat, u.spDepth n.toNat) then u else u.spSet n.toNat).syncRounds).settle) ∧
  (∀ (s : State) (v : Fin 512) (x : W32),
    s.Ready →
    (s.on F.BRS_SVC_CFG_EN v = true → bitsOf x.toNat F.BRS_SVC_CFG_PORT.lo F.BRS_SVC_CFG_PORT.wd ≠ s.g F.BRS_SVC_CFG_PORT v → exec (.svcCfgWrite v x) s = .next (s.put F.BRS_STAT_CFG_REFUSED 1)) ∧
    (s.on F.BRS_SVC_CFG_EN v = false ∨ bitsOf x.toNat F.BRS_SVC_CFG_PORT.lo F.BRS_SVC_CFG_PORT.wd = s.g F.BRS_SVC_CFG_PORT v → exec (.svcCfgWrite v x) s = .next
      ((([F.BRS_SVC_CFG_PORT, F.BRS_SVC_CFG_CLASS, F.BRS_SVC_CFG_BWS, F.BRS_SVC_CFG_EN, F.BRS_SVC_CFG_WEIGHT, F.BRS_SVC_CFG_BCAP, F.BRS_SVC_CFG_SPROF].foldl (fun u f => u.sput f (bitsOf x.toNat f.lo f.wd) v) s).updSvc v id).syncRounds).settle)) ∧
  (∀ (s : State) (p : Part),
    s.Ready →
    s.on F.BRS_PORT_CFG_EN p = false ∨ (s.port p).blocked = true ∨ 64 ≤ (s.port p).aq.length →
    exec (.admitStep p) s = .next s) ∧
  (∀ (s : State) (p : Part) (u : State) (r : Req),
    s.clk = Clk.running →
    s.on F.BRS_PORT_CFG_EN p = true →
    (s.port p).blocked = false →
    (s.port p).aq.length < 64 →
    s.syncRounds.nextReq p = (u, some r) →
    (r.xp = true → u.xen p = false → exec (.admitStep p) s = .next (((u.takeReq p r).selfComplete r 8).syncRounds).settle) ∧
    (r.xp = false ∨ u.xen p = true → (u.port p).budget < r.cost → exec (.admitStep p) s = .next ((((u.takeReq p r).sat F.BRS_PORT_CNT_OVERSIZE p).selfComplete r 2).syncRounds).settle) ∧
    (r.xp = false ∨ u.xen p = true → r.cost ≤ (u.port p).budget → u.remain p < r.cost → exec (.admitStep p) s = .next ((u.sat F.BRS_PORT_CNT_HOLDS p).updPort p (fun x => { x with held := some r, blocked := true })).settle) ∧
    (∀ t, r.xp = false ∨ u.xen p = true → r.cost ≤ (u.port p).budget → (r.cost : Int) ≤ u.remain p → t = ((((u.setRemain p (u.remain p - r.cost)).chargeReq { r with port := p.val }).takeReq p r).sat F.BRS_PORT_ADM_ADMITTED p) →
      exec (.admitStep p) s = .next ((t.updPort p (fun x => { x with aq := x.aq ++ [{ r with port := p.val, admitted := true, cls := (t.svc (t.ringSvc r.ring)).cls }] })).syncRounds).settle)) ∧
  (∀ (s : State) (p : Part) (u : State),
    s.Ready →
    (u = (s.slotSettings p).updPort p (fun x => { x with due := x.due - 1 })) →
    (s.on F.BRS_PORT_CFG_EN p = false ∨ s.renewDue p = false → exec (.budgetRenewal p) s = .next s) ∧
    (s.on F.BRS_PORT_CFG_EN p = true → s.renewDue p = true → exec (.budgetRenewal p) s = .next (u.setRemain p ((u.port p).budget + min (u.remain p) 0)).settle)) ∧
  (∀ (s : State) (p : Part) (v : W32) (u : State),
    s.clk = Clk.running →
    u = (s.sput F.BRS_PORT_CFG_EN (bitsOf v.toNat 0 1) p).sput F.BRS_PORT_CFG_SLOT_SRC (bitsOf v.toNat 1 1) p →
    (s.on F.BRS_PORT_CFG_EN p = true ∨ bitOf v.toNat 0 = false → exec (.portEnable p v) s = .next u.settle) ∧
    (∀ t, s.on F.BRS_PORT_CFG_EN p = false → bitOf v.toNat 0 = true → t = (u.slotSettings p).updPort p (fun x => { x with due := 0 }) →
      exec (.portEnable p v) s = .next (t.setRemain p (t.port p).budget).settle)) ∧
  (∀ (s : State) (p : Part),
    s.Ready →
    (∀ r l k, (s.port p).aq = r :: l → (s.port p).freeSlot = some k → r.xp = true → (∀ y ∈ (s.port p).recs, y.isOpen = true) → s.xpCan r = true →
      exec (.xpPayloadFetch p) s = .next ((s.xpRead r).updPort p (fun x => { x with recs := x.recs ++ [{ slot := k, gen := 0, req := r, isOpen := false }] })).settle) ∧
    (∀ r l, (s.port p).aq = r :: l → r.xp = false ∨ s.xpCan r = false → exec (.xpPayloadFetch p) s = .next s) ∧
    ((s.port p).aq = [] ∨ (s.port p).freeSlot = none → exec (.xpPayloadFetch p) s = .next s)) ∧
  (∀ (s : State) (p : Part) (err : Option HostErr) (bs : List Byte),
    s.clk = Clk.running →
    ((∀ y ∈ (s.port p).recs, y.isOpen = true ∨ y.ready = true) → exec (.xpPayloadWritten p err bs) s = .next s.settle) ∧
    (∀ y l, (s.port p).recs = y :: l → y.isOpen = false → y.ready = false → s.on F.BRS_RING_CFG_KIND y.req.ring = false → err = none →
      exec (.xpPayloadWritten p err bs) s = .next (((s.grant 4 5).wrBs (dmBase p + s.xpAddr p y.slot) (bs.take y.req.xlen)).setRec p { y with ready := true, xa := s.xpAddr p y.slot }).settle) ∧
    (∀ y l, (s.port p).recs = y :: l → y.isOpen = false → y.ready = false → s.on F.BRS_RING_CFG_KIND y.req.ring = true →
      exec (.xpPayloadWritten p err bs) s = .next (((s.grant 4 5).wrBs (dmBase p + s.xpAddr p y.slot) (y.req.xdata.take y.req.xlen)).setRec p { y with ready := true, xa := s.xpAddr p y.slot }).settle) ∧
    (∀ y l e u, (s.port p).recs = y :: l → y.isOpen = false → y.ready = false → s.on F.BRS_RING_CFG_KIND y.req.ring = false → err = some e →
      u = s.updPort p (fun x => { x with recs := x.recs.filter (fun z => z.slot ≠ y.slot), aq := x.aq.drop 1 }) →
      exec (.xpPayloadWritten p err bs) s = .next (((u.selfComplete y.req 8).put F.BRS_RING_STAT_XERR 1 y.req.ring).readFails (u.ringFn y.req.ring) e).settle)) ∧
  (∀ (s : State),
    s.clk = Clk.running →
    (s.brs.frames = [] → exec .schedFrame s = .next s.settle) ∧
    (∀ sp bs l, s.brs.frames = (sp, bs) :: l →
      bs.length < 8 ∨ bitsOf (entryWord bs 0) 0 8 ≠ 1 ∨ bitsOf (entryWord bs 0) 8 8 = 0 ∨ 128 < bitsOf (entryWord bs 0) 8 8 ∨ entryWord bs 4 ≠ 0 →
      exec .schedFrame s = .next (({ s with brs.frames := l } : State).sat F.BRS_FRM_A_BADFRAME sp).settle) ∧
    (∀ sp bs l es, s.brs.frames = (sp, bs) :: l → 8 ≤ bs.length → bitsOf (entryWord bs 0) 0 8 = 1 → bitsOf (entryWord bs 0) 8 8 ≠ 0 → bitsOf (entryWord bs 0) 8 8 ≤ 128 →
      entryWord bs 4 = 0 → frameEntries (bitsOf (entryWord bs 0) 8 8) (bs.drop 8) = some es → Map.find s.brs.seq sp = none → exec .schedFrame s = .next
      ((({ s with brs := { s.brs with frames := l, seq := Map.ins s.brs.seq sp (bitsOf (entryWord bs 0) 16 16) } } : State).sat F.BRS_FRM_A_ACCEPTED sp).each es (fun u e => u.frameEntry sp e)).syncRounds.settle) ∧
    (∀ sp bs l es q, s.brs.frames = (sp, bs) :: l → 8 ≤ bs.length → bitsOf (entryWord bs 0) 0 8 = 1 → bitsOf (entryWord bs 0) 8 8 ≠ 0 → bitsOf (entryWord bs 0) 8 8 ≤ 128 →
      entryWord bs 4 = 0 → frameEntries (bitsOf (entryWord bs 0) 8 8) (bs.drop 8) = some es → Map.find s.brs.seq sp = some q → exec .schedFrame s = .next
      ((({ (({ s with brs.frames := l } : State).when (bitsOf (entryWord bs 0) 16 16 != (q + 1) % 65536) (fun u => u.sat F.BRS_FRM_B_SEQ_GAP sp)) with
        brs := { s.brs with frames := l, seq := Map.ins s.brs.seq sp (bitsOf (entryWord bs 0) 16 16) } } : State).sat F.BRS_FRM_A_ACCEPTED sp).each es (fun u e => u.frameEntry sp e)).syncRounds.settle))

/-- Leases, planned transfers, loading, self-test, resynchronisation, sweeps and machine checks of the twin pairs. Parts of it are the model's choices: log entries 11, 15, 95, 98, 99, 100, 103, 156, 165, 230, 231, 244. -/
def Obligations.TwinPairs : Prop :=
  (∀ (s : State) (x : Pair) (m : Member),
    s.Ready →
    (s.holds x m = true → exec (.leaseRenewal x m) s = .next (s.updTw x (fun w => { w with renewed := s.cycle, lease := s.leaseUs x }))) ∧
    (s.holds x m = false → exec (.leaseRenewal x m) s = .next s)) ∧
  (∀ (s : State) (x : Pair),
    s.Ready →
    (s.noHolder x = true ∨ s.engGated = true ∨ s.cycle < (s.tw x).renewed + 1000 * (s.tw x).lease → exec (.leaseExpiry x) s = .next s) ∧
    (s.noHolder x = false → s.engGated = false → (s.tw x).renewed + 1000 * (s.tw x).lease ≤ s.cycle →
      exec (.leaseExpiry x) s = .next (((s.leaseFault x (s.holder x)).setCause x (s.holder x) 5).memberLost x (s.holder x)).settle)) ∧
  (∀ (s : State) (x : Pair),
    s.clk = Clk.running →
    (s.noHolder x = true ∨ s.mstate x (1 - s.holder x) ≠ 4 → exec (.leaseMove x) s = .next (s.pp F.SEQ_LEASE_STAT_MOVE_REFUSED F.LE_LEASE_STAT_MOVE_REFUSED 1 x).settle) ∧
    (s.noHolder x = false → s.mstate x (1 - s.holder x) = 4 → s.pg F.SEQ_LEASE_STAT_MOVE_PEND F.LE_LEASE_STAT_MOVE_PEND x = 1 → exec (.leaseMove x) s = .next s.settle) ∧
    (s.noHolder x = false → s.mstate x (1 - s.holder x) = 4 → s.pg F.SEQ_LEASE_STAT_MOVE_PEND F.LE_LEASE_STAT_MOVE_PEND x ≠ 1 → exec (.leaseMove x) s = .next
      (((s.pp F.SEQ_LEASE_STAT_MOVE_PEND F.LE_LEASE_STAT_MOVE_PEND 1 x).pp F.SEQ_LEASE_CTL_MOVE F.LE_LEASE_CTL_MOVE 1 x).updTw x (fun w => { w with reqAt := some s.cycle, hand := false })).settle)) ∧
  (∀ (s : State) (x : Pair),
    s.Ready →
    (s.noHolder x = true ∨ s.mstate x (1 - s.holder x) ≠ 4 ∨ s.atHandover x = false → exec (.handover x) s = .next s) ∧
    (s.noHolder x = false → s.mstate x (1 - s.holder x) = 4 → s.atHandover x = true →
      s.pg F.SEQ_LEASE_STAT_MOVE_PEND F.LE_LEASE_STAT_MOVE_PEND x ≠ 1 → (s.tw x).back = none ∨ s.mayTakeBack x (1 - s.holder x) = false →
      exec (.handover x) s = .next (s.updTw x (fun w => { w with reqAt := none, back := none }))) ∧
    (s.noHolder x = false → s.mstate x (1 - s.holder x) = 4 → s.atHandover x = true →
      s.pg F.SEQ_LEASE_STAT_MOVE_PEND F.LE_LEASE_STAT_MOVE_PEND x = 1 ∨ ((s.tw x).back = some (1 - s.holder x) ∧ s.mayTakeBack x (1 - s.holder x) = true) →
      exec (.handover x) s = .next (s.passToken x (1 - s.holder x)).settle)) ∧
  (∀ (s : State) (x : Pair) (m : Member),
    s.clk = Clk.running →
    (s.holds x m = true → exec (.memberRestart x m) s = .next (s.pp F.SEQ_LEASE_STAT_RESTART_REFUSED F.LE_LEASE_STAT_RESTART_REFUSED 1 x).settle) ∧
    (s.holds x m = false → s.mstate x m = 0 ∨ s.mstate x m = 4 → exec (.memberRestart x m) s = .next ((s.memberOff x m).memberTo x m 1).settle) ∧
    (s.holds x m = false → s.mstate x m ≠ 0 → s.mstate x m ≠ 4 → exec (.memberRestart x m) s = .next s.settle)) ∧
  (∀ (s : State) (x : Pair) (m : Member) (k : Fin 7) (i : PatchImage),
    s.clk = Clk.running →
    (s.mstate x m ≠ 1 → exec (.patchLoadDone x m k i) s = .next s.settle) ∧
    (loadAgrees (s.patchImage x) k i = false → exec (.patchLoadDone x m k i) s = .next s.settle) ∧
    (∀ g, s.mstate x m = 1 → loadAgrees (s.patchImage x) k i = true → s.patchImage x = .ok g → s.mode ≠ 2 ∨ (s.ident x (1 - m)).isSome = true → exec (.patchLoadDone x m k i) s = .next ((s.setPatch x m (some g)).memberTo x m 2).settle) ∧
    (∀ g, s.mstate x m = 1 → loadAgrees (s.patchImage x) k i = true → s.patchImage x = .ok g → s.mode = 2 → 2 ≤ s.mstate x (1 - m) → s.ident x (1 - m) = none → exec (.patchLoadDone x m k i) s = .next ((s.setPatch x m none).memberTo x m 2).settle) ∧
    (∀ c u, s.mstate x m = 1 → loadAgrees (s.patchImage x) k i = true → s.patchImage x = .error c → u = s.raise 52 (if x.val = 0 then c + m * 512 else c + 16 + (x - 1) * 32 + m * 512) → u.mode ≠ 2 →
      exec (.patchLoadDone x m k i) s = .next ((u.setCause x m 7).memberOff x m).settle) ∧
    (∀ c u, s.mstate x m = 1 → loadAgrees (s.patchImage x) k i = true → s.patchImage x = .error c → u = s.raise 52 (if x.val = 0 then c + m * 512 else c + 16 + (x - 1) * 32 + m * 512) → u.mode = 2 →
      exec (.patchLoadDone x m k i) s = .next ((((u.setPatch x m none).setPatch x (1 - m) none).memberTo x m 2).bootFail 3).settle)) ∧
  (∀ (s : State) (x : Pair) (m : Member) (cls : Fin 16) (ua : BitVec 13),
    s.clk = Clk.running →
    (∀ ok, s.mstate x m ≠ 2 → exec (.selftestDone x m ok cls ua) s = .next s.settle) ∧
    (s.mstate x m = 2 → exec (.selftestDone x m true cls ua) s = .next (if s.mayTake x m then s.takeToken x m else s.memberTo x m 3).settle) ∧
    (∀ u, s.mstate x m = 2 → u = ((s.mp F.SEQ_HEALTH_FAIL F.LE_HEALTH_FAIL cls x m).machineCheck x m 8 ua.toNat) → u.mode ≠ 2 → u.noHolder x = false →
      exec (.selftestDone x m false cls ua) s = .next u.settle)) ∧
  (∀ (s : State) (x : Pair) (m : Member),
    s.clk = Clk.running →
    (s.mstate x m ≠ 3 ∨ s.noHolder x = true → exec (.resyncDone x m) s = .next s.settle) ∧
    (∀ u, s.mstate x m = 3 → s.noHolder x = false → u = s.when (x = 0) (fun u => u.copyThreads m) →
      exec (.resyncDone x m) s = .next ((((((u.memberUp x m).suspSync x).updMem x m (fun y => { y with replay := (u.mem' x (u.holder x)).replay })).updTw x (fun w => { w with back := some m.val })).wantMove x).settle))) ∧
  (∀ (s : State) (x : Pair) (m : Member) (cls : Fin 16) (ua : BitVec 13),
    s.clk = Clk.running →
    (∀ ok, s.mstate x m ≠ 4 ∨ s.engGated = true → exec (.selftestSweepDone x m ok cls ua) s = .next s.settle) ∧
    (s.mstate x m = 4 → s.engGated = false → exec (.selftestSweepDone x m true cls ua) s = .next
      (((s.mp F.SEQ_HEALTH_SWEEPS F.LE_HEALTH_SWEEPS (s.mg F.SEQ_HEALTH_SWEEPS F.LE_HEALTH_SWEEPS x m + 1) x m).mp F.SEQ_HEALTH_AGE F.LE_HEALTH_AGE 0 x m).updTw x
        (fun w => { w with mems := Map.upd w.mems m {} (fun y => { y with sweepAt := some s.cycle }) })).settle) ∧
    (s.mstate x m = 4 → s.engGated = false → exec (.selftestSweepDone x m false cls ua) s = .next
      (((s.mp F.SEQ_HEALTH_FAIL F.LE_HEALTH_FAIL cls x m).mp F.SEQ_HEALTH_GOOD F.LE_HEALTH_GOOD 0 x m).machineCheck x m 3 ua.toNat).settle)) ∧
  (∀ (s : State) (x : Pair) (m : Member) (e : MicroEvt) (ua : BitVec 13),
    s.clk = Clk.running →
    (s.mstate x m < 2 ∨ s.engGated = true → exec (.machineCheck x m e ua) s = .next s.settle) ∧
    (2 ≤ s.mstate x m → s.engGated = false → e = .parity → exec (.machineCheck x m e ua) s = .next
      (((((s.spoilWord x m ua.toNat).setCause x m 1).setUaddr x m ua.toNat).mcFault x m 1 ua.toNat).memberLost x m).settle) ∧
    (2 ≤ s.mstate x m → s.engGated = false → e = .badAddr → exec (.machineCheck x m e ua) s = .next
      ((((s.setCause x m 2).setUaddr x m ua.toNat).mcFault x m 2 ua.toNat).memberLost x m).settle) ∧
    (∀ c y w, 2 ≤ s.mstate x m → s.engGated = false → e = .cycle c → y = s.mem' x m → w = s.microword x m y.upc →
      (w.2 ≠ microParity x w.1 → exec (.machineCheck x m e ua) s = .next (s.machineCheck x m 1 y.upc).settle) ∧
      (w.2 = microParity x w.1 → microNext x w.1 y.upc y.uret c ua.toNat = none → exec (.machineCheck x m e ua) s = .next (s.machineCheck x m 2 y.upc).settle) ∧
      (∀ z, w.2 = microParity x w.1 → microNext x w.1 y.upc y.uret c ua.toNat = some z → populated x (s.microMatch x m z) = true →
        exec (.machineCheck x m e ua) s = .next (s.updMem x m (fun q => { q with upc := s.microMatch x m z, uret := microRet x w.1 y.upc y.uret })).settle)))

/-- Comparing digests, a comparison that times out, and the outcome of the micro-diagnostics. Parts of it are the model's choices: log entries 15, 74, 94, 95, 96, 97, 98, 99, 100, 106. -/
def Obligations.TwinComparison : Prop :=
  (∀ (s : State) (x : Pair) (o : W64),
    s.clk = Clk.running →
    ((s.tw x).dues = [] → exec (.digestCompare x o) s = .next s.settle ∧ exec (.digestTimeout x) s = .next s.settle) ∧
    (∀ d l u, (s.tw x).dues = d :: l → u = s.updTw x (fun w => { w with dues := l }) → u.suspReason x ≠ 0 ∨ (u.tw x).diag.isSome = true →
      exec (.digestCompare x o) s = .next u.settle ∧ exec (.digestTimeout x) s = .next u.settle) ∧
    (∀ d l u t, (s.tw x).dues = d :: l → u = s.updTw x (fun w => { w with dues := l }) → u.suspReason x = 0 → (u.tw x).diag = none →
      t = (u.psat F.SEQ_COMPARES_N F.LE_COMPARES_N x).setDigest x (u.holder x) d.dig →
      exec (.digestTimeout x) s = .next (t.mismatch x d).settle ∧
      (o ≠ d.dig → exec (.digestCompare x o) s = .next ((t.setDigest x (1 - t.holder x) o).mismatch x d).settle) ∧
      (o = d.dig → x = 0 → exec (.digestCompare x o) s = .next ((t.setDigest x (1 - t.holder x) o).updTw x
        (fun w => { w with run := 0, matched := d.part :: w.matched.filter (fun q => q ≠ d.part) })).settle) ∧
      (o = d.dig → x ≠ 0 → exec (.digestCompare x o) s = .next (((t.setDigest x (1 - t.holder x) o).updTw x
        (fun w => { w with run := 0, matched := d.part :: w.matched.filter (fun q => q ≠ d.part) })).handPoint x).settle))) ∧
  (∀ (s : State) (x : Pair) (hf sf : Bool),
    s.clk = Clk.running →
    ((s.tw x).diag = none → exec (.diagDone x hf sf) s = .next s.settle) ∧
    (∀ d u, (s.tw x).diag = some d → u = ((s.updTw x (fun w => { w with diag := none })).pp F.SEQ_LEASE_STAT_DIAG F.LE_LEASE_STAT_DIAG 0 x) →
      (hf = true → sf = true → exec (.diagDone x hf sf) s = .next ((((((u.pp F.SEQ_LEASE_STAT_LAST_OUT F.LE_LEASE_STAT_LAST_OUT 4 x).updTw x (fun w => { w with run := 0 })).setCause x 0 4).setCause x 1 4).noHolderRule x).outFault x 4).settle) ∧
      (hf = true → sf = false → x ≠ 0 → exec (.diagDone x hf sf) s = .next (((((u.pp F.SEQ_LEASE_STAT_LAST_OUT F.LE_LEASE_STAT_LAST_OUT 1 x).updTw x (fun w => { w with run := 0 })).setCause x (s.holder x) 4).memberLost x (s.holder x)).outFault x 1).settle) ∧
      (hf = true → sf = false → x = 0 → exec (.diagDone x hf sf) s = .next ((((((u.pp F.SEQ_LEASE_STAT_LAST_OUT F.LE_LEASE_STAT_LAST_OUT 1 x).updTw x (fun w => { w with run := 0 })).setCause x (s.holder x) 4).memberLost x (s.holder x)).miscAbort d).outFault x 1).settle) ∧
      (hf = false → sf = true → exec (.diagDone x hf sf) s = .next (((((u.pp F.SEQ_LEASE_STAT_LAST_OUT F.LE_LEASE_STAT_LAST_OUT 2 x).updTw x (fun w => { w with run := 0 })).setCause x (1 - s.holder x) 4).memberLost x (1 - s.holder x)).outFault x 2).settle) ∧
      (hf = false → sf = false → exec (.diagDone x hf sf) s = .next (((u.pp F.SEQ_LEASE_STAT_LAST_OUT F.LE_LEASE_STAT_LAST_OUT 3 x).unresolved x).outFault x 3).settle)))

/-- Rates, steps and amortisation of the time bases, and the replicas. Parts of it are the model's choices: log entries 9, 14, 15, 88, 104, 105, 106, 109, 225. -/
def Obligations.TimeBases : Prop :=
  (∀ (s w : State) (b : Fin 4) (m : Fin 9) (v : W64),
    s.Ready →
    w = s.wideWritten m R.TB_INC b →
    (999 * 2 ^ 48 ≤ 1000 * (v.toNat % 2 ^ 50) → 1000 * (v.toNat % 2 ^ 50) ≤ 1001 * 2 ^ 48 →
      exec (.tbIncWrite b ⟨m, v⟩) s = .next ((w.sput F.TB_INC_INC (v.toNat % 2 ^ 50) b).updTb b (fun x => { x with pendInc := some (v.toNat % 2 ^ 50, s.tbVal b + usU) }))) ∧
    (1000 * (v.toNat % 2 ^ 50) < 999 * 2 ^ 48 ∨ 1001 * 2 ^ 48 < 1000 * (v.toNat % 2 ^ 50) → exec (.tbIncWrite b ⟨m, v⟩) s = .next (w.put F.TB_STAT_INC_REFUSED 1 b))) ∧
  (∀ (s : State) (b : Fin 4),
    s.Ready →
    ((s.tb b).pendInc = none → exec (.tbIncApply b) s = .next s) ∧
    (∀ inc due, (s.tb b).pendInc = some (inc, due) → s.tbVal b < wholeUs due → exec (.tbIncApply b) s = .next s) ∧
    (∀ inc due, (s.tb b).pendInc = some (inc, due) → wholeUs due ≤ s.tbVal b → exec (.tbIncApply b) s = .next (s.updTb b (fun x => { x with inc := inc, pendInc := none })))) ∧
  (∀ (s : State) (b : Fin 4),
    s.Ready →
    (s.on F.TB_STAT_STEP_BUSY b = true ∨ 10 ^ 9 ≤ getField (s.word R.TB_SET b) 18 30 ∨ s.stepBlocked b = true → exec (.step b) s = .next (s.put F.TB_STAT_STEP_REFUSED 1 b)) ∧
    (s.on F.TB_STAT_STEP_BUSY b = false → getField (s.word R.TB_SET b) 18 30 < 10 ^ 9 → s.stepBlocked b = false → exec (.step b) s = .next
      ((s.put F.TB_STAT_STEP_BUSY 1 b).updTb b (fun x => { x with pendStep := some (tvUnits (s.word R.TB_SET b), true, s.tbVal b + usU) })))) ∧
  (∀ (s : State) (b : Fin 4),
    s.Ready →
    (s.on F.TB_STAT_STEP_BUSY b = true ∨ 10 ^ 9 ≤ getField (s.word R.TB_SET b) 18 30 ∨ (s.tbVal b : Int) + toSigned 64 (s.g F.TB_OFF_OFF b) * 2 ^ 32 < 0 ∨ s.stepBlocked b = true → exec (.stepOff b) s = .next (s.put F.TB_STAT_STEP_REFUSED 1 b)) ∧
    (s.on F.TB_STAT_STEP_BUSY b = false → getField (s.word R.TB_SET b) 18 30 < 10 ^ 9 → 0 ≤ (s.tbVal b : Int) + toSigned 64 (s.g F.TB_OFF_OFF b) * 2 ^ 32 → s.stepBlocked b = false → exec (.stepOff b) s = .next
      ((s.put F.TB_STAT_STEP_BUSY 1 b).updTb b (fun x => { x with pendStep := some (toSigned 64 (s.g F.TB_OFF_OFF b) * 2 ^ 32, false, s.tbVal b + usU) })))) ∧
  (∀ (s : State) (b : Fin 4),
    s.Ready →
    ((s.tb b).pendStep = none → exec (.tbStepApply b) s = .next s) ∧
    (∀ v k due, (s.tb b).pendStep = some (v, k, due) → s.tbVal b < wholeUs due → exec (.tbStepApply b) s = .next s) ∧
    (∀ v due, (s.tb b).pendStep = some (v, true, due) → wholeUs due ≤ s.tbVal b → exec (.tbStepApply b) s = .next
      ((s.updTb b (fun x => { x with pendStep := none })).stepTo b ((v + ((s.tbVal b - wholeUs due : Nat) : Int)).toNat % tbWrap)).settle) ∧
    (∀ v due, (s.tb b).pendStep = some (v, false, due) → wholeUs due ≤ s.tbVal b → exec (.tbStepApply b) s = .next
      ((s.updTb b (fun x => { x with pendStep := none })).stepTo b (((s.tbVal b : Int) + v).toNat % tbWrap)).settle)) ∧
  (∀ (s : State) (b : Fin 4),
    s.Ready →
    (s.on F.TB_STAT_AMORT_BUSY b = true → exec (.amort b) s = .next (s.put F.TB_STAT_AMORT_REFUSED 1 b)) ∧
    (s.on F.TB_STAT_AMORT_BUSY b = false → exec (.amort b) s = .next ((s.put F.TB_STAT_AMORT_BUSY 1 b).updTb b
      (fun x => { x with amort := some { left := toSigned 64 (s.g F.TB_OFF_OFF b) * 2 ^ 32, rate := max 1 (min 1000 (s.g F.TB_AMRATE_RATE b)), running := false, startAt := s.tbVal b + usU } })))) ∧
  (∀ (s : State) (b : Fin 4),
    s.Ready →
    ((s.tb b).amort = none → exec (.amortStartApply b) s = .next s) ∧
    (∀ a, (s.tb b).amort = some a → a.running = true ∨ s.tbVal b < wholeUs a.startAt → exec (.amortStartApply b) s = .next s) ∧
    (∀ a, (s.tb b).amort = some a → a.running = false → wholeUs a.startAt ≤ s.tbVal b → exec (.amortStartApply b) s = .next (s.updTb b (fun x => { x with amort := some { a with running := true } })))) ∧
  (∀ (s : State) (b : Fin 4),
    s.Ready →
    ((s.tb b).amort = none → exec (.amortDone b) s = .next s) ∧
    (∀ a, (s.tb b).amort = some a → a.running = true → a.left = 0 → exec (.amortDone b) s = .next ((s.put F.TB_STAT_AMORT_BUSY 0 b).updTb b (fun x => { x with amort := none }))) ∧
    (∀ a, (s.tb b).amort = some a → a.running = false ∨ a.left ≠ 0 → exec (.amortDone b) s = .next s)) ∧
  (∀ (s : State) (b : Fin 4),
    s.Ready →
    ((s.tb b).amort = none → exec (.amortStop b) s = .next s) ∧
    (∀ a, (s.tb b).amort = some a → a.stopAt = none → exec (.amortStop b) s = .next (s.updTb b (fun x => { x with amort := some { a with stopAt := some (s.tbVal b + usU) } })))) ∧
  (∀ (s : State) (b : Fin 4),
    s.Ready →
    ((s.tb b).amort = none → exec (.amortStopApply b) s = .next s) ∧
    (∀ a due, (s.tb b).amort = some a → a.stopAt = some due → wholeUs due ≤ s.tbVal b → exec (.amortStopApply b) s = .next
      (((s.when (a.left != 0) (fun u => u.put F.TB_OFF_OFF (ofSigned 64 (a.left.tdiv (2 ^ 32))) b)).put F.TB_STAT_AMORT_BUSY 0 b).updTb b (fun x => { x with amort := none })))) ∧
  (∀ (s u : State) (t : Tile) (x : MarkerTrip) (err : Int) (due : Nat),
    s.Ready →
    err = (s.rep t).dev - markerDev t x →
    due = (s.rep t).due + 100000 * ((s.cycle - (s.rep t).due) / 100000 + 1) →
    u = s.put F.TL_TSTAT_ERR (ofSigned 16 (clampI (-32768) 32767 err)) t →
    ((s.tl t).linkUp = false ∨ s.cycle < (s.rep t).due → exec (.replicaRealign t x) s = .next s) ∧
    (∀ r : State, r = ({ u with tm.reps := Map.ins u.tm.reps t ⟨(s.rep t).dev, some err, due⟩ } : State).fixReps → (s.tl t).linkUp = true → (s.rep t).due ≤ s.cycle →
      err.natAbs ≤ 500 → exec (.replicaRealign t x) s = .next (r.put F.TL_TSTAT_VALID 1 t).settle) ∧
    (∀ r : State, r = ({ u with tm.reps := Map.ins u.tm.reps t ⟨(s.rep t).dev, some err, due⟩ } : State).fixReps → (s.tl t).linkUp = true → (s.rep t).due ≤ s.cycle →
      500 < err.natAbs → err.natAbs ≤ 1000 → exec (.replicaRealign t x) s = .next r.settle) ∧
    ((s.tl t).linkUp = true → (s.rep t).due ≤ s.cycle → 1000 < err.natAbs → exec (.replicaRealign t x) s = .next
      (((({ u with tm.reps := Map.ins u.tm.reps t ⟨markerDev t x, none, due⟩ } : State).put F.TL_TSTAT_VALID 0 t).put F.TL_TSTAT_TIME_ERR 1 t).fsum t 3).settle))

/-- Pulse outputs, capture inputs and SYNC_IN. Parts of it are the model's choices: log entries 12, 15, 107, 110, 111, 122. -/
def Obligations.TimePins : Prop :=
  (∀ (s : State) (n : Fin 8) (u : State),
    s.clk = Clk.running →
    (u = s.when ((s.tpoStaged n).mode = 1 && (s.tpoStaged n).first.isNone) (fun u => u.put F.TB_TPO_STAT_LATE 1 n)) →
    ((u.tpo n).fall.isSome = true → exec (.tpoLoad n) s = .next (u.setTpo n { u.tpo n with load := some (s.tpoStaged n) }).settle) ∧
    ((u.tpo n).fall = none → exec (.tpoLoad n) s = .next (u.tpoApply n (s.tpoStaged n)).settle)) ∧
  (∀ (s : State) (n : Fin 8),
    s.Ready →
    (∀ f, (s.tpo n).fall = some f → s.tbVal (s.tpo n).prog.tb < f → exec (.tpoEdge n) s = .next s) ∧
    (∀ f, (s.tpo n).fall = some f → f ≤ s.tbVal (s.tpo n).prog.tb → (s.tpo n).load = none → exec (.tpoEdge n) s = .next (s.setTpo n { s.tpo n with fall := none })) ∧
    ((s.tpo n).fall = none → (s.tpo n).next = none → exec (.tpoEdge n) s = .next s) ∧
    (∀ t, (s.tpo n).fall = none → (s.tpo n).next = some t → s.tbVal (s.tpo n).prog.tb < t → exec (.tpoEdge n) s = .next s) ∧
    (∀ t, (s.tpo n).fall = none → (s.tpo n).next = some t → t ≤ s.tbVal (s.tpo n).prog.tb → exec (.tpoEdge n) s = .next
      ((s.setTpo n { s.tpo n with fall := some (t + (s.tpo n).prog.wid), next := if (s.tpo n).prog.mode = 2 then some (t + (s.tpo n).prog.per) else none }).when (s.on F.TB_TPO_CTL_EV n) (fun u => u.occur (8 + n))).settle)) ∧
  (∀ (s u : State) (n : Fin 8) (falling : Bool) (x : PinEdge) (on : Bool),
    s.Quiet →
    u = s.pinTo (1 + n) (!falling) →
    (on = (if falling then bitOf (s.g F.TB_TCI_CTL_EDGE n) 1 else bitOf (s.g F.TB_TCI_CTL_EDGE n) 0)) →
    (s.clk ≠ Clk.running → exec (.tciEdge n falling x) s = .next (if filtered x.held.toNat then u else s)) ∧
    (s.clk = Clk.running → filtered x.held.toNat = false ∨ s.pinAt (1 + n) = !falling → exec (.tciEdge n falling x) s = .next s) ∧
    (s.clk = Clk.running → filtered x.held.toNat = true → s.pinAt (1 + n) = falling → on = false → exec (.tciEdge n falling x) s = .next u) ∧
    (∀ t, s.clk = Clk.running → filtered x.held.toNat = true → s.pinAt (1 + n) = falling → on = true → (s.tci n).lastEdge = some t → 5 * s.cycle + x.k < t + 40 →
      exec (.tciEdge n falling x) s = .next ((u.sat F.TB_TCI_STAT_DROP n).put F.TB_TCI_STAT_OVF 1 n)) ∧
    (∀ v, s.clk = Clk.running → filtered x.held.toNat = true → s.pinAt (1 + n) = falling → on = true → (s.tci n).lastEdge = none → (s.tci n).fifo.length < 4 →
      v = u.setTci n { fifo := (s.tci n).fifo ++ [(tvOf (s.tbAt (s.g F.TB_TCI_CTL_TB n) x.k) (s.g F.TB_TCI_CTL_TB n), falling)], lastEdge := some (5 * s.cycle + x.k) } →
      exec (.tciEdge n falling x) s = .next (v.when (v.on F.TB_TCI_CTL_EV n) (fun u => u.occur (16 + n))).settle)) ∧
  (∀ (s : State) (n m : Fin 8) (wide : Bool),
    s.Ready →
    ((s.tci n).fifo = [] → exec (.tciTsRead n m wide) s = .next { s.setLatch m (R.TB_TCI_TS.key n 0) 0 with readData := 0 }) ∧
    (∀ e l, (s.tci n).fifo = e :: l → exec (.tciTsRead n m wide) s = .next
      { ((s.setTci n { s.tci n with fifo := l }).putB F.TB_TCI_STAT_HEDGE e.2 n).setLatch m (R.TB_TCI_TS.key n 0) e.1 with readData := lowRead e.1 wide })) ∧
  (∀ (s : State) (n : Fin 8),
    s.Ready →
    exec (.tciClr n) s = .next (s.setTci n { s.tci n with fifo := [] })) ∧
  (∀ (s : State) (rising : Bool) (x : PinEdge) (u : State),
    s.Quiet →
    (u = (((s.pinTo 0 rising).putB F.TB_SYNC_STAT_LEVEL rising).sat F.TB_SYNC_STAT_EDGES).setWord (if rising then R.TB_SYNC_R else R.TB_SYNC_F) (tvOf (s.tbAt 0 x.k) 0)) →
    (s.clk ≠ Clk.running → exec (.syncInEdge rising x) s = .next (if filtered x.held.toNat then s.pinTo 0 rising else s)) ∧
    (s.clk = Clk.running → filtered x.held.toNat = false ∨ s.pinAt 0 = rising → exec (.syncInEdge rising x) s = .next s) ∧
    (s.clk = Clk.running → filtered x.held.toNat = true → s.pinAt 0 ≠ rising → exec (.syncInEdge rising x) s = .next (({ u with
      tm.edges := u.tm.edges ++ ((List.range 16).filter u.roSync).map (fun p => ⟨p, rising, s.tbAt 0 x.k * 1000 / 2 ^ 48⟩) } : State).occur 5)))

/-- The sync ports: configuration, link, frames received and sent, host rings, timestamps, the transparent clock. Parts of it are the model's choices: log entries 12, 14, 15, 111, 112, 113, 115, 116, 117, 118, 119, 120, 121, 206. -/
def Obligations.SyncPorts : Prop :=
  (∀ (s : State) (p : Fin 2) (v : W32),
    s.Ready →
    (bitsOf v.toNat F.SP_CFG_FEC.lo F.SP_CFG_FEC.wd = 3 ∨ (bitsOf v.toNat F.SP_CFG_FEC.lo F.SP_CFG_FEC.wd = 2 ∧ bitsOf v.toNat F.SP_CFG_SPEED.lo F.SP_CFG_SPEED.wd = 0) ∨
      (s.on F.SP_CFG_EN p = true ∧ bitsOf v.toNat F.SP_CFG_TB.lo F.SP_CFG_TB.wd ≠ s.g F.SP_CFG_TB p) → exec (.spCfgWrite p v) s = .next (s.put F.SP_STAT_CFG_REFUSED 1 p)) ∧
    (∀ u, s.on F.SP_CFG_EN p = false → bitsOf v.toNat F.SP_CFG_FEC.lo F.SP_CFG_FEC.wd < 2 →
      u = [F.SP_CFG_EN, F.SP_CFG_SPEED, F.SP_CFG_FEC, F.SP_CFG_SCHED_COPY, F.SP_CFG_TB].foldl (fun u f => u.sput f (bitsOf v.toNat f.lo f.wd) p) s →
      exec (.spCfgWrite p v) s = .next (if u.on F.SP_CFG_EN p then u else u.put F.SP_STAT_LINK 0 p))) ∧
  (∀ (s : State) (p : Fin 2),
    s.Ready →
    (s.on F.SP_CFG_EN p = false ∨ s.on F.SP_STAT_LINK p = false → exec (.spLinkLoss p) s = .next s) ∧
    (s.on F.SP_CFG_EN p = true → s.on F.SP_STAT_LINK p = true → exec (.spLinkLoss p) s = .next (((s.put F.SP_STAT_LINK 0 p).raise (39 + p)).spDiscard p).settle)) ∧
  (∀ (s : State) (p : Fin 2),
    s.Ready →
    (s.on F.SP_CFG_EN p = true → s.on F.TST_LCFG_GEN_EN (8 + p) = false → s.on F.TST_LCFG_CHK_EN (8 + p) = false → s.on F.SP_STAT_FENCED p = false →
      exec (.spBlockLock p) s = .next (s.put F.SP_STAT_LINK 1 p)) ∧
    (s.on F.SP_CFG_EN p = false ∨ s.on F.TST_LCFG_GEN_EN (8 + p) = true ∨ s.on F.TST_LCFG_CHK_EN (8 + p) = true → exec (.spBlockLock p) s = .next s)) ∧
  (∀ (s : State) (p : Fin 2) (bs : List Byte) (fcs : Bool) (k : Fin 5),
    s.Ready →
    (s.spUp p = false → exec (.spFrameRx p bs fcs k) s = .next s) ∧
    (s.spUp p = true → fcs = false ∨ bs.length + 4 < 64 ∨ s.maxFrm p < bs.length + 4 → exec (.spFrameRx p bs fcs k) s = .next (s.sat F.SP_RX_BAD_CNT p)) ∧
    (s.spUp p = true → fcs = true → 64 ≤ bs.length + 4 → bs.length + 4 ≤ s.maxFrm p → beAt bs 12 2 = 0x8808 → exec (.spFrameRx p bs fcs k) s = .next (s.sat F.SP_RX_FRAMES_CNT p)) ∧
    (∀ u, s.spUp p = true → fcs = true → 64 ≤ bs.length + 4 → bs.length + 4 ≤ s.maxFrm p → beAt bs 12 2 ≠ 0x8808 → u = s.sat F.SP_RX_FRAMES_CNT p →
      u.on F.SP_TC_CTL_EN 0 = false → u.macAccepts p (bs.take 6) = true → (etherType bs).1 ≠ u.g F.BRS_ETYPE_ETYPE →
      exec (.spFrameRx p bs fcs k) s = .next (u.toRing p bs (u.spTime p k F.SP_RXASYM_ASYM) false false).settle)) ∧
  (∀ (s : State) (p : Fin 2),
    s.Ready →
    ((s.sp p).coming = [] → exec (.forwardReady p) s = .next s) ∧
    (∀ x l, (s.sp p).coming = x :: l → exec (.forwardReady p) s = .next (s.updSp p (fun y => { y with q := y.q ++ [x], coming := l })))) ∧
  (∀ (s : State) (p : Fin 2) (k : Fin 5),
    s.Ready →
    (s.spUp p = false ∨ s.spNext p = none → exec (.spFrameTx p k) s = .next s) ∧
    (∀ x u, s.spUp p = true → s.spNext p = some x → u = ((({ (s.updSp p (fun y => { y with q := y.q.erase x })) with
          tm.wire := s.tm.wire ++ [(p.val, (x.leave (s.spTime p k F.SP_TXASYM_ASYM)).1)] } : State).sat F.SP_TX_FRAMES_CNT p).when (!(x.leave (s.spTime p k F.SP_TXASYM_ASYM)).2) (fun u => u.put F.SP_STAT_ONESTEP_ERR 1 p)) →
      (x.fwd = true → exec (.spFrameTx p k) s = .next u.settle) ∧
      (x.fwd = false → exec (.spFrameTx p k) s = .next ((u.when x.tsreq (fun u => u.tsqPut p ⟨x.tag, false, tvOf (s.spTime p k F.SP_TXASYM_ASYM) (u.g F.SP_CFG_TB p)⟩)).hostDone p).settle))) ∧
  (∀ (s : State) (p : Fin 2) (v : W32) (fr : List (List Byte × List Byte)),
    s.Ready →
    (s.txLen p ≤ v.toNat % 4096 → exec (.spTxrDoorbell p v fr) s = .next s) ∧
    (v.toNat % 4096 < s.txLen p → exec (.spTxrDoorbell p v fr) s = .next ((s.sput F.SP_TXR_PI_PI (v.toNat % 4096) p).updSp p (fun x => { x with
      q := x.q ++ (List.range ((v.toNat % 4096 + s.txLen p - s.g F.SP_TXR_PI_PI p % s.txLen p) % s.txLen p)).map (fun i => hostFrame (fr.getD i ([], []))) })))) ∧
  (∀ (s : State) (p : Fin 2) (v : W32) (bufs : List (W64 × BitVec 14)),
    s.Ready →
    (s.rxLen p ≤ v.toNat % 4096 → exec (.spRxrDoorbell p v bufs) s = .next s) ∧
    (v.toNat % 4096 < s.rxLen p → exec (.spRxrDoorbell p v bufs) s = .next ((s.sput F.SP_RXR_PI_PI (v.toNat % 4096) p).updSp p (fun x => { x with
      bufs := x.bufs ++ (List.range ((v.toNat % 4096 + s.rxLen p - s.g F.SP_RXR_PI_PI p % s.rxLen p) % s.rxLen p)).map (fun i => ((bufs.getD i (0, 0)).1.toNat, (bufs.getD i (0, 0)).2.toNat)) })))) ∧
  (∀ (s : State) (p : Fin 2) (v : W32),
    s.Ready →
    (s.on F.SP_FR_CTL_EN p = true → exec (.spFrInit p v) s = .next ((s.sput F.SP_FR_CTL_EN (bitsOf v.toNat 0 1) p).sput F.SP_FR_CTL_VEC (bitsOf v.toNat 16 11) p)) ∧
    (∀ u, s.on F.SP_FR_CTL_EN p = false → u = (((((s.put F.SP_TXR_PI_PI 0 p).put F.SP_TXR_CI_CI 0 p).put F.SP_RXR_PI_PI 0 p).put F.SP_RXR_CI_CI 0 p).updSp p (fun x => { x with q := x.q.filter (fun y => y.fwd), bufs := [] })) →
      exec (.spFrInit p v) s = .next ((u.sput F.SP_FR_CTL_EN (bitsOf v.toNat 0 1) p).sput F.SP_FR_CTL_VEC (bitsOf v.toNat 16 11) p))) ∧
  (∀ (s : State) (p : Fin 2) (m : Fin 8) (wide : Bool),
    s.Ready →
    ((s.sp p).tsq = [] → exec (.spTsqRead p m wide) s = .next { s.setLatch m (R.SP_TSQ_TS.key p 0) 0 with readData := 0 }) ∧
    (∀ e l, (s.sp p).tsq = e :: l → exec (.spTsqRead p m wide) s = .next
      { (((s.setTsq p l).put F.SP_TSQ_STAT_HID e.tag p).putB F.SP_TSQ_STAT_HFAIL e.fail p).setLatch m (R.SP_TSQ_TS.key p 0) e.ts with readData := lowRead e.ts wide })) ∧
  (∀ (s : State) (en : Bool),
    s.Ready →
    (en = false → exec (.spTcEnable en) s = .next (s.sput F.SP_TC_CTL_EN (b2n en) 0)) ∧
    (en = true → s.on F.SP_CFG_EN 0 = true → s.on F.SP_CFG_EN 1 = true → s.g F.SP_CFG_TB 0 = s.g F.SP_CFG_TB 1 → exec (.spTcEnable en) s = .next (s.sput F.SP_TC_CTL_EN (b2n en) 0)) ∧
    (en = true → s.on F.SP_CFG_EN 0 = false ∨ s.on F.SP_CFG_EN 1 = false ∨ s.g F.SP_CFG_TB 0 ≠ s.g F.SP_CFG_TB 1 → exec (.spTcEnable en) s = .next (s.put F.SP_STAT_CFG_REFUSED 1 0)))

/-- The PCIe link, configuration writes, MSI-X, the rings and vectors of a VF, mailboxes and Function Level Reset. Parts of it are the model's choices: log entries 14, 15, 38, 123, 130, 131, 132, 135, 138, 139, 159, 238. -/
def Obligations.HostLink : Prop :=
  (∀ (s u v : State),
    u = { s with pci.fns := [], pci.linkUp := false, pci.inq := [] } →
    v = (((u.put F.LAT_PCI_STAT_VF_EN 0).put F.LAT_PCI_STAT_SPEED 0).put F.LAT_PCI_STAT_WIDTH 0).put F.LAT_PCI_STAT_NUMVFS 0 →
    (s.clk = Clk.running → exec .pcieLinkDown s = .next ((((v.when s.vfEn State.drainVfs).sat F.LAT_PCI_STAT_DOWNS).masterReset 0).raise 43).settle) ∧
    (s.clk = Clk.frozen → exec .pcieLinkDown s = .next { v with pci.downs := s.pci.downs ++ [s.vfEn] })) ∧
  (∀ (s : State) (speed : Fin 8) (width : Fin 16),
    s.Quiet →
    s.clk = Clk.running ∨ s.clk = Clk.frozen →
    (s.pci.linkUp = true ∨ s.pcieLanesOn = true ∨ speed = 0 ∨ 5 < speed.val ∨ (width ≠ 1 ∧ width ≠ 2 ∧ width ≠ 4 ∧ width ≠ 8) → exec (.pcieLinkTrained speed width) s = .next s) ∧
    (s.pci.linkUp = false → s.pcieLanesOn = false → speed ≠ 0 → speed.val ≤ 5 → width = 1 ∨ width = 2 ∨ width = 4 ∨ width = 8 → exec (.pcieLinkTrained speed width) s = .next
      (({ s with pci.linkUp := true, pci.trained := speed } : State).put F.LAT_PCI_STAT_SPEED speed |>.put F.LAT_PCI_STAT_WIDTH width))) ∧
  (∀ (s : State) (f : Fn) (x : CfgItem) (u : State),
    s.Ready →
    (s.pci.linkUp = false → exec (.pcieConfigWrite f x) s = .next s) ∧
    (s.pci.linkUp = true → s.retiring 0 = true → exec (.pcieConfigWrite f x) s = .next { s with pci.inq := s.pci.inq ++ [(f.val, .configWrite x)] }) ∧
    (s.pci.linkUp = true → s.retiring 0 = false → s.earlyBoot = true → exec (.pcieConfigWrite f x) s = .next { s with hostOut := s.hostOut ++ [.cpl f 2 false []] }) ∧
    (s.pci.linkUp = true → s.retiring 0 = false → s.earlyBoot = false → s.fnExists f = false →
      exec (.pcieConfigWrite f x) s = .next ((({ s with hostOut := s.hostOut ++ [.cpl f 1 false []] } : State).uncorr 0 .unsupported).settle)) ∧
    (s.pci.linkUp = true → s.retiring 0 = false → s.earlyBoot = false → s.fnExists f = true →
      (∃ b, x = .bme b ∧ u = s.updFn f (fun c => { c with bme := b })) ∨ (∃ b, x = .d3hot b ∧ u = s.updFn f (fun c => { c with d3 := b })) ∨
      (∃ b, x = .mse b ∧ u = s.updFn f (fun c => { c with mse := b })) ∨ (∃ b, x = .msixEnable b ∧ u = s.updFn f (fun c => { c with msixEn := b })) ∨
      (∃ b, x = .functionMask b ∧ u = s.updFn f (fun c => { c with fmask := b })) ∨
      (∃ n, x = .maxRead n ∧ u = s.updFn f (fun c => { c with mrrs := 128 * 2 ^ n.val })) ∨ (∃ n, x = .maxPayload n ∧ u = s.updFn f (fun c => { c with mps := 128 * 2 ^ n.val })) ∨
      (∃ i w, x = .bar i w ∧ u = s.updFn f (fun c => { c with bars := Map.ins c.bars i.val w.toNat })) ∨ (∃ e o, x = .aerMask e o ∧ u = s.updFn f (fun c => { c with aerMasked := c.aerMasked.filter (· != e) ++ (if o then [e] else []) })) ∨
      (∃ n, x = .timeoutRange n ∧ u = (if ctoCodes.contains n.val then s.updFn f (fun c => { c with cto := n.val }) else s)) →
      exec (.pcieConfigWrite f x) s = .next (({ u with hostOut := u.hostOut ++ [.cpl f 0 false []] } : State).flushHeld.flushMsix).settle)) ∧
  (∀ (s : State) (f : Fn) (v : BitVec 11),
    s.Quiet →
    (s.clk = Clk.off → exec (.msixSend f v) s = .next s) ∧
    (s.clk ≠ Clk.off → s.vecCount f ≤ v.toNat → exec (.msixSend f v) s = .next (s.put F.LAT_STAT_VEC_BAD 1)) ∧
    (s.clk ≠ Clk.off → v.toNat < s.vecCount f → s.msixOpen f v.toNat = true → exec (.msixSend f v) s = .next
      { s with hostOut := s.hostOut ++ [.msix f v.toNat (s.msixEnt f v.toNat).addr (s.msixEnt f v.toNat).data] }) ∧
    (s.clk ≠ Clk.off → v.toNat < s.vecCount f → s.msixOpen f v.toNat = false → s.pci.pba.contains (msixKey f v.toNat) = false → exec (.msixSend f v) s = .next
      { s with pci.pba := s.pci.pba ++ [msixKey f v.toNat] })) ∧
  (∀ (s : State) (f : Fn) (v : BitVec 11),
    s.Ready →
    (s.vecCount f ≤ v.toNat → exec (.msixUnmask f v) s = .next s) ∧
    (v.toNat < s.vecCount f → exec (.msixUnmask f v) s = .next ((s.setMsix f v.toNat (fun e => { e with mask := false })).flushMsix).settle)) ∧
  (∀ (s : State) (v : Fn) (w : W32),
    s.Ready →
    v.val ≠ 0 →
    (s.vfEn = true → exec (.vfRingWrite v w) s = .next (s.put F.LAT_STAT_CFG_REFUSED 1)) ∧
    (s.vfEn = false → exec (.vfRingWrite v w) s = .next ((((s.sput F.LAT_VF_RING_FIRST (bitsOf w.toNat 0 13) v).sput F.LAT_VF_RING_COUNT (bitsOf w.toNat 16 11) v).sput F.LAT_VFR_ID2_FIRST (bitsOf w.toNat 0 13) v).sput F.LAT_VFR_ID_COUNT (bitsOf w.toNat 16 11) v))) ∧
  (∀ (s : State) (v : Fn) (w : W32),
    s.Ready →
    v.val ≠ 0 →
    (s.vfEn = true ∨ bitsOf w.toNat 0 11 = 0 ∨ 1536 < s.vecSum v (bitsOf w.toNat 0 11) → exec (.vfVecWrite v w) s = .next (s.put F.LAT_STAT_CFG_REFUSED 1)) ∧
    (s.vfEn = false → bitsOf w.toNat 0 11 ≠ 0 → s.vecSum v (bitsOf w.toNat 0 11) ≤ 1536 → exec (.vfVecWrite v w) s = .next ((s.sput F.LAT_VF_VEC_COUNT (bitsOf w.toNat 0 11) v).sput F.LAT_VFR_ID2_VECS (bitsOf w.toNat 0 11) v))) ∧
  (∀ (s : State) (v : Fn),
    s.Ready →
    v.val ≠ 0 →
    (s.vfShut v = true → exec (.vfMboxSend v) s = .next s) ∧
    (s.vfShut v = false → exec (.vfMboxSend v) s = .next ((s.setBits F.LAT_MBOX_PEND_PEND (2 ^ (v.val - 1))).msix 0 (s.g F.LAT_MBOX_VEC_VEC)).settle)) ∧
  (∀ (s : State) (v : Fn),
    s.Ready →
    v.val ≠ 0 →
    exec (.pfMboxSend v) s = .next ((s.put F.LAT_VFR_STAT_MB_IN 1 v).msix v (s.g F.LAT_VFR_MBCTL_VEC v)).settle) ∧
  (∀ (s : State) (v : Fn) (u : State),
    s.Ready →
    v.val ≠ 0 →
    (u = { s.clrMbox v with pci.fns := Map.del (s.clrMbox v).pci.fns v, pci.msix := (s.clrMbox v).pci.msix.map (fun e => if e.1 / 2048 = v.val then (e.1, { e.2 with mask := true }) else e), pci.pba := (s.clrMbox v).pci.pba.filter (fun k => k / 2048 ≠ v.val), pci.inq := (s.clrMbox v).pci.inq.filter (fun r => r.1 ≠ v.val) }) →
    (s.fnExists v = false → exec (.vfFlr v) s = .next s) ∧
    (s.fnExists v = true → exec (.vfFlr v) s = .next
      (((u.each ((List.range 8192).filter (fun n => u.ringFn n = v.val)) (fun u n => ringDrain n u)).put F.LAT_VF_STAT_FLR_BUSY 1 v).masterReset 0).settle)) ∧
  (∀ (s : State) (v : Fn),
    s.Ready →
    exec (.vfFlrDone v) s = .next (s.put F.LAT_VF_STAT_FLR_BUSY 0 v))

/-- Register space as a master accesses it, wrong widths, the doorbells of a VF, the IEEE 1687 network, requests that wait, and retiring. Parts of it are the model's choices: log entries 1, 12, 15, 59, 123, 131, 132, 133, 135, 138, 142, 143, 144, 146, 159, 200. -/
def Obligations.RegisterSpace : Prop :=
  (∀ (s : State) (m : Fin 8) (a : BitVec 24) (wide : Bool) (v : W64) (mem : List (List Byte × List Byte)) (n : Nat),
    s.Ready →
    n = a.toNat →
    (n % (if wide then 8 else 4) = 0) →
    (s.retiring m = true → exec (.registerWrite m a wide v mem) s = .next s) ∧
    (s.retiring m = false → latPath m (regTarget n) = false → exec (.registerWrite m a wide v mem) s = .next (s.latDecode m (regTarget n) true n).settle) ∧
    (s.retiring m = false → latPath m (regTarget n) = true → exec (.registerWrite m a wide v mem) s = .next ((s.grant (regTarget n) m).writeSpace m n wide v.toNat mem).settle) ∧
    (s.retiring m = false → latPath m (regTarget n) = true → wide = false → placeAt n = none → exec (.registerWrite m a wide v mem) s = .next (s.grant (regTarget n) m))) ∧
  (∀ (s : State) (m : Fin 8) (a : BitVec 24) (wide : Bool) (n : Nat),
    s.Ready →
    n = a.toNat →
    (n % (if wide then 8 else 4) = 0) →
    (s.retiring m = true → exec (.reg64LatchRead m a wide) s = .next s) ∧
    (s.retiring m = false → latPath m (regTarget n) = false → exec (.reg64LatchRead m a wide) s = .next (({ s with readData := 0 } : State).latDecode m (regTarget n) false n).settle) ∧
    (s.retiring m = false → latPath m (regTarget n) = true → exec (.reg64LatchRead m a wide) s = .next ((s.grant (regTarget n) m).readSpace m n wide).settle) ∧
    (s.retiring m = false → latPath m (regTarget n) = true → wide = false → placeAt n = none → traceAddr n = none → (s.grant (regTarget n) m).rtuRegion n = none → exec (.reg64LatchRead m a wide) s = .next { s.grant (regTarget n) m with readData := 0 })) ∧
  (∀ (s : State) (m : Fin 8) (a : BitVec 24) (t : Nat),
    s.clk = Clk.running →
    t = regTarget a.toNat →
    (∀ wr, s.retiring m = true → exec (.badWidthAccess m a wr) s = .next s.settle) ∧
    (s.retiring m = false → latPath m t = true → exec (.badWidthAccess m a true) s = .next ((s.grant t m).latDecode m t true a.toNat).settle ∧
      exec (.badWidthAccess m a false) s = .next ((({ s with readData := 0xFFFFFFFF } : State).grant t m).latDecode m t false a.toNat).settle) ∧
    (s.retiring m = false → latPath m t = false → exec (.badWidthAccess m a true) s = .next (s.latDecode m t true a.toNat).settle ∧
      exec (.badWidthAccess m a false) s = .next (({ s with readData := 0 } : State).latDecode m t false a.toNat).settle)) ∧
  (∀ (s : State) (v : Fn) (i : Fin 1024) (w : Fin 8) (wr : Bool) (x : W32),
    s.clk = Clk.running →
    v.val ≠ 0 →
    (s.vfShut v = true → exec (.vfDoorbellAccess v i w wr x) s = .next (if wr then s else { s with readData := 0xFFFFFFFF }).settle) ∧
    (s.vfShut v = false → s.slotOk v i = false → exec (.vfDoorbellAccess v i w wr x) s = .next ((if wr then s else { s with readData := 0 }).dbBad v).settle) ∧
    (s.vfShut v = false → s.slotOk v i = true → wr = false → exec (.vfDoorbellAccess v i w wr x) s = .next (State.settle { s with readData := s.slotWord (s.g F.LAT_VF_RING_FIRST v + i) w })) ∧
    (s.vfShut v = false → s.slotOk v i = true → wr = true → w = 0 → exec (.vfDoorbellAccess v i w wr x) s = .next (rqDoorbell (s.g F.LAT_VF_RING_FIRST v + i) x.toNat s).settle) ∧
    (s.vfShut v = false → s.slotOk v i = true → wr = true → w = 3 → exec (.vfDoorbellAccess v i w wr x) s = .next (cqDoorbell (s.g F.LAT_VF_RING_FIRST v + i) x.toNat s).settle) ∧
    (s.vfShut v = false → s.slotOk v i = true → wr = true → w ≠ 0 → w ≠ 3 → exec (.vfDoorbellAccess v i w wr x) s = .next s.settle)) ∧
  (∀ (s : State),
    s.Quiet →
    (∀ x, s.clk = Clk.off ∨ s.unlocked = false ∨ s.tst.ir ≠ 16 → exec (.ijtagAccess x) s = .next s) ∧
    (s.clk ≠ Clk.off → s.unlocked = true → s.tst.ir = 16 → exec (.ijtagAccess .clearHold) s = .next (s.put F.FLT_FRZ_CTL_HOLD 0)) ∧
    (s.clk ≠ Clk.off → s.unlocked = true → s.tst.ir = 16 → exec (.ijtagAccess .freezeTimer) s = .next { s with readData := s.flt.frozen * 5 / 32 }) ∧
    (∀ m h r, s.clk ≠ Clk.off → s.unlocked = true → s.tst.ir = 16 → exec (.ijtagAccess (.thread m h r)) s = .next { s with readData := s.thrReg m h r })) ∧
  (∀ (s : State) (f : Fn) (r : PcieReq),
    s.Quiet →
    (s.pci.linkUp = false → exec (.pcieRequest f r) s = .next s) ∧
    (s.pci.linkUp = true → s.clk = Clk.frozen ∨ (s.clk = Clk.running ∧ s.retiring 0 = true) → exec (.pcieRequest f r) s = .next { s with pci.inq := s.pci.inq ++ [(f.val, r)] }) ∧
    (∀ reg, s.pci.linkUp = true → s.clk = Clk.running → s.retiring 0 = false → s.earlyBoot = true → r = .config reg → exec (.pcieRequest f r) s = .next (s.answer f 2 false [])) ∧
    (s.pci.linkUp = true → s.clk = Clk.running → s.retiring 0 = false → s.earlyBoot = false → exec (.pcieRequest f r) s = .next (serve f r s).settle)) ∧
  (∀ (s : State) (m : Fin 8),
    s.clk = Clk.running →
    (m = 0 → exec (.retireDone m) s = .next ((s.put F.LAT_STAT_RETIRE (clrBit (s.g F.LAT_STAT_RETIRE) 0)).drainIn).settle) ∧
    (m ≠ 0 → exec (.retireDone m) s = .next (s.put F.LAT_STAT_RETIRE (clrBit (s.g F.LAT_STAT_RETIRE) m)).settle))

/-- The Lattice: promotion of a starved master, timeouts, refused accesses and master resets. Parts of it are the model's choices: log entries 1, 12, 15, 123, 144. -/
def Obligations.LatticeRules : Prop :=
  (∀ (s : State) (t : Fin 8) (hs : List (Fin 8)) (l : List Nat) (u : State),
    s.clk = Clk.running →
    (l = (hs.map (fun m => m.val)).filter (fun m => latPath m t && !s.retiring m)) →
    u = s.latWait t l →
    (∀ m, longest (u.promoted (l.map (u.latHead t))) = some m → exec (.latStarvePromote t hs) s = .next (u.grant t m).settle) ∧
    (∀ m p, longest (u.promoted (l.map (u.latHead t))) = none → p = ((l.map (u.latHead t)).map (fun h => u.latPri t h.master)).foldl max 0 →
      nextAfter (((l.map (u.latHead t)).filter (fun h => u.latPri t h.master = p)).map (fun h => h.master)) (u.latAfter t p) = some m →
      exec (.latStarvePromote t hs) s = .next (u.grant t m).settle) ∧
    (l = [] → exec (.latStarvePromote t hs) s = .next u.settle)) ∧
  (∀ (s : State) (m t : Fin 8) (wr : Bool) (x : LatWait),
    s.clk = Clk.running →
    (latPath m t = false ∨ x.waited.toNat < max 1 (s.g F.LAT_TMO_CYCLES) → exec (.latTimeoutExpiry m t wr x) s = .next s.settle) ∧
    (∀ u, latPath m t = true → max 1 (s.g F.LAT_TMO_CYCLES) ≤ x.waited.toNat →
      u = (if s.on F.LAT_STAT_TIMEOUT then s else ((((s.put F.LAT_ERR_INFO_MASTER m).put F.LAT_ERR_INFO_TARGET t).putB F.LAT_ERR_INFO_WRITE wr).put F.LAT_ERR_INFO_KIND 1).put F.LAT_ERR_INFO_ADDR x.addr.toNat) →
      (m ≠ 1 → exec (.latTimeoutExpiry m t wr x) s = .next (((u.grant t m).put F.LAT_STAT_TIMEOUT 1).raise 44 (m + 16 * t)).settle) ∧
      (m = 1 → exec (.latTimeoutExpiry m t wr x) s = .next ((((u.grant t m).put F.LAT_STAT_TIMEOUT 1).raise 44 (m + 16 * t)).dmaEnds x.chan 8).settle))) ∧
  (∀ (s : State) (m t : Fin 8) (wr : Bool) (x : LatAddr),
    s.clk = Clk.running →
    (latPath m t = false ∨ latOutside t x.addr.toNat = true → m ≠ 1 → exec (.latDecodeError m t wr x) s = .next ((if wr then s else { s with readData := 0 }).latDecode m t wr x.addr.toNat).settle) ∧
    (latPath m t = false ∨ latOutside t x.addr.toNat = true → m = 1 → exec (.latDecodeError m t wr x) s = .next (((if wr then s else { s with readData := 0 }).latDecode m t wr x.addr.toNat).dmaEnds x.chan 8).settle) ∧
    (latPath m t = true → t = 0 ∨ t = 7 → exec (.latDecodeError m t wr x) s = .next s.settle) ∧
    (latPath m t = true → t = 4 → x.addr.toNat < 16 * 0x40000 → exec (.latDecodeError m t wr x) s = .next s.settle) ∧
    (latPath m t = true → t = 4 → 16 * 0x40000 ≤ x.addr.toNat → latOutside t x.addr.toNat = true)) ∧
  (∀ (s : State) (m : Fin 8),
    s.Ready →
    exec (.masterReset m) s = .next (s.put F.LAT_STAT_RETIRE (orBit (s.g F.LAT_STAT_RETIRE) m)))

/-- The DMA channels: START, chains, kicks, ABORT, CLEAR, fetches, completion and errors. Parts of it are the model's choices: log entries 1, 15, 123, 124, 125, 127, 128, 233. -/
def Obligations.DmaChannels : Prop :=
  (∀ (s : State) (c : Fin 16),
    s.Ready →
    (s.dmaState c ≠ 0 → exec (.dmaStart c) s = .next (s.put F.DMA_CH_STAT_REFUSED 1 c)) ∧
    (s.dmaState c = 0 → exec (.dmaStart c) s = .next (s.dmaBegin c (s.dmaImage c) true).settle)) ∧
  (∀ (s : State) (c : Fin 16),
    s.Ready →
    (s.dmaState c ≠ 0 → exec (.dmaChainStart c) s = .next (s.put F.DMA_CH_STAT_REFUSED 1 c)) ∧
    (s.dmaState c = 0 → exec (.dmaChainStart c) s = .next ((((s.put F.DMA_CH_BYTES_BYTES 0 c).put F.DMA_CH_CUR_VAL (s.g F.DMA_CH_NEXT_VAL c) c).updDma c (fun x => { x with image := false, relink := false })).setDma c 1))) ∧
  (∀ (s : State) (c : Fin 16),
    s.Ready →
    (s.dmaState c = 3 → exec (.dmaChainKick c) s = .next (((s.put F.DMA_CH_CUR_VAL (s.g F.DMA_CH_CUR_VAL c) c).updDma c (fun x => { x with image := false, relink := true })).setDma c 1)) ∧
    (s.dmaState c = 1 ∨ s.dmaState c = 2 → exec (.dmaChainKick c) s = .next (s.put F.DMA_CH_STAT_KICK_PEND 1 c)) ∧
    (s.dmaState c = 0 ∨ s.dmaState c = 4 → exec (.dmaChainKick c) s = .next (s.put F.DMA_CH_STAT_REFUSED 1 c))) ∧
  (∀ (s : State) (c : Fin 16) (n : BitVec 32) (host : List Byte),
    s.Ready →
    (s.dmaState c = 1 ∨ (s.dmaState c = 2 ∧ (s.dmaWaits c = true ∨ s.retiring 1 = true)) → exec (.dmaAbort c n host) s = .next (((s.masterReset 1).put F.DMA_CH_STAT_ABORTED 1 c).setDma c 0).settle) ∧
    (∀ u, s.dmaState c = 2 → s.dmaWaits c = false → s.retiring 1 = false → u = (s.dmaMove c ((s.dmaLeft c).take n.toNat) host).1 → exec (.dmaAbort c n host) s = .next (((u.masterReset 1).put F.DMA_CH_STAT_ABORTED 1 c).setDma c 0).settle) ∧
    (s.dmaState c = 0 ∨ s.dmaState c = 3 ∨ s.dmaState c = 4 → exec (.dmaAbort c n host) s = .next s)) ∧
  (∀ (s : State) (c : Fin 16),
    s.Ready →
    exec (.dmaClear c) s = .next (if s.dmaState c = 3 ∨ s.dmaState c = 4 then s.setDma c 0 else s)) ∧
  (∀ (s : State) (c : Fin 16) (host : List Byte),
    s.Ready →
    (s.dmaState c ≠ 1 ∨ s.retiring 1 = true → exec (.dmaFetchDone c host) s = .next s) ∧
    (s.dmaState c = 1 → s.on F.DMA_CH_CFG_CSP c = true → s.dmaHost = false ∨ s.readRoom 1 = false → exec (.dmaFetchDone c host) s = .next s) ∧
    (s.dmaState c = 1 → s.retiring 1 = false → s.on F.DMA_CH_CFG_CSP c = true → s.dmaHost = true → s.readRoom 1 = true → (s.dma' c).relink = false → exec (.dmaFetchDone c host) s = .next
      ((((s.readReq 0 (s.g F.DMA_CH_CUR_VAL c) 64).grant 7 1).dmaFetched c (leBytes 64 (leNat (host.take 64)))).settle)) ∧
    (∀ a u bs, s.dmaState c = 1 → s.retiring 1 = false → s.on F.DMA_CH_CFG_CSP c = false → (s.dma' c).relink = false → a = s.g F.DMA_CH_CUR_VAL c → u = s.grant (bar2Target a) 1 → u.dmaRead a 64 = .ok bs →
      exec (.dmaFetchDone c host) s = .next (u.dmaFetched c bs).settle) ∧
    (∀ a u x wr, s.dmaState c = 1 → s.retiring 1 = false → s.on F.DMA_CH_CFG_CSP c = false → (s.dma' c).relink = false → a = s.g F.DMA_CH_CUR_VAL c → u = s.grant (bar2Target a) 1 → u.dmaRead a 64 = .decode x wr →
      exec (.dmaFetchDone c host) s = .next ((s.latDecode 1 (bar2Target x) wr x).dmaFail c 8).settle)) ∧
  (∀ (s : State) (c : Fin 16) (host : List Byte),
    s.Ready →
    (s.dmaState c ≠ 2 ∨ s.retiring 1 = true → exec (.dmaDescDone c host) s = .next s) ∧
    (s.dmaState c = 2 → s.dmaHost = false → Dd.ssp (s.dma' c).desc = 1 ∨ Dd.dsp (s.dma' c).desc = 1 → exec (.dmaDescDone c host) s = .next s) ∧
    (∀ u, s.dmaState c = 2 → s.dmaWaits c = false → s.retiring 1 = false → u = s.dmaTurns s.dmaFuel c host → u.dmaState c = 2 → u.dmaLeft c = [] → exec (.dmaDescDone c host) s = .next (u.dmaComplete c).settle) ∧
    (∀ u, s.dmaState c = 2 → s.dmaWaits c = false → s.retiring 1 = false → u = s.dmaTurns s.dmaFuel c host → u.dmaState c ≠ 2 ∨ u.dmaLeft c ≠ [] → exec (.dmaDescDone c host) s = .next u.settle) ∧
    (∀ v u, s.dmaState c = 2 → s.dmaWaits c = false → s.retiring 1 = false → s.dmaLeft c ≠ [] → s.dmaTurn c = some c.val → 0 < s.dmaFuel →
      v = ({ s with lat.turn := Map.ins s.lat.turn (s.g F.DMA_CH_CFG_PRI c) c } : State) → v.dmaMove c ((v.dmaLeft c).take (Dd.burst (s.dma' c).desc)) host = (u, none) → u.dmaState c = 2 → u.dmaLeft c = [] →
      exec (.dmaDescDone c host) s = .next (u.dmaComplete c).settle) ∧
    (∀ v u r t, s.dmaState c = 2 → s.dmaWaits c = false → s.retiring 1 = false → s.dmaLeft c ≠ [] → s.dmaTurn c = some c.val → 0 < s.dmaFuel →
      v = ({ s with lat.turn := Map.ins s.lat.turn (s.g F.DMA_CH_CFG_PRI c) c } : State) → v.dmaMove c ((v.dmaLeft c).take (Dd.burst (s.dma' c).desc)) host = (u, some r) → t = u.dmaReadFail c r → t.dmaState c ≠ 2 →
      exec (.dmaDescDone c host) s = .next t.settle)) ∧
  (∀ (s : State) (c : Fin 16) (e : DmaErr) (n : BitVec 32) (host : List Byte) (k : Nat),
    s.Ready →
    ((e = .lattice ∧ k = 8) ∨ (e = .host .poisoned ∧ k = 10) ∨ (e = .host .ur ∧ k = 9) ∨ (e = .host .ca ∧ k = 9) ∨ (e = .host .timeout ∧ k = 9) ∨ ((∃ w, e = .uncorrectable w) ∧ k = 10)) →
    (s.dmaState c = 1 → exec (.dmaError c e n host) s = .next ((s.dmaFail c k).dmaErrLog e).settle) ∧
    (s.dmaState c = 2 → exec (.dmaError c e n host) s = .next (((s.dmaMove c ((s.dmaLeft c).take n.toNat) host).1.dmaFail c k).dmaErrLog e).settle) ∧
    (s.dmaState c = 0 ∨ s.dmaState c = 3 ∨ s.dmaState c = 4 → exec (.dmaError c e n host) s = .next s))

/-- Chord: occurrences, raises, the EVIN and EVOUT pins and a channel's register. Parts of it are the model's choices: log entries 14, 15, 148, 149, 150. -/
def Obligations.ChordEvents : Prop :=
  (∀ (s : State),
    s.Ready →
    (s.evt.occ = [] → exec .chordOccurrence s = .next s) ∧
    (∀ k l, s.evt.occ = k :: l → 256 ≤ k → exec .chordOccurrence s = .next (({ s with evt.occ := l } : State).reach (k - 256) true).settle) ∧
    (∀ k l, s.evt.occ = k :: l → k < 256 → producer k = true → exec .chordOccurrence s = .next
      (({ s with evt.occ := l } : State).each ((List.range 64).filter (fun c => s.g F.EVT_CH_PSEL c = k)) (fun u c => u.reach c false)).settle) ∧
    (∀ k l, s.evt.occ = k :: l → k < 256 → producer k = false → exec .chordOccurrence s = .next { s with evt.occ := l })) ∧
  (∀ (s : State) (c : Fin 64),
    s.Ready →
    (s.on F.EVT_CH_EN c = false ∨ bitOf s.grpMask (s.g F.EVT_CH_GRP c) = false → exec (.evtRaise c) s = .next s) ∧
    (s.on F.EVT_CH_EN c = true → bitOf s.grpMask (s.g F.EVT_CH_GRP c) = true → Map.find s.evt.last c = some s.slow → exec (.evtRaise c) s = .next (s.put F.EVT_CHSTAT_COINC 1 c)) ∧
    (s.on F.EVT_CH_EN c = true → bitOf s.grpMask (s.g F.EVT_CH_GRP c) = true → Map.find s.evt.last c ≠ some s.slow → s.stormy c = false → exec (.evtRaise c) s = .next (s.fire c).settle) ∧
    (s.on F.EVT_CH_EN c = true → bitOf s.grpMask (s.g F.EVT_CH_GRP c) = true → Map.find s.evt.last c ≠ some s.slow → s.stormy c = true → exec (.evtRaise c) s = .next (s.storm c).settle)) ∧
  (∀ (s : State) (i : Fin 4) (level : Bool),
    s.Ready →
    (s.on F.EVT_PIN_LEVEL i = level → exec (.evinEdge i level) s = .next s) ∧
    (s.on F.EVT_PIN_LEVEL i ≠ level → exec (.evinEdge i level) s = .next
      ((s.putB F.EVT_PIN_LEVEL level i).when (if level then bitOf (s.g F.EVT_PIN_MODE i) 0 else bitOf (s.g F.EVT_PIN_MODE i) 1) (fun u => u.occur (1 + i))))) ∧
  (∀ (s : State) (i : Fin 4) (level : Bool),
    s.clk = Clk.frozen →
    exec (.evinEdge i level) s = .next { s with evt.pins := Map.ins s.evt.pins i level }) ∧
  (∀ (s : State) (i : Fin 4),
    s.Ready →
    (s.pulseOver (1 + i) = true → exec (.evoutPulseEnd i) s = .next (s.put F.EVT_CONS_BUSY 0 (1 + i))) ∧
    (s.pulseOver (1 + i) = false → exec (.evoutPulseEnd i) s = .next s)) ∧
  (∀ (s : State) (c : Fin 64) (v : W32) (u : State),
    s.Ready →
    (u = [F.EVT_CH_PSEL, F.EVT_CH_CSEL, F.EVT_CH_GRP, F.EVT_CH_EN, F.EVT_CH_IEN, F.EVT_CH_RETRIG].foldl (fun u f => u.sput f (bitsOf v.toNat f.lo f.wd) c) s) →
    exec (.evtChWrite c v) s = .next (if u.on F.EVT_CH_EN c then { u with evt.hist := Map.del u.evt.hist c } else u))

/-- The fault collector: raises, clears, the first fault, soft faults, windows of corrected errors and the watchdog. Parts of it are the model's choices: log entries 14, 15, 38, 147. -/
def Obligations.FaultCollector : Prop :=
  (∀ (s : State) (n : Fin 64) (info : W32) (k : Nat),
    s.clk = Clk.running →
    n ≠ 24 →
    k = info.toNat &&& infoBits n →
    (s.fltOn n = true → exec (.faultRaise n info) s = .next (State.settle { s with flt.again := s.flt.again.filter (fun e => e.2.1 = s.cycle && e.1 != n.val) ++ [(n.val, s.cycle, k)] })) ∧
    (∀ u, s.fltOn n = false → u = s.hwWord R.FLT_STAT (s.word R.FLT_STAT ||| BitVec.ofNat 96 (2 ^ n.val)) (BitVec.ofNat 96 (2 ^ n.val)) →
      exec (.faultRaise n info) s = .next (((u.put F.FLT_INFO_INFO k n).fltFirst n).react n k).settle)) ∧
  (∀ (s : State) (info : W32) (w : Nat),
    s.clk = Clk.running →
    storeWord (bitsOf info.toNat 0 4) (bitsOf info.toNat 8 21) = some w →
    exec (.faultRaise 24 info) s = .next (({ s with ueWords := if s.ueWords.contains w then s.ueWords else s.ueWords ++ [w] } : State).raise 24 (info.toNat &&& infoBits 24)).settle) ∧
  (∀ (s : State) (m : Fin 9) (mask : W64) (l : List (Nat × Nat × Nat)) (u : State),
    s.clk = Clk.running →
    (l = s.flt.again.filter (fun e => e.2.1 = s.cycle && bitOf mask.toNat e.1)) →
    u = { (s.wideWritten m R.FLT_STAT).w1c F.FLT_STAT_STAT mask.toNat with flt.again := [] } →
    exec (.fltStatClear ⟨m, mask⟩) s = .next (l.foldl (fun u e => u.raise e.1 e.2.2) u).settle) ∧
  (∀ (s : State),
    s.clk = Clk.running →
    (bitList (s.hwOf R.FLT_STAT).set.toNat 64 = [] → exec .fltFirstClear s = .next ((s.w1c F.FLT_FIRST_VALID).w1c F.FLT_FIRST_OVF).settle) ∧
    (∀ n l u, bitList (s.hwOf R.FLT_STAT).set.toNat 64 = n :: l →
      u = (((s.put F.FLT_FIRST_VALID 1).put F.FLT_FIRST_SRC n).putB F.FLT_FIRST_OVF (!l.isEmpty)).put F.FLT_FIRST_TIME_VAL (s.tbNow 0).toNat →
      exec .fltFirstClear s = .next (State.settle { u with flt.firstAt := s.cycle }))) ∧
  (∀ (s : State) (mask : BitVec 4),
    s.clk = Clk.running →
    exec (.fltSoft mask) s = .next (((List.range 4).filter (bitOf mask.toNat)).foldl (fun u i => u.raise (60 + i)) s).settle) ∧
  (∀ (s : State) (store : Fin 9) (n : BitVec 32) (d : Nat),
    s.Ready →
    d = Map.look s.flt.ceAt store s.flt.ceBase + 1000000 * max 1 (s.g F.FLT_CE_THR_WIN) →
    (s.cycle < d → exec (.ceWindowEnd store n) s = .next s) ∧
    (d ≤ s.cycle → n.toNat < max 1 (s.g F.FLT_CE_THR_THR) → exec (.ceWindowEnd store n) s = .next (State.settle { s with flt.ceAt := Map.ins s.flt.ceAt store d })) ∧
    (d ≤ s.cycle → max 1 (s.g F.FLT_CE_THR_THR) ≤ n.toNat → exec (.ceWindowEnd store n) s = .next (({ s with flt.ceAt := Map.ins s.flt.ceAt store d } : State).raise 25 store).settle)) ∧
  (∀ (s : State) (i : Fin 4),
    s.clk = Clk.running →
    exec (.mpWatchdogExpiry i) s = .next (s.raise 50 i).settle)

/-- Fences asked for and taken effect, resume sequences and their ends. Parts of it are the model's choices: log entries 14, 15, 95, 141, 154, 155, 156, 157, 158. -/
def Obligations.FencesAndResumes : Prop :=
  (∀ (s : State) (r : Fin 8) (i : Fin 64) (u : State),
    s.Ready →
    u = (s.sput F.FLT_FENCE_CTL_REGION r).sput F.FLT_FENCE_CTL_INDEX i →
    (u.flt.cmds.any (fun c => c.2.2) = true → exec (.fltFence r i) s = .next u) ∧
    (u.flt.cmds.any (fun c => c.2.2) = false → regionIdx r i = false → exec (.fltFence r i) s = .next (u.put F.FLT_FENCE_STAT_REFUSED 1)) ∧
    (u.flt.cmds.any (fun c => c.2.2) = false → regionIdx r i = true → exec (.fltFence r i) s = .next ((u.setCmds (u.flt.cmds ++ [(r.val, i.val, true)])).askFence r i false).settle)) ∧
  (∀ (s : State),
    s.Ready →
    (s.flt.fences = [] → exec .fenceTakeEffect s = .next s) ∧
    (∀ r l u, s.flt.fences = r :: l → u = (({ s with flt.fences := l } : State).fenceNow r.region r.idx).endCmd r.region r.idx true →
      exec .fenceTakeEffect s = .next (if r.resume then u.startResume r.region r.idx else u).settle)) ∧
  (∀ (s : State) (r : Fin 8) (i : Fin 64) (u : State),
    s.Ready →
    u = (s.sput F.FLT_FENCE_CTL_REGION r).sput F.FLT_FENCE_CTL_INDEX i →
    (regionIdx r i = false ∨ u.regionFenced r i = false ∨ u.on F.FLT_FENCE_STAT_BUSY = true → exec (.fltUnfence r i) s = .next (u.put F.FLT_FENCE_STAT_REFUSED 1)) ∧
    (regionIdx r i = true → u.regionFenced r i = true → u.on F.FLT_FENCE_STAT_BUSY = false → exec (.fltUnfence r i) s = .next ((u.setCmds (u.flt.cmds ++ [(r.val, i.val, false)])).startResume r i).settle)) ∧
  (∀ (s : State) (r : Fin 8) (i : Fin 64),
    s.Ready →
    (s.resuming r i = false ∨ s.resumeReady r i = false → exec (.resumeDone r i) s = .next s) ∧
    (s.resuming r i = true → s.resumeReady r i = true → exec (.resumeDone r i) s = .next ((s.endResume r i).liftFence r i).settle)) ∧
  (∀ (s : State) (r : Fin 8) (i : Fin 64),
    s.Ready →
    (s.resuming r i = false → exec (.resumeStepTimeout r i) s = .next s) ∧
    (s.resuming r i = true → s.resumeReady r i = true → r ≠ 6 → exec (.resumeStepTimeout r i) s = .next s) ∧
    (s.resuming r i = true → s.resumeReady r i = false ∨ r = 6 → r ≠ 2 → r ≠ 3 → exec (.resumeStepTimeout r i) s = .next ((s.endResume r i).put F.FLT_FENCE_STAT_RESUME_FAIL 1).settle) ∧
    (s.resuming r i = true → s.resumeReady r i = false → r = 2 → exec (.resumeStepTimeout r i) s = .next (s.memberOff 0 i).settle) ∧
    (s.resuming r i = true → s.resumeReady r i = false → r = 3 → exec (.resumeStepTimeout r i) s = .next (s.memberOff (1 + i / 2) (i % 2)).settle))

/-- Freeze requests, the rise of FREEZE_N, and requests for a partition's mode. Parts of it are the model's choices: log entries 14, 15, 151. -/
def Obligations.FreezeAndModes : Prop :=
  (∀ (s : State) (src : Fin 3) (u : State),
    s.Quiet →
    (u = if src = 0 then { s with flt.frzPin := false } else s) →
    (s.clk ≠ Clk.running ∨ (s.mode ≠ 3 ∧ s.mode ≠ 4) ∨ (src = 0 ∧ s.on F.FLT_FRZ_CTL_PIN_EN = false) → exec (.freezeRequest src) s = .next u) ∧
    (s.clk = Clk.running → s.mode = 3 ∨ s.mode = 4 → src ≠ 0 → exec (.freezeRequest src) s = .next
      { (((s.put F.FLT_FRZ_CTL_HOLD 1).put F.FLT_FRZ_STAT_SRC src).sat F.FLT_FRZ_STAT_COUNT).put F.GLB_MODE_MODE 5 with clk := .frozen, flt.frozen := 0, flt.frzBy := some src.val, flt.frzMode := s.mode }) ∧
    (s.clk = Clk.running → s.mode = 3 ∨ s.mode = 4 → src = 0 → s.on F.FLT_FRZ_CTL_PIN_EN = true → exec (.freezeRequest src) s = .next
      { ((u.put F.FLT_FRZ_STAT_SRC 0).sat F.FLT_FRZ_STAT_COUNT).put F.GLB_MODE_MODE 5 with clk := .frozen, flt.frozen := 0, flt.frzBy := some 0, flt.frzMode := s.mode })) ∧
  (∀ (s : State),
    s.Quiet →
    exec .freezePinRise s = .next (if s.flt.frzPin then s else ({ s with flt.frzPin := true } : State).put F.FLT_FRZ_CTL_HOLD 0)) ∧
  (∀ (s : State) (p : Part) (code : Fin 8) (u : State),
    s.clk = Clk.running →
    u = s.sput F.GLB_PMODE_REQ code p →
    (u.mode ≠ 3 ∨ u.partFenced p = true ∨ u.resuming 0 p = true ∨ 4 < code.val → exec (.pmodeRequest p code) s = .next (u.put F.GLB_PMODE_REFUSED 1 p).settle) ∧
    (∀ v, u.mode = 3 → u.partFenced p = false → u.resuming 0 p = false → code.val ≤ 4 → v = (if u.pmode p = code then u else u.setMode p code) →
      (v.pmNow p = none → exec (.pmodeRequest p code) s = .next v.settle) ∧
      (∀ c, v.pmNow p = some c → exec (.pmodeRequest p code) s = .next (v.askMode p c).1.settle)))

/-- The management commands PARK, RESUME, SAFE, SHUTDOWN, TEST_ENTER, CARAFE_WRITE, PATCH_ARB_COMMIT, LOG_READ and flash. Parts of it are the model's choices: log entries 1, 15, 18, 100, 101, 123, 134, 154, 156, 164, 165, 166, 167, 168, 169, 170, 171, 172, 173, 174, 210, 224, 232, 247. -/
def Obligations.ManagementCommands : Prop :=
  (∀ (s : State) (slot : Fin 4),
    s.Ready →
    s.on F.GLB_MCMD_CTL_BUSY slot = true →
    s.arg slot 0 % 256 = 1 →
    Map.find s.pwr.mcmd slot = none →
    s.serving = true →
    (accepts 1 s.mode = false → exec (.park slot) s = .next (s.record slot 1 0 4 0)) ∧
    (accepts 1 s.mode = true → s.conflicts slot 1 0 = true → exec (.park slot) s = .next (s.record slot 1 0 3 0)) ∧
    (accepts 1 s.mode = true → s.conflicts slot 1 0 = false → exec (.park slot) s = .next (((s.parkDevice).put F.GLB_MODE_MODE 1).record slot 1 0 0 0).settle)) ∧
  (∀ (s : State) (slot : Fin 4),
    s.Ready →
    s.on F.GLB_MCMD_CTL_BUSY slot = true →
    s.arg slot 0 % 256 = 2 →
    Map.find s.pwr.mcmd slot = none →
    s.serving = true →
    (accepts 2 s.mode = false → exec (.resume slot) s = .next (s.record slot 2 0 4 0)) ∧
    (accepts 2 s.mode = true → s.conflicts slot 2 0 = true → exec (.resume slot) s = .next (s.record slot 2 0 3 0)) ∧
    (accepts 2 s.mode = true → s.conflicts slot 2 0 = false → exec (.resume slot) s = .next (((s.put F.DPC_VSET_VSET s.pwr.vcore 0).each (List.range 16) (fun u t => u.startResume 1 t)).record slot 2 0 0 0).settle)) ∧
  (∀ (s : State) (slot : Fin 4),
    s.Ready →
    s.on F.GLB_MCMD_CTL_BUSY slot = true →
    s.arg slot 0 % 256 = 3 →
    Map.find s.pwr.mcmd slot = none →
    s.serving = true →
    (accepts 3 s.mode = false → exec (.safe slot) s = .next (s.record slot 3 0 4 0)) ∧
    (accepts 3 s.mode = true → s.conflicts slot 3 0 = true → exec (.safe slot) s = .next (s.record slot 3 0 3 0)) ∧
    (accepts 3 s.mode = true → s.conflicts slot 3 0 = false → exec (.safe slot) s = .next (s.enterSafe.record slot 3 0 0 0).settle)) ∧
  (∀ (s : State) (slot : Fin 4),
    s.Ready →
    s.on F.GLB_MCMD_CTL_BUSY slot = true →
    s.arg slot 0 % 256 = 4 →
    Map.find s.pwr.mcmd slot = none →
    s.serving = true →
    (accepts 4 s.mode = false → exec (.shutdown slot) s = .next (s.record slot 4 0 4 0)) ∧
    (accepts 4 s.mode = true → s.conflicts slot 4 0 = true → exec (.shutdown slot) s = .next (s.record slot 4 0 3 0)) ∧
    (accepts 4 s.mode = true → s.conflicts slot 4 0 = false → exec (.shutdown slot) s = .next (s.record slot 4 0 0 0).settle)) ∧
  (∀ (s : State) (slot : Fin 4),
    s.Ready →
    s.on F.GLB_MCMD_CTL_BUSY slot = true →
    s.arg slot 0 % 256 = 5 →
    Map.find s.pwr.mcmd slot = none →
    s.serving = true →
    (accepts 5 s.mode = false → exec (.testEnter slot) s = .next (s.record slot 5 0 4 0)) ∧
    (accepts 5 s.mode = true → s.conflicts slot 5 0 = true → exec (.testEnter slot) s = .next (s.record slot 5 0 3 0)) ∧
    (accepts 5 s.mode = true → s.conflicts slot 5 0 = false → (List.range 16).all (fun p => s.pmode p = 0 && s.roState p = 0) = true → exec (.testEnter slot) s = .next (((s.each (List.range 16) (fun u t => (u.thStop 0 t).thStop 1 t)).put F.GLB_MODE_MODE 4).record slot 5 0 0 0).settle) ∧
    (accepts 5 s.mode = true → s.conflicts slot 5 0 = false → (List.range 16).all (fun p => s.pmode p = 0 && s.roState p = 0) = false → exec (.testEnter slot) s = .next (s.record slot 5 0 4 0).settle)) ∧
  (∀ (s : State) (slot : Fin 4) (data : List W32) (r : BitVec 16) (bad : Option Chan),
    s.Ready →
    s.on F.GLB_MCMD_CTL_BUSY slot = true →
    s.arg slot 0 % 256 = 16 →
    Map.find s.pwr.mcmd slot = none →
    s.serving = true →
    (accepts 16 s.mode = false → exec (.carafeWrite slot data r bad) s = .next (s.record slot 16 (bitsOf (s.arg slot 1) 0 4) 4 0)) ∧
    (accepts 16 s.mode = true → s.conflicts slot 16 (bitsOf (s.arg slot 1) 0 4) = true → exec (.carafeWrite slot data r bad) s = .next (s.record slot 16 (bitsOf (s.arg slot 1) 0 4) 3 0)) ∧
    (accepts 16 s.mode = true → s.conflicts slot 16 (bitsOf (s.arg slot 1) 0 4) = false → bitsOf (s.arg slot 1) 15 11 = 0 ∨ 1280 < bitsOf (s.arg slot 1) 15 11 ∨ 1280 < bitsOf (s.arg slot 1) 4 11 + bitsOf (s.arg slot 1) 15 11 → exec (.carafeWrite slot data r bad) s = .next (s.record slot 16 (bitsOf (s.arg slot 1) 0 4) 1 0).settle) ∧
    (accepts 16 s.mode = true → s.conflicts slot 16 (bitsOf (s.arg slot 1) 0 4) = false → bitsOf (s.arg slot 1) 15 11 ≠ 0 → bitsOf (s.arg slot 1) 15 11 ≤ 1280 → bitsOf (s.arg slot 1) 4 11 + bitsOf (s.arg slot 1) 15 11 ≤ 1280 → data.length ≠ bitsOf (s.arg slot 1) 15 11 ∨ s.mayPost 0 = false → exec (.carafeWrite slot data r bad) s = .next (s).settle) ∧
    (accepts 16 s.mode = true → s.conflicts slot 16 (bitsOf (s.arg slot 1) 0 4) = false → bitsOf (s.arg slot 1) 15 11 ≠ 0 → bitsOf (s.arg slot 1) 15 11 ≤ 1280 → bitsOf (s.arg slot 1) 4 11 + bitsOf (s.arg slot 1) 15 11 ≤ 1280 → data.length = bitsOf (s.arg slot 1) 15 11 → s.mayPost 0 = true → data.any (fun v => bitsOf v.toNat 16 2 = 3 || bitsOf v.toNat 19 13 != 0) = false → (s.tl (bitsOf (s.arg slot 1) 0 4)).linkUp = false → exec (.carafeWrite slot data r bad) s = .next (s.record slot 16 (bitsOf (s.arg slot 1) 0 4) 6 0).settle) ∧
    (∀ u, accepts 16 s.mode = true → s.conflicts slot 16 (bitsOf (s.arg slot 1) 0 4) = false → bitsOf (s.arg slot 1) 15 11 ≠ 0 → bitsOf (s.arg slot 1) 15 11 ≤ 1280 → bitsOf (s.arg slot 1) 4 11 + bitsOf (s.arg slot 1) 15 11 ≤ 1280 → data.length = bitsOf (s.arg slot 1) 15 11 → s.mayPost 0 = true → data.any (fun v => bitsOf v.toNat 16 2 = 3 || bitsOf v.toNat 19 13 != 0) = false → (s.tl (bitsOf (s.arg slot 1) 0 4)).linkUp = true → s.carafeEntries (bitsOf (s.arg slot 1) 0 4) (bitsOf (s.arg slot 1) 4 11) (bad.map (fun k => k.val)) data = (u, false) → exec (.carafeWrite slot data r bad) s = .next (((u.sat F.CAR_WR_CNT_CNT (bitsOf (s.arg slot 1) 0 4) 0 r.toNat).put F.CAR_STAT_BUSY 1 (bitsOf (s.arg slot 1) 0 4)).record slot 16 (bitsOf (s.arg slot 1) 0 4) 0 0).settle)) ∧
  (∀ (s : State) (slot : Fin 4),
    s.Ready →
    s.on F.GLB_MCMD_CTL_BUSY slot = true →
    s.arg slot 0 % 256 = 32 →
    Map.find s.pwr.mcmd slot = none →
    s.serving = true →
    (accepts 32 s.mode = false → exec (.patchArbCommit slot) s = .next (s.record slot 32 0 4 s.pwr.otp)) ∧
    (accepts 32 s.mode = true → s.conflicts slot 32 0 = true → exec (.patchArbCommit slot) s = .next (s.record slot 32 0 3 s.pwr.otp)) ∧
    (accepts 32 s.mode = true → s.conflicts slot 32 0 = false → s.arbAllowed (bitsOf (s.arg slot 1) 0 7) = true → exec (.patchArbCommit slot) s = .next (({ s with pwr.otp := (bitsOf (s.arg slot 1) 0 7) } : State).record slot 32 0 0 (bitsOf (s.arg slot 1) 0 7)).settle) ∧
    (accepts 32 s.mode = true → s.conflicts slot 32 0 = false → s.arbAllowed (bitsOf (s.arg slot 1) 0 7) = false → exec (.patchArbCommit slot) s = .next (s.record slot 32 0 1 s.pwr.otp).settle)) ∧
  (∀ (s : State) (slot : Fin 4),
    s.Ready →
    s.on F.GLB_MCMD_CTL_BUSY slot = true →
    s.arg slot 0 % 256 = 64 →
    Map.find s.pwr.mcmd slot = none →
    s.serving = true →
    (accepts 64 s.mode = false → exec (.logRead slot) s = .next (s.record slot 64 0 4 0)) ∧
    (accepts 64 s.mode = true → s.conflicts slot 64 0 = true → exec (.logRead slot) s = .next (s.record slot 64 0 3 0)) ∧
    (accepts 64 s.mode = true → s.conflicts slot 64 0 = false → bitsOf (s.arg slot 1) 8 8 = 0 → exec (.logRead slot) s = .next (s.record slot 64 0 1 0).settle) ∧
    (accepts 64 s.mode = true → s.conflicts slot 64 0 = false → bitsOf (s.arg slot 1) 8 8 ≠ 0 → exec (.logRead slot) s = .next (((s.grant 7 4).postLong 0 (s.arg64 slot 2) ((List.range (bitsOf (s.arg slot 1) 8 8)).flatMap (fun i => s.logEntry (bitsOf (s.arg slot 1) 0 8 + i)))).record slot 64 0 0 0).settle)) ∧
  (∀ (s : State) (slot : Fin 4),
    s.Ready →
    s.on F.GLB_MCMD_CTL_BUSY slot = true →
    s.arg slot 0 % 256 = 80 →
    Map.find s.pwr.mcmd slot = none →
    s.serving = true →
    (accepts 80 s.mode = false → exec (.flashRead slot) s = .next (s.record slot 80 0 4 0)) ∧
    (accepts 80 s.mode = true → s.conflicts slot 80 0 = true → exec (.flashRead slot) s = .next (s.record slot 80 0 3 0)) ∧
    (accepts 80 s.mode = true → s.conflicts slot 80 0 = false → s.flashArgs slot = none → exec (.flashRead slot) s = .next (s.record slot 80 0 1 0).settle) ∧
    (∀ o n a, accepts 80 s.mode = true → s.conflicts slot 80 0 = false → s.flashArgs slot = some (o, n, a) → exec (.flashRead slot) s = .next (((s.grant 7 4).postLong 0 a (s.rdBs (flashBase + o) n)).record slot 80 0 0 0).settle)) ∧
  (∀ (s : State) (slot : Fin 4) (data : List Byte) (got : List Byte),
    s.Ready →
    s.on F.GLB_MCMD_CTL_BUSY slot = true →
    s.arg slot 0 % 256 = 81 →
    Map.find s.pwr.mcmd slot = none →
    s.serving = true →
    (accepts 81 s.mode = false → exec (.flashWrite slot data got) s = .next (s.record slot 81 0 4 0)) ∧
    (accepts 81 s.mode = true → s.conflicts slot 81 0 = true → exec (.flashWrite slot data got) s = .next (s.record slot 81 0 3 0)) ∧
    (accepts 81 s.mode = true → s.conflicts slot 81 0 = false → s.flashArgs slot = none → exec (.flashWrite slot data got) s = .next (s.record slot 81 0 1 0).settle) ∧
    (∀ o n a, accepts 81 s.mode = true → s.conflicts slot 81 0 = false → s.flashArgs slot = some (o, n, a) → data.length = n → got.length = n → s.mayPost 0 = true → exec (.flashWrite slot data got) s = .next ((s.wrBs (flashBase + o) got).record slot 81 0 (if got = data then 0 else 2) 0).settle)) ∧
  (∀ (s : State) (slot : Fin 4),
    s.Ready →
    (Map.find s.pwr.mcmd slot = none → s.on F.GLB_MCMD_CTL_BUSY slot = false ∨ knownCmd (s.arg slot 0 % 256) = true ∨ s.serving = false → exec (.mcmdComplete slot) s = .next s) ∧
    (Map.find s.pwr.mcmd slot = none → s.on F.GLB_MCMD_CTL_BUSY slot = true → knownCmd (s.arg slot 0 % 256) = false → s.serving = true → exec (.mcmdComplete slot) s = .next (s.postResult slot 5 0).settle) ∧
    (∀ r, Map.find s.pwr.mcmd slot = some r → r.code = 2 → r.result = 0 → s.tilesResuming = true → exec (.mcmdComplete slot) s = .next s) ∧
    (∀ r, Map.find s.pwr.mcmd slot = some r → r.code = 2 → r.result = 0 → s.tilesResuming = false → s.mode = 1 → exec (.mcmdComplete slot) s = .next ((s.put F.GLB_MODE_MODE 3).postResult slot r.result r.data).settle) ∧
    (∀ r, Map.find s.pwr.mcmd slot = some r → r.code = 4 → r.result = 0 → exec (.mcmdComplete slot) s = .next ((s.postResult slot r.result r.data).powerDown).settle) ∧
    (∀ r, Map.find s.pwr.mcmd slot = some r → r.code = 16 → exec (.mcmdComplete slot) s = .next ((s.put F.CAR_STAT_BUSY 0 r.tile).postResult slot r.result r.data).settle) ∧
    (∀ r, Map.find s.pwr.mcmd slot = some r → r.code ≠ 2 → r.code ≠ 4 → r.code ≠ 16 → exec (.mcmdComplete slot) s = .next (s.postResult slot r.result r.data).settle)) ∧
  (∀ (s : State),
    s.Ready →
    (s.flt.nmi = [] ∨ s.serving = false → exec .nmiResponse s = .next s) ∧
    (∀ e l u, s.flt.nmi = e :: l → s.serving = true → u = ({ s with flt.nmi := l } : State).logAppend e →
      (e.1 = 33 → accepts 3 u.mode = true → exec .nmiResponse s = .next u.enterSafe.settle) ∧
      (e.1 ≠ 33 → e.1 ≠ 24 → exec .nmiResponse s = .next u.settle))) ∧
  (∀ (s : State) (ok : Bool),
    s.clk = Clk.running →
    (s.mode ≠ 2 → exec (.bootStepDone ok) s = .next s.settle) ∧
    (s.mode = 2 → s.g F.GLB_BOOT_STAT_STEP = 1 → ok = true → exec (.bootStepDone ok) s = .next (({ s with pwr.otpFail := false } : State).bootStep 2).settle) ∧
    (s.mode = 2 → s.g F.GLB_BOOT_STAT_STEP = 1 → ok = false → exec (.bootStepDone ok) s = .next ((({ s with pwr.otpFail := true } : State).raise 53).bootStep 2).settle) ∧
    (s.mode = 2 → s.g F.GLB_BOOT_STAT_STEP = 2 → s.fwOk ok = true → exec (.bootStepDone ok) s = .next (s.initSram.fwLoad.reportPwrup.bootStep 3).settle) ∧
    (s.mode = 2 → s.g F.GLB_BOOT_STAT_STEP = 2 → s.fwOk ok = false → exec (.bootStepDone ok) s = .next ((s.initSram.bootFail 1).enterSafe).settle) ∧
    (s.mode = 2 → s.g F.GLB_BOOT_STAT_STEP = 3 → exec (.bootStepDone ok) s = .next (((s.boardConfig (s.boardOk ok)).loadMembers).bootStep 4).settle) ∧
    (s.mode = 2 → s.g F.GLB_BOOT_STAT_STEP = 4 → exec (.bootStepDone ok) s = .next (if s.membersSettled then s.bootStep 5 else s).settle) ∧
    (s.mode = 2 → s.g F.GLB_BOOT_STAT_STEP = 5 → exec (.bootStepDone ok) s = .next ((s.each (List.range 16) State.bootTile).bootStep 6).settle) ∧
    (s.mode = 2 → s.g F.GLB_BOOT_STAT_STEP = 6 → exec (.bootStepDone ok) s = .next (if s.trimmed then (({ s with cal.miOff := [], cal.left := [], cal.aoDone := [] } : State).put F.CAL_STAT_BUSY 0).bootStep 7 else s).settle) ∧
    (s.mode = 2 → s.g F.GLB_BOOT_STAT_STEP = 7 → exec (.bootStepDone ok) s = .next s.ready.settle))

/-- Power: PWR_REQ, power good, timeouts, VSTBY, rail faults and restarts, set values, headroom and caps, chip reset. Parts of it are the model's choices: log entries 8, 14, 15, 59, 156, 160, 161, 162, 163, 176, 189. -/
def Obligations.PowerSequences : Prop :=
  (∀ (s : State) (ms : BitVec 32),
    s.Quiet →
    (s.clk ≠ Clk.off ∨ s.pwr.seq ≠ 0 ∨ s.pwr.down = true ∨ s.pwr.vstby = false ∨ (s.pwr.blocked = true ∧ ms.toNat < 10) → exec (.pwrReqRise ms) s = .next
      { s with pwr.req := true, pwr.blocked := s.pwr.blocked && (ms.toNat < 10 || s.clk != Clk.off || s.pwr.down) }) ∧
    (s.clk = Clk.off → s.pwr.seq = 0 → s.pwr.down = false → s.pwr.vstby = true → s.pwr.blocked = false ∨ 10 ≤ ms.toNat → exec (.pwrReqRise ms) s = .next { s with pwr.req := true, pwr.blocked := false, pwr.seq := 1 })) ∧
  (∀ (s : State) (r : Fin 10) (v c : BitVec 16) (u : State),
    u = s.setMeas r v.toNat c.toNat →
    (u.pwr.seq = 0 → r.val < 8 → u.on F.DPC_STAT_ON r = true → exec (.railPowerGood r v c) s = .next (u.setPg r).settle) ∧
    (u.pwr.seq = 0 → 8 ≤ r.val ∨ u.on F.DPC_STAT_ON r = false → exec (.railPowerGood r v c) s = .next u.settle) ∧
    (u.pwr.seq = 8 → r = 9 → exec (.railPowerGood r v c) s = .next u.powerGood.settle) ∧
    (u.pwr.seq ≠ 0 → u.pwr.seq ≠ 8 → r = 9 → exec (.railPowerGood r v c) s = .next u.settle) ∧
    (u.pwr.seq ≠ 0 → r ≠ 9 → (u.stepRails u.pwr.seq).contains r.val = false → exec (.railPowerGood r v c) s = .next u.settle) ∧
    (u.pwr.seq ≠ 0 → u.pwr.seq ≠ 7 → r ≠ 9 → (u.stepRails u.pwr.seq).contains r.val = true → ((u.setPg r).stepRails u.pwr.seq).any (fun x => !(u.setPg r).railPg x) = false →
      exec (.railPowerGood r v c) s = .next ((u.setPg r).beginStep (nextStep u.pwr.seq)).settle)) ∧
  (∀ (s : State),
    s.Quiet →
    (s.pwr.seq = 0 → exec .pwrupStepTimeout s = .next s) ∧
    (s.pwr.seq ≠ 0 → exec .pwrupStepTimeout s = .next { (s.put F.PWR_SEQ_STAT_FAIL_STEP s.pwr.seq).put F.PWR_SEQ_STAT_VALID 1 with
      pwr.failDpc := if s.pwr.seq = 1 then some 7 else ((s.stepRails s.pwr.seq).filter (fun r => !s.railPg r)).head?, pwr.blocked := true, pwr.down := true, pwr.seq := 0 })) ∧
  (∀ (s : State),
    s.Quiet →
    (s.clk = Clk.off → s.pwr.seq = 0 → exec .pwrReqFall s = .next { s with pwr.req := false } ∧ exec .vstbyLow s = .next { s with pwr.vstby := false }) ∧
    (s.clk ≠ Clk.off ∨ s.pwr.seq ≠ 0 → exec .pwrReqFall s = .next (State.settle { (({ s with pwr.req := false } : State).each (List.range 16) (fun u t => u.fenceNow 1 t)) with pwr.down := true, pwr.seq := 0 }) ∧
      exec .vstbyLow s = .next (State.settle { (({ s with pwr.vstby := false } : State).each (List.range 16) (fun u t => u.fenceNow 1 t)) with pwr.down := true, pwr.seq := 0 }))) ∧
  (∀ (s : State),
    s.Quiet →
    (s.clk ≠ Clk.off → exec .vstbyBrownout s = .next (s.raise 58).settle) ∧
    (s.clk = Clk.off → exec .vstbyBrownout s = .next s)) ∧
  (∀ (s : State),
    s.Quiet →
    (s.pwr.vstby = true → exec .vstbyPowerUp s = .next s) ∧
    (∀ u v, s.pwr.vstby = false → u = (if s.pwr.down then s.allOff else s) → v = ({ u with
      clk := .off
      regs := u.regs.filter (fun e => keyReg e.1 < numTileRegs || keyReg e.1 = R.CAR_WR_CNT.id)
      pwr := { u.pwr with vstby := true, seq := 0, blocked := false, down := false, failDpc := none, vio := false, board := [] } } : State).each (List.range 5) State.railOff →
      (v.pwr.req = false → exec .vstbyPowerUp s = .next v.settle) ∧
      (v.pwr.req = true → exec .vstbyPowerUp s = .next (State.settle { v with pwr.seq := 1 })))) ∧
  (∀ (s : State),
    s.Quiet →
    (s.pwr.down = false → exec .powerDownDone s = .next s) ∧
    (∀ u v, s.pwr.down = true → u = s.each s.fallOrder State.railOff → v = ({ u with
      pwr.down := false, clk := .off, pci.linkUp := false, af.tiles := (List.range 16).map (fun t => (t, { u.tl t with powered := false, linkUp := false })) } : State) →
      (v.pwr.req = false ∨ v.pwr.vstby = false ∨ v.pwr.blocked = true ∨ v.pwr.seq ≠ 0 → exec .powerDownDone s = .next v.settle) ∧
      (v.pwr.req = true → v.pwr.vstby = true → v.pwr.blocked = false → v.pwr.seq = 0 → exec .powerDownDone s = .next (State.settle { v with pwr.seq := 1 })))) ∧
  (∀ (s : State) (r : Fin 9) (kind : Fin 3) (v c : BitVec 16) (u : State),
    u = s.setMeas r v.toNat c.toNat →
    (u.clk = Clk.off → u.pwr.seq = 0 ∨ u.railPg r = false → exec (.railFault r kind v c) s = .next u.settle) ∧
    (u.clk = Clk.off → u.pwr.seq ≠ 0 → u.railPg r = true → r.val = 4 → kind = 0 → exec (.railFault r kind v c) s = .next ((u.put F.DPC_STAT_UV 1 4).railOff 4).settle) ∧
    (u.clk ≠ Clk.off → r.val = 4 → kind = 0 → exec (.railFault r kind v c) s = .next (((u.put F.DPC_STAT_UV 1 4).raise 30 4).railOff 4).settle) ∧
    (u.clk ≠ Clk.off → r.val = 4 → kind = 2 → exec (.railFault r kind v c) s = .next (((u.put F.DPC_STAT_OC 1 4).raise 31 4).railOff 4).settle) ∧
    (u.clk ≠ Clk.off → r.val ≤ 3 → kind = 0 → exec (.railFault r kind v c) s = .next ((((u.put F.DPC_STAT_UV 1 r).raise 30 r).railOff r).powerDown).settle) ∧
    (u.clk ≠ Clk.off → r.val = 8 → kind = 0 → exec (.railFault r kind v c) s = .next (((u.raise 30 7).railOff 8).powerDown).settle)) ∧
  (∀ (s : State) (n : Fin 4),
    s.Ready →
    (s.on F.DPC_STAT_UV (4 + n) = true ∨ s.on F.DPC_STAT_OV (4 + n) = true ∨ s.on F.DPC_STAT_OC (4 + n) = true → exec (.railRestart n) s = .next (s.put F.PWR_STAT_CFG_REFUSED 1)) ∧
    (s.on F.DPC_STAT_UV (4 + n) = false → s.on F.DPC_STAT_OV (4 + n) = false → s.on F.DPC_STAT_OC (4 + n) = false → n = 0 → exec (.railRestart n) s = .next (s.railOn 4)) ∧
    (s.on F.DPC_STAT_UV (4 + n) = false → s.on F.DPC_STAT_OV (4 + n) = false → s.on F.DPC_STAT_OC (4 + n) = false → n ≠ 0 → exec (.railRestart n) s = .next
      (((s.put F.PWR_VPIC_CFG_EN 1 (n - 1)).put F.DPC_VSET_VSET (s.vpicSet (n - 1)) (4 + n)).railOn (4 + n)).settle)) ∧
  (∀ (s : State) (v : BitVec 16),
    s.Ready →
    (700 ≤ v.toNat → v.toNat ≤ 800 → exec (.dpcVset0Write v) s = .next (s.sput F.DPC_VSET_VSET v.toNat 0)) ∧
    (v.toNat < 700 ∨ 800 < v.toNat → exec (.dpcVset0Write v) s = .next (s.put F.PWR_STAT_CFG_REFUSED 1))) ∧
  (∀ (s : State) (k : Fin 21),
    s.Ready →
    exec (.avsUpdate k) s = .next (if s.mode = 3 then s.put F.DPC_VSET_VSET (700 + 5 * k) 0 else s)) ∧
  (∀ (s : State) (t : Tile) (l : List (Chan × BitVec 16)) (v a w : BitVec 16) (u x : State),
    s.clk = Clk.running →
    (u = if bitOf (s.g F.PWR_VHTR_CFG_TMASK) t then { s with pwr.demand := Map.ins s.pwr.demand t (s.tileDemand t l) } else s) →
    x = u.put F.DPC_MEAS_V v.toNat 4 →
    (x.on F.PWR_VHTR_CFG_MANUAL = false → exec (.vhtrDemandReport t l v a w) s = .next
      ((((({ x with pwr.vtarget := x.vhtrTarget } : State).put F.DPC_VSET_VSET x.vhtrTarget 4).vhtrLow).capMeasure a.toNat w.toNat).settle)) ∧
    (x.on F.PWR_VHTR_CFG_MANUAL = true → exec (.vhtrDemandReport t l v a w) s = .next
      (((({ x with pwr.vtarget := x.vhtrTarget } : State).vhtrLow).capMeasure a.toNat w.toNat).settle))) ∧
  (∀ (s : State) (a b : BitVec 16) (x u : State),
    s.clk = Clk.running →
    x = (s.put F.PWR_VHTR_LOAD_ITOT a.toNat).put F.PWR_VHTR_LOAD_PH b.toNat →
    u = x.capCheck →
    (u.pwr.capSince = none → exec (.capExceedTimeout a b) s = .next u.settle) ∧
    (∀ k, u.pwr.capSince = some k → u.cycle < k + 100000 → exec (.capExceedTimeout a b) s = .next u.settle) ∧
    (∀ k, u.pwr.capSince = some k → k + 100000 ≤ u.cycle → exec (.capExceedTimeout a b) s = .next (u.raise 31 4).settle) ∧
    (x.g F.PWR_VHTR_LOAD_ITOT ≤ x.g F.PWR_VHTR_ILIM_ILIM → x.g F.PWR_VHTR_LOAD_PH ≤ x.g F.PWR_HDISS_CAP_CAP → u.pwr.capSince = none)) ∧
  (∀ (s : State),
    s.Quiet →
    (s.clk = Clk.off → exec .chipReset s = .next s ∧ exec .chipRst s = .next s) ∧
    (s.clk = Clk.running → exec .chipReset s = .next s.chipReset.settle ∧ exec .chipRst s = .next s.chipReset.settle) ∧
    (s.clk = Clk.frozen ∨ s.clk = Clk.lost → exec .chipReset s = .next s.chipReset.settle ∧ exec .chipRst s = .next s))

/-- Temperature inputs, their check, internal sensors, references and the backup oscillator. Parts of it are the model's choices: log entries 15, 178, 180, 181, 182, 183, 184. -/
def Obligations.Temperature : Prop :=
  (∀ (s : State) (t : Tile) (a b c d : BitVec 32) (n : Nat) (u : State),
    s.Ready →
    n = 4 * t + Map.look s.thm.next t 0 →
    u = { s with thm.next := Map.ins s.thm.next t ((Map.look s.thm.next t 0 + 1) % 4) } →
    (u.tdOff n = true ∨ (u.tl t).linkUp = false → exec (.tdConversion t a b c d) s = .next u) ∧
    (u.tdOff n = false → (u.tl t).linkUp = true → exec (.tdConversion t a b c d) s = .next (u.tdConvert n a.toInt b.toInt c.toInt d.toInt).settle)) ∧
  (∀ (s : State) (raws : List (List Int)) (live : List Nat) (u : State),
    s.clk = Clk.running →
    (raws = (List.range 64).map (fun n => sortInts (((s.neighbours n).filter (fun x => s.thm.usable.contains x)).map s.raw))) →
    (live = (List.range 64).filter (fun n => !s.tdOff n && s.thm.conv.contains n)) →
    (u = live.foldl (fun u n => (u.tdJudge n (raws.getD n [])).tdCompensate n (raws.getD n [])) s) →
    exec .tdCheck s = .next (State.settle { u with thm.usable := live.filter (fun n => u.g F.THM_TD_STAT_STATE n = 0 && !u.on F.THM_TD_STAT_STALE n) })) ∧
  (∀ (s : State) (i : Fin 8) (v : BitVec 16) (u : State),
    u = s.put F.THM_IS_VAL_T v.toNat i →
    (s.clk ≠ Clk.running → i ≠ 7 → exec (.isRead i v) s = .next s.settle) ∧
    (s.clk ≠ Clk.running → s.clk ≠ Clk.frozen → i = 7 → exec (.isRead i v) s = .next u.settle) ∧
    (s.clk = Clk.running ∨ (s.clk = Clk.frozen ∧ i = 7) → exec (.isRead i v) s = .next (u.threshold (64 + i) (toSigned 16 v.toNat) (u.isThr i).1 (u.isThr i).2).settle)) ∧
  (∀ (s : State) (t : Tile) (v : BitVec 16),
    s.Ready →
    exec (.refCompensation t v) s = .next (if (s.tl t).linkUp then s.put F.CAL_TTEMP_T v.toNat t else s)) ∧
  (∀ (s : State) (err : BitVec 16),
    s.Quiet →
    (∀ ok, s.clk = Clk.off → exec (.boscCorrection err ok) s = .next s) ∧
    (s.clk ≠ Clk.off → exec (.boscCorrection err true) s = .next ((s.put F.THM_BOSC_ERR err.toNat).put F.THM_BOSC_VALID 1)) ∧
    (s.clk ≠ Clk.off → exec (.boscCorrection err false) s = .next (s.put F.THM_BOSC_VALID 0)))

/-- The trim window, the trimming commands and their end. Parts of it are the model's choices: log entries 1, 7, 12, 15, 106, 167, 186, 187, 188, 190, 235. -/
def Obligations.Calibration : Prop :=
  (∀ (s : State) (t : Tile) (p : Part),
    s.clk = Clk.running →
    exec (.trimTile t .start) s = .next (calStart 1 t s).settle ∧ exec (.trimAo p .start) s = .next (calStart 2 p s).settle ∧ exec (.trimMi p .start) s = .next (calStart 3 p s).settle ∧
    (∀ x y ok ws, s.trimming t = false → exec (.trimTile t (.refs x y ok ws)) s = .next s.settle) ∧
    (∀ x y ok ws u, u = { s with cal.refd := t.val :: s.cal.refd.filter (fun y => y ≠ t.val), cal.left := s.cal.left.filter (fun m => miTile m ≠ t.val) ++ (List.range 1024).map (fun j => t.val * 1024 + j), cal.aoDone := s.cal.aoDone.filter (fun a => aoTile a ≠ t.val) } → s.trimming t = true → u.refsOk x.toNat y.toNat ok = true →
      exec (.trimTile t (.refs x y ok ws)) s = .next (State.settle { u.setTileWords t 0xC00 (ws.take 14) with cal.failed := s.cal.failed.filter (fun y => y ≠ t.val) })) ∧
    (∀ x y ok ws u, u = { s with cal.refd := t.val :: s.cal.refd.filter (fun y => y ≠ t.val), cal.left := s.cal.left.filter (fun m => miTile m ≠ t.val) ++ (List.range 1024).map (fun j => t.val * 1024 + j), cal.aoDone := s.cal.aoDone.filter (fun a => aoTile a ≠ t.val) } → s.trimming t = true → u.refsOk x.toNat y.toNat ok = false →
      exec (.trimTile t (.refs x y ok ws)) s = .next (u.calFail t).settle) ∧
    (∀ m, s.trimStep t = true → miTile m.val = t → s.cal.left.contains m.val = true → exec (.trimTile t (.miBegin m)) s = .next (s.miTrimBegin m).settle) ∧
    (∀ v, s.trimLast t = false → exec (.trimTile t (.tcal v)) s = .next s.settle) ∧
    (s.cal.run = some (2, p.val) → exec (.trimAo p (.aoBegin t)) s = .next (s.trimBegin p t).settle) ∧
    (∀ m, s.cal.run = some (2, p.val) → Map.find s.cal.meas t = some m → s.disturbed m = false → exec (.trimAo p (.aoSecond t)) s = .next (s.measure t { m with second := true } 0xF000).settle) ∧
    (∀ o g l, s.cal.run = some (2, p.val) → exec (.trimAo p (.aoDone t o g l)) s = .next (s.trimEnd t o g l).settle) ∧
    (∀ m, s.cal.run = some (3, p.val) → s.pm p = 4 → s.cal.left.contains m.val = true → exec (.trimMi p (.miBegin m)) s = .next (s.miTrimBegin m).settle) ∧
    (∀ m o g, s.cal.run = some (3, p.val) → exec (.trimMi p (.miDone m o g)) s = .next (s.miTrimDone m o g).settle)) ∧
  (∀ (s u : State) (op i : Nat),
    (u = (s.put F.CAL_CMD_OP op).put (if op = 1 then F.CAL_CMD_TILE else F.CAL_CMD_PART) i) →
    (s.on F.CAL_STAT_BUSY = true ∨ (op ≠ 1 ∧ s.pm i ≠ 4) ∨ (op = 1 ∧ (s.tileParts i).all (fun p => s.pm p = 4) = false) → s.clk = Clk.running → u.on F.CAL_STAT_BUSY = s.on F.CAL_STAT_BUSY →
      calStart op i s = u.put F.CAL_STAT_CMD_REFUSED 1)) ∧
  (∀ (s : State) (v : W32) (w t : Nat),
    s.Ready →
    w = s.g F.CAL_TWIN_ADDR_WORD % 4096 →
    t = s.g F.CAL_TWIN_ADDR_WORD / 4096 →
    (s.on F.CAL_TWIN_ADDR_INC = false → exec (.trimWindowAccess false v) s = .next { s with readData := s.trimWord t w }) ∧
    (s.on F.CAL_TWIN_ADDR_INC = false → w < 0xC0E → s.trimAccepted t w = true → exec (.trimWindowAccess true v) s = .next (s.setTrim t w v.toNat)) ∧
    (s.on F.CAL_TWIN_ADDR_INC = false → 0xC0E ≤ w → exec (.trimWindowAccess true v) s = .next s) ∧
    (s.on F.CAL_TWIN_ADDR_INC = true → exec (.trimWindowAccess false v) s = .next (({ s with readData := s.trimWord t w } : State).put F.CAL_TWIN_ADDR_WORD (s.g F.CAL_TWIN_ADDR_WORD + 1)))) ∧
  (∀ (s : State),
    s.Ready →
    (s.cal.run = none → exec .calCmdDone s = .next s) ∧
    (∀ t, s.cal.run = some (1, t) → s.cal.failed.contains t = true → exec .calCmdDone s = .next (s.calEnd 3)) ∧
    (∀ t, s.cal.run = some (1, t) → s.cal.failed.contains t = false → (s.tl t).linkUp = true → s.cal.trimmed.contains t = true → exec .calCmdDone s = .next (s.calEnd 0)) ∧
    (∀ p, s.cal.run = some (2, p) → s.cal.meas = [] → (∃ t, t < 16 ∧ (s.nextTrim p t).isSome = true) → s.pm p ≠ 4 → exec .calCmdDone s = .next (s.calEnd 1)) ∧
    (∀ p, s.cal.run = some (2, p) → s.cal.meas = [] → (∀ t, t < 16 → s.nextTrim p t = none) → exec .calCmdDone s = .next (s.calEnd (if s.g F.CAL_STAT_SKIPPED = 0 then 0 else 2))) ∧
    (∀ p, s.cal.run = some (3, p) → s.cal.miOff = [] → s.pm p ≠ 4 → s.cal.left ≠ [] → exec .calCmdDone s = .next (s.calEnd 1)) ∧
    (∀ p, s.cal.run = some (3, p) → s.cal.miOff = [] → s.cal.left = [] → exec .calCmdDone s = .next (s.calEnd 0)))

/-- Lane tests: enabling, disabling, the timeout of PCIe, checkers, injection and counters. Parts of it are the model's choices: log entries 14, 15, 80, 104, 191, 196, 197, 229, 235, 237. -/
def Obligations.LaneTests : Prop :=
  (∀ (s : State) (l : Fin 256) (v : W32) (moved : Bool) (b u w x : State),
    s.clk = Clk.running →
    laneUsed l = true →
    (moved = [F.TST_LCFG_PAT, F.TST_LCFG_INV, F.TST_LCFG_SQN].any (fun f => s.g f l != bitsOf v.toNat f.lo f.wd)) →
    (b = [F.TST_LCFG_PAT, F.TST_LCFG_INV, F.TST_LCFG_SQN, F.TST_LCFG_LPBK].foldl (fun u f => u.sput f (bitsOf v.toNat f.lo f.wd) l) s) →
    (u = if (moved || (v.getLsbD 8 && !s.on F.TST_LCFG_GEN_EN l)) = true then b.setLane l (b.lane l).start else b) →
    (w = if (moved && s.on F.TST_LCFG_CHK_EN l) = true then u.checkerLoss l else u) →
    x = ((w.turnChk l (v.getLsbD 9)).sput F.TST_LCFG_GEN_EN (b2n (v.getLsbD 8)) l).sput F.TST_LCFG_CHK_EN (b2n (v.getLsbD 9)) l →
    (v.getLsbD 8 = true ∨ v.getLsbD 9 = true → s.laneOn l = false → w.mode ≠ 4 → exec (.laneTestEnable l v) s = .next (w.put F.TST_STAT_REFUSED 1).settle) ∧
    (v.getLsbD 8 = true ∨ v.getLsbD 9 = true → s.laneOn l = false → w.mode = 4 → exec (.laneTestEnable l v) s = .next (x.laneOut l).settle) ∧
    (v.getLsbD 8 = true ∨ v.getLsbD 9 = true → s.laneOn l = true → exec (.laneTestEnable l v) s = .next x.settle) ∧
    (v.getLsbD 8 = false → v.getLsbD 9 = false → exec (.laneTestEnable l v) s = .next s.settle) ∧
    (v.getLsbD 8 = false → v.getLsbD 9 = false → s.laneOn l = true → exec (.laneTestDisable l v) s = .next (x.laneBack l).settle) ∧
    (v.getLsbD 8 = false → v.getLsbD 9 = false → s.laneOn l = false → exec (.laneTestDisable l v) s = .next x.settle) ∧
    (v.getLsbD 8 = true ∨ v.getLsbD 9 = true → exec (.laneTestDisable l v) s = .next s.settle)) ∧
  (∀ (s : State) (l : Fin 256) (v : W32),
    s.Ready →
    laneUsed l = false →
    exec (.laneTestEnable l v) s = .next s ∧ exec (.laneTestDisable l v) s = .next s) ∧
  (∀ (s : State),
    s.Ready →
    (s.on F.TST_STAT_PCIE_ACTIVE = false → exec .pcieLaneTestTimeout s = .next s) ∧
    (s.cycle < s.tst.pcieAt + 1000000 * max 1 (s.g F.TST_PCIE_TMO_MS) → exec .pcieLaneTestTimeout s = .next s) ∧
    (s.on F.TST_STAT_PCIE_ACTIVE = true → s.tst.pcieAt + 1000000 * max 1 (s.g F.TST_PCIE_TMO_MS) ≤ s.cycle → exec .pcieLaneTestTimeout s = .next ((List.range 8).foldl State.laneStop s).settle)) ∧
  (∀ (s : State) (l : Nat),
    s.laneOn l = true →
    s.laneStop l = (((s.turnChk l false).put F.TST_LCFG_GEN_EN 0 l).put F.TST_LCFG_CHK_EN 0 l).laneBack l) ∧
  (∀ (s : State) (l : Fin 256) (rx line : List Bool) (r : LaneRun) (u : State),
    s.Ready →
    (r = (if s.laneOwn l then line else rx).foldl (fun x b => LaneRun.take x (s.laneCfg l) (s.on F.TST_LCFG_GEN_EN l) (s.laneOwn l) b) { st := s.lane l, lock := false }) →
    (u = (((((s.setLane l (r.st.tally s.cycle r.bits r.errs)).laneOut1 l r.out).sat F.TST_LBITS_BITS l 0 r.bits).sat F.TST_LERR_ERR l 0 r.errs).sat F.TST_LSTAT_LOSSES l 0 r.losses).put F.TST_LSTAT_CSTATE (if r.lock then 2 else 1) l) →
    (s.g F.TST_LSTAT_CSTATE l ≠ 1 ∨ (s.laneCfg l).active = false → exec (.checkerLock l rx line) s = .next s) ∧
    (s.g F.TST_LSTAT_CSTATE l = 1 → (s.laneCfg l).active = true → r.losses = 0 → exec (.checkerLock l rx line) s = .next u.settle) ∧
    (s.g F.TST_LSTAT_CSTATE l = 1 → (s.laneCfg l).active = true → 0 < r.losses → exec (.checkerLock l rx line) s = .next (u.put F.TST_LSTAT_LOST 1 l).settle)) ∧
  (∀ (s : State) (l : Fin 256) (rx line : List Bool) (r : LaneRun) (u : State),
    s.Ready →
    (r = (if s.laneOwn l then line else rx).foldl (fun x b => LaneRun.take x (s.laneCfg l) (s.on F.TST_LCFG_GEN_EN l) (s.laneOwn l) b) { st := s.lane l, lock := true }) →
    (u = (((((s.setLane l (r.st.tally s.cycle r.bits r.errs)).laneOut1 l r.out).sat F.TST_LBITS_BITS l 0 r.bits).sat F.TST_LERR_ERR l 0 r.errs).sat F.TST_LSTAT_LOSSES l 0 r.losses).put F.TST_LSTAT_CSTATE (if r.lock then 2 else 1) l) →
    (s.g F.TST_LSTAT_CSTATE l ≠ 2 ∨ (s.laneCfg l).active = false → exec (.checkerLoss l rx line) s = .next s) ∧
    (s.g F.TST_LSTAT_CSTATE l = 2 → (s.laneCfg l).active = true → r.losses = 0 → exec (.checkerLoss l rx line) s = .next u.settle) ∧
    (s.g F.TST_LSTAT_CSTATE l = 2 → (s.laneCfg l).active = true → 0 < r.losses → exec (.checkerLoss l rx line) s = .next (u.put F.TST_LSTAT_LOST 1 l).settle)) ∧
  (∀ (x : LaneRun) (c : LaneCfg) (b : Bool) (miss : List Nat),
    (miss = (if (c.bit x.st.reg x.st.place != b) = true then [x.st.n] else []) ++ x.st.miss.filter (fun k => x.st.n < k + 256)) →
    (x.seek c b).bits = x.bits ∧ (x.seek c b).errs = x.errs ∧ (x.seek c b).losses = x.losses ∧
    (x.compare c b).bits = x.bits + 1 ∧ (x.compare c b).errs = x.errs + b2n (c.bit x.st.reg x.st.place != b) ∧
    (64 < miss.length → (x.compare c b).lock = false ∧ (x.compare c b).losses = x.losses + 1) ∧
    (miss.length ≤ 64 → (x.compare c b).lock = x.lock ∧ (x.compare c b).losses = x.losses)) ∧
  (∀ (s : State) (l : Fin 256) (x : LaneSt),
    s.clk = Clk.running →
    x = { s.lane l with inj := 1 } →
    (s.on F.TST_LCFG_GEN_EN l = true → s.on F.TST_LCFG_CHK_EN l = true → (s.laneCfg l).active = true → exec (.inj l) s = .next (s.setLane l x).settle) ∧
    (s.on F.TST_LCFG_GEN_EN l = true → s.on F.TST_LCFG_CHK_EN l = false ∨ (s.laneCfg l).active = false →
      exec (.inj l) s = .next ((s.setLane l (x.send (s.laneCfg l)).1).laneOut1 l [(x.send (s.laneCfg l)).2]).settle) ∧
    (s.on F.TST_LCFG_GEN_EN l = false → exec (.inj l) s = .next s.settle)) ∧
  (∀ (x : LaneSt) (c : LaneCfg),
    ({ x with inj := 1 } : LaneSt).send c = ({ (x.send c).1 with inj := 0 }, !(({ x with inj := 0 } : LaneSt).send c).2)) ∧
  (∀ (s : State) (l : Fin 256),
    s.Ready →
    ((s.lane l).at_ ≠ s.cycle → exec (.laneClr l) s = .next ((s.put F.TST_LERR_ERR 0 l).put F.TST_LBITS_BITS 0 l)) ∧
    ((s.lane l).at_ = s.cycle → exec (.laneClr l) s = .next ((s.put F.TST_LERR_ERR (s.lane l).errs l).put F.TST_LBITS_BITS (s.lane l).bits l)))

/-- The stimulus and the structural test of a tile, and leaving TEST. Parts of it are the model's choices: log entries 14, 15, 19, 30, 192, 193, 194, 195, 198, 209. -/
def Obligations.ProductionTests : Prop :=
  (∀ (s : State) (t : Tile) (v : W32) (u : State),
    s.clk = Clk.running →
    (u = [F.TST_STIM_CTL_WAVE, F.TST_STIM_CTL_HOLD, F.TST_STIM_CTL_DELAY, F.TST_STIM_CTL_NAVG].foldl (fun u f => u.sput f (bitsOf v.toNat f.lo f.wd) t) s) →
    (u.mode ≠ 4 ∨ (u.stimEntries t = [] ∧ u.stimResps t = []) ∨ u.stimHold t * 1000 < u.g F.TST_STIM_CTL_DELAY t * 1000 + (u.g F.TST_STIM_CTL_NAVG t + 1) * 512 →
      exec (.stimStart t v) s = .next (u.put F.TST_STAT_REFUSED 1).settle) ∧
    (u.stimRefused t = false → u.testBusy t = true → exec (.stimStart t v) s = .next u.settle) ∧
    (u.stimRefused t = false → u.testBusy t = false → exec (.stimStart t v) s = .next (u.stimBegin t).settle)) ∧
  (∀ (s : State) (t : Tile),
    s.Ready →
    (Map.find s.tst.stim t = none → exec (.stimEdge t) s = .next s) ∧
    (∀ st, Map.find s.tst.stim t = some st → s.stimCount t ≤ st.n ∨ s.replica t < st.startNs + 1000 * s.stimAt t st.n → exec (.stimEdge t) s = .next s) ∧
    (∀ st, Map.find s.tst.stim t = some st → st.n < s.stimCount t → st.startNs + 1000 * s.stimAt t st.n ≤ s.replica t → exec (.stimEdge t) s = .next
      (((s.stimEntries t).foldl (fun u e => u.stimWrite t (u.g F.TST_SE0_K t e) (u.stimCode t e st.n)) s).setStim t
        { s.stimFold t st with edge := s.cycle, window := s.stimWin t st.n, n := st.n + 1, acc := (s.stimResps t).map (fun r => { idx := r }) }).settle)) ∧
  (∀ (s : State) (t : Tile),
    s.Ready →
    (Map.find s.tst.stim t = none → exec (.stimEnd t) s = .next s) ∧
    (∀ st, Map.find s.tst.stim t = some st → st.n < s.stimCount t ∨ s.replica t < st.startNs + 1000 * s.stimEndAt t → exec (.stimEnd t) s = .next s) ∧
    (∀ st u ok, Map.find s.tst.stim t = some st → s.stimCount t ≤ st.n → st.startNs + 1000 * s.stimEndAt t ≤ s.replica t →
      (u, ok) = (s.stimFold t st).tot.foldl (fun (r : State × Bool) x => ((r.1.stimJudge t x).1, r.2 && (r.1.stimJudge t x).2)) (s, true) →
      exec (.stimEnd t) s = .next (u.stimOver t (if ok then 0 else 1) (s.stimFold t st)).settle)) ∧
  (∀ (s : State) (t : Tile),
    s.Ready →
    (Map.find s.tst.stim t = none → exec (.stimAbort t) s = .next s) ∧
    (∀ st, Map.find s.tst.stim t = some st → exec (.stimAbort t) s = .next
      (((s.stimResps t).foldl (fun u r => if u.on F.TST_RE3_DONE t r then u else u.setWord R.TST_RE3 0 t r) s).stimOver t 2 st).settle)) ∧
  (∀ (s : State) (t : Tile) (v : W32) (u : State),
    s.clk = Clk.running →
    u = (s.sput F.TST_OS_CTL_KELV_MAX (bitsOf v.toNat F.TST_OS_CTL_KELV_MAX.lo F.TST_OS_CTL_KELV_MAX.wd) t).sput F.TST_OS_CTL_RS_THR (bitsOf v.toNat F.TST_OS_CTL_RS_THR.lo F.TST_OS_CTL_RS_THR.wd) t →
    (u.mode ≠ 4 → exec (.osStart t v) s = .next (u.put F.TST_STAT_REFUSED 1).settle) ∧
    (u.mode = 4 → u.testBusy t = true → exec (.osStart t v) s = .next u.settle) ∧
    (u.mode = 4 → u.testBusy t = false → exec (.osStart t v) s = .next ((((aosOfTile t).foldl State.osOff u).put F.TST_OS_STAT_BUSY 1 t).biasTo t 0).settle)) ∧
  (∀ (s : State) (t : Tile) (l : OsRun),
    s.Ready →
    (s.on F.TST_OS_STAT_BUSY t = false → exec (.osDone t l) s = .next s) ∧
    (∀ m, s.on F.TST_OS_STAT_BUSY t = true → m = s.osFaults t (osAll l) → exec (.osDone t l) s = .next
      ((((List.range 400).foldl (fun u w => u.setWord R.TST_OS_MAP (BitVec.ofNat 96 (osWord m w)) t w) s).put F.TST_OS_STAT_NFAIL m.length t).osOver t (if m.isEmpty then 0 else 1)).settle)) ∧
  (∀ (s : State) (t : Tile),
    s.Ready →
    (s.on F.TST_OS_STAT_BUSY t = false → exec (.osAbort t) s = .next s) ∧
    (s.on F.TST_OS_STAT_BUSY t = true → exec (.osAbort t) s = .next (s.osOver t 2).settle)) ∧
  (∀ (s : State),
    s.Ready →
    (s.mode = 4 ∨ s.mode = 5 → exec .testExitStop s = .next s) ∧
    (s.mode ≠ 4 → s.mode ≠ 5 → exec .testExitStop s = .next ((List.range 16).foldl (fun u t => (u.stimAbort t).osAbort t) ((List.range 192).foldl State.laneStop s)).settle))

/-- The instruction register of the TAP, UNLOCK, the verification of a signature and RELOCK. Parts of it are the model's choices: log entries 4, 11, 12, 15, 43, 59, 77, 79, 199, 201, 254. -/
def Obligations.TestAccessPort : Prop :=
  (∀ (s : State) (op : Byte),
    s.Quiet →
    (s.clk = Clk.off → exec (.tapUpdateIr op) s = .next s) ∧
    (s.clk ≠ Clk.off → lockedOp op.toNat = true → s.unlocked = false → exec (.tapUpdateIr op) s = .next (({ s with tst.ir := 0xFF } : State).raise 59).settle) ∧
    (s.clk ≠ Clk.off → lockedOp op.toNat = false ∨ s.unlocked = true → op ≠ 1 → exec (.tapUpdateIr op) s = .next { s with tst.ir := tapOp op.toNat }) ∧
    (s.clk ≠ Clk.off → op = 1 → exec (.tapUpdateIr op) s = .next { s with tst.ir := 1, readData := 0x0B512C5B })) ∧
  (∀ (s : State),
    s.Quiet →
    (∀ x, s.clk = Clk.off ∨ s.tst.ir ≠ 32 → exec (.unlock x) s = .next s) ∧
    (∀ n r, s.clk ≠ Clk.off → s.tst.ir = 32 → r = n.toNat + Config.devId.toNat * 2 ^ 256 + s.unlockStat * 2 ^ 320 → exec (.unlock (.capture n)) s = .next { s with tst.nonce := some n, readData := r }) ∧
    (∀ g, s.clk ≠ Clk.off → s.tst.ir = 32 → s.tst.verify = none → exec (.unlock (.submit g)) s = .next { s with tst.verify := some (s.tst.nonce, g) }) ∧
    (∀ g, s.clk ≠ Clk.off → s.tst.ir = 32 → s.tst.verify.isSome = true → exec (.unlock (.submit g)) s = .next s)) ∧
  (∀ (s u : State) (ok k : Bool),
    s.Ready →
    u = { s with tst.verify := none } →
    (s.tst.verify = none → exec (.unlockVerifyDone ok k) s = .next s) ∧
    (∀ n g, s.tst.verify = some (n, g) → n.bind (fun n => debugKey n g) ≠ verdict ok k → exec (.unlockVerifyDone ok k) s = .next s) ∧
    (∀ n g, ok = true → s.tst.verify = some (some n, g) → debugKey n g = some k → s.on F.TST_DBG_LOCKOUT = false → exec (.unlockVerifyDone ok k) s = .next ((u.put F.TST_DBG_UNLOCKED 1).putB F.TST_DBG_KEY k)) ∧
    (∀ n g, ok = false → s.tst.verify = some (some n, g) → debugKey n g = none → exec (.unlockVerifyDone ok k) s = .next u.unlockFails.settle) ∧
    (∀ g, ok = false → s.tst.verify = some (none, g) → exec (.unlockVerifyDone ok k) s = .next u.unlockFails.settle) ∧
    (∀ n g, s.tst.verify = some (n, g) → n.bind (fun n => debugKey n g) = verdict ok k → s.on F.TST_DBG_LOCKOUT = true → exec (.unlockVerifyDone ok k) s = .next u.unlockFails.settle)) ∧
  (∀ (s : State),
    s.Ready →
    exec .relock s = .next (s.put F.TST_DBG_UNLOCKED 0))

/-- In every state every command, and a step with nothing waiting, answers a next state. That no command stops is the model's choice (log 202: Fault has no cause that a meaning raises), and so is that a command which the state does not allow leaves the state as it stands (log 11). -/
def Obligations.EveryCommandAnswers : Prop :=
  (∀ (s : State),
    ∃ t, step s = .next t)

/-- No reset that a fault called for is outstanding after a step. -/
def Obligations.NothingOutstanding : Prop :=
  (∀ (s t : State),
    s.Quiet →
    step s = .next t →
    t.Quiet)

/-- What reset leaves: nothing waiting or outstanding, empty memories, registers at the values of the manual's tables. Memories that read 0 are the model's choice (log 1), and so are 0 for a register whose reset value the manual does not give (log 2), the empty Carafe, event log and fuses (log 3), and that the rails stand and EN of DPC 0 to 4 is set (log 161). Parts of it are the model's choices: log entries 1, 3. -/
def Obligations.ResetState : Prop :=
  (
    State.reset.pending = [] ∧ State.reset.Ready ∧ State.reset.MemOk ∧ (∀ a, Memory.rd State.reset.mem a = 0) ∧ (∀ (r : Reg) (i j : Nat), State.reset.word r i j = r.rst i j) ∧
    State.reset.word R.GLB_ID = 0xB05120 ∧ (∀ b : Fin 4, State.reset.g F.TB_INC_INC b = 2 ^ 48) ∧ State.reset.word R.FLT_REACT 35 = 0x10 ∧ State.reset.word R.LAT_STARVE = 0x100 ∧ State.reset.word R.FLT_CE_THR = 0x3E80010 ∧
    (∀ n : Fin 6, State.reset.on F.DPC_CFG_EN n = decide (n.val < 5)) ∧ State.reset.g F.CAR_WR_CNT_CNT = 0 ∧ State.reset.flt.log = [] ∧ State.reset.af.carafe = {} ∧
    (∀ t : Tile, State.reset.word R.PWR_CHARGE_BUDGET t = 32000) ∧ (∀ t k, State.reset.word R.AO_CFG t k = 0x640 ∧ State.reset.g F.AO_CFG_CLOAD t k = 100) ∧ (∀ t k, State.reset.g F.MI_CFG_RANGE t k = 3))

/-- While the root-derived clocks do not run, a command of a root-clocked block changes nothing. That leases and sweeps count in CORE cycles is the model's reading (log 103), and so is what the endpoint and its link do in a freeze, which rootClocked leaves out (log 159). -/
def Obligations.StoppedClocks : Prop :=
  (∀ (s : State) (c : Instr),
    rootClocked c = true →
    s.clk ≠ Clk.running →
    exec c s = .next s)

/-- The integrator of laws 1 and 2 is frozen while it pushes into a clamp and stays within its bound. -/
def Obligations.AntiWindup : Prop :=
  (∀ (ffp p i di imax j : Int) (lo hi : Nat),
    j = antiWindup ffp p i di lo hi imax →
    ((((hi : Int) * 65536 + 0x8000 ≤ ffp + p + i + di ∧ 0 < di) ∨ (ffp + p + i + di < (lo : Int) * 65536 - 0x8000 ∧ di < 0)) → j = i) ∧
    (¬ (((hi : Int) * 65536 + 0x8000 ≤ ffp + p + i + di ∧ 0 < di) ∨ (ffp + p + i + di < (lo : Int) * 65536 - 0x8000 ∧ di < 0)) → j = clampI (-imax) imax (i + di)) ∧
    (-imax ≤ i → i ≤ imax → -imax ≤ j ∧ j ≤ imax) ∧
    (-imax ≤ i → i ≤ imax → (hi : Int) * 65536 + 0x8000 ≤ ffp + p + i + di → j ≤ i) ∧
    (-imax ≤ i → i ≤ imax → ffp + p + i + di < (lo : Int) * 65536 - 0x8000 → i ≤ j)) ∧
  (∀ (s : State) (a : Nat) (e p di i : Int) (inner : Option Nat),
    p = sar (s.cgS 0 a C.KP * e) (s.cg 0 a C.KPSH) →
    di = sar (s.cgS 0 a C.KI * e) (s.cg 0 a C.KISH) →
    i = antiWindup (s.ffp a) p (s.cgS 0 a C.I) di (s.cg 0 a C.LO) (s.cg 0 a C.HI) ((s.cg 0 a C.IMAX : Nat) : Int) →
    (s.piStep a e inner).1 = ((s.cpS 0 a C.I i).formOut a (p + i) inner).1.lockCheck a e.natAbs ((s.cpS 0 a C.I i).formOut a (p + i) inner).2 ∧
    (∀ y, e = s.signed a (((s.cg 0 a C.SP : Nat) : Int) - y) → s.lawPi a y inner = s.piStep a e inner) ∧
    (∀ y1 x tot, s.lastSamp (aoTile a) (s.cg 0 a C.MI2) = some x → tot = y1 + monUnits x → ((s.cg 0 a C.YMIN : Nat) : Int) ≤ tot → tot ≠ 0 →
      e = s.signed a (Int.tdiv (((65536 - ((s.cg 0 a C.SP : Nat) : Int)) * y1 - ((s.cg 0 a C.SP : Nat) : Int) * (tot - y1)) * 16) tot) → s.lawRatio a y1 inner = s.piStep a e inner))

/-- BUDGET.CHK answers what is left of the slot budget less its operand, sets Z and N and charges nothing. That the lead member issues it and its G[S1] decides for every member in step is the model's choice (log 80), and so is REMAIN as a signed field of 24 bits (log 87). Parts of it are the model's choices: log entries 7, 80. -/
def Obligations.BudgetCheck : Prop :=
  (∀ (s : State) (h : Thr) (i : OIns) (r : W64) (t : State),
    s.Ready →
    i.opc = 146 →
    s.leadIssues h i = true →
    allModes.contains (s.pm h) = true →
    r = BitVec.ofInt 64 (toSigned 24 (s.g F.BRS_PORT_STAT_REMAIN h)) - (s.leadTh h).gr i.s1 →
    (t = ((s.each s.lock (fun u m => u.updTh m h (fun x => x.setStatus (withZN x.status r)))).wrAll h i.d r).retireAll h i) →
    exec (.budgetChk h) s = .next t ∧ t.brs = s.brs ∧ t.g F.BRS_PORT_STAT_REMAIN h = s.g F.BRS_PORT_STAT_REMAIN h)

/-- SAMP.FOCUS adds a monitor to the shadow focus list of its converter, or says why it does not. Parts of it are the model's choices: log entries 7, 15, 69, 80. -/
def Obligations.FocusRequests : Prop :=
  (∀ (s : State) (h : Thr) (i : OIns) (m : Nat) (l : List (Nat × Nat)),
    s.clk = Clk.running →
    i.opc = 145 ∧ i.func = 0 →
    s.leadIssues h i = true →
    allModes.contains (s.pm h) = true →
    m = s.gOf h i.s1 →
    m < 16384 →
    l = (s.md (miTile m) (miMadc m)).shadow →
    (s.miOwned m h = false → exec (.sampFocus h) s = .next (s.swDone h i 1).settle) ∧
    (s.miOwned m h = true → l.contains (h.val, miPos m) = true → exec (.sampFocus h) s = .next (s.swDone h i 0).settle) ∧
    (s.miOwned m h = true → l.contains (h.val, miPos m) = false → l.length < 16 →
      exec (.sampFocus h) s = .next ((s.updMd (miTile m) (miMadc m) (fun x => { x with shadow := x.shadow ++ [(h.val, miPos m)] })).swDone h i 0).settle) ∧
    (s.miOwned m h = true → l.contains (h.val, miPos m) = false → 16 ≤ l.length →
      exec (.sampFocus h) s = .next (((s.sat F.MI_SCAN_STAT_FOCUS_OVF (miTile m) (miMadc m)).put F.MI_TILE_STAT_FOCUS_OVF 1 (miTile m)).swDone h i 2).settle))

/-- A channel takes a producer's occurrence only after its RETRIG time; software raises are never tested. -/
def Obligations.Retriggering : Prop :=
  (∀ (s : State) (c t : Nat),
    s.on F.EVT_CH_EN c = true →
    bitOf s.grpMask (s.g F.EVT_CH_GRP c) = true →
    Map.find s.evt.last c = some t →
    t < s.slow →
    (s.slow < t + s.g F.EVT_CH_RETRIG c → s.reach c false = s.sat F.EVT_CHSTAT_RTRG_DROP c) ∧
    (t + s.g F.EVT_CH_RETRIG c ≤ s.slow → s.reach c false = s.reach c true) ∧
    (s.g F.EVT_CH_RETRIG c = 0 → s.reach c false = s.reach c true) ∧
    s.reach c true = (if s.stormy c = true then s.storm c else s.fire c)) ∧
  (∀ (s : State) (c : Nat),
    Map.find s.evt.last c = none →
    s.reach c false = s.reach c true)

/-- A source that is raised stands in FLT_STAT, the other sources keep theirs, and a source that stands takes no second raise. Parts of it are the model's choices: log entries 14, 15. -/
def Obligations.FaultSources : Prop :=
  (∀ (s : State) (n info : Nat),
    n < 64 →
    s.clk ≠ Clk.lost →
    (s.raise n info).fltOn n = true ∧ (∀ k, k < 64 → k ≠ n → (s.raise n info).fltOn k = s.fltOn k) ∧ (∀ x, (s.raise n info).raise n x = { s.raise n info with flt.again := ((s.raise n info).raise n x).flt.again })) ∧
  (∀ (s : State) (n info : Nat),
    n < 64 →
    s.on F.FLT_FIRST_VALID = true →
    s.flt.firstAt ≠ s.cycle →
    (s.raise n info).g F.FLT_FIRST_SRC = s.g F.FLT_FIRST_SRC ∧ (s.raise n info).g F.FLT_FIRST_TIME_VAL = s.g F.FLT_FIRST_TIME_VAL) ∧
  (∀ (s : State) (n info : Nat),
    s.clk = Clk.lost →
    s.raise n info = s)

/-- A time in the layout of a time value is the time cut to 2^-16 ns, with its base number. -/
def Obligations.TimeValues : Prop :=
  (∀ (u b : Nat),
    u < tbWrap →
    b < 4 →
    tvUnits (tvOf u b) = u / 2 ^ 32 * 2 ^ 32 ∧ getField (tvOf u b) 18 30 < 10 ^ 9 ∧ getField (tvOf u b) 0 2 = b)

/-- Of two writes of one active register in one cycle the one of higher precedence stands, in either order. Parts of it are the model's choices: log entries 14, 177. -/
def Obligations.ActivePrecedence : Prop :=
  (∀ (s : State) (a c d p q : Nat),
    a < 20480 →
    c < 65536 ∧ d < 65536 →
    s.actBlocked a p = false →
    (q ≤ p → ((s.actWrite a c p).actWrite a d q).ga F.AO_ACT_CODE a = d) ∧ (p < q → (s.actWrite a c p).actWrite a d q = s.actWrite a c p) ∧ (s.actWrite a c p).ga F.AO_ACT_CODE a = c)

/-- A direct write and a limit flag of one output leave the other outputs and the memories alone; a commit copy leaves the other outputs' registers alone. Parts of it are the model's choices: log entries 14, 21, 177, 220. -/
def Obligations.OutputFrames : Prop :=
  (∀ (s : State) (a b : Ao) (code : BitVec 16) (r : Reg),
    s.Ready →
    a ≠ b →
    r ∈ [R.AO_CFG, R.AO_SHD, R.AO_ACT, R.AO_RB, R.AO_STAT] →
    (∃ t, exec (.aoDirWrite a code) s = .next t ∧ t.mem = s.mem ∧ t.le = s.le ∧ t.word r (b.val / 1280) (b.val % 1280) = s.word r (b.val / 1280) (b.val % 1280)) ∧
    (∃ t, exec (.limitQualified a) s = .next t ∧ t.mem = s.mem ∧ t.le = s.le ∧ t.word r (b.val / 1280) (b.val % 1280) = s.word r (b.val / 1280) (b.val % 1280))) ∧
  (∀ (s : State) (a b : Ao) (r : Reg) (tc : Int),
    a ≠ b →
    r ∈ [R.AO_CFG, R.AO_SHD, R.AO_ACT, R.AO_RB, R.AO_STAT] →
    (s.commitAo a tc).word r (b.val / 1280) (b.val % 1280) = s.word r (b.val / 1280) (b.val % 1280) ∧
    (s.actBlocked a 2 = false → (s.commitAo a tc).ga F.AO_ACT_CODE a = s.ga F.AO_SHD_CODE a))

/-- An instruction with register results, a load among them, leaves alone all but its thread: memories, every other block, every other thread. Parts of it are the model's choices: log entries 1, 13, 15, 41, 80, 123, 128, 147, 246. -/
def Obligations.ResultFrames : Prop :=
  (∀ (s : State) (h : Thr) (c : Instr),
    s.Ready →
    s.ueWords = [] →
    (∀ m ∈ s.lock, bitOf (s.th m h).status bitIE = true) →
    c ∈ [Instr.add h, Instr.sub h, Instr.and h, Instr.or h, Instr.xor h, Instr.shl h, Instr.shr h, Instr.sar h, Instr.mul h, Instr.min h, Instr.max h, Instr.cmp h, Instr.addi h, Instr.andi h, Instr.ori h, Instr.lui h, Instr.nop h, Instr.scrr h, Instr.timegetNow h, Instr.timegetSec h, Instr.timegetNs h, Instr.timegetFrac h, Instr.timegetTbn h, Instr.timegetDiff h, Instr.timeadd h, Instr.timeaddSet h, Instr.timeaddMov h, Instr.timeaddCmp h, Instr.timeaddRound h] →
    ∃ t, exec c s = .next t ∧ ThreadOnly s.lock h s t) ∧
  (∀ (s : State) (h : Thr) (i : OIns) (n : Nat) (g : Nat → State → Bool) (f : Nat → State → State) (c : Instr),
    s.Ready →
    (n = 1 ∧ c = .ld8 h ∧ i.opc = 32) ∨ (n = 2 ∧ c = .ld16 h ∧ i.opc = 33) ∨ (n = 4 ∧ c = .ld32 h ∧ i.opc = 34) ∨ (n = 8 ∧ c = .ld64 h ∧ i.opc = 35) →
    (g = fun m s => (memAddr (s.th m h) i % n = 0) && (match threadAddr h (memAddr (s.th m h) i) with | some (k, _) => (s.ueIn k n).isNone && !(List.range n).any (fun j => thrTarget (k + j) = 3 && mapUnused (k + j - mapBase)) | none => false)) →
    (f = fun m s => ((s.grant (thrTarget ((threadAddr h (memAddr (s.th m h) i)).getD (0, false)).1) (2 + m)).updTh m h (fun x => x.setG i.d (BitVec.ofNat 64 (leNat (s.bar2Bytes (((threadAddr h (memAddr (s.th m h) i)).getD (0, false)).1) n))))).retire m h i) →
    inStep h i g f s.lock s = true →
    exec c s = .next (s.each s.lock (fun s m => f m s)) ∧ ThreadOnly s.lock h s (s.each s.lock (fun s m => f m s))) ∧
  (∀ (s : State) (h : Thr) (i : OIns) (k : Nat → State → Option Nat) (f : Nat → State → ThrSt → ThrSt),
    ThreadOnly s.lock h s (s.each s.lock (fun u m => ((match k m u with | none => u | some q => u.grant q (2 + m)).updTh m h (f m u)).retire m h i))) ∧
  (∀ (s t : State) (h : Thr) (i : OIns) (k : Nat → State → Option Nat) (f : Nat → State → ThrSt → ThrSt),
    (t = s.each s.lock (fun u m => ((match k m u with | none => u | some q => u.grant q (2 + m)).updTh m h (f m u)).retire m h i)) →
    (t.mem = s.mem ∧ t.hostOut = s.hostOut ∧ t.af = s.af ∧ t.mon = s.mon ∧ t.le = s.le ∧ t.rtu = s.rtu ∧ t.rot = s.rot ∧ t.brs = s.brs ∧ t.twin = s.twin ∧ t.tm = s.tm ∧
      t.pci = s.pci ∧ t.dma = s.dma ∧ t.evt = s.evt ∧ t.flt = s.flt ∧ t.pwr = s.pwr ∧ t.thm = s.thm ∧ t.cal = s.cal ∧ t.tst = s.tst ∧ t.pending = s.pending ∧ t.cycle = s.cycle ∧ t.clk = s.clk) ∧
    (∀ (m : Member) (k : Thr), k ≠ h → t.th m k = s.th m k) ∧
    (∀ (r : Reg) (a b : Nat), a < 16384 → b < 4096 → r.id ≠ R.SEQ_THR_STAT.id → r.id ≠ R.SEQ_STAT.id → r.id ≠ R.SEQ_THR_CODE.id → t.word r a b = s.word r a b))

/-- A store writes the lease holder's bytes at its address and no other byte, and keeps the memories in canonical form. Parts of it are the model's choices: log entries 1, 14, 15, 67, 80, 93, 123. -/
def Obligations.StoreFrames : Prop :=
  (∀ (s : State) (h : Thr) (i : OIns) (n : Nat) (g : Nat → State → Bool) (f : Nat → State → State) (c : Instr),
    s.Ready →
    (n = 1 ∧ c = .st8 h ∧ i.opc = 36) ∨ (n = 2 ∧ c = .st16 h ∧ i.opc = 37) ∨ (n = 4 ∧ c = .st32 h ∧ i.opc = 38) ∨ (n = 8 ∧ c = .st64 h ∧ i.opc = 39) →
    (g = fun m s => (memAddr (s.th m h) i % n = 0) && (match threadAddr h (memAddr (s.th m h) i) with | some (_, w) => w | none => false)) →
    (f = fun m s => (s.when (s.holds 0 m) (fun s => ((s.grant (thrTarget (dmBase h + memAddr (s.th m h) i)) (2 + m)).dmStore (dmBase h + memAddr (s.th m h) i) (leBytes n ((s.th m h).gr i.d).toNat)).passEffect 0 (leBytes 8 (memAddr (s.th m h) i) ++ leBytes n ((s.th m h).gr i.d).toNat))).retire m h i) →
    inStep h i g f s.lock s = true →
    ∃ t, exec c s = .next t ∧ (s.MemOk → t.MemOk) ∧
      (∀ a, (∀ m ∈ s.lock, s.holds 0 m = true → a < dmBase h + memAddr (s.th m h) i ∨ dmBase h + memAddr (s.th m h) i + n ≤ a) → Memory.rd t.mem a = Memory.rd s.mem a) ∧
      ∀ m ∈ s.lock, s.holds 0 m = true → ∀ k, k < n →
        (s.seq.dmHost.contains (dmBase h + memAddr (s.th m h) i + k, s.cycle) = false → Memory.rd t.mem (dmBase h + memAddr (s.th m h) i + k) = (leBytes n ((s.th m h).gr i.d).toNat).getD k 0) ∧
        (s.seq.dmHost.contains (dmBase h + memAddr (s.th m h) i + k, s.cycle) = true → Memory.rd t.mem (dmBase h + memAddr (s.th m h) i + k) = Memory.rd s.mem (dmBase h + memAddr (s.th m h) i + k)))

/-- A host write of program store or of a repetitive table writes no byte outside what it names and keeps the memories in canonical form. Parts of it are the model's choices: log entries 1, 7, 123. -/
def Obligations.MemoryFrames : Prop :=
  (∀ (s : State) (off : BitVec 21) (bs : List Byte),
    s.Ready →
    ∃ t, exec (.psWrite off bs) s = .next t ∧ (s.MemOk → t.MemOk) ∧
      (∀ a, (a < progBase + off.toNat ∨ progBase + off.toNat + bs.length ≤ a ∨ progBase + 0x200000 ≤ a) → Memory.rd t.mem a = Memory.rd s.mem a) ∧
      ((List.range bs.length).any (fun i => s.runningCode (off.toNat + i)) = true → t.mem = s.mem) ∧
      ((List.range bs.length).any (fun i => s.runningCode (off.toNat + i)) = false → ∀ i, i < bs.length → off.toNat + i < 0x200000 → Memory.rd t.mem (progBase + off.toNat + i) = bs.getD i 0)) ∧
  (∀ (s : State) (a : Ao) (off : Fin 128) (bs : List Byte) (p : Nat) (l : Bool),
    s.Ready →
    p = s.ga F.AO_CFG_PART a →
    l = (s.ona F.AO_CFG_OWNED a && decide (s.pm p = 2) && s.on F.RTU_ROT_LRN_LEN p && !s.on F.RTU_ROT_LRN_FRZ p) →
    ∃ t, exec (.repTableWrite a off bs) s = .next t ∧ (s.MemOk → t.MemOk) ∧
      (∀ x, (x < repBase + a.val * 128 + off.val ∨ repBase + a.val * 128 + off.val + bs.length ≤ x ∨ repBase + a.val * 128 + 128 ≤ x) → Memory.rd t.mem x = Memory.rd s.mem x) ∧
      (l = true → t.mem = s.mem ∧ t.on F.RTU_ROT_LSTAT_WR_REFUSED p = true) ∧
      (l = false → ∀ i, i < bs.length → off.val + i < 128 → Memory.rd t.mem (repBase + a.val * 128 + off.val + i) = bs.getD i 0))

/-- The first address of every register of the manual's tables names that register and its first instance. Parts of it are the model's choices: log entry 143. -/
def Obligations.RegisterAddresses : Prop :=
  (
    ∀ r ∈ regList, (placeAt (if r.stands 0 then r.addr else r.addr + r.si)).map (fun p => (p.reg.id, p.i, p.j, p.k)) = some (r.id, if r.stands 0 then 0 else 1, 0, 0))

/-- A thaw: the bases advance by D, FLT_FRZ_DUR, commits past their deadline end LATE, FREEZE_TAKEN is raised, then what was held goes on. Parts of it are the model's choices: log entries 11, 15, 38, 62, 106, 108, 122, 150, 151, 152, 153, 159, 235. -/
def Obligations.ThawEffects : Prop :=
  (∀ (s : State) (t : State),
    t = Sys2Proof.Machine.thaw s →
    (s.clk = Clk.frozen → t.clk = Clk.running → exec .thaw s = .next t.thawPins.thawLink.drainIn.settle) ∧
    (s.clk ≠ Clk.frozen ∨ t.clk ≠ Clk.running → exec .thaw s = .next t.settle)) ∧
  (∀ (s u w x : State) (d : Nat),
    s.clk = Clk.frozen →
    s.frzHeld = false →
    d = s.frzD →
    u = s.runBases d →
    (w = ((({ u with clk := Clk.running, flt.frozen := 0, flt.frzBy := none, tm.tcis := u.tm.tcis.map (fun e => (e.1, { e.2 with lastEdge := none })), mon.ramps := u.mon.ramps.map (fun e => (e.1, { e.2 with pos := biasPos e.2 (u.cycle + d), start := u.cycle })) } : State).put F.FLT_FRZ_DUR_DUR (d / 32 * 5)).put F.GLB_MODE_MODE s.flt.frzMode).putB F.TB_SYNC_STAT_LEVEL (s.pinAt 0)) →
    (x = (List.range 16).foldl State.thawWaitt ((List.range 4).foldl (fun y b => y.tpoJump b ((y.tbVal b : Int) - (s.tbVal b : Int))) ((List.range 16).foldl (fun y p => y.rotJump p false) (w.thawCommits s)).kicksOver)) →
    Sys2Proof.Machine.thaw s = ((x.raise 54 (s.flt.frzBy.getD 0)).flushHeld).flushMsix ∧
    (d % 32 = 0 ∧ 0 < d ∧ s.flt.frozen ≤ d ∧ d ≤ s.flt.frozen + 32) ∧
    (∀ b, b < 4 → w.tb b = (s.tb b).run d) ∧
    (d / 32 * 5 < 2 ^ 64 → w.g F.FLT_FRZ_DUR_DUR = d / 32 * 5) ∧
    (x.clk ≠ Clk.lost → (x.raise 54 (s.flt.frzBy.getD 0)).fltOn 54 = true)) ∧
  (∀ (x : TbSt) (n : Nat),
    (x.amort = none → (x.run n).val = (x.val + n * x.inc) % tbWrap ∧ (x.run n).amort = none) ∧
    (∀ a, x.amort = some a → 0 ≤ a.left → (n * x.extra : Int) ≤ a.left → (x.run n).val = (x.val + n * x.inc + n * x.extra) % tbWrap) ∧
    (∀ a, x.amort = some a → 0 ≤ a.left → a.left ≤ (n * x.extra : Int) → (x.run n).val = (x.val + n * x.inc + a.left.natAbs) % tbWrap)) ∧
  (∀ (s : State),
    s.clk ≠ Clk.frozen ∨ s.frzHeld = true → Sys2Proof.Machine.thaw s = s) ∧
  (∀ (s b : State) (c : Commit),
    s.rtu.commits = [c] →
    (c.cancelled = false → c.fired = false → c.decided = false → c.slot = none → b.reached (c.at - 200000) = false → s.reached (c.at - 200000) = true →
      s.thawCommits b = { s.cancelCommit c 4 with rtu.arms := s.rtu.arms.filter (fun m => !(m.lead = c.lead && m.tc = c.tc)) }) ∧
    (c.cancelled = true ∨ c.fired = true ∨ c.decided = true ∨ c.slot.isSome = true ∨ b.reached (c.at - 200000) = true ∨ s.reached (c.at - 200000) = false → s.thawCommits b = s)) ∧
  (∀ (s : State) (c : Commit) (res q : Nat),
    res < 8 →
    q < 16 →
    bitOf c.mask q = true →
    (s.cancelCommit c res).g F.RTU_PSTAT_ARMED q = 0 ∧ (s.cancelCommit c res).g F.RTU_PSTAT_LAST_RESULT q = res ∧
    ∀ t k, t < 16384 → k < 4096 → (s.cancelCommit c res).word R.AO_SHD t k = s.word R.AO_SHD t k)
end

