-- ==== Sys2Proof/Laws/Dispatch.lean ====
section
/-! SUPPORT. Each arm of exec as an equation. -/

namespace Sys2Proof.Machine

theorem exec_registerWrite (m : Fin 8) (addr : BitVec 24) (wide : Bool) (v : W64) (mem : List (List Byte × List Byte)) (s : State) : exec (.registerWrite m addr wide v mem) s = execRegisterWrite m addr wide v mem s := rfl
theorem exec_reg64LatchRead (m : Fin 8) (addr : BitVec 24) (wide : Bool) (s : State) : exec (.reg64LatchRead m addr wide) s = execReg64LatchRead m addr wide s := rfl
theorem exec_badWidthAccess (m : Fin 8) (addr : BitVec 24) (wr : Bool) (s : State) : exec (.badWidthAccess m addr wr) s = execBadWidthAccess m addr wr s := rfl
theorem exec_tilePowerUp (t : Tile) (s : State) : exec (.tilePowerUp t) s = execTilePowerUp t s := rfl
theorem exec_tileLinkCrcFail (t : Tile) (s : State) : exec (.tileLinkCrcFail t) s = execTileLinkCrcFail t s := rfl
theorem exec_tileLinkRetry (t : Tile) (good : Bool) (s : State) : exec (.tileLinkRetry t good) s = execTileLinkRetry t good s := rfl
theorem exec_tileWatchdogExpiry (t : Tile) (s : State) : exec (.tileWatchdogExpiry t) s = execTileWatchdogExpiry t s := rfl
theorem exec_tileLinkTrained (t : Tile) (s : State) : exec (.tileLinkTrained t) s = execTileLinkTrained t s := rfl
theorem exec_clkLoss (why : Fin 2) (s : State) : exec (.clkLoss why) s = execClkLoss why s := rfl
theorem exec_clkLossReset (s : State) : exec (.clkLossReset) s = execClkLossReset s := rfl
theorem exec_aoCfgWrite (a : Ao) (v : W32) (s : State) : exec (.aoCfgWrite a v) s = execAoCfgWrite a v s := rfl
theorem exec_aoDirWrite (a : Ao) (code : BitVec 16) (s : State) : exec (.aoDirWrite a code) s = execAoDirWrite a code s := rfl
theorem exec_limitQualified (a : Ao) (s : State) : exec (.limitQualified a) s = execLimitQualified a s := rfl
theorem exec_sadcConversion (t : Tile) (reading : BitVec 16) (aux : Nat) (lim : Bool) (s : State) : exec (.sadcConversion t reading aux lim) s = execSadcConversion t reading aux lim s := rfl
theorem exec_faultRelease (a : Ao) (s : State) : exec (.faultRelease a) s = execFaultRelease a s := rfl
theorem exec_loopOutputArrival (s : State) : exec (.loopOutputArrival) s = execLoopOutputArrival s := rfl
theorem exec_commitStrobe (p : Part) (s : State) : exec (.commitStrobe p) s = execCommitStrobe p s := rfl
theorem exec_miCfgWrite (m : Mi) (v : W32) (s : State) : exec (.miCfgWrite m v) s = execMiCfgWrite m v s := rfl
theorem exec_madcSample (t : Tile) (d : Madc) (code : BitVec 12) (sat : Bool) (s : State) : exec (.madcSample t d code sat) s = execMadcSample t d code sat s := rfl
theorem exec_sampleForwardArrival (s : State) : exec (.sampleForwardArrival) s = execSampleForwardArrival s := rfl
theorem exec_fwdTokenRefill (t : Tile) (b : Fin 3) (s : State) : exec (.fwdTokenRefill t b) s = execFwdTokenRefill t b s := rfl
theorem exec_sqCopyArrival (s : State) : exec (.sqCopyArrival) s = execSqCopyArrival s := rfl
theorem exec_sqRdWrite (q : Fin 16) (v : BitVec 17) (s : State) : exec (.sqRdWrite q v) s = execSqRdWrite q v s := rfl
theorem exec_sqClr (q : Fin 16) (s : State) : exec (.sqClr q) s = execSqClr q s := rfl
theorem exec_miBiasWrite (t : Tile) (code : Byte) (s : State) : exec (.miBiasWrite t code) s = execMiBiasWrite t code s := rfl
theorem exec_biasRampDone (t : Tile) (ibias : Byte) (s : State) : exec (.biasRampDone t ibias) s = execBiasRampDone t ibias s := rfl
theorem exec_biasOverload (t : Tile) (s : State) : exec (.biasOverload t) s = execBiasOverload t s := rfl
theorem exec_scanCtlWrite (t : Tile) (d : Madc) (v : W32) (s : State) : exec (.scanCtlWrite t d v) s = execScanCtlWrite t d v s := rfl
theorem exec_scanTimerTick (t : Tile) (d : Madc) (s : State) : exec (.scanTimerTick t d) s = execScanTimerTick t d s := rfl
theorem exec_scanCommitDelayExpiry (t : Tile) (d : Madc) (s : State) : exec (.scanCommitDelayExpiry t d) s = execScanCommitDelayExpiry t d s := rfl
theorem exec_scanPassEnd (t : Tile) (d : Madc) (s : State) : exec (.scanPassEnd t d) s = execScanPassEnd t d s := rfl
theorem exec_focusExpiry (t : Tile) (d : Madc) (s : State) : exec (.focusExpiry t d) s = execFocusExpiry t d s := rfl
theorem exec_loopUpdate (a : Ao) (s : State) : exec (.loopUpdate a) s = execLoopUpdate a s := rfl
theorem exec_loopTick (a : Ao) (s : State) : exec (.loopTick a) s = execLoopTick a s := rfl
theorem exec_commitUpdate (a : Ao) (s : State) : exec (.commitUpdate a) s = execCommitUpdate a s := rfl
theorem exec_contextWrite (bank : Fin 2) (a : Ao) (off : Fin 128) (bs : List Byte) (s : State) : exec (.contextWrite bank a off bs) s = execContextWrite bank a off bs s := rfl
theorem exec_leRestart (a : Ao) (s : State) : exec (.leRestart a) s = execLeRestart a s := rfl
theorem exec_leHold (a : Ao) (s : State) : exec (.leHold a) s = execLeHold a s := rfl
theorem exec_leRelease (a : Ao) (s : State) : exec (.leRelease a) s = execLeRelease a s := rfl
theorem exec_leFocusWrite (t : Tile) (slots : Byte) (fcost : Byte) (s : State) : exec (.leFocusWrite t slots fcost) s = execLeFocusWrite t slots fcost s := rfl
theorem exec_mapStoreWrite (off : BitVec 24) (bs : List Byte) (s : State) : exec (.mapStoreWrite off bs) s = execMapStoreWrite off bs s := rfl
theorem exec_stateMirrorApply (s : State) : exec (.stateMirrorApply) s = execStateMirrorApply s := rfl
theorem exec_rtuLoad (p : Part) (s : State) : exec (.rtuLoad p) s = execRtuLoad p s := rfl
theorem exec_rtuLoadDone (p : Part) (s : State) : exec (.rtuLoadDone p) s = execRtuLoadDone p s := rfl
theorem exec_rtuPlanClr (p : Part) (s : State) : exec (.rtuPlanClr p) s = execRtuPlanClr p s := rfl
theorem exec_rtuCacheClr (p : Part) (s : State) : exec (.rtuCacheClr p) s = execRtuCacheClr p s := rfl
theorem exec_routeJobStart (s : State) : exec (.routeJobStart) s = execRouteJobStart s := rfl
theorem exec_routeJobDone (bad : Bool) (s : State) : exec (.routeJobDone bad) s = execRouteJobDone bad s := rfl
theorem exec_stagingWord (t : Tile) (s : State) : exec (.stagingWord t) s = execStagingWord t s := rfl
theorem exec_stageBurstAck (t : Tile) (s : State) : exec (.stageBurstAck t) s = execStageBurstAck t s := rfl
theorem exec_cacheFill (t : Tile) (s : State) : exec (.cacheFill t) s = execCacheFill t s := rfl
theorem exec_cacheLoad (t : Tile) (s : State) : exec (.cacheLoad t) s = execCacheLoad t s := rfl
theorem exec_armMessage (p : Part) (t : Tile) (s : State) : exec (.armMessage p t) s = execArmMessage p t s := rfl
theorem exec_armReply (p : Part) (t : Tile) (loads : List (Chan × BitVec 16)) (pw : Nat) (s : State) : exec (.armReply p t loads pw) s = execArmReply p t loads pw s := rfl
theorem exec_cancelDeadline (p : Part) (s : State) : exec (.cancelDeadline p) s = execCancelDeadline p s := rfl
theorem exec_cancelMessage (p : Part) (t : Tile) (s : State) : exec (.cancelMessage p t) s = execCancelMessage p t s := rfl
theorem exec_commitReport (p : Part) (t : Tile) (s : State) : exec (.commitReport p t) s = execCommitReport p t s := rfl
theorem exec_commitClose (p : Part) (s : State) : exec (.commitClose p) s = execCommitClose p s := rfl
theorem exec_rotCtlGo (p : Part) (s : State) : exec (.rotCtlGo p) s = execRotCtlGo p s := rfl
theorem exec_rotCtlStop (p : Part) (s : State) : exec (.rotCtlStop p) s = execRotCtlStop p s := rfl
theorem exec_rotCtlStopNow (p : Part) (s : State) : exec (.rotCtlStopNow p) s = execRotCtlStopNow p s := rfl
theorem exec_rotCtlSwap (p : Part) (s : State) : exec (.rotCtlSwap p) s = execRotCtlSwap p s := rfl
theorem exec_rotCtlSwapCancel (p : Part) (s : State) : exec (.rotCtlSwapCancel p) s = execRotCtlSwapCancel p s := rfl
theorem exec_rotorBufWrite (p : Part) (b : Fin 2) (w : Fin 132) (v : W32) (s : State) : exec (.rotorBufWrite p b w v) s = execRotorBufWrite p b w v s := rfl
theorem exec_rotCfgWrite (p : Part) (v : W32) (s : State) : exec (.rotCfgWrite p v) s = execRotCfgWrite p v s := rfl
theorem exec_rotorSlotLoad (p : Part) (s : State) : exec (.rotorSlotLoad p) s = execRotorSlotLoad p s := rfl
theorem exec_rotorSkipCheck (p : Part) (loads : List (Ao × BitVec 16)) (pw : Nat) (s : State) : exec (.rotorSkipCheck p loads pw) s = execRotorSkipCheck p loads pw s := rfl
theorem exec_rotorSyncEdge (p : Part) (s : State) : exec (.rotorSyncEdge p) s = execRotorSyncEdge p s := rfl
theorem exec_syncLost (p : Part) (s : State) : exec (.syncLost p) s = execSyncLost p s := rfl
theorem exec_learnWindowOpen (p : Part) (s : State) : exec (.learnWindowOpen p) s = execLearnWindowOpen p s := rfl
theorem exec_learnWindowClose (p : Part) (s : State) : exec (.learnWindowClose p) s = execLearnWindowClose p s := rfl
theorem exec_lrnWrite (p : Part) (v : W32) (s : State) : exec (.lrnWrite p v) s = execLrnWrite p v s := rfl
theorem exec_learnClr (p : Part) (s : State) : exec (.learnClr p) s = execLearnClr p s := rfl
theorem exec_learnClrDone (p : Part) (s : State) : exec (.learnClrDone p) s = execLearnClrDone p s := rfl
theorem exec_repTableWrite (a : Ao) (off : Fin 128) (bs : List Byte) (s : State) : exec (.repTableWrite a off bs) s = execRepTableWrite a off bs s := rfl
theorem exec_add (h : Thr) (s : State) : exec (.add h) s = execAdd h s := rfl
theorem exec_sub (h : Thr) (s : State) : exec (.sub h) s = execSub h s := rfl
theorem exec_and (h : Thr) (s : State) : exec (.and h) s = execAnd h s := rfl
theorem exec_or (h : Thr) (s : State) : exec (.or h) s = execOr h s := rfl
theorem exec_xor (h : Thr) (s : State) : exec (.xor h) s = execXor h s := rfl
theorem exec_shl (h : Thr) (s : State) : exec (.shl h) s = execShl h s := rfl
theorem exec_shr (h : Thr) (s : State) : exec (.shr h) s = execShr h s := rfl
theorem exec_sar (h : Thr) (s : State) : exec (.sar h) s = execSar h s := rfl
theorem exec_mul (h : Thr) (s : State) : exec (.mul h) s = execMul h s := rfl
theorem exec_min (h : Thr) (s : State) : exec (.min h) s = execMin h s := rfl
theorem exec_max (h : Thr) (s : State) : exec (.max h) s = execMax h s := rfl
theorem exec_cmp (h : Thr) (s : State) : exec (.cmp h) s = execCmp h s := rfl
theorem exec_addi (h : Thr) (s : State) : exec (.addi h) s = execAddi h s := rfl
theorem exec_andi (h : Thr) (s : State) : exec (.andi h) s = execAndi h s := rfl
theorem exec_ori (h : Thr) (s : State) : exec (.ori h) s = execOri h s := rfl
theorem exec_lui (h : Thr) (s : State) : exec (.lui h) s = execLui h s := rfl
theorem exec_ld8 (h : Thr) (s : State) : exec (.ld8 h) s = execLd8 h s := rfl
theorem exec_ld16 (h : Thr) (s : State) : exec (.ld16 h) s = execLd16 h s := rfl
theorem exec_ld32 (h : Thr) (s : State) : exec (.ld32 h) s = execLd32 h s := rfl
theorem exec_ld64 (h : Thr) (s : State) : exec (.ld64 h) s = execLd64 h s := rfl
theorem exec_st8 (h : Thr) (s : State) : exec (.st8 h) s = execSt8 h s := rfl
theorem exec_st16 (h : Thr) (s : State) : exec (.st16 h) s = execSt16 h s := rfl
theorem exec_st32 (h : Thr) (s : State) : exec (.st32 h) s = execSt32 h s := rfl
theorem exec_st64 (h : Thr) (s : State) : exec (.st64 h) s = execSt64 h s := rfl
theorem exec_br (h : Thr) (s : State) : exec (.br h) s = execBr h s := rfl
theorem exec_jal (h : Thr) (s : State) : exec (.jal h) s = execJal h s := rfl
theorem exec_jr (h : Thr) (s : State) : exec (.jr h) s = execJr h s := rfl
theorem exec_jrE (h : Thr) (upcOk : Bool) (s : State) : exec (.jrE h upcOk) s = execJrE h upcOk s := rfl
theorem exec_trap (h : Thr) (s : State) : exec (.trap h) s = execTrap h s := rfl
theorem exec_fenceM (h : Thr) (s : State) : exec (.fenceM h) s = execFenceM h s := rfl
theorem exec_scrr (h : Thr) (s : State) : exec (.scrr h) s = execScrr h s := rfl
theorem exec_scrw (h : Thr) (s : State) : exec (.scrw h) s = execScrw h s := rfl
theorem exec_halt (h : Thr) (s : State) : exec (.halt h) s = execHalt h s := rfl
theorem exec_nop (h : Thr) (s : State) : exec (.nop h) s = execNop h s := rfl
theorem exec_timegetNow (h : Thr) (s : State) : exec (.timegetNow h) s = execTimegetNow h s := rfl
theorem exec_timegetSec (h : Thr) (s : State) : exec (.timegetSec h) s = execTimegetSec h s := rfl
theorem exec_timegetNs (h : Thr) (s : State) : exec (.timegetNs h) s = execTimegetNs h s := rfl
theorem exec_timegetFrac (h : Thr) (s : State) : exec (.timegetFrac h) s = execTimegetFrac h s := rfl
theorem exec_timegetTbn (h : Thr) (s : State) : exec (.timegetTbn h) s = execTimegetTbn h s := rfl
theorem exec_timegetDiff (h : Thr) (s : State) : exec (.timegetDiff h) s = execTimegetDiff h s := rfl
theorem exec_timeadd (h : Thr) (s : State) : exec (.timeadd h) s = execTimeadd h s := rfl
theorem exec_timeaddSet (h : Thr) (s : State) : exec (.timeaddSet h) s = execTimeaddSet h s := rfl
theorem exec_timeaddMov (h : Thr) (s : State) : exec (.timeaddMov h) s = execTimeaddMov h s := rfl
theorem exec_timeaddCmp (h : Thr) (s : State) : exec (.timeaddCmp h) s = execTimeaddCmp h s := rfl
theorem exec_timeaddRound (h : Thr) (s : State) : exec (.timeaddRound h) s = execTimeaddRound h s := rfl
theorem exec_waitt (h : Thr) (s : State) : exec (.waitt h) s = execWaitt h s := rfl
theorem exec_waittWake (h : Thr) (s : State) : exec (.waittWake h) s = execWaittWake h s := rfl
theorem exec_waite (h : Thr) (s : State) : exec (.waite h) s = execWaite h s := rfl
theorem exec_waiteWake (h : Thr) (s : State) : exec (.waiteWake h) s = execWaiteWake h s := rfl
theorem exec_evraise (h : Thr) (s : State) : exec (.evraise h) s = execEvraise h s := rfl
theorem exec_trace (h : Thr) (s : State) : exec (.trace h) s = execTrace h s := rfl
theorem exec_eventEntry (h : Thr) (s : State) : exec (.eventEntry h) s = execEventEntry h s := rfl
theorem exec_d2Instruction (h : Thr) (e : D2Effect) (s : State) : exec (.d2Instruction h e) s = execD2Instruction h e s := rfl
theorem exec_d2MicroTrap (h : Thr) (upc : BitVec 13) (step : W64) (ut : List W64) (tt : List RWord) (s : State) : exec (.d2MicroTrap h upc step ut tt) s = execD2MicroTrap h upc step ut tt s := rfl
theorem exec_threadStart (h : Thr) (s : State) : exec (.threadStart h) s = execThreadStart h s := rfl
theorem exec_threadStop (h : Thr) (s : State) : exec (.threadStop h) s = execThreadStop h s := rfl
theorem exec_threadRedirect (h : Thr) (s : State) : exec (.threadRedirect h) s = execThreadRedirect h s := rfl
theorem exec_psWrite (off : BitVec 21) (bs : List Byte) (s : State) : exec (.psWrite off bs) s = execPsWrite off bs s := rfl
theorem exec_dmwinDataAccess (m : Member) (part : Fin 3) (wr : Bool) (v : W64) (s : State) : exec (.dmwinDataAccess m part wr v) s = execDmwinDataAccess m part wr v s := rfl
theorem exec_thrCodeWrite (h : Thr) (new : Bool) (v : W32) (s : State) : exec (.thrCodeWrite h new v) s = execThrCodeWrite h new v s := rfl
theorem exec_admitPop (h : Thr) (s : State) : exec (.admitPop h) s = execAdmitPop h s := rfl
theorem exec_admitPopWake (h : Thr) (s : State) : exec (.admitPopWake h) s = execAdmitPopWake h s := rfl
theorem exec_cplPost (h : Thr) (s : State) : exec (.cplPost h) s = execCplPost h s := rfl
theorem exec_cplPostDefer (h : Thr) (s : State) : exec (.cplPostDefer h) s = execCplPostDefer h s := rfl
theorem exec_route (h : Thr) (s : State) : exec (.route h) s = execRoute h s := rfl
theorem exec_routeWait (h : Thr) (s : State) : exec (.routeWait h) s = execRouteWait h s := rfl
theorem exec_routeWaitWake (h : Thr) (s : State) : exec (.routeWaitWake h) s = execRouteWaitWake h s := rfl
theorem exec_permLoad (h : Thr) (s : State) : exec (.permLoad h) s = execPermLoad h s := rfl
theorem exec_planClr (h : Thr) (s : State) : exec (.planClr h) s = execPlanClr h s := rfl
theorem exec_planClrLast (h : Thr) (s : State) : exec (.planClrLast h) s = execPlanClrLast h s := rfl
theorem exec_shSet (h : Thr) (s : State) : exec (.shSet h) s = execShSet h s := rfl
theorem exec_shList (h : Thr) (s : State) : exec (.shList h) s = execShList h s := rfl
theorem exec_stage (h : Thr) (s : State) : exec (.stage h) s = execStage h s := rfl
theorem exec_stageFill (h : Thr) (s : State) : exec (.stageFill h) s = execStageFill h s := rfl
theorem exec_stageCache (h : Thr) (s : State) : exec (.stageCache h) s = execStageCache h s := rfl
theorem exec_arm (h : Thr) (s : State) : exec (.arm h) s = execArm h s := rfl
theorem exec_armResume (h : Thr) (s : State) : exec (.armResume h) s = execArmResume h s := rfl
theorem exec_commitWait (h : Thr) (s : State) : exec (.commitWait h) s = execCommitWait h s := rfl
theorem exec_commitWaitWake (h : Thr) (s : State) : exec (.commitWaitWake h) s = execCommitWaitWake h s := rfl
theorem exec_abort (h : Thr) (s : State) : exec (.abort h) s = execAbort h s := rfl
theorem exec_abortWake (h : Thr) (s : State) : exec (.abortWake h) s = execAbortWake h s := rfl
theorem exec_lawSet (h : Thr) (s : State) : exec (.lawSet h) s = execLawSet h s := rfl
theorem exec_leBar (h : Thr) (s : State) : exec (.leBar h) s = execLeBar h s := rfl
theorem exec_leBarWake (h : Thr) (s : State) : exec (.leBarWake h) s = execLeBarWake h s := rfl
theorem exec_partMode (h : Thr) (s : State) : exec (.partMode h) s = execPartMode h s := rfl
theorem exec_fenceP (h : Thr) (s : State) : exec (.fenceP h) s = execFenceP h s := rfl
theorem exec_unfenceP (h : Thr) (s : State) : exec (.unfenceP h) s = execUnfenceP h s := rfl
theorem exec_sampFocus (h : Thr) (s : State) : exec (.sampFocus h) s = execSampFocus h s := rfl
theorem exec_sampFocusEn (h : Thr) (s : State) : exec (.sampFocusEn h) s = execSampFocusEn h s := rfl
theorem exec_budgetChk (h : Thr) (s : State) : exec (.budgetChk h) s = execBudgetChk h s := rfl
theorem exec_rotorLoad (h : Thr) (s : State) : exec (.rotorLoad h) s = execRotorLoad h s := rfl
theorem exec_rotorGo (h : Thr) (s : State) : exec (.rotorGo h) s = execRotorGo h s := rfl
theorem exec_rotorStop (h : Thr) (s : State) : exec (.rotorStop h) s = execRotorStop h s := rfl
theorem exec_rotorStopWake (h : Thr) (s : State) : exec (.rotorStopWake h) s = execRotorStopWake h s := rfl
theorem exec_rqDoorbell (n : Ring) (v : W32) (s : State) : exec (.rqDoorbell n v) s = execRqDoorbell n v s := rfl
theorem exec_cqDoorbell (n : Ring) (v : W32) (s : State) : exec (.cqDoorbell n v) s = execCqDoorbell n v s := rfl
theorem exec_ringFetchIssue (n : Ring) (s : State) : exec (.ringFetchIssue n) s = execRingFetchIssue n s := rfl
theorem exec_entryArrival (n : Ring) (k : Fin 4) (bs : List Byte) (s : State) : exec (.entryArrival n k bs) s = execEntryArrival n k bs s := rfl
theorem exec_ringFetchError (n : Ring) (x : FetchErr) (s : State) : exec (.ringFetchError n x) s = execRingFetchError n x s := rfl
theorem exec_meterRefill (s : State) : exec (.meterRefill) s = execMeterRefill s := rfl
theorem exec_admitStep (p : Part) (s : State) : exec (.admitStep p) s = execAdmitStep p s := rfl
theorem exec_budgetRenewal (p : Part) (s : State) : exec (.budgetRenewal p) s = execBudgetRenewal p s := rfl
theorem exec_xpPayloadFetch (p : Part) (s : State) : exec (.xpPayloadFetch p) s = execXpPayloadFetch p s := rfl
theorem exec_xpPayloadWritten (p : Part) (err : Option HostErr) (bs : List Byte) (s : State) : exec (.xpPayloadWritten p err bs) s = execXpPayloadWritten p err bs s := rfl
theorem exec_itrHoldoffExpiry (n : Ring) (s : State) : exec (.itrHoldoffExpiry n) s = execItrHoldoffExpiry n s := rfl
theorem exec_ringEnWrite (n : Ring) (v : W32) (s : State) : exec (.ringEnWrite n v) s = execRingEnWrite n v s := rfl
theorem exec_ringInit (n : Ring) (v : W32) (s : State) : exec (.ringInit n v) s = execRingInit n v s := rfl
theorem exec_ringDrain (n : Ring) (s : State) : exec (.ringDrain n) s = execRingDrain n s := rfl
theorem exec_ringDrainDone (n : Ring) (s : State) : exec (.ringDrainDone n) s = execRingDrainDone n s := rfl
theorem exec_ringCfgWrite (n : Ring) (w : Fin 5) (x : MasterWrite) (s : State) : exec (.ringCfgWrite n w x) s = execRingCfgWrite n w x s := rfl
theorem exec_portEnable (p : Part) (v : W32) (s : State) : exec (.portEnable p v) s = execPortEnable p v s := rfl
theorem exec_mprofWrite (n : Byte) (w : Fin 4) (v : W32) (s : State) : exec (.mprofWrite n w v) s = execMprofWrite n w v s := rfl
theorem exec_sprofWrite (n : Byte) (w : Fin 2) (v : W32) (s : State) : exec (.sprofWrite n w v) s = execSprofWrite n w v s := rfl
theorem exec_svcCfgWrite (v : Fin 512) (x : W32) (s : State) : exec (.svcCfgWrite v x) s = execSvcCfgWrite v x s := rfl
theorem exec_schedFrame (s : State) : exec (.schedFrame) s = execSchedFrame s := rfl
theorem exec_leaseRenewal (x : Pair) (m : Member) (s : State) : exec (.leaseRenewal x m) s = execLeaseRenewal x m s := rfl
theorem exec_leaseExpiry (x : Pair) (s : State) : exec (.leaseExpiry x) s = execLeaseExpiry x s := rfl
theorem exec_leaseMove (x : Pair) (s : State) : exec (.leaseMove x) s = execLeaseMove x s := rfl
theorem exec_handover (x : Pair) (s : State) : exec (.handover x) s = execHandover x s := rfl
theorem exec_memberRestart (x : Pair) (m : Member) (s : State) : exec (.memberRestart x m) s = execMemberRestart x m s := rfl
theorem exec_patchLoadDone (x : Pair) (m : Member) (code : Fin 7) (g : PatchImage) (s : State) : exec (.patchLoadDone x m code g) s = execPatchLoadDone x m code g s := rfl
theorem exec_selftestDone (x : Pair) (m : Member) (ok : Bool) (cls : Fin 16) (ua : BitVec 13) (s : State) : exec (.selftestDone x m ok cls ua) s = execSelftestDone x m ok cls ua s := rfl
theorem exec_resyncDone (x : Pair) (m : Member) (s : State) : exec (.resyncDone x m) s = execResyncDone x m s := rfl
theorem exec_digestCompare (x : Pair) (other : W64) (s : State) : exec (.digestCompare x other) s = execDigestCompare x other s := rfl
theorem exec_digestTimeout (x : Pair) (s : State) : exec (.digestTimeout x) s = execDigestTimeout x s := rfl
theorem exec_diagDone (x : Pair) (hf : Bool) (sf : Bool) (s : State) : exec (.diagDone x hf sf) s = execDiagDone x hf sf s := rfl
theorem exec_selftestSweepDone (x : Pair) (m : Member) (ok : Bool) (cls : Fin 16) (ua : BitVec 13) (s : State) : exec (.selftestSweepDone x m ok cls ua) s = execSelftestSweepDone x m ok cls ua s := rfl
theorem exec_machineCheck (x : Pair) (m : Member) (e : MicroEvt) (ua : BitVec 13) (s : State) : exec (.machineCheck x m e ua) s = execMachineCheck x m e ua s := rfl
theorem exec_tbIncWrite (b : Fin 4) (x : MasterWrite) (s : State) : exec (.tbIncWrite b x) s = execTbIncWrite b x s := rfl
theorem exec_tbIncApply (b : Fin 4) (s : State) : exec (.tbIncApply b) s = execTbIncApply b s := rfl
theorem exec_step (b : Fin 4) (s : State) : exec (.step b) s = execStep b s := rfl
theorem exec_stepOff (b : Fin 4) (s : State) : exec (.stepOff b) s = execStepOff b s := rfl
theorem exec_tbStepApply (b : Fin 4) (s : State) : exec (.tbStepApply b) s = execTbStepApply b s := rfl
theorem exec_amort (b : Fin 4) (s : State) : exec (.amort b) s = execAmort b s := rfl
theorem exec_amortStartApply (b : Fin 4) (s : State) : exec (.amortStartApply b) s = execAmortStartApply b s := rfl
theorem exec_amortDone (b : Fin 4) (s : State) : exec (.amortDone b) s = execAmortDone b s := rfl
theorem exec_amortStop (b : Fin 4) (s : State) : exec (.amortStop b) s = execAmortStop b s := rfl
theorem exec_amortStopApply (b : Fin 4) (s : State) : exec (.amortStopApply b) s = execAmortStopApply b s := rfl
theorem exec_replicaRealign (t : Tile) (x : MarkerTrip) (s : State) : exec (.replicaRealign t x) s = execReplicaRealign t x s := rfl
theorem exec_tpoLoad (n : Fin 8) (s : State) : exec (.tpoLoad n) s = execTpoLoad n s := rfl
theorem exec_tpoEdge (n : Fin 8) (s : State) : exec (.tpoEdge n) s = execTpoEdge n s := rfl
theorem exec_tciEdge (n : Fin 8) (falling : Bool) (e : PinEdge) (s : State) : exec (.tciEdge n falling e) s = execTciEdge n falling e s := rfl
theorem exec_tciTsRead (n : Fin 8) (m : Fin 8) (wide : Bool) (s : State) : exec (.tciTsRead n m wide) s = execTciTsRead n m wide s := rfl
theorem exec_tciClr (n : Fin 8) (s : State) : exec (.tciClr n) s = execTciClr n s := rfl
theorem exec_syncInEdge (rising : Bool) (e : PinEdge) (s : State) : exec (.syncInEdge rising e) s = execSyncInEdge rising e s := rfl
theorem exec_spCfgWrite (p : Fin 2) (v : W32) (s : State) : exec (.spCfgWrite p v) s = execSpCfgWrite p v s := rfl
theorem exec_spLinkLoss (p : Fin 2) (s : State) : exec (.spLinkLoss p) s = execSpLinkLoss p s := rfl
theorem exec_spFrameRx (p : Fin 2) (bs : List Byte) (fcs : Bool) (k : Fin 5) (s : State) : exec (.spFrameRx p bs fcs k) s = execSpFrameRx p bs fcs k s := rfl
theorem exec_spFrameTx (p : Fin 2) (k : Fin 5) (s : State) : exec (.spFrameTx p k) s = execSpFrameTx p k s := rfl
theorem exec_spTxrDoorbell (p : Fin 2) (v : W32) (fr : List (List Byte × List Byte)) (s : State) : exec (.spTxrDoorbell p v fr) s = execSpTxrDoorbell p v fr s := rfl
theorem exec_spRxrDoorbell (p : Fin 2) (v : W32) (bufs : List (W64 × BitVec 14)) (s : State) : exec (.spRxrDoorbell p v bufs) s = execSpRxrDoorbell p v bufs s := rfl
theorem exec_spFrInit (p : Fin 2) (v : W32) (s : State) : exec (.spFrInit p v) s = execSpFrInit p v s := rfl
theorem exec_spTsqRead (p : Fin 2) (m : Fin 8) (wide : Bool) (s : State) : exec (.spTsqRead p m wide) s = execSpTsqRead p m wide s := rfl
theorem exec_spTcEnable (en : Bool) (s : State) : exec (.spTcEnable en) s = execSpTcEnable en s := rfl
theorem exec_forwardReady (p : Fin 2) (s : State) : exec (.forwardReady p) s = execForwardReady p s := rfl
theorem exec_pcieLinkDown (s : State) : exec (.pcieLinkDown) s = execPcieLinkDown s := rfl
theorem exec_pcieConfigWrite (f : Fn) (x : CfgItem) (s : State) : exec (.pcieConfigWrite f x) s = execPcieConfigWrite f x s := rfl
theorem exec_pcieRequest (f : Fn) (r : PcieReq) (s : State) : exec (.pcieRequest f r) s = execPcieRequest f r s := rfl
theorem exec_vfDoorbellAccess (v : Fn) (k : Fin 1024) (w : Fin 8) (wr : Bool) (x : W32) (s : State) : exec (.vfDoorbellAccess v k w wr x) s = execVfDoorbellAccess v k w wr x s := rfl
theorem exec_vfFlr (v : Fn) (s : State) : exec (.vfFlr v) s = execVfFlr v s := rfl
theorem exec_vfFlrDone (v : Fn) (s : State) : exec (.vfFlrDone v) s = execVfFlrDone v s := rfl
theorem exec_vfRingWrite (v : Fn) (w : W32) (s : State) : exec (.vfRingWrite v w) s = execVfRingWrite v w s := rfl
theorem exec_vfVecWrite (v : Fn) (w : W32) (s : State) : exec (.vfVecWrite v w) s = execVfVecWrite v w s := rfl
theorem exec_msixSend (f : Fn) (v : BitVec 11) (s : State) : exec (.msixSend f v) s = execMsixSend f v s := rfl
theorem exec_msixUnmask (f : Fn) (v : BitVec 11) (s : State) : exec (.msixUnmask f v) s = execMsixUnmask f v s := rfl
theorem exec_vfMboxSend (v : Fn) (s : State) : exec (.vfMboxSend v) s = execVfMboxSend v s := rfl
theorem exec_pfMboxSend (v : Fn) (s : State) : exec (.pfMboxSend v) s = execPfMboxSend v s := rfl
theorem exec_latStarvePromote (t : Fin 8) (heads : List (Fin 8)) (s : State) : exec (.latStarvePromote t heads) s = execLatStarvePromote t heads s := rfl
theorem exec_latTimeoutExpiry (m : Fin 8) (t : Fin 8) (wr : Bool) (x : LatWait) (s : State) : exec (.latTimeoutExpiry m t wr x) s = execLatTimeoutExpiry m t wr x s := rfl
theorem exec_latDecodeError (m : Fin 8) (t : Fin 8) (wr : Bool) (x : LatAddr) (s : State) : exec (.latDecodeError m t wr x) s = execLatDecodeError m t wr x s := rfl
theorem exec_masterReset (m : Fin 8) (s : State) : exec (.masterReset m) s = execMasterReset m s := rfl
theorem exec_retireDone (m : Fin 8) (s : State) : exec (.retireDone m) s = execRetireDone m s := rfl
theorem exec_dmaStart (c : Fin 16) (s : State) : exec (.dmaStart c) s = execDmaStart c s := rfl
theorem exec_dmaChainStart (c : Fin 16) (s : State) : exec (.dmaChainStart c) s = execDmaChainStart c s := rfl
theorem exec_dmaChainKick (c : Fin 16) (s : State) : exec (.dmaChainKick c) s = execDmaChainKick c s := rfl
theorem exec_dmaAbort (c : Fin 16) (n : BitVec 32) (host : List Byte) (s : State) : exec (.dmaAbort c n host) s = execDmaAbort c n host s := rfl
theorem exec_dmaClear (c : Fin 16) (s : State) : exec (.dmaClear c) s = execDmaClear c s := rfl
theorem exec_dmaFetchDone (c : Fin 16) (host : List Byte) (s : State) : exec (.dmaFetchDone c host) s = execDmaFetchDone c host s := rfl
theorem exec_dmaDescDone (c : Fin 16) (host : List Byte) (s : State) : exec (.dmaDescDone c host) s = execDmaDescDone c host s := rfl
theorem exec_dmaError (c : Fin 16) (e : DmaErr) (n : BitVec 32) (host : List Byte) (s : State) : exec (.dmaError c e n host) s = execDmaError c e n host s := rfl
theorem exec_chordOccurrence (s : State) : exec (.chordOccurrence) s = execChordOccurrence s := rfl
theorem exec_evtRaise (c : Fin 64) (s : State) : exec (.evtRaise c) s = execEvtRaise c s := rfl
theorem exec_evinEdge (k : Fin 4) (level : Bool) (s : State) : exec (.evinEdge k level) s = execEvinEdge k level s := rfl
theorem exec_evoutPulseEnd (k : Fin 4) (s : State) : exec (.evoutPulseEnd k) s = execEvoutPulseEnd k s := rfl
theorem exec_evtChWrite (c : Fin 64) (v : W32) (s : State) : exec (.evtChWrite c v) s = execEvtChWrite c v s := rfl
theorem exec_faultRaise (n : Fin 64) (info : W32) (s : State) : exec (.faultRaise n info) s = execFaultRaise n info s := rfl
theorem exec_fltStatClear (x : MasterWrite) (s : State) : exec (.fltStatClear x) s = execFltStatClear x s := rfl
theorem exec_fltFirstClear (s : State) : exec (.fltFirstClear) s = execFltFirstClear s := rfl
theorem exec_fltSoft (mask : BitVec 4) (s : State) : exec (.fltSoft mask) s = execFltSoft mask s := rfl
theorem exec_ceWindowEnd (store : Fin 9) (n : BitVec 32) (s : State) : exec (.ceWindowEnd store n) s = execCeWindowEnd store n s := rfl
theorem exec_nmiResponse (s : State) : exec (.nmiResponse) s = execNmiResponse s := rfl
theorem exec_fltFence (region : Fin 8) (idx : Fin 64) (s : State) : exec (.fltFence region idx) s = execFltFence region idx s := rfl
theorem exec_fenceTakeEffect (s : State) : exec (.fenceTakeEffect) s = execFenceTakeEffect s := rfl
theorem exec_fltUnfence (region : Fin 8) (idx : Fin 64) (s : State) : exec (.fltUnfence region idx) s = execFltUnfence region idx s := rfl
theorem exec_resumeDone (region : Fin 8) (idx : Fin 64) (s : State) : exec (.resumeDone region idx) s = execResumeDone region idx s := rfl
theorem exec_resumeStepTimeout (region : Fin 8) (idx : Fin 64) (s : State) : exec (.resumeStepTimeout region idx) s = execResumeStepTimeout region idx s := rfl
theorem exec_freezeRequest (src : Fin 3) (s : State) : exec (.freezeRequest src) s = execFreezeRequest src s := rfl
theorem exec_freezePinRise (s : State) : exec (.freezePinRise) s = execFreezePinRise s := rfl
theorem exec_thaw (s : State) : exec (.thaw) s = execThaw s := rfl
theorem exec_pwrReqRise (ms : BitVec 32) (s : State) : exec (.pwrReqRise ms) s = execPwrReqRise ms s := rfl
theorem exec_railPowerGood (r : Fin 10) (v : BitVec 16) (k : BitVec 16) (s : State) : exec (.railPowerGood r v k) s = execRailPowerGood r v k s := rfl
theorem exec_pwrupStepTimeout (s : State) : exec (.pwrupStepTimeout) s = execPwrupStepTimeout s := rfl
theorem exec_pwrReqFall (s : State) : exec (.pwrReqFall) s = execPwrReqFall s := rfl
theorem exec_vstbyLow (s : State) : exec (.vstbyLow) s = execVstbyLow s := rfl
theorem exec_vstbyBrownout (s : State) : exec (.vstbyBrownout) s = execVstbyBrownout s := rfl
theorem exec_powerDownDone (s : State) : exec (.powerDownDone) s = execPowerDownDone s := rfl
theorem exec_railFault (r : Fin 9) (kind : Fin 3) (v : BitVec 16) (k : BitVec 16) (s : State) : exec (.railFault r kind v k) s = execRailFault r kind v k s := rfl
theorem exec_railRestart (n : Fin 4) (s : State) : exec (.railRestart n) s = execRailRestart n s := rfl
theorem exec_dpcVset0Write (v : BitVec 16) (s : State) : exec (.dpcVset0Write v) s = execDpcVset0Write v s := rfl
theorem exec_avsUpdate (k : Fin 21) (s : State) : exec (.avsUpdate k) s = execAvsUpdate k s := rfl
theorem exec_vhtrDemandReport (t : Tile) (loads : List (Chan × BitVec 16)) (v : BitVec 16) (itot : BitVec 16) (ph : BitVec 16) (s : State) : exec (.vhtrDemandReport t loads v itot ph) s = execVhtrDemandReport t loads v itot ph s := rfl
theorem exec_capExceedTimeout (itot : BitVec 16) (ph : BitVec 16) (s : State) : exec (.capExceedTimeout itot ph) s = execCapExceedTimeout itot ph s := rfl
theorem exec_bootStepDone (ok : Bool) (s : State) : exec (.bootStepDone ok) s = execBootStepDone ok s := rfl
theorem exec_park (slot : Fin 4) (s : State) : exec (.park slot) s = execPark slot s := rfl
theorem exec_resume (slot : Fin 4) (s : State) : exec (.resume slot) s = execResume slot s := rfl
theorem exec_safe (slot : Fin 4) (s : State) : exec (.safe slot) s = execSafe slot s := rfl
theorem exec_shutdown (slot : Fin 4) (s : State) : exec (.shutdown slot) s = execShutdown slot s := rfl
theorem exec_testEnter (slot : Fin 4) (s : State) : exec (.testEnter slot) s = execTestEnter slot s := rfl
theorem exec_carafeWrite (slot : Fin 4) (data : List W32) (retries : BitVec 16) (bad : Option Chan) (s : State) : exec (.carafeWrite slot data retries bad) s = execCarafeWrite slot data retries bad s := rfl
theorem exec_patchArbCommit (slot : Fin 4) (s : State) : exec (.patchArbCommit slot) s = execPatchArbCommit slot s := rfl
theorem exec_logRead (slot : Fin 4) (s : State) : exec (.logRead slot) s = execLogRead slot s := rfl
theorem exec_flashRead (slot : Fin 4) (s : State) : exec (.flashRead slot) s = execFlashRead slot s := rfl
theorem exec_flashWrite (slot : Fin 4) (data : List Byte) (got : List Byte) (s : State) : exec (.flashWrite slot data got) s = execFlashWrite slot data got s := rfl
theorem exec_mcmdComplete (slot : Fin 4) (s : State) : exec (.mcmdComplete slot) s = execMcmdComplete slot s := rfl
theorem exec_chipReset (s : State) : exec (.chipReset) s = execChipReset s := rfl
theorem exec_chipRst (s : State) : exec (.chipRst) s = execChipRst s := rfl
theorem exec_pmodeRequest (p : Part) (code : Fin 8) (s : State) : exec (.pmodeRequest p code) s = execPmodeRequest p code s := rfl
theorem exec_tdConversion (t : Tile) (vlo : BitVec 32) (vhi : BitVec 32) (d21 : BitVec 32) (d32 : BitVec 32) (s : State) : exec (.tdConversion t vlo vhi d21 d32) s = execTdConversion t vlo vhi d21 d32 s := rfl
theorem exec_tdCheck (s : State) : exec (.tdCheck) s = execTdCheck s := rfl
theorem exec_isRead (k : Fin 8) (v : BitVec 16) (s : State) : exec (.isRead k v) s = execIsRead k v s := rfl
theorem exec_refCompensation (t : Tile) (v : BitVec 16) (s : State) : exec (.refCompensation t v) s = execRefCompensation t v s := rfl
theorem exec_boscCorrection (err : BitVec 16) (valid : Bool) (s : State) : exec (.boscCorrection err valid) s = execBoscCorrection err valid s := rfl
theorem exec_trimTile (t : Tile) (x : TrimOp) (s : State) : exec (.trimTile t x) s = execTrimTile t x s := rfl
theorem exec_trimAo (p : Part) (x : TrimOp) (s : State) : exec (.trimAo p x) s = execTrimAo p x s := rfl
theorem exec_trimMi (p : Part) (x : TrimOp) (s : State) : exec (.trimMi p x) s = execTrimMi p x s := rfl
theorem exec_calCmdDone (s : State) : exec (.calCmdDone) s = execCalCmdDone s := rfl
theorem exec_trimWindowAccess (wr : Bool) (v : W32) (s : State) : exec (.trimWindowAccess wr v) s = execTrimWindowAccess wr v s := rfl
theorem exec_laneTestEnable (l : Fin 256) (v : W32) (s : State) : exec (.laneTestEnable l v) s = execLaneTestEnable l v s := rfl
theorem exec_laneTestDisable (l : Fin 256) (v : W32) (s : State) : exec (.laneTestDisable l v) s = execLaneTestDisable l v s := rfl
theorem exec_pcieLaneTestTimeout (s : State) : exec (.pcieLaneTestTimeout) s = execPcieLaneTestTimeout s := rfl
theorem exec_checkerLock (l : Fin 256) (rx : List Bool) (line : List Bool) (s : State) : exec (.checkerLock l rx line) s = execCheckerLock l rx line s := rfl
theorem exec_checkerLoss (l : Fin 256) (rx : List Bool) (line : List Bool) (s : State) : exec (.checkerLoss l rx line) s = execCheckerLoss l rx line s := rfl
theorem exec_inj (l : Fin 256) (s : State) : exec (.inj l) s = execInj l s := rfl
theorem exec_laneClr (l : Fin 256) (s : State) : exec (.laneClr l) s = execLaneClr l s := rfl
theorem exec_stimStart (t : Tile) (v : W32) (s : State) : exec (.stimStart t v) s = execStimStart t v s := rfl
theorem exec_stimEdge (t : Tile) (s : State) : exec (.stimEdge t) s = execStimEdge t s := rfl
theorem exec_stimEnd (t : Tile) (s : State) : exec (.stimEnd t) s = execStimEnd t s := rfl
theorem exec_stimAbort (t : Tile) (s : State) : exec (.stimAbort t) s = execStimAbort t s := rfl
theorem exec_osStart (t : Tile) (v : W32) (s : State) : exec (.osStart t v) s = execOsStart t v s := rfl
theorem exec_osDone (t : Tile) (x : OsRun) (s : State) : exec (.osDone t x) s = execOsDone t x s := rfl
theorem exec_osAbort (t : Tile) (s : State) : exec (.osAbort t) s = execOsAbort t s := rfl
theorem exec_testExitStop (s : State) : exec (.testExitStop) s = execTestExitStop s := rfl
theorem exec_tapUpdateIr (op : Byte) (s : State) : exec (.tapUpdateIr op) s = execTapUpdateIr op s := rfl
theorem exec_unlock (x : UnlockOp) (s : State) : exec (.unlock x) s = execUnlock x s := rfl
theorem exec_unlockVerifyDone (ok : Bool) (customer : Bool) (s : State) : exec (.unlockVerifyDone ok customer) s = execUnlockVerifyDone ok customer s := rfl
theorem exec_relock (s : State) : exec (.relock) s = execRelock s := rfl
theorem exec_ijtagAccess (x : JtagOp) (s : State) : exec (.ijtagAccess x) s = execIjtagAccess x s := rfl
theorem exec_spBlockLock (p : Fin 2) (s : State) : exec (.spBlockLock p) s = execSpBlockLock p s := rfl
theorem exec_pcieLinkTrained (speed : Fin 8) (width : Fin 16) (s : State) : exec (.pcieLinkTrained speed width) s = execPcieLinkTrained speed width s := rfl
theorem exec_vstbyPowerUp (s : State) : exec (.vstbyPowerUp) s = execVstbyPowerUp s := rfl
theorem exec_mpWatchdogExpiry (k : Fin 4) (s : State) : exec (.mpWatchdogExpiry k) s = execMpWatchdogExpiry k s := rfl

end Sys2Proof.Machine
end

