-- ==== Sys2Proof/Laws/Memory.lean ====
section
/-! SUPPORT. The memories: a byte written is read back, other bytes stand, and every operation keeps the canonical form. -/

namespace Sys2Proof.Machine

theorem Memory.rd_ins_same (m : List Host.Cell) (a : Nat) (b : Byte) : Memory.rd (Memory.ins m a b) a = b := by
  induction m with
  | nil => simp [Memory.ins, Memory.rd]
  | cons e t ih =>
    obtain ⟨k, v⟩ := e
    simp only [Memory.ins]
    split
    · simp [Memory.rd]
    · split
      · simp [Memory.rd]
      · rename_i h1 h2
        simp only [Memory.rd]
        rw [if_neg (fun h => h2 h.symm), ih]

theorem Memory.rd_ins_other (m : List Host.Cell) {a c : Nat} (b : Byte) (h : c ≠ a) : Memory.rd (Memory.ins m a b) c = Memory.rd m c := by
  induction m with
  | nil => simp [Memory.ins, Memory.rd, Ne.symm h]
  | cons e t ih =>
    obtain ⟨k, v⟩ := e
    simp only [Memory.ins]
    split
    · simp [Memory.rd, Ne.symm h]
    · split
      · rename_i h1 h2
        subst h2
        simp [Memory.rd, Ne.symm h]
      · simp only [Memory.rd, ih]

theorem Memory.rd_del_same (m : List Host.Cell) (a : Nat) : Memory.rd (m.filter (fun c => c.1 ≠ a)) a = 0 := by
  induction m with
  | nil => rfl
  | cons e t ih =>
    by_cases h : e.1 = a
    · rw [List.filter_cons_of_neg (by simp [h]), ih]
    · rw [List.filter_cons_of_pos (by simp [h])]
      simp only [Memory.rd]
      rw [if_neg h, ih]

theorem Memory.rd_del_other (m : List Host.Cell) {a c : Nat} (h : c ≠ a) : Memory.rd (m.filter (fun x => x.1 ≠ a)) c = Memory.rd m c := by
  induction m with
  | nil => rfl
  | cons e t ih =>
    by_cases he : e.1 = a
    · rw [List.filter_cons_of_neg (by simp [he]), ih]
      simp only [Memory.rd]
      rw [if_neg (fun hc => h (hc.symm.trans he))]
    · rw [List.filter_cons_of_pos (by simp [he])]
      simp only [Memory.rd, ih]

/-- Cells kept by their addresses. -/
theorem Memory.rd_filter (m : List Host.Cell) (q : Nat → Bool) (k : Nat) :
    Memory.rd (m.filter (fun c => q c.1)) k = if q k then Memory.rd m k else 0 := by
  induction m with
  | nil => simp [Memory.rd]
  | cons e t ih =>
    by_cases h : q e.1
    · rw [List.filter_cons_of_pos (by simpa using h)]
      simp only [Memory.rd]
      by_cases c : e.1 = k
      · simp [c, ← c ▸ h]
      · simp only [if_neg c, ih]
    · rw [List.filter_cons_of_neg (by simpa using h), ih]
      simp only [Memory.rd]
      by_cases c : e.1 = k
      · rw [c] at h; simp [h]
      · simp [c]

theorem Memory.rd_wr_same (m : List Host.Cell) (a : Nat) (b : Byte) : Memory.rd (Memory.wr m a b) a = b := by
  unfold Memory.wr
  split
  · rename_i h
    rw [Memory.rd_del_same, h]
  · exact Memory.rd_ins_same m a b

theorem Memory.rd_wr_other (m : List Host.Cell) {a c : Nat} (b : Byte) (h : c ≠ a) : Memory.rd (Memory.wr m a b) c = Memory.rd m c := by
  unfold Memory.wr
  split
  · exact Memory.rd_del_other m h
  · exact Memory.rd_ins_other m b h

/-- Bytes outside those written stand. -/
theorem Memory.rd_wrBytes_other (bs : List Byte) (m : List Host.Cell) (a c : Nat) (h : c < a ∨ a + bs.length ≤ c) :
    Memory.rd (Memory.wrBytes m a bs) c = Memory.rd m c := by
  induction bs generalizing m a with
  | nil => rfl
  | cons b t ih =>
    simp only [List.length_cons] at h
    rw [Memory.wrBytes, ih _ _ (by omega), Memory.rd_wr_other m b (by omega)]

/-- The bytes written are read back. -/
theorem Memory.rd_wrBytes_same (bs : List Byte) (m : List Host.Cell) (a i : Nat) (h : i < bs.length) :
    Memory.rd (Memory.wrBytes m a bs) (a + i) = bs[i] := by
  induction bs generalizing m a i with
  | nil => simp at h
  | cons b t ih =>
    rw [Memory.wrBytes]
    cases i with
    | zero => rw [Memory.rd_wrBytes_other _ _ _ _ (by omega), Nat.add_zero, Memory.rd_wr_same]; rfl
    | succ i =>
      rw [show a + (i + 1) = a + 1 + i by omega, ih _ _ _ (by simpa using h)]
      rfl

theorem Memory.ins_keys (m : List Host.Cell) (a : Nat) (b : Byte) : ∀ c ∈ Memory.ins m a b, c = (a, b) ∨ c ∈ m := by
  induction m with
  | nil => intro c hc; simpa [Memory.ins] using hc
  | cons e t ih =>
    obtain ⟨k, v⟩ := e
    intro c hc
    simp only [Memory.ins] at hc
    split at hc
    · simpa using hc
    · split at hc
      · rcases List.mem_cons.1 hc with h | h
        · exact .inl h
        · exact .inr (List.mem_cons_of_mem _ h)
      · rcases List.mem_cons.1 hc with h | h
        · exact .inr (h ▸ List.mem_cons_self ..)
        · rcases ih c h with h | h
          · exact .inl h
          · exact .inr (List.mem_cons_of_mem _ h)

theorem Memory.wf_ins (m : List Host.Cell) (a : Nat) (b : Byte) (hb : b ≠ 0) (h : Memory.wf m) : Memory.wf (Memory.ins m a b) := by
  obtain ⟨hp, hz⟩ := h
  refine ⟨?_, fun c hc => ?_⟩
  · clear hz
    induction m with
    | nil => simp [Memory.ins]
    | cons e t ih =>
      obtain ⟨k, v⟩ := e
      rw [List.pairwise_cons] at hp
      simp only [Memory.ins]
      split
      · rename_i hlt
        rw [List.pairwise_cons, List.pairwise_cons]
        refine ⟨fun c hc => ?_, hp⟩
        rcases List.mem_cons.1 hc with h | h
        · rw [h]; exact hlt
        · exact Nat.lt_trans hlt (hp.1 c h)
      · split
        · rename_i h1 h2
          subst h2
          rw [List.pairwise_cons]
          exact hp
        · rename_i h1 h2
          rw [List.pairwise_cons]
          refine ⟨fun c hc => ?_, ih hp.2⟩
          rcases Memory.ins_keys t a b c hc with h | h
          · rw [h]; show k < a; omega
          · exact hp.1 c h
  · rcases Memory.ins_keys m a b c hc with h | h
    · rw [h]; exact hb
    · exact hz c h

theorem Memory.wf_wr (m : List Host.Cell) (a : Nat) (b : Byte) (h : Memory.wf m) : Memory.wf (Memory.wr m a b) := by
  unfold Memory.wr
  split
  · exact ⟨h.1.filter _, fun c hc => h.2 c ((List.mem_filter.1 hc).1)⟩
  · rename_i hb
    exact Memory.wf_ins m a b hb h

theorem Memory.wf_wrBytes (bs : List Byte) (m : List Host.Cell) (a : Nat) (h : Memory.wf m) : Memory.wf (Memory.wrBytes m a bs) := by
  induction bs generalizing m a with
  | nil => exact h
  | cons b t ih => exact ih _ _ (Memory.wf_wr m a b h)

@[simp] theorem wrN_mem (s : State) (a n v : Nat) : (s.wrN a n v).mem = Memory.wrBytes s.mem a (leBytes n v) := rfl
@[simp] theorem wrBs_mem (s : State) (a : Nat) (bs : List Byte) : (s.wrBs a bs).mem = Memory.wrBytes s.mem a bs := rfl

theorem reset_mem_wf : Memory.wf State.reset.mem := by decide

end Sys2Proof.Machine
end

