-- ==== Sys2Proof/Laws/Registers.lean ====
section
/-! SUPPORT. Sparse tables and registers: what is read after a write, and what a write leaves alone. -/

namespace Sys2Proof.Machine

@[simp] theorem Map.look_ins_same {α : Type} (m : Map α) (k : Nat) (v d : α) : Map.look (Map.ins m k v) k d = v := by
  induction m with
  | nil => simp [Map.ins, Map.look]
  | cons e t ih =>
    obtain ⟨k', v'⟩ := e
    simp only [Map.ins]
    split
    · simp [Map.look]
    · split
      · simp [Map.look]
      · rename_i h1 h2
        simp only [Map.look]
        rw [if_neg (fun h => h2 h.symm), ih]

theorem Map.look_ins_other {α : Type} (m : Map α) {k j : Nat} (v d : α) (h : j ≠ k) : Map.look (Map.ins m k v) j d = Map.look m j d := by
  induction m with
  | nil => simp [Map.ins, Map.look, Ne.symm h]
  | cons e t ih =>
    obtain ⟨k', v'⟩ := e
    simp only [Map.ins]
    split
    · simp [Map.look, Ne.symm h]
    · split
      · rename_i h1 h2
        subst h2
        simp [Map.look, Ne.symm h]
      · simp only [Map.look, ih]

/-- An instance number within its 12 bits and an index within its 14 bits keep the keys of registers apart. -/
theorem Reg.key_inj {r r' : Reg} {i j i' j' : Nat} (hi : i < 16384) (hi' : i' < 16384) (hj : j < 4096) (hj' : j' < 4096)
    (h : r.key i j = r'.key i' j') : r.id = r'.id ∧ i = i' ∧ j = j' := by
  unfold Reg.key at h
  omega

/-- Instances of different registers have different keys. -/
theorem key_ne (r r' : Reg) {i i' : Nat} (hi : i < 16384) (hi' : i' < 16384) (h : r.id ≠ r'.id) : r.key i 0 ≠ r'.key i' 0 := by
  unfold Reg.key
  omega

@[simp] theorem word_hwWord_same (s : State) (r : Reg) (w mask : RWord) (i j : Nat) : (s.hwWord r w mask i j).word r i j = w := by
  simp [State.word, State.hwWord]

theorem word_hwWord_other (s : State) (r r' : Reg) (w mask : RWord) (i j i' j' : Nat) (h : r'.key i' j' ≠ r.key i j) :
    (s.hwWord r w mask i j).word r' i' j' = s.word r' i' j' := by
  simp [State.word, State.hwWord, Map.look_ins_other _ _ _ h]

@[simp] theorem word_setWord_same (s : State) (r : Reg) (w : RWord) (i j : Nat) : (s.setWord r w i j).word r i j = w := word_hwWord_same s r w _ i j

theorem word_setWord_other (s : State) (r r' : Reg) (w : RWord) (i j i' j' : Nat) (h : r'.key i' j' ≠ r.key i j) :
    (s.setWord r w i j).word r' i' j' = s.word r' i' j' := word_hwWord_other s r r' w _ i j i' j' h

theorem getField_bit (x : RWord) (lo w i : Nat) : (getField x lo w).testBit i = (decide (i < w) && x.getLsbD (lo + i)) := by
  simp [getField, Nat.testBit_mod_two_pow, BitVec.getLsbD, Nat.testBit_shiftRight]

theorem fieldMask_bit (lo w i : Nat) : (fieldMask lo w).getLsbD i = (decide (i < 96) && (decide (lo ≤ i) && decide (i < lo + w))) := by
  simp only [fieldMask, BitVec.getLsbD_shiftLeft, BitVec.getLsbD_ofNat, Nat.testBit_two_pow_sub_one]
  by_cases h1 : i < 96 <;> by_cases h2 : i < lo <;> by_cases h3 : i < lo + w <;> simp [h1, h2, h3] <;> grind

theorem setField_bit (x : RWord) (lo w v i : Nat) :
    (setField x lo w v).getLsbD i = if lo ≤ i ∧ i < lo + w then (decide (i < 96) && v.testBit (i - lo)) else x.getLsbD i := by
  simp only [setField, BitVec.getLsbD_or, BitVec.getLsbD_and, BitVec.getLsbD_not, fieldMask_bit, BitVec.getLsbD_shiftLeft, BitVec.getLsbD_ofNat, Nat.testBit_mod_two_pow]
  by_cases h1 : i < 96
  · by_cases h2 : lo ≤ i <;> by_cases h3 : i < lo + w <;> simp [h1, h2, h3] <;> grind
  · have : x.getLsbD i = false := BitVec.getLsbD_of_ge x i (by omega)
    simp [h1, this]

theorem getField_setField_same (x : RWord) (lo w v : Nat) (h : lo + w ≤ 96) : getField (setField x lo w v) lo w = v % 2 ^ w := by
  apply Nat.eq_of_testBit_eq
  intro i
  rw [getField_bit, setField_bit, Nat.testBit_mod_two_pow]
  by_cases hi : i < w
  · rw [if_pos ⟨by omega, by omega⟩]
    simp [hi, (by omega : lo + i < 96)]
  · simp [hi]

theorem getField_setField_other (x : RWord) (lo w lo' w' v : Nat) (h : lo' + w' ≤ lo ∨ lo + w ≤ lo') :
    getField (setField x lo w v) lo' w' = getField x lo' w' := by
  apply Nat.eq_of_testBit_eq
  intro i
  rw [getField_bit, getField_bit, setField_bit]
  by_cases hi : i < w'
  · rw [if_neg (by omega)]
  · simp [hi]

theorem g_put_same (s : State) (f : Fld) (v i j : Nat) (h : f.lo + f.wd ≤ 96) : (s.put f v i j).g f i j = v % 2 ^ f.wd := by
  rw [State.g, State.put, word_hwWord_same, getField_setField_same _ _ _ _ h]

theorem word_put_other (s : State) (f : Fld) (v i j : Nat) (r : Reg) (a b : Nat) (h : r.key a b ≠ f.reg.key i j) : (s.put f v i j).word r a b = s.word r a b :=
  word_hwWord_other s f.reg r _ _ i j a b h

/-- A write of a field leaves the fields of every other register alone. -/
theorem g_put_reg (s : State) (f f' : Fld) (v i i' : Nat) (hi : i < 16384) (hi' : i' < 16384) (h : f'.reg.id ≠ f.reg.id) :
    (s.put f v i).g f' i' = s.g f' i' := by
  have k : f'.reg.key i' 0 ≠ f.reg.key i 0 := by unfold Reg.key; omega
  rw [State.g, State.put, word_hwWord_other _ _ _ _ _ _ _ _ _ k, State.g]

/-- A write of a field leaves every other field alone: of another register, of another instance, or of other bits. -/
theorem g_put_other (s : State) (f f' : Fld) (v i j i' j' : Nat)
    (h : f'.reg.key i' j' ≠ f.reg.key i j ∨ (f'.reg = f.reg ∧ i' = i ∧ j' = j ∧ (f'.lo + f'.wd ≤ f.lo ∨ f.lo + f.wd ≤ f'.lo))) :
    (s.put f v i j).g f' i' j' = s.g f' i' j' := by
  rcases h with h | ⟨h1, rfl, rfl, h2⟩
  · rw [State.g, State.put, word_hwWord_other _ _ _ _ _ _ _ _ _ h, State.g]
  · rw [State.g, State.put, h1, word_hwWord_same, State.g, h1, getField_setField_other _ _ _ _ _ _ h2]

/-! ### Software writes (R6) -/

@[simp] theorem word_swWord_same (s : State) (r : Reg) (w old : RWord) (i j : Nat) : (s.swWord r w old i j).word r i j = w := by
  simp [State.word, State.swWord]

theorem word_swWord_other (s : State) (r r' : Reg) (w old : RWord) (i j i' j' : Nat) (h : r'.key i' j' ≠ r.key i j) :
    (s.swWord r w old i j).word r' i' j' = s.word r' i' j' := by
  simp [State.word, State.swWord, Map.look_ins_other _ _ _ h]

theorem word_sput_other (s : State) (f : Fld) (v i j : Nat) (r : Reg) (a b : Nat) (h : r.key a b ≠ f.reg.key i j) : (s.sput f v i j).word r a b = s.word r a b :=
  word_swWord_other s f.reg r _ _ i j a b h

/-- A software write of a field that no hardware update of the cycle has reached takes the value written. -/
theorem g_sput_same (s : State) (f : Fld) (v i j : Nat) (h : f.lo + f.wd ≤ 96) (q : (s.hwOf f.reg i j).mask &&& fieldMask f.lo f.wd = 0) :
    (s.sput f v i j).g f i j = v % 2 ^ f.wd := by
  rw [State.g, State.sput]
  simp only [word_swWord_same, q, if_true]
  exact getField_setField_same _ _ _ _ h

/-- A software write of a field leaves the fields of every other register alone. -/
theorem g_sput_reg (s : State) (f f' : Fld) (v i i' : Nat) (hi : i < 16384) (hi' : i' < 16384) (h : f'.reg.id ≠ f.reg.id) :
    (s.sput f v i).g f' i' = s.g f' i' := by
  have k : f'.reg.key i' 0 ≠ f.reg.key i 0 := by unfold Reg.key; omega
  rw [State.g, word_sput_other _ _ _ _ _ _ _ _ k, State.g]

@[simp] theorem put_flt (s : State) (f : Fld) (v i j : Nat) : (s.put f v i j).flt = s.flt := rfl
@[simp] theorem sput_flt (s : State) (f : Fld) (v i j : Nat) : (s.sput f v i j).flt = s.flt := rfl
@[simp] theorem wideWritten_flt (s : State) (m : Nat) (r : Reg) (i j : Nat) : (s.wideWritten m r i j).flt = s.flt := rfl

/-! ### The entries of the blocks' own tables -/

@[simp] theorem tl_updTl_same (s : State) (t : Nat) (f : TileSt → TileSt) : (s.updTl t f).tl t = f (s.tl t) := by
  simp [State.tl, State.updTl, Map.upd]

@[simp] theorem aoSt_updAo_same (s : State) (a : Nat) (f : AoSt → AoSt) : (s.updAo a f).aoSt a = f (s.aoSt a) := by
  simp [State.aoSt, State.updAo, Map.upd]

@[simp] theorem tb_updTb_same (s : State) (b : Nat) (f : TbSt → TbSt) : (s.updTb b f).tb b = f (s.tb b) := by
  simp [State.tb, State.updTb, Map.upd]

theorem tb_updTb_other (s : State) {b c : Nat} (f : TbSt → TbSt) (h : c ≠ b) : (s.updTb b f).tb c = s.tb c :=
  Map.look_ins_other _ _ _ h

/-- Every base runs on alone. -/
theorem tb_runBases (s : State) (n b : Nat) (h : b < 4) : (s.runBases n).tb b = (s.tb b).run n := by
  have k : s.runBases n = (((s.updTb 0 (fun x => x.run n)).updTb 1 (fun x => x.run n)).updTb 2 (fun x => x.run n)).updTb 3 (fun x => x.run n) := rfl
  rw [k]
  match b, h with
  | 0, _ => rw [tb_updTb_other _ _ (by decide), tb_updTb_other _ _ (by decide), tb_updTb_other _ _ (by decide), tb_updTb_same]
  | 1, _ => rw [tb_updTb_other _ _ (by decide), tb_updTb_other _ _ (by decide), tb_updTb_same, tb_updTb_other _ _ (by decide)]
  | 2, _ => rw [tb_updTb_other _ _ (by decide), tb_updTb_same, tb_updTb_other _ _ (by decide), tb_updTb_other _ _ (by decide)]
  | 3, _ => rw [tb_updTb_same, tb_updTb_other _ _ (by decide), tb_updTb_other _ _ (by decide), tb_updTb_other _ _ (by decide)]

@[simp] theorem fn_updFn_same (s : State) (n : Nat) (f : FnCfg → FnCfg) : (s.updFn n f).fn n = f (s.fn n) := by
  simp [State.fn, State.updFn, Map.upd]

end Sys2Proof.Machine
end

