-- ==== Sys2Proof/Laws/State.lean ====
section
/-! SUPPORT. What each update of the state leaves alone, one field at a time. -/

namespace Sys2Proof.Machine

@[simp] theorem State.setWord_pending (s : State) (r : Reg) (w : RWord) (i j : Nat) : (s.setWord r w i j).pending = s.pending := rfl
@[simp] theorem State.setWord_cycle (s : State) (r : Reg) (w : RWord) (i j : Nat) : (s.setWord r w i j).cycle = s.cycle := rfl
@[simp] theorem State.setWord_clk (s : State) (r : Reg) (w : RWord) (i j : Nat) : (s.setWord r w i j).clk = s.clk := rfl
@[simp] theorem State.setWord_mem (s : State) (r : Reg) (w : RWord) (i j : Nat) : (s.setWord r w i j).mem = s.mem := rfl
@[simp] theorem State.setWord_ueWords (s : State) (r : Reg) (w : RWord) (i j : Nat) : (s.setWord r w i j).ueWords = s.ueWords := rfl
@[simp] theorem State.setWord_freeCtr (s : State) (r : Reg) (w : RWord) (i j : Nat) : (s.setWord r w i j).freeCtr = s.freeCtr := rfl
@[simp] theorem State.setWord_hostOut (s : State) (r : Reg) (w : RWord) (i j : Nat) : (s.setWord r w i j).hostOut = s.hostOut := rfl
@[simp] theorem State.setWord_readData (s : State) (r : Reg) (w : RWord) (i j : Nat) : (s.setWord r w i j).readData = s.readData := rfl
@[simp] theorem State.setWord_latches (s : State) (r : Reg) (w : RWord) (i j : Nat) : (s.setWord r w i j).latches = s.latches := rfl
@[simp] theorem State.setWord_af (s : State) (r : Reg) (w : RWord) (i j : Nat) : (s.setWord r w i j).af = s.af := rfl
@[simp] theorem State.setWord_mon (s : State) (r : Reg) (w : RWord) (i j : Nat) : (s.setWord r w i j).mon = s.mon := rfl
@[simp] theorem State.setWord_le (s : State) (r : Reg) (w : RWord) (i j : Nat) : (s.setWord r w i j).le = s.le := rfl
@[simp] theorem State.setWord_rtu (s : State) (r : Reg) (w : RWord) (i j : Nat) : (s.setWord r w i j).rtu = s.rtu := rfl
@[simp] theorem State.setWord_rot (s : State) (r : Reg) (w : RWord) (i j : Nat) : (s.setWord r w i j).rot = s.rot := rfl
@[simp] theorem State.setWord_seq (s : State) (r : Reg) (w : RWord) (i j : Nat) : (s.setWord r w i j).seq = s.seq := rfl
@[simp] theorem State.setWord_brs (s : State) (r : Reg) (w : RWord) (i j : Nat) : (s.setWord r w i j).brs = s.brs := rfl
@[simp] theorem State.setWord_twin (s : State) (r : Reg) (w : RWord) (i j : Nat) : (s.setWord r w i j).twin = s.twin := rfl
@[simp] theorem State.setWord_tm (s : State) (r : Reg) (w : RWord) (i j : Nat) : (s.setWord r w i j).tm = s.tm := rfl
@[simp] theorem State.setWord_pci (s : State) (r : Reg) (w : RWord) (i j : Nat) : (s.setWord r w i j).pci = s.pci := rfl
@[simp] theorem State.setWord_lat (s : State) (r : Reg) (w : RWord) (i j : Nat) : (s.setWord r w i j).lat = s.lat := rfl
@[simp] theorem State.setWord_dma (s : State) (r : Reg) (w : RWord) (i j : Nat) : (s.setWord r w i j).dma = s.dma := rfl
@[simp] theorem State.setWord_evt (s : State) (r : Reg) (w : RWord) (i j : Nat) : (s.setWord r w i j).evt = s.evt := rfl
@[simp] theorem State.setWord_flt (s : State) (r : Reg) (w : RWord) (i j : Nat) : (s.setWord r w i j).flt = s.flt := rfl
@[simp] theorem State.setWord_pwr (s : State) (r : Reg) (w : RWord) (i j : Nat) : (s.setWord r w i j).pwr = s.pwr := rfl
@[simp] theorem State.setWord_thm (s : State) (r : Reg) (w : RWord) (i j : Nat) : (s.setWord r w i j).thm = s.thm := rfl
@[simp] theorem State.setWord_cal (s : State) (r : Reg) (w : RWord) (i j : Nat) : (s.setWord r w i j).cal = s.cal := rfl
@[simp] theorem State.setWord_tst (s : State) (r : Reg) (w : RWord) (i j : Nat) : (s.setWord r w i j).tst = s.tst := rfl

@[simp] theorem State.put_pending (s : State) (f : Fld) (v i j : Nat) : (s.put f v i j).pending = s.pending := rfl
@[simp] theorem State.put_cycle (s : State) (f : Fld) (v i j : Nat) : (s.put f v i j).cycle = s.cycle := rfl
@[simp] theorem State.put_clk (s : State) (f : Fld) (v i j : Nat) : (s.put f v i j).clk = s.clk := rfl
@[simp] theorem State.put_mem (s : State) (f : Fld) (v i j : Nat) : (s.put f v i j).mem = s.mem := rfl
@[simp] theorem State.put_ueWords (s : State) (f : Fld) (v i j : Nat) : (s.put f v i j).ueWords = s.ueWords := rfl
@[simp] theorem State.put_freeCtr (s : State) (f : Fld) (v i j : Nat) : (s.put f v i j).freeCtr = s.freeCtr := rfl
@[simp] theorem State.put_hostOut (s : State) (f : Fld) (v i j : Nat) : (s.put f v i j).hostOut = s.hostOut := rfl
@[simp] theorem State.put_readData (s : State) (f : Fld) (v i j : Nat) : (s.put f v i j).readData = s.readData := rfl
@[simp] theorem State.put_latches (s : State) (f : Fld) (v i j : Nat) : (s.put f v i j).latches = s.latches := rfl
@[simp] theorem State.put_af (s : State) (f : Fld) (v i j : Nat) : (s.put f v i j).af = s.af := rfl
@[simp] theorem State.put_mon (s : State) (f : Fld) (v i j : Nat) : (s.put f v i j).mon = s.mon := rfl
@[simp] theorem State.put_le (s : State) (f : Fld) (v i j : Nat) : (s.put f v i j).le = s.le := rfl
@[simp] theorem State.put_rtu (s : State) (f : Fld) (v i j : Nat) : (s.put f v i j).rtu = s.rtu := rfl
@[simp] theorem State.put_rot (s : State) (f : Fld) (v i j : Nat) : (s.put f v i j).rot = s.rot := rfl
@[simp] theorem State.put_seq (s : State) (f : Fld) (v i j : Nat) : (s.put f v i j).seq = s.seq := rfl
@[simp] theorem State.put_brs (s : State) (f : Fld) (v i j : Nat) : (s.put f v i j).brs = s.brs := rfl
@[simp] theorem State.put_twin (s : State) (f : Fld) (v i j : Nat) : (s.put f v i j).twin = s.twin := rfl
@[simp] theorem State.put_tm (s : State) (f : Fld) (v i j : Nat) : (s.put f v i j).tm = s.tm := rfl
@[simp] theorem State.put_pci (s : State) (f : Fld) (v i j : Nat) : (s.put f v i j).pci = s.pci := rfl
@[simp] theorem State.put_lat (s : State) (f : Fld) (v i j : Nat) : (s.put f v i j).lat = s.lat := rfl
@[simp] theorem State.put_dma (s : State) (f : Fld) (v i j : Nat) : (s.put f v i j).dma = s.dma := rfl
@[simp] theorem State.put_evt (s : State) (f : Fld) (v i j : Nat) : (s.put f v i j).evt = s.evt := rfl
@[simp] theorem State.put_flt (s : State) (f : Fld) (v i j : Nat) : (s.put f v i j).flt = s.flt := rfl
@[simp] theorem State.put_pwr (s : State) (f : Fld) (v i j : Nat) : (s.put f v i j).pwr = s.pwr := rfl
@[simp] theorem State.put_thm (s : State) (f : Fld) (v i j : Nat) : (s.put f v i j).thm = s.thm := rfl
@[simp] theorem State.put_cal (s : State) (f : Fld) (v i j : Nat) : (s.put f v i j).cal = s.cal := rfl
@[simp] theorem State.put_tst (s : State) (f : Fld) (v i j : Nat) : (s.put f v i j).tst = s.tst := rfl

@[simp] theorem State.wrN_pending (s : State) (a n v : Nat) : (s.wrN a n v).pending = s.pending := rfl
@[simp] theorem State.wrN_cycle (s : State) (a n v : Nat) : (s.wrN a n v).cycle = s.cycle := rfl
@[simp] theorem State.wrN_clk (s : State) (a n v : Nat) : (s.wrN a n v).clk = s.clk := rfl
@[simp] theorem State.wrN_regs (s : State) (a n v : Nat) : (s.wrN a n v).regs = s.regs := rfl
@[simp] theorem State.wrN_hw (s : State) (a n v : Nat) : (s.wrN a n v).hw = s.hw := rfl
@[simp] theorem State.wrN_freeCtr (s : State) (a n v : Nat) : (s.wrN a n v).freeCtr = s.freeCtr := rfl
@[simp] theorem State.wrN_hostOut (s : State) (a n v : Nat) : (s.wrN a n v).hostOut = s.hostOut := rfl
@[simp] theorem State.wrN_readData (s : State) (a n v : Nat) : (s.wrN a n v).readData = s.readData := rfl
@[simp] theorem State.wrN_latches (s : State) (a n v : Nat) : (s.wrN a n v).latches = s.latches := rfl
@[simp] theorem State.wrN_af (s : State) (a n v : Nat) : (s.wrN a n v).af = s.af := rfl
@[simp] theorem State.wrN_mon (s : State) (a n v : Nat) : (s.wrN a n v).mon = s.mon := rfl
@[simp] theorem State.wrN_le (s : State) (a n v : Nat) : (s.wrN a n v).le = s.le := rfl
@[simp] theorem State.wrN_rtu (s : State) (a n v : Nat) : (s.wrN a n v).rtu = s.rtu := rfl
@[simp] theorem State.wrN_rot (s : State) (a n v : Nat) : (s.wrN a n v).rot = s.rot := rfl
@[simp] theorem State.wrN_seq (s : State) (a n v : Nat) : (s.wrN a n v).seq = s.seq := rfl
@[simp] theorem State.wrN_brs (s : State) (a n v : Nat) : (s.wrN a n v).brs = s.brs := rfl
@[simp] theorem State.wrN_twin (s : State) (a n v : Nat) : (s.wrN a n v).twin = s.twin := rfl
@[simp] theorem State.wrN_tm (s : State) (a n v : Nat) : (s.wrN a n v).tm = s.tm := rfl
@[simp] theorem State.wrN_pci (s : State) (a n v : Nat) : (s.wrN a n v).pci = s.pci := rfl
@[simp] theorem State.wrN_lat (s : State) (a n v : Nat) : (s.wrN a n v).lat = s.lat := rfl
@[simp] theorem State.wrN_dma (s : State) (a n v : Nat) : (s.wrN a n v).dma = s.dma := rfl
@[simp] theorem State.wrN_evt (s : State) (a n v : Nat) : (s.wrN a n v).evt = s.evt := rfl
@[simp] theorem State.wrN_flt (s : State) (a n v : Nat) : (s.wrN a n v).flt = s.flt := rfl
@[simp] theorem State.wrN_pwr (s : State) (a n v : Nat) : (s.wrN a n v).pwr = s.pwr := rfl
@[simp] theorem State.wrN_thm (s : State) (a n v : Nat) : (s.wrN a n v).thm = s.thm := rfl
@[simp] theorem State.wrN_cal (s : State) (a n v : Nat) : (s.wrN a n v).cal = s.cal := rfl
@[simp] theorem State.wrN_tst (s : State) (a n v : Nat) : (s.wrN a n v).tst = s.tst := rfl

@[simp] theorem State.wrBs_pending (s : State) (a : Nat) (bs : List Byte) : (s.wrBs a bs).pending = s.pending := rfl
@[simp] theorem State.wrBs_cycle (s : State) (a : Nat) (bs : List Byte) : (s.wrBs a bs).cycle = s.cycle := rfl
@[simp] theorem State.wrBs_clk (s : State) (a : Nat) (bs : List Byte) : (s.wrBs a bs).clk = s.clk := rfl
@[simp] theorem State.wrBs_regs (s : State) (a : Nat) (bs : List Byte) : (s.wrBs a bs).regs = s.regs := rfl
@[simp] theorem State.wrBs_hw (s : State) (a : Nat) (bs : List Byte) : (s.wrBs a bs).hw = s.hw := rfl
@[simp] theorem State.wrBs_freeCtr (s : State) (a : Nat) (bs : List Byte) : (s.wrBs a bs).freeCtr = s.freeCtr := rfl
@[simp] theorem State.wrBs_hostOut (s : State) (a : Nat) (bs : List Byte) : (s.wrBs a bs).hostOut = s.hostOut := rfl
@[simp] theorem State.wrBs_readData (s : State) (a : Nat) (bs : List Byte) : (s.wrBs a bs).readData = s.readData := rfl
@[simp] theorem State.wrBs_latches (s : State) (a : Nat) (bs : List Byte) : (s.wrBs a bs).latches = s.latches := rfl
@[simp] theorem State.wrBs_af (s : State) (a : Nat) (bs : List Byte) : (s.wrBs a bs).af = s.af := rfl
@[simp] theorem State.wrBs_mon (s : State) (a : Nat) (bs : List Byte) : (s.wrBs a bs).mon = s.mon := rfl
@[simp] theorem State.wrBs_le (s : State) (a : Nat) (bs : List Byte) : (s.wrBs a bs).le = s.le := rfl
@[simp] theorem State.wrBs_rtu (s : State) (a : Nat) (bs : List Byte) : (s.wrBs a bs).rtu = s.rtu := rfl
@[simp] theorem State.wrBs_rot (s : State) (a : Nat) (bs : List Byte) : (s.wrBs a bs).rot = s.rot := rfl
@[simp] theorem State.wrBs_seq (s : State) (a : Nat) (bs : List Byte) : (s.wrBs a bs).seq = s.seq := rfl
@[simp] theorem State.wrBs_brs (s : State) (a : Nat) (bs : List Byte) : (s.wrBs a bs).brs = s.brs := rfl
@[simp] theorem State.wrBs_twin (s : State) (a : Nat) (bs : List Byte) : (s.wrBs a bs).twin = s.twin := rfl
@[simp] theorem State.wrBs_tm (s : State) (a : Nat) (bs : List Byte) : (s.wrBs a bs).tm = s.tm := rfl
@[simp] theorem State.wrBs_pci (s : State) (a : Nat) (bs : List Byte) : (s.wrBs a bs).pci = s.pci := rfl
@[simp] theorem State.wrBs_lat (s : State) (a : Nat) (bs : List Byte) : (s.wrBs a bs).lat = s.lat := rfl
@[simp] theorem State.wrBs_dma (s : State) (a : Nat) (bs : List Byte) : (s.wrBs a bs).dma = s.dma := rfl
@[simp] theorem State.wrBs_evt (s : State) (a : Nat) (bs : List Byte) : (s.wrBs a bs).evt = s.evt := rfl
@[simp] theorem State.wrBs_flt (s : State) (a : Nat) (bs : List Byte) : (s.wrBs a bs).flt = s.flt := rfl
@[simp] theorem State.wrBs_pwr (s : State) (a : Nat) (bs : List Byte) : (s.wrBs a bs).pwr = s.pwr := rfl
@[simp] theorem State.wrBs_thm (s : State) (a : Nat) (bs : List Byte) : (s.wrBs a bs).thm = s.thm := rfl
@[simp] theorem State.wrBs_cal (s : State) (a : Nat) (bs : List Byte) : (s.wrBs a bs).cal = s.cal := rfl
@[simp] theorem State.wrBs_tst (s : State) (a : Nat) (bs : List Byte) : (s.wrBs a bs).tst = s.tst := rfl

@[simp] theorem State.updTl_pending (s : State) (t : Nat) (f : TileSt → TileSt) : (s.updTl t f).pending = s.pending := rfl
@[simp] theorem State.updTl_cycle (s : State) (t : Nat) (f : TileSt → TileSt) : (s.updTl t f).cycle = s.cycle := rfl
@[simp] theorem State.updTl_clk (s : State) (t : Nat) (f : TileSt → TileSt) : (s.updTl t f).clk = s.clk := rfl
@[simp] theorem State.updTl_regs (s : State) (t : Nat) (f : TileSt → TileSt) : (s.updTl t f).regs = s.regs := rfl
@[simp] theorem State.updTl_hw (s : State) (t : Nat) (f : TileSt → TileSt) : (s.updTl t f).hw = s.hw := rfl
@[simp] theorem State.updTl_mem (s : State) (t : Nat) (f : TileSt → TileSt) : (s.updTl t f).mem = s.mem := rfl
@[simp] theorem State.updTl_ueWords (s : State) (t : Nat) (f : TileSt → TileSt) : (s.updTl t f).ueWords = s.ueWords := rfl
@[simp] theorem State.updTl_freeCtr (s : State) (t : Nat) (f : TileSt → TileSt) : (s.updTl t f).freeCtr = s.freeCtr := rfl
@[simp] theorem State.updTl_hostOut (s : State) (t : Nat) (f : TileSt → TileSt) : (s.updTl t f).hostOut = s.hostOut := rfl
@[simp] theorem State.updTl_readData (s : State) (t : Nat) (f : TileSt → TileSt) : (s.updTl t f).readData = s.readData := rfl
@[simp] theorem State.updTl_latches (s : State) (t : Nat) (f : TileSt → TileSt) : (s.updTl t f).latches = s.latches := rfl
@[simp] theorem State.updTl_mon (s : State) (t : Nat) (f : TileSt → TileSt) : (s.updTl t f).mon = s.mon := rfl
@[simp] theorem State.updTl_le (s : State) (t : Nat) (f : TileSt → TileSt) : (s.updTl t f).le = s.le := rfl
@[simp] theorem State.updTl_rtu (s : State) (t : Nat) (f : TileSt → TileSt) : (s.updTl t f).rtu = s.rtu := rfl
@[simp] theorem State.updTl_rot (s : State) (t : Nat) (f : TileSt → TileSt) : (s.updTl t f).rot = s.rot := rfl
@[simp] theorem State.updTl_seq (s : State) (t : Nat) (f : TileSt → TileSt) : (s.updTl t f).seq = s.seq := rfl
@[simp] theorem State.updTl_brs (s : State) (t : Nat) (f : TileSt → TileSt) : (s.updTl t f).brs = s.brs := rfl
@[simp] theorem State.updTl_twin (s : State) (t : Nat) (f : TileSt → TileSt) : (s.updTl t f).twin = s.twin := rfl
@[simp] theorem State.updTl_tm (s : State) (t : Nat) (f : TileSt → TileSt) : (s.updTl t f).tm = s.tm := rfl
@[simp] theorem State.updTl_pci (s : State) (t : Nat) (f : TileSt → TileSt) : (s.updTl t f).pci = s.pci := rfl
@[simp] theorem State.updTl_lat (s : State) (t : Nat) (f : TileSt → TileSt) : (s.updTl t f).lat = s.lat := rfl
@[simp] theorem State.updTl_dma (s : State) (t : Nat) (f : TileSt → TileSt) : (s.updTl t f).dma = s.dma := rfl
@[simp] theorem State.updTl_evt (s : State) (t : Nat) (f : TileSt → TileSt) : (s.updTl t f).evt = s.evt := rfl
@[simp] theorem State.updTl_flt (s : State) (t : Nat) (f : TileSt → TileSt) : (s.updTl t f).flt = s.flt := rfl
@[simp] theorem State.updTl_pwr (s : State) (t : Nat) (f : TileSt → TileSt) : (s.updTl t f).pwr = s.pwr := rfl
@[simp] theorem State.updTl_thm (s : State) (t : Nat) (f : TileSt → TileSt) : (s.updTl t f).thm = s.thm := rfl
@[simp] theorem State.updTl_cal (s : State) (t : Nat) (f : TileSt → TileSt) : (s.updTl t f).cal = s.cal := rfl
@[simp] theorem State.updTl_tst (s : State) (t : Nat) (f : TileSt → TileSt) : (s.updTl t f).tst = s.tst := rfl

@[simp] theorem State.updAo_pending (s : State) (a : Nat) (f : AoSt → AoSt) : (s.updAo a f).pending = s.pending := rfl
@[simp] theorem State.updAo_cycle (s : State) (a : Nat) (f : AoSt → AoSt) : (s.updAo a f).cycle = s.cycle := rfl
@[simp] theorem State.updAo_clk (s : State) (a : Nat) (f : AoSt → AoSt) : (s.updAo a f).clk = s.clk := rfl
@[simp] theorem State.updAo_regs (s : State) (a : Nat) (f : AoSt → AoSt) : (s.updAo a f).regs = s.regs := rfl
@[simp] theorem State.updAo_hw (s : State) (a : Nat) (f : AoSt → AoSt) : (s.updAo a f).hw = s.hw := rfl
@[simp] theorem State.updAo_mem (s : State) (a : Nat) (f : AoSt → AoSt) : (s.updAo a f).mem = s.mem := rfl
@[simp] theorem State.updAo_ueWords (s : State) (a : Nat) (f : AoSt → AoSt) : (s.updAo a f).ueWords = s.ueWords := rfl
@[simp] theorem State.updAo_freeCtr (s : State) (a : Nat) (f : AoSt → AoSt) : (s.updAo a f).freeCtr = s.freeCtr := rfl
@[simp] theorem State.updAo_hostOut (s : State) (a : Nat) (f : AoSt → AoSt) : (s.updAo a f).hostOut = s.hostOut := rfl
@[simp] theorem State.updAo_readData (s : State) (a : Nat) (f : AoSt → AoSt) : (s.updAo a f).readData = s.readData := rfl
@[simp] theorem State.updAo_latches (s : State) (a : Nat) (f : AoSt → AoSt) : (s.updAo a f).latches = s.latches := rfl
@[simp] theorem State.updAo_mon (s : State) (a : Nat) (f : AoSt → AoSt) : (s.updAo a f).mon = s.mon := rfl
@[simp] theorem State.updAo_le (s : State) (a : Nat) (f : AoSt → AoSt) : (s.updAo a f).le = s.le := rfl
@[simp] theorem State.updAo_rtu (s : State) (a : Nat) (f : AoSt → AoSt) : (s.updAo a f).rtu = s.rtu := rfl
@[simp] theorem State.updAo_rot (s : State) (a : Nat) (f : AoSt → AoSt) : (s.updAo a f).rot = s.rot := rfl
@[simp] theorem State.updAo_seq (s : State) (a : Nat) (f : AoSt → AoSt) : (s.updAo a f).seq = s.seq := rfl
@[simp] theorem State.updAo_brs (s : State) (a : Nat) (f : AoSt → AoSt) : (s.updAo a f).brs = s.brs := rfl
@[simp] theorem State.updAo_twin (s : State) (a : Nat) (f : AoSt → AoSt) : (s.updAo a f).twin = s.twin := rfl
@[simp] theorem State.updAo_tm (s : State) (a : Nat) (f : AoSt → AoSt) : (s.updAo a f).tm = s.tm := rfl
@[simp] theorem State.updAo_pci (s : State) (a : Nat) (f : AoSt → AoSt) : (s.updAo a f).pci = s.pci := rfl
@[simp] theorem State.updAo_lat (s : State) (a : Nat) (f : AoSt → AoSt) : (s.updAo a f).lat = s.lat := rfl
@[simp] theorem State.updAo_dma (s : State) (a : Nat) (f : AoSt → AoSt) : (s.updAo a f).dma = s.dma := rfl
@[simp] theorem State.updAo_evt (s : State) (a : Nat) (f : AoSt → AoSt) : (s.updAo a f).evt = s.evt := rfl
@[simp] theorem State.updAo_flt (s : State) (a : Nat) (f : AoSt → AoSt) : (s.updAo a f).flt = s.flt := rfl
@[simp] theorem State.updAo_pwr (s : State) (a : Nat) (f : AoSt → AoSt) : (s.updAo a f).pwr = s.pwr := rfl
@[simp] theorem State.updAo_thm (s : State) (a : Nat) (f : AoSt → AoSt) : (s.updAo a f).thm = s.thm := rfl
@[simp] theorem State.updAo_cal (s : State) (a : Nat) (f : AoSt → AoSt) : (s.updAo a f).cal = s.cal := rfl
@[simp] theorem State.updAo_tst (s : State) (a : Nat) (f : AoSt → AoSt) : (s.updAo a f).tst = s.tst := rfl

@[simp] theorem State.updTb_pending (s : State) (b : Nat) (f : TbSt → TbSt) : (s.updTb b f).pending = s.pending := rfl
@[simp] theorem State.updTb_cycle (s : State) (b : Nat) (f : TbSt → TbSt) : (s.updTb b f).cycle = s.cycle := rfl
@[simp] theorem State.updTb_clk (s : State) (b : Nat) (f : TbSt → TbSt) : (s.updTb b f).clk = s.clk := rfl
@[simp] theorem State.updTb_regs (s : State) (b : Nat) (f : TbSt → TbSt) : (s.updTb b f).regs = s.regs := rfl
@[simp] theorem State.updTb_hw (s : State) (b : Nat) (f : TbSt → TbSt) : (s.updTb b f).hw = s.hw := rfl
@[simp] theorem State.updTb_mem (s : State) (b : Nat) (f : TbSt → TbSt) : (s.updTb b f).mem = s.mem := rfl
@[simp] theorem State.updTb_ueWords (s : State) (b : Nat) (f : TbSt → TbSt) : (s.updTb b f).ueWords = s.ueWords := rfl
@[simp] theorem State.updTb_freeCtr (s : State) (b : Nat) (f : TbSt → TbSt) : (s.updTb b f).freeCtr = s.freeCtr := rfl
@[simp] theorem State.updTb_hostOut (s : State) (b : Nat) (f : TbSt → TbSt) : (s.updTb b f).hostOut = s.hostOut := rfl
@[simp] theorem State.updTb_readData (s : State) (b : Nat) (f : TbSt → TbSt) : (s.updTb b f).readData = s.readData := rfl
@[simp] theorem State.updTb_latches (s : State) (b : Nat) (f : TbSt → TbSt) : (s.updTb b f).latches = s.latches := rfl
@[simp] theorem State.updTb_af (s : State) (b : Nat) (f : TbSt → TbSt) : (s.updTb b f).af = s.af := rfl
@[simp] theorem State.updTb_mon (s : State) (b : Nat) (f : TbSt → TbSt) : (s.updTb b f).mon = s.mon := rfl
@[simp] theorem State.updTb_le (s : State) (b : Nat) (f : TbSt → TbSt) : (s.updTb b f).le = s.le := rfl
@[simp] theorem State.updTb_rtu (s : State) (b : Nat) (f : TbSt → TbSt) : (s.updTb b f).rtu = s.rtu := rfl
@[simp] theorem State.updTb_rot (s : State) (b : Nat) (f : TbSt → TbSt) : (s.updTb b f).rot = s.rot := rfl
@[simp] theorem State.updTb_seq (s : State) (b : Nat) (f : TbSt → TbSt) : (s.updTb b f).seq = s.seq := rfl
@[simp] theorem State.updTb_brs (s : State) (b : Nat) (f : TbSt → TbSt) : (s.updTb b f).brs = s.brs := rfl
@[simp] theorem State.updTb_twin (s : State) (b : Nat) (f : TbSt → TbSt) : (s.updTb b f).twin = s.twin := rfl
@[simp] theorem State.updTb_pci (s : State) (b : Nat) (f : TbSt → TbSt) : (s.updTb b f).pci = s.pci := rfl
@[simp] theorem State.updTb_lat (s : State) (b : Nat) (f : TbSt → TbSt) : (s.updTb b f).lat = s.lat := rfl
@[simp] theorem State.updTb_dma (s : State) (b : Nat) (f : TbSt → TbSt) : (s.updTb b f).dma = s.dma := rfl
@[simp] theorem State.updTb_evt (s : State) (b : Nat) (f : TbSt → TbSt) : (s.updTb b f).evt = s.evt := rfl
@[simp] theorem State.updTb_flt (s : State) (b : Nat) (f : TbSt → TbSt) : (s.updTb b f).flt = s.flt := rfl
@[simp] theorem State.updTb_pwr (s : State) (b : Nat) (f : TbSt → TbSt) : (s.updTb b f).pwr = s.pwr := rfl
@[simp] theorem State.updTb_thm (s : State) (b : Nat) (f : TbSt → TbSt) : (s.updTb b f).thm = s.thm := rfl
@[simp] theorem State.updTb_cal (s : State) (b : Nat) (f : TbSt → TbSt) : (s.updTb b f).cal = s.cal := rfl
@[simp] theorem State.updTb_tst (s : State) (b : Nat) (f : TbSt → TbSt) : (s.updTb b f).tst = s.tst := rfl

@[simp] theorem State.updFn_pending (s : State) (n : Nat) (f : FnCfg → FnCfg) : (s.updFn n f).pending = s.pending := rfl
@[simp] theorem State.updFn_cycle (s : State) (n : Nat) (f : FnCfg → FnCfg) : (s.updFn n f).cycle = s.cycle := rfl
@[simp] theorem State.updFn_clk (s : State) (n : Nat) (f : FnCfg → FnCfg) : (s.updFn n f).clk = s.clk := rfl
@[simp] theorem State.updFn_regs (s : State) (n : Nat) (f : FnCfg → FnCfg) : (s.updFn n f).regs = s.regs := rfl
@[simp] theorem State.updFn_hw (s : State) (n : Nat) (f : FnCfg → FnCfg) : (s.updFn n f).hw = s.hw := rfl
@[simp] theorem State.updFn_mem (s : State) (n : Nat) (f : FnCfg → FnCfg) : (s.updFn n f).mem = s.mem := rfl
@[simp] theorem State.updFn_ueWords (s : State) (n : Nat) (f : FnCfg → FnCfg) : (s.updFn n f).ueWords = s.ueWords := rfl
@[simp] theorem State.updFn_freeCtr (s : State) (n : Nat) (f : FnCfg → FnCfg) : (s.updFn n f).freeCtr = s.freeCtr := rfl
@[simp] theorem State.updFn_hostOut (s : State) (n : Nat) (f : FnCfg → FnCfg) : (s.updFn n f).hostOut = s.hostOut := rfl
@[simp] theorem State.updFn_readData (s : State) (n : Nat) (f : FnCfg → FnCfg) : (s.updFn n f).readData = s.readData := rfl
@[simp] theorem State.updFn_latches (s : State) (n : Nat) (f : FnCfg → FnCfg) : (s.updFn n f).latches = s.latches := rfl
@[simp] theorem State.updFn_af (s : State) (n : Nat) (f : FnCfg → FnCfg) : (s.updFn n f).af = s.af := rfl
@[simp] theorem State.updFn_mon (s : State) (n : Nat) (f : FnCfg → FnCfg) : (s.updFn n f).mon = s.mon := rfl
@[simp] theorem State.updFn_le (s : State) (n : Nat) (f : FnCfg → FnCfg) : (s.updFn n f).le = s.le := rfl
@[simp] theorem State.updFn_rtu (s : State) (n : Nat) (f : FnCfg → FnCfg) : (s.updFn n f).rtu = s.rtu := rfl
@[simp] theorem State.updFn_rot (s : State) (n : Nat) (f : FnCfg → FnCfg) : (s.updFn n f).rot = s.rot := rfl
@[simp] theorem State.updFn_seq (s : State) (n : Nat) (f : FnCfg → FnCfg) : (s.updFn n f).seq = s.seq := rfl
@[simp] theorem State.updFn_brs (s : State) (n : Nat) (f : FnCfg → FnCfg) : (s.updFn n f).brs = s.brs := rfl
@[simp] theorem State.updFn_twin (s : State) (n : Nat) (f : FnCfg → FnCfg) : (s.updFn n f).twin = s.twin := rfl
@[simp] theorem State.updFn_tm (s : State) (n : Nat) (f : FnCfg → FnCfg) : (s.updFn n f).tm = s.tm := rfl
@[simp] theorem State.updFn_lat (s : State) (n : Nat) (f : FnCfg → FnCfg) : (s.updFn n f).lat = s.lat := rfl
@[simp] theorem State.updFn_dma (s : State) (n : Nat) (f : FnCfg → FnCfg) : (s.updFn n f).dma = s.dma := rfl
@[simp] theorem State.updFn_evt (s : State) (n : Nat) (f : FnCfg → FnCfg) : (s.updFn n f).evt = s.evt := rfl
@[simp] theorem State.updFn_flt (s : State) (n : Nat) (f : FnCfg → FnCfg) : (s.updFn n f).flt = s.flt := rfl
@[simp] theorem State.updFn_pwr (s : State) (n : Nat) (f : FnCfg → FnCfg) : (s.updFn n f).pwr = s.pwr := rfl
@[simp] theorem State.updFn_thm (s : State) (n : Nat) (f : FnCfg → FnCfg) : (s.updFn n f).thm = s.thm := rfl
@[simp] theorem State.updFn_cal (s : State) (n : Nat) (f : FnCfg → FnCfg) : (s.updFn n f).cal = s.cal := rfl
@[simp] theorem State.updFn_tst (s : State) (n : Nat) (f : FnCfg → FnCfg) : (s.updFn n f).tst = s.tst := rfl

@[simp] theorem State.bump_pending (s : State) : (s.bump).pending = s.pending := rfl
@[simp] theorem State.bump_cycle (s : State) : (s.bump).cycle = s.cycle := rfl
@[simp] theorem State.bump_clk (s : State) : (s.bump).clk = s.clk := rfl
@[simp] theorem State.bump_regs (s : State) : (s.bump).regs = s.regs := rfl
@[simp] theorem State.bump_hw (s : State) : (s.bump).hw = s.hw := rfl
@[simp] theorem State.bump_mem (s : State) : (s.bump).mem = s.mem := rfl
@[simp] theorem State.bump_ueWords (s : State) : (s.bump).ueWords = s.ueWords := rfl
@[simp] theorem State.bump_hostOut (s : State) : (s.bump).hostOut = s.hostOut := rfl
@[simp] theorem State.bump_readData (s : State) : (s.bump).readData = s.readData := rfl
@[simp] theorem State.bump_latches (s : State) : (s.bump).latches = s.latches := rfl
@[simp] theorem State.bump_af (s : State) : (s.bump).af = s.af := rfl
@[simp] theorem State.bump_mon (s : State) : (s.bump).mon = s.mon := rfl
@[simp] theorem State.bump_le (s : State) : (s.bump).le = s.le := rfl
@[simp] theorem State.bump_rtu (s : State) : (s.bump).rtu = s.rtu := rfl
@[simp] theorem State.bump_rot (s : State) : (s.bump).rot = s.rot := rfl
@[simp] theorem State.bump_seq (s : State) : (s.bump).seq = s.seq := rfl
@[simp] theorem State.bump_brs (s : State) : (s.bump).brs = s.brs := rfl
@[simp] theorem State.bump_twin (s : State) : (s.bump).twin = s.twin := rfl
@[simp] theorem State.bump_tm (s : State) : (s.bump).tm = s.tm := rfl
@[simp] theorem State.bump_pci (s : State) : (s.bump).pci = s.pci := rfl
@[simp] theorem State.bump_lat (s : State) : (s.bump).lat = s.lat := rfl
@[simp] theorem State.bump_dma (s : State) : (s.bump).dma = s.dma := rfl
@[simp] theorem State.bump_evt (s : State) : (s.bump).evt = s.evt := rfl
@[simp] theorem State.bump_flt (s : State) : (s.bump).flt = s.flt := rfl
@[simp] theorem State.bump_pwr (s : State) : (s.bump).pwr = s.pwr := rfl
@[simp] theorem State.bump_thm (s : State) : (s.bump).thm = s.thm := rfl
@[simp] theorem State.bump_cal (s : State) : (s.bump).cal = s.cal := rfl
@[simp] theorem State.bump_tst (s : State) : (s.bump).tst = s.tst := rfl

@[simp] theorem State.grant_pending (s : State) (t m : Nat) : (s.grant t m).pending = s.pending := rfl
@[simp] theorem State.grant_cycle (s : State) (t m : Nat) : (s.grant t m).cycle = s.cycle := rfl
@[simp] theorem State.grant_clk (s : State) (t m : Nat) : (s.grant t m).clk = s.clk := rfl
@[simp] theorem State.grant_regs (s : State) (t m : Nat) : (s.grant t m).regs = s.regs := rfl
@[simp] theorem State.grant_hw (s : State) (t m : Nat) : (s.grant t m).hw = s.hw := rfl
@[simp] theorem State.grant_mem (s : State) (t m : Nat) : (s.grant t m).mem = s.mem := rfl
@[simp] theorem State.grant_ueWords (s : State) (t m : Nat) : (s.grant t m).ueWords = s.ueWords := rfl
@[simp] theorem State.grant_freeCtr (s : State) (t m : Nat) : (s.grant t m).freeCtr = s.freeCtr := rfl
@[simp] theorem State.grant_hostOut (s : State) (t m : Nat) : (s.grant t m).hostOut = s.hostOut := rfl
@[simp] theorem State.grant_readData (s : State) (t m : Nat) : (s.grant t m).readData = s.readData := rfl
@[simp] theorem State.grant_latches (s : State) (t m : Nat) : (s.grant t m).latches = s.latches := rfl
@[simp] theorem State.grant_af (s : State) (t m : Nat) : (s.grant t m).af = s.af := rfl
@[simp] theorem State.grant_mon (s : State) (t m : Nat) : (s.grant t m).mon = s.mon := rfl
@[simp] theorem State.grant_le (s : State) (t m : Nat) : (s.grant t m).le = s.le := rfl
@[simp] theorem State.grant_rtu (s : State) (t m : Nat) : (s.grant t m).rtu = s.rtu := rfl
@[simp] theorem State.grant_rot (s : State) (t m : Nat) : (s.grant t m).rot = s.rot := rfl
@[simp] theorem State.grant_seq (s : State) (t m : Nat) : (s.grant t m).seq = s.seq := rfl
@[simp] theorem State.grant_brs (s : State) (t m : Nat) : (s.grant t m).brs = s.brs := rfl
@[simp] theorem State.grant_twin (s : State) (t m : Nat) : (s.grant t m).twin = s.twin := rfl
@[simp] theorem State.grant_tm (s : State) (t m : Nat) : (s.grant t m).tm = s.tm := rfl
@[simp] theorem State.grant_pci (s : State) (t m : Nat) : (s.grant t m).pci = s.pci := rfl
@[simp] theorem State.grant_dma (s : State) (t m : Nat) : (s.grant t m).dma = s.dma := rfl
@[simp] theorem State.grant_evt (s : State) (t m : Nat) : (s.grant t m).evt = s.evt := rfl
@[simp] theorem State.grant_flt (s : State) (t m : Nat) : (s.grant t m).flt = s.flt := rfl
@[simp] theorem State.grant_pwr (s : State) (t m : Nat) : (s.grant t m).pwr = s.pwr := rfl
@[simp] theorem State.grant_thm (s : State) (t m : Nat) : (s.grant t m).thm = s.thm := rfl
@[simp] theorem State.grant_cal (s : State) (t m : Nat) : (s.grant t m).cal = s.cal := rfl
@[simp] theorem State.grant_tst (s : State) (t m : Nat) : (s.grant t m).tst = s.tst := rfl

@[simp] theorem State.occur_pending (s : State) (p : Nat) : (s.occur p).pending = s.pending := rfl
@[simp] theorem State.occur_cycle (s : State) (p : Nat) : (s.occur p).cycle = s.cycle := rfl
@[simp] theorem State.occur_clk (s : State) (p : Nat) : (s.occur p).clk = s.clk := rfl
@[simp] theorem State.occur_regs (s : State) (p : Nat) : (s.occur p).regs = s.regs := rfl
@[simp] theorem State.occur_hw (s : State) (p : Nat) : (s.occur p).hw = s.hw := rfl
@[simp] theorem State.occur_mem (s : State) (p : Nat) : (s.occur p).mem = s.mem := rfl
@[simp] theorem State.occur_ueWords (s : State) (p : Nat) : (s.occur p).ueWords = s.ueWords := rfl
@[simp] theorem State.occur_freeCtr (s : State) (p : Nat) : (s.occur p).freeCtr = s.freeCtr := rfl
@[simp] theorem State.occur_hostOut (s : State) (p : Nat) : (s.occur p).hostOut = s.hostOut := rfl
@[simp] theorem State.occur_readData (s : State) (p : Nat) : (s.occur p).readData = s.readData := rfl
@[simp] theorem State.occur_latches (s : State) (p : Nat) : (s.occur p).latches = s.latches := rfl
@[simp] theorem State.occur_af (s : State) (p : Nat) : (s.occur p).af = s.af := rfl
@[simp] theorem State.occur_mon (s : State) (p : Nat) : (s.occur p).mon = s.mon := rfl
@[simp] theorem State.occur_le (s : State) (p : Nat) : (s.occur p).le = s.le := rfl
@[simp] theorem State.occur_rtu (s : State) (p : Nat) : (s.occur p).rtu = s.rtu := rfl
@[simp] theorem State.occur_rot (s : State) (p : Nat) : (s.occur p).rot = s.rot := rfl
@[simp] theorem State.occur_seq (s : State) (p : Nat) : (s.occur p).seq = s.seq := rfl
@[simp] theorem State.occur_brs (s : State) (p : Nat) : (s.occur p).brs = s.brs := rfl
@[simp] theorem State.occur_twin (s : State) (p : Nat) : (s.occur p).twin = s.twin := rfl
@[simp] theorem State.occur_tm (s : State) (p : Nat) : (s.occur p).tm = s.tm := rfl
@[simp] theorem State.occur_pci (s : State) (p : Nat) : (s.occur p).pci = s.pci := rfl
@[simp] theorem State.occur_lat (s : State) (p : Nat) : (s.occur p).lat = s.lat := rfl
@[simp] theorem State.occur_dma (s : State) (p : Nat) : (s.occur p).dma = s.dma := rfl
@[simp] theorem State.occur_flt (s : State) (p : Nat) : (s.occur p).flt = s.flt := rfl
@[simp] theorem State.occur_pwr (s : State) (p : Nat) : (s.occur p).pwr = s.pwr := rfl
@[simp] theorem State.occur_thm (s : State) (p : Nat) : (s.occur p).thm = s.thm := rfl
@[simp] theorem State.occur_cal (s : State) (p : Nat) : (s.occur p).cal = s.cal := rfl
@[simp] theorem State.occur_tst (s : State) (p : Nat) : (s.occur p).tst = s.tst := rfl

/-- What each step of a sequence leaves alone, the sequence leaves alone. -/
theorem each_keep {α β : Type} (g : State → β) (f : State → α → State) (h : ∀ s a, g (f s a) = g s) (s : State) (l : List α) : g (s.each l f) = g s := by
  unfold State.each
  induction l generalizing s with
  | nil => rfl
  | cons a t ih => rw [List.foldl_cons, ih, h]

theorem when_keep {β : Type} (g : State → β) (f : State → State) (h : ∀ s, g (f s) = g s) (s : State) (c : Bool) : g (s.when c f) = g s := by
  unfold State.when
  split
  · exact h s
  · rfl

end Sys2Proof.Machine
end

