-- ==== Sys2Proof/Laws/Obrix.lean ====
section
/-! SUPPORT. An instruction as the members in step issue it. -/

namespace Sys2Proof.Machine

theorem State.issues_iff {s : State} {m h : Nat} {i : OIns} (e : s.issues m h i = true) : s.canIssue m h = true ∧ s.fetch m h = .ok i := by
  unfold State.issues at e
  rw [Bool.and_eq_true] at e
  refine ⟨e.1, ?_⟩
  generalize hf : s.fetch m h = x at e
  cases x with
  | error x => simp at e
  | ok j => simpa using e.2

/-- An instruction that every member in step issues is carried out on each in turn. -/
theorem issue_eq {s : State} {h : Nat} {i : OIns} {kind : OIns → Bool} {F : OIns → Nat → State → State} {g : Nat → State → Bool} {f : Nat → State → State}
    (k : kind i = true) (c : ∀ m u, g m u = true → F i m u = f m u) (e : inStep h i g f s.lock s = true) :
    s.issue h kind F = s.each s.lock (fun s m => f m s) := by
  unfold State.issue State.each
  generalize s.lock = ms at e ⊢
  induction ms generalizing s with
  | nil => rfl
  | cons m ms ih =>
    rw [inStep, Bool.and_eq_true, Bool.and_eq_true] at e
    obtain ⟨a, b⟩ := State.issues_iff e.1.1
    simp only [List.foldl_cons, a, b, k, Bool.not_true, Bool.false_eq_true, if_false, if_true, c m s e.1.2]
    exact ih e.2

theorem issueSw_eq {s : State} {h : Nat} {i : OIns} {kind : OIns → Bool} {f : OIns → State → State} (k : kind i = true)
    (e : s.leadIssues h i = true) : s.issueSw h kind f = f i s := by
  unfold State.leadIssues at e
  rw [Bool.and_eq_true] at e
  obtain ⟨c, g⟩ := State.issues_iff e.2
  simp [State.issueSw, e.1, c, g, k]

theorem swOp_eq {s : State} {h : Nat} {i : OIns} {kind : OIns → Bool} {modes : List Nat} {f : OIns → State → State} (k : kind i = true)
    (e : s.leadIssues h i = true) (p : modes.contains (s.pm h) = true) : s.swOp h kind modes f = f i s := by
  rw [State.swOp, issueSw_eq k e, if_pos p]

/-- In a partition mode that the instruction does not run in, SW_MODE. -/
theorem swOp_mode {s : State} {h : Nat} {i : OIns} {kind : OIns → Bool} {modes : List Nat} {f : OIns → State → State} (k : kind i = true)
    (e : s.leadIssues h i = true) (p : modes.contains (s.pm h) = false) : s.swOp h kind modes f = s.swExc h swMode i := by
  rw [State.swOp, issueSw_eq k e, if_neg (by rw [p]; exact Bool.false_ne_true)]

/-- Abandoning a wait touches the Rotor Engines alone. -/
theorem abandon_keeps {β : Type} (π : State → β) (c : ∀ (u : State) r, π { u with rot := r } = π u) (s : State) (m h : Nat) : π (s.abandon m h) = π s := by
  unfold State.abandon
  split
  · exact c _ _
  · rfl

theorem boundary_flt (s : State) (m h : Nat) : (s.boundary m h).flt = s.flt := by
  unfold State.boundary
  dsimp only
  split
  · exact abandon_keeps State.flt (fun _ _ => rfl) s m h
  · split
    · exact abandon_keeps State.flt (fun _ _ => rfl) s m h
    · rfl

@[simp] theorem retire_flt (s : State) (m h : Nat) (i : OIns) : (s.retire m h i).flt = s.flt := (boundary_flt _ m h).trans rfl

/-- Two updates of a thread that agree on what it holds are one. -/
theorem updTh_congr {s : State} {m h : Nat} {f f' : ThrSt → ThrSt} (e : f (s.th m h) = f' (s.th m h)) : s.updTh m h f = s.updTh m h f' := by
  unfold State.updTh Map.upd
  rw [show f (Map.look s.seq.thr (thKey m h) {}) = f' (Map.look s.seq.thr (thKey m h) {}) from e]

@[simp] theorem updTh_flt (s : State) (m h : Nat) (f : ThrSt → ThrSt) : (s.updTh m h f).flt = s.flt := rfl

@[simp] theorem thHalt_flt (s : State) (m h st : Nat) : (s.thHalt m h st).flt = s.flt := by
  unfold State.thHalt
  dsimp only
  split <;> rfl

@[simp] theorem exc_flt (s : State) (m h : Nat) (e : Exc) : (s.exc m h e).flt = s.flt := by
  unfold State.exc
  dsimp only
  split
  · rfl
  · exact (thHalt_flt _ _ _ _).trans rfl

@[simp] theorem excAt_flt (s : State) (m h code info : Nat) (bad : Option Nat) : (s.excAt m h code info bad).flt = s.flt := exc_flt _ _ _ _

@[simp] theorem retireTo_flt (s : State) (m h pc : Nat) : (s.retireTo m h pc).flt = s.flt := (boundary_flt _ m h).trans rfl

@[simp] theorem dmByte_flt (s : State) (a : Nat) (b : Byte) : (s.dmByte a b).flt = s.flt := by
  unfold State.dmByte
  split <;> rfl

@[simp] theorem dmStore_flt (bs : List Byte) (s : State) (a : Nat) : (s.dmStore a bs).flt = s.flt := by
  unfold State.dmStore
  dsimp only
  generalize (List.range bs.length).zip bs = l
  unfold State.each
  induction l generalizing s with
  | nil => rfl
  | cons e t ih => rw [List.foldl_cons, ih, dmByte_flt]

/-- What passes an effect gate touches the pair alone (R248). -/
@[simp] theorem passBeats_flt (x k : Nat) (s : State) (bs : List Byte) : (s.passBeats x k bs).flt = s.flt := by
  induction k generalizing s bs with
  | zero => rfl
  | succ k ih => exact (ih _ _).trans rfl

@[simp] theorem passEffect_flt (s : State) (x : Nat) (bs : List Byte) : (s.passEffect x bs).flt = s.flt := passBeats_flt _ _ _ _

@[simp] theorem setThState_flt (s : State) (m h v : Nat) : (s.setThState m h v).flt = s.flt := rfl

@[simp] theorem trace_flt (s : State) (m h tag : Nat) (v : W64) : (s.trace m h tag v).flt = s.flt := by
  unfold State.trace
  dsimp only
  split <;> rfl

@[simp] theorem when_flt (s : State) (c : Bool) (f : State → State) (k : ∀ s, (f s).flt = s.flt) : (s.when c f).flt = s.flt := by
  unfold State.when
  split
  · exact k s
  · rfl

/-- A step on each member in turn that leaves the faults alone. -/
theorem eachMember_flt (s : State) (ms : List Nat) (f : Nat → State → State) (k : ∀ m s, (f m s).flt = s.flt) :
    (s.each ms (fun s m => f m s)).flt = s.flt := by
  unfold State.each
  induction ms generalizing s with
  | nil => rfl
  | cons m t ih => rw [List.foldl_cons, ih, k]

/-- A step on each member in turn keeps whatever each of them keeps. -/
theorem each_keeps {α β : Type} (π : State → β) (s : State) (l : List α) (f : State → α → State) (k : ∀ u x, x ∈ l → π (f u x) = π u) : π (s.each l f) = π s := by
  unfold State.each
  induction l generalizing s with
  | nil => rfl
  | cons x t ih => rw [List.foldl_cons, ih _ (fun u y hy => k u y (List.mem_cons_of_mem _ hy)), k _ _ (List.mem_cons_self ..)]

@[simp] theorem th_updTh_same (s : State) (m h : Nat) (f : ThrSt → ThrSt) : (s.updTh m h f).th m h = f (s.th m h) :=
  Map.look_ins_same ..

/-- A thread that waits for nothing abandons nothing. -/
theorem abandon_of_free {s : State} {m h : Nat} (k : (s.th m h).wait = none) : s.abandon m h = s := by
  unfold State.abandon ThrSt.asksStop; rw [k]; rfl

/-- Retiring an instruction writes thread state and registers only. -/
theorem retire_keeps {β : Type} (π : State → β) (a : ∀ u r w k i j, π (State.hwWord u r w k i j) = π u) (b : ∀ u m h f, π (State.updTh u m h f) = π u)
    (s : State) (m h : Nat) (i : OIns) : π (s.retire m h i) = π s := by
  have k := abandon_of_free (s := s.updTh m h (fun x => { x.setScr scrInstret ((x.scrOf scrInstret + 1) % 2 ^ 64) with pc := x.pc + i.len, wait := none })) (m := m) (h := h)
    (by rw [th_updTh_same])
  unfold State.retire State.boundary
  dsimp only
  split
  · unfold State.thStop State.setThState State.put
    rw [a, a, b, k, b]
  · split
    · unfold State.thRedirect State.setThState State.put State.setWord
      rw [a, b, a, k, b]
    · rw [b]

theorem th_updTh_other (s : State) (m h m' h' : Nat) (f : ThrSt → ThrSt) (k : thKey m' h' ≠ thKey m h) : (s.updTh m h f).th m' h' = s.th m' h' :=
  by
  unfold State.th State.updTh Map.upd
  exact Map.look_ins_other _ _ _ k

theorem th_hwWord (s : State) (r : Reg) (w mask : RWord) (i j m h : Nat) : (s.hwWord r w mask i j).th m h = s.th m h := rfl

theorem th_abandon (s : State) (m h m' h' : Nat) : (s.abandon m h).th m' h' = s.th m' h' :=
  abandon_keeps (fun u => u.th m' h') (fun _ _ => rfl) s m h
theorem word_abandon (s : State) (m h : Nat) (r : Reg) (a b : Nat) : (s.abandon m h).word r a b = s.word r a b :=
  abandon_keeps (fun u => u.word r a b) (fun _ _ => rfl) s m h

/-- Retiring an instruction of one thread leaves the others as they stand. -/
theorem th_retire_other (s : State) (m h m' h' : Nat) (i : OIns) (k : thKey m' h' ≠ thKey m h) : (s.retire m h i).th m' h' = s.th m' h' := by
  unfold State.retire State.boundary
  dsimp only
  split
  · unfold State.thStop State.setThState State.put
    rw [th_hwWord, th_hwWord, th_updTh_other _ _ _ _ _ _ k, th_abandon, th_updTh_other _ _ _ _ _ _ k]
  · split
    · unfold State.thRedirect State.setThState State.put State.setWord
      rw [th_hwWord, th_updTh_other _ _ _ _ _ _ k, th_hwWord, th_abandon, th_updTh_other _ _ _ _ _ _ k]
    · exact th_updTh_other _ _ _ _ _ _ k

/-- Retiring an instruction writes no register but the thread's state, its code range and the halt map. -/
theorem retire_word (s : State) (m h : Nat) (i : OIns) (r : Reg) (a b : Nat) (hm : m < 16384) (hh : h < 4096) (ha : a < 16384) (hb : b < 4096)
    (h1 : r.id ≠ R.SEQ_THR_STAT.id) (h2 : r.id ≠ R.SEQ_STAT.id) (h3 : r.id ≠ R.SEQ_THR_CODE.id) : (s.retire m h i).word r a b = s.word r a b := by
  have k1 : r.key a b ≠ R.SEQ_THR_STAT.key m h := by unfold Reg.key; omega
  have k2 : r.key a b ≠ R.SEQ_STAT.key m 0 := by unfold Reg.key; omega
  have k3 : r.key a b ≠ R.SEQ_THR_CODE.key h 0 := by unfold Reg.key; omega
  unfold State.retire State.boundary
  dsimp only
  split
  · exact (word_put_other _ F.SEQ_STAT_HALTMAP _ _ _ _ _ _ k2).trans ((word_put_other _ F.SEQ_THR_STAT_STATE _ _ _ _ _ _ k1).trans (word_abandon (s.updTh m h _) m h r a b))
  · split
    · exact (word_put_other _ F.SEQ_THR_STAT_STATE _ _ _ _ _ _ k1).trans ((word_setWord_other _ _ _ _ _ _ _ _ k3).trans (word_abandon (s.updTh m h _) m h r a b))
    · rfl

theorem mem_lock {s : State} {m : Nat} (h : m ∈ s.lock) : m < 2 := by
  have a := (List.mem_filter.mp h).1
  simp at a
  omega

/-! ### What an instruction of one thread leaves alone -/

theorem ThreadOnly.refl (ms : List Nat) (h : Nat) (s : State) : ThreadOnly ms h s s := ⟨rfl, fun _ _ _ _ _ => rfl, fun _ _ _ _ _ _ _ _ => rfl⟩

theorem ThreadOnly.trans {ms : List Nat} {h : Nat} {s u t : State} (a : ThreadOnly ms h s u) (b : ThreadOnly ms h u t) : ThreadOnly ms h s t :=
  ⟨b.rest.trans ((congrArg (fun x : State => ({ x with regs := t.regs, hw := t.hw, seq.thr := t.seq.thr, lat.last := t.lat.last, lat.since := t.lat.since } : State)) a.rest).trans rfl),
    fun m k hm hk e => (b.threads m k hm hk e).trans (a.threads m k hm hk e),
    fun r i j hi hj h1 h2 h3 => (b.words r i j hi hj h1 h2 h3).trans (a.words r i j hi hj h1 h2 h3)⟩

theorem ThreadOnly.mono {ms ns : List Nat} {h : Nat} {s t : State} (a : ThreadOnly ms h s t) (k : ∀ m ∈ ms, m ∈ ns) : ThreadOnly ns h s t :=
  ⟨a.rest, fun m x hm hx e => a.threads m x hm hx (e.imp (fun q w => q (k m w)) id), a.words⟩

theorem ThreadOnly.updTh (s : State) {m h : Nat} (f : ThrSt → ThrSt) (hm : m < 2) (hh : h < 16) : ThreadOnly [m] h s (s.updTh m h f) :=
  ⟨rfl, fun x y hx hy e => th_updTh_other _ _ _ _ _ _ (by have e : x ≠ m ∨ y ≠ h := e.imp (fun q w => q (List.mem_singleton.2 w)) id; unfold thKey; omega), fun _ _ _ _ _ _ _ _ => rfl⟩

theorem ThreadOnly.grant (ms : List Nat) (s : State) (h q m : Nat) : ThreadOnly ms h s (s.grant q m) := ⟨rfl, fun _ _ _ _ _ => rfl, fun _ _ _ _ _ _ _ _ => rfl⟩

/-- A write of the state words of threads, of the halt map or of a code range. -/
theorem ThreadOnly.hwWord (ms : List Nat) (s : State) (h : Nat) (r : Reg) (w mask : RWord) (i j : Nat) (hr : r.id = R.SEQ_THR_STAT.id ∨ r.id = R.SEQ_STAT.id ∨ r.id = R.SEQ_THR_CODE.id)
    (hi : i < 16384) (hj : j < 4096) : ThreadOnly ms h s (s.hwWord r w mask i j) :=
  ⟨rfl, fun _ _ _ _ _ => rfl, fun q a b ha hb h1 h2 h3 => word_hwWord_other _ _ _ _ _ _ _ _ _ (by unfold Reg.key; omega)⟩

/-- Retiring an instruction. -/
theorem ThreadOnly.retire (s : State) {m h : Nat} (i : OIns) (hm : m < 2) (hh : h < 16) : ThreadOnly [m] h s (s.retire m h i) := by
  have k := abandon_of_free (s := s.updTh m h (fun x => { x.setScr scrInstret ((x.scrOf scrInstret + 1) % 2 ^ 64) with pc := x.pc + i.len, wait := none })) (m := m) (h := h)
    (by rw [th_updTh_same])
  have first := ThreadOnly.updTh s (fun x => { x.setScr scrInstret ((x.scrOf scrInstret + 1) % 2 ^ 64) with pc := x.pc + i.len, wait := none }) hm hh
  unfold State.retire State.boundary
  dsimp only
  split
  · refine first.trans ?_
    unfold State.thStop State.setThState State.put
    rw [k]
    exact ((ThreadOnly.updTh _ _ hm hh).trans (ThreadOnly.hwWord _ _ h R.SEQ_THR_STAT _ _ _ _ (.inl rfl) (by omega) (by omega))).trans
      (ThreadOnly.hwWord _ _ h R.SEQ_STAT _ _ _ _ (.inr (.inl rfl)) (by omega) (by decide))
  · split
    · refine first.trans ?_
      unfold State.thRedirect State.setThState State.put State.setWord
      rw [k]
      exact ((ThreadOnly.hwWord _ _ h R.SEQ_THR_CODE _ _ _ _ (.inr (.inr rfl)) (by omega) (by decide)).trans (ThreadOnly.updTh _ _ hm hh)).trans
        (ThreadOnly.hwWord _ _ h R.SEQ_THR_STAT _ _ _ _ (.inl rfl) (by omega) (by omega))
    · exact first

/-- An exception of a thread that allows one (R190). -/
theorem ThreadOnly.exc (s : State) {m h : Nat} (e : Exc) (hm : m < 2) (hh : h < 16) (ie : bitOf (s.th m h).status bitIE = true) : ThreadOnly [m] h s (s.exc m h e) := by
  have first := ThreadOnly.hwWord [m] s h R.SEQ_THR_STAT (setField (s.word R.SEQ_THR_STAT m h) F.SEQ_THR_STAT_CAUSE.lo F.SEQ_THR_STAT_CAUSE.wd e.code)
    (fieldMask F.SEQ_THR_STAT_CAUSE.lo F.SEQ_THR_STAT_CAUSE.wd) m h (.inl rfl) (by omega) (by omega)
  have k : s.exc m h e = (s.put F.SEQ_THR_STAT_CAUSE e.code m h).updTh m h (fun x => x.enter e) := if_pos ie
  rw [k]
  exact first.trans (ThreadOnly.updTh _ _ hm hh)

/-- A fetch finds no uncorrectable word where there is none. -/
theorem fetch_code {s : State} {m h : Nat} {e : Exc} (hu : s.ueWords = []) (k : s.fetch m h = .error e) : e.code ≠ 5 := by
  have b : ∀ x y z e, s.fetchBad x y z = some e → e.code ≠ 5 := by
    intro x y z e q
    unfold State.fetchBad at q
    split at q
    · cases q; exact (by decide : (4 : Nat) ≠ 5)
    · rw [if_neg (by unfold State.ueIn; rw [hu]; simp)] at q; cases q
  unfold State.fetch at k
  dsimp only at k
  split at k
  · rename_i q; cases k; exact b _ _ _ _ q
  · rename_i q; cases k
    split at q
    · exact b _ _ _ _ q
    · cases q
  · split at k
    · cases k; exact (by decide : (1 : Nat) ≠ 5)
    · cases k

/-- What each member in turn does to its own thread. -/
theorem ThreadOnly.each {h : Nat} (s : State) (l : List Nat) (f : State → Nat → State) (nd : l.Nodup) (l2 : ∀ m ∈ l, m < 2) (hh : h < 16)
    (k : ∀ u m, m ∈ l → u.ueWords = s.ueWords → u.th m h = s.th m h → ThreadOnly [m] h u (f u m)) : ThreadOnly l h s (s.each l f) := by
  have w : ∀ (r : List Nat), (∀ x ∈ r, x ∈ l) → r.Nodup → ∀ u, ThreadOnly l h s u → (∀ x ∈ r, u.th x h = s.th x h) → ThreadOnly l h s (u.each r f) := by
    intro r
    induction r with
    | nil => intro _ _ u hu _; exact hu
    | cons x t ih =>
      intro hs nr u hu ht
      have hx := hs x (List.mem_cons_self ..)
      have step := k u x hx (by rw [hu.rest]) (ht x (List.mem_cons_self ..))
      refine ih (fun y hy => hs y (List.mem_cons_of_mem _ hy)) (List.nodup_cons.1 nr).2 _ (hu.trans (step.mono (fun m hm => by rw [List.mem_singleton.1 hm]; exact hx))) (fun y hy => ?_)
      have ne : y ≠ x := fun q => (List.nodup_cons.1 nr).1 (q ▸ hy)
      exact (step.threads y h (l2 y (hs y (List.mem_cons_of_mem _ hy))) hh (.inl (fun q => ne (List.mem_singleton.1 q)))).trans (ht y (List.mem_cons_of_mem _ hy))
  exact w l (fun _ h => h) nd s (ThreadOnly.refl l h s) (fun _ _ => rfl)

theorem lock_nodup (s : State) : s.lock.Nodup := (by decide : [0, 1].Nodup).filter _

/-- An issue of thread h, whose members in step allow exceptions and meet no uncorrectable word. -/
theorem ThreadOnly.issue {s : State} {h : Nat} (kind : OIns → Bool) (f : OIns → Nat → State → State) (hh : h < 16) (hu : s.ueWords = [])
    (ie : ∀ m ∈ s.lock, bitOf (s.th m h).status bitIE = true)
    (k : ∀ i m u, m < 2 → bitOf (u.th m h).status bitIE = true → ThreadOnly [m] h u (f i m u)) : ThreadOnly s.lock h s (s.issue h kind f) := by
  refine ThreadOnly.each s s.lock _ (lock_nodup s) (fun m hm => mem_lock hm) hh fun u m hm hu' ht => ?_
  have hm2 := mem_lock hm
  have ie' : bitOf (u.th m h).status bitIE = true := by rw [ht]; exact ie m hm
  split
  · exact ThreadOnly.refl _ _ _
  · split
    · rename_i e q
      unfold State.fetchFault State.when
      rw [if_neg (by simp [fetch_code (hu'.trans hu) q])]
      exact ThreadOnly.exc u e hm2 hh ie'
    · split
      · exact k _ m u hm2 ie'
      · exact ThreadOnly.refl _ _ _

end Sys2Proof.Machine
end

