-- ==== Sys2Proof/Laws/Outcome.lean ====
section
/-! SUPPORT. How a command ends: with nothing outstanding, settling changes nothing, and a command of a root-clocked block answers what its own function answers. -/

namespace Sys2Proof.Machine

theorem settle_of_quiet {s : State} (h : s.Quiet) : s.settle = s := by
  obtain ⟨h1, h2⟩ := h
  have e : ({ s with flt.brst := [] } : State) = s := by rw [← h1]
  unfold State.settle
  rw [h1]
  show (if s.flt.crst = true then _ else ({ s with flt.brst := [] } : State)) = s
  rw [h2]
  exact e

theorem fin_of_quiet {s : State} (h : s.Quiet) : fin s = .next s := by
  rw [fin, settle_of_quiet h]

theorem clocked_of_running {s : State} {f : State → State} (h : s.clk = Clk.running) : clocked s f = fin (f s) := by
  rw [clocked, if_pos h]

theorem clocked_of_stopped {s : State} {f : State → State} (h : s.clk ≠ Clk.running) : clocked s f = .next s := by
  rw [clocked, if_neg h]

/-- A command of a root-clocked block whose function gives t, where t has nothing outstanding. -/
theorem clocked_eq_quiet {s t : State} {f : State → State} (h : s.Ready) (e : f s = t) (q : t.Quiet) : clocked s f = .next t := by
  rw [clocked_of_running h.1, e, fin_of_quiet q]

/-- The same, where t differs from s in nothing that stands with the faults. -/
theorem clocked_eq {s t : State} {f : State → State} (h : s.Ready) (e : f s = t) (q : t.flt = s.flt) : clocked s f = .next t :=
  clocked_eq_quiet h e (by rw [State.Quiet, q]; exact h.2)

/-- The same, where t may have resets outstanding. -/
theorem clocked_settle {s t : State} {f : State → State} (h : s.clk = Clk.running) (e : f s = t) : clocked s f = .next t.settle := by
  rw [clocked_of_running h, e, fin]

end Sys2Proof.Machine
end

