-- ==== Sys2Proof/Laws/Settle.lean ====
section
/-! SUPPORT. The end of a command leaves no reset outstanding: the block resets are taken up, and a chip reset starts with none, for the reactions of CLK_LOSS stand at their reset value then, which is PIN alone. -/

namespace Sys2Proof.Machine

theorem Map.look_of_absent {α : Type} (m : Map α) (k : Nat) (d : α) (h : ∀ e ∈ m, e.1 ≠ k) : Map.look m k d = d := by
  induction m with
  | nil => rfl
  | cons e t ih =>
    rw [show Map.look (e :: t) k d = if e.1 = k then e.2 else Map.look t k d from rfl, if_neg (h e (List.mem_cons_self ..))]
    exact ih fun x hx => h x (List.mem_cons_of_mem _ hx)

/-- A register of the Control Die stands at its reset value when only the others are kept. -/
theorem word_of_kept (s : State) (m : Map RWord) (r : Reg) (i : Nat) (h : s.regs = m.filter (fun e => numCdRegs ≤ keyReg e.1))
    (hi : i < 16384) (hr : r.id < numCdRegs) : s.word r i = r.rst i 0 := by
  unfold State.word
  rw [h]
  refine Map.look_of_absent _ _ _ fun e he q => ?_
  have a := (List.mem_filter.mp he).2
  rw [q] at a
  have a' : numCdRegs ≤ keyReg (r.key i 0) := of_decide_eq_true a
  have l : keyReg (r.key i 0) = r.id := by
    unfold keyReg Reg.key
    omega
  omega

theorem g_of_regs {s t : State} (h : t.regs = s.regs) (f : Fld) (i j : Nat) : t.g f i j = s.g f i j := by
  unfold State.g State.word; rw [h]

theorem msix_brst (s : State) (f v : Nat) : (s.msix f v).flt = s.flt := by
  unfold State.msix; split
  · rfl
  · split <;> rfl

theorem fltFirst_out (s : State) (n : Nat) : (s.fltFirst n).flt.brst = s.flt.brst ∧ (s.fltFirst n).flt.crst = s.flt.crst := by
  unfold State.fltFirst State.when
  split
  · split <;> exact ⟨rfl, rfl⟩
  · exact ⟨rfl, rfl⟩

/-! Fields that a raise leaves alone. -/

theorem msix_g (s : State) (f v : Nat) (d : Fld) (n : Nat) (hd : d.reg.id ≠ R.LAT_STAT.id) (hn : n < 16384) : (s.msix f v).g d n = s.g d n := by
  unfold State.msix; split
  · exact g_put_reg _ _ _ _ _ _ (by decide) hn hd
  · split
    · exact g_of_regs rfl _ _ _
    · exact g_of_regs rfl _ _ _

theorem react_g (s : State) (k info : Nat) (d : Fld) (n : Nat) (h1 : d.reg.id ≠ R.LAT_STAT.id) (h2 : d.reg.id ≠ R.FLT_RST_CAUSE.id) (hn : n < 16384) :
    (s.react k info).g d n = s.g d n := by
  have w : ∀ (u : State) (c : Bool) (f : State → State), (∀ v : State, (f v).g d n = v.g d n) → (u.when c f).g d n = u.g d n := by
    intro u c f hf; unfold State.when; split
    · exact hf u
    · rfl
  have nm : ∀ v : State, ({ v with flt.nmi := v.flt.nmi ++ [(k, info, v.tbNow 0)] } : State).g d n = v.g d n := fun v => g_of_regs rfl _ _ _
  have br : ∀ v : State, ({ v with flt.brst := v.flt.brst ++ brstOf k info } : State).g d n = v.g d n := fun v => g_of_regs rfl _ _ _
  have cr : ∀ v : State, ({ (v.put F.FLT_RST_CAUSE_SRC k).put F.FLT_RST_CAUSE_VALID 1 with flt.crst := true } : State).g d n = v.g d n := fun v =>
    (g_of_regs (s := (v.put F.FLT_RST_CAUSE_SRC k).put F.FLT_RST_CAUSE_VALID 1) rfl _ _ _).trans
      ((g_put_reg _ _ _ _ _ _ (by decide) hn h2).trans (g_put_reg _ _ _ _ _ _ (by decide) hn h2))
  unfold State.react
  exact (w _ _ _ cr).trans ((w _ _ _ br).trans ((w _ _ _ nm).trans (w _ _ _ fun v => msix_g _ _ _ _ _ h1 hn)))

theorem fltFirst_g (s : State) (k : Nat) (d : Fld) (n : Nat) (h1 : d.reg.id ≠ R.FLT_FIRST.id) (h2 : d.reg.id ≠ R.FLT_FIRST_TIME.id) (hn : n < 16384) : (s.fltFirst k).g d n = s.g d n := by
  unfold State.fltFirst State.when
  generalize (s.tbNow 0).toNat = x
  split
  · split
    · rw [g_put_reg _ _ _ _ _ _ (by decide) hn h1, g_put_reg _ _ _ _ _ _ (by decide) hn h1]
    · rw [g_put_reg _ _ _ _ _ _ (by decide) hn h1]
  · have c : (((s.put F.FLT_FIRST_VALID 1).put F.FLT_FIRST_SRC k).put F.FLT_FIRST_TIME_VAL x).g d n = s.g d n := by
      rw [g_put_reg _ _ _ _ _ _ (by decide) hn h2, g_put_reg _ _ _ _ _ _ (by decide) hn h1, g_put_reg _ _ _ _ _ _ (by decide) hn h1]
    have k : ∀ u : State, ({ u with flt.firstAt := s.cycle } : State).g d n = u.g d n := fun u => g_of_regs rfl _ _ _
    exact (k _).trans c

/-- A source whose reactions ask for no reset leaves none outstanding. -/
theorem react_quiet (s : State) (n info : Nat) (b : s.on F.FLT_REACT_BRST n = false) (c : s.on F.FLT_REACT_CRST n = false) (hn : n < 16384) (q : s.Quiet) :
    (s.react n info).Quiet := by
  have m : ∀ u : State, (u.when (u.on F.FLT_REACT_INT n) (fun s => s.msix 0 (s.g F.FLT_CFG_VEC))).flt = u.flt := by
    intro u; unfold State.when; split
    · exact msix_brst _ _ _
    · rfl
  have g : ∀ (u : State) (d : Fld), d.reg = R.FLT_REACT → (u.when (u.on F.FLT_REACT_INT n) (fun s => s.msix 0 (s.g F.FLT_CFG_VEC))).on d n = u.on d n := by
    intro u d hd; unfold State.when State.on; split
    · exact congrArg (fun x => decide (x = 1)) (msix_g _ _ _ _ _ (by rw [hd]; decide) hn)
    · rfl
  unfold State.react
  generalize hu : s.when (s.on F.FLT_REACT_INT n) (fun s => s.msix 0 (s.g F.FLT_CFG_VEC)) = u
  have uf : u.flt = s.flt := hu ▸ m s
  have ub : u.on F.FLT_REACT_BRST n = false := hu ▸ (g s _ rfl).trans b
  have uc : u.on F.FLT_REACT_CRST n = false := hu ▸ (g s _ rfl).trans c
  have uq : u.Quiet := by unfold State.Quiet; rw [uf]; exact q
  have nm : ∀ x : Bool, (u.when x (fun s => { s with flt.nmi := s.flt.nmi ++ [(n, info, s.tbNow 0)] })).Quiet ∧
      (∀ d : Fld, (u.when x (fun s => { s with flt.nmi := s.flt.nmi ++ [(n, info, s.tbNow 0)] })).on d n = u.on d n) := by
    intro x; cases x
    · exact ⟨uq, fun _ => rfl⟩
    · exact ⟨uq, fun _ => rfl⟩
  dsimp only
  obtain ⟨wq, wo⟩ := nm (u.on F.FLT_REACT_NMI n)
  have wb := (wo F.FLT_REACT_BRST).trans ub
  have wc := (wo F.FLT_REACT_CRST).trans uc
  generalize u.when (u.on F.FLT_REACT_NMI n) (fun s => { s with flt.nmi := s.flt.nmi ++ [(n, info, s.tbNow 0)] }) = w at *
  have e : w.when (w.on F.FLT_REACT_BRST n && hasBrst n) (fun s => { s with flt.brst := s.flt.brst ++ brstOf n info }) = w := by
    rw [wb]; rfl
  rw [e, wc]
  exact wq

theorem raise_quiet (s : State) (n info : Nat) (b : s.on F.FLT_REACT_BRST n = false) (c : s.on F.FLT_REACT_CRST n = false) (hn : n < 16384) (q : s.Quiet) :
    (s.raise n info).Quiet := by
  unfold State.raise
  split
  · exact q
  split
  · exact q
  · unfold State.launch
    dsimp only
    have g : ∀ d : Fld, d.reg = R.FLT_REACT → (((s.hwWord R.FLT_STAT (s.word R.FLT_STAT ||| BitVec.ofNat 96 (2 ^ n)) (BitVec.ofNat 96 (2 ^ n))).put F.FLT_INFO_INFO info n).fltFirst n).on d n = s.on d n := by
      intro d hd
      unfold State.on
      rw [fltFirst_g _ _ _ _ (by rw [hd]; decide) (by rw [hd]; decide) hn, g_put_reg _ _ _ _ _ _ hn hn (by rw [hd]; decide)]
      unfold State.g
      rw [word_hwWord_other _ _ _ _ _ _ _ _ _ (key_ne _ _ hn (by decide) (by rw [hd]; decide))]
    refine react_quiet _ _ _ ((g _ rfl).trans b) ((g _ rfl).trans c) hn ?_
    unfold State.Quiet
    rw [(fltFirst_out _ _).1, (fltFirst_out _ _).2]
    exact q

/-- A chip reset leaves no reset outstanding (R373): CLK_LOSS, raised after it, finds its reactions at their reset value. -/
theorem chipReset_quiet (s : State) : s.chipReset.Quiet := by
  unfold State.chipReset
  dsimp only
  generalize hT : ({ State.reset with
    pending := s.pending
    cycle := s.cycle
    clk := if s.clk = Clk.off then Clk.off else Clk.running
    regs := if Map.look s.tm.pins 0 false then Map.ins (s.regs.filter (fun e => numCdRegs ≤ keyReg e.1)) (R.TB_SYNC_STAT.key 0 0) 1 else s.regs.filter (fun e => numCdRegs ≤ keyReg e.1)
    mem := s.mem
    ueWords := s.ueWords
    hostOut := s.hostOut
    freeCtr := s.freeCtr
    af := { s.af with tiles := (List.range 16).map (fun t => (t, { s.tl t with linkUp := false, retry := 0, badFrame := false, needReinit := true })) }
    mon := { State.reset.mon with mis := s.mon.mis, madcs := s.mon.madcs, ramps := s.mon.ramps, refills := s.mon.refills }
    flt := { State.reset.flt with log := s.flt.log, frzPin := s.flt.frzPin, ceBase := s.cycle }
    tm := { State.reset.tm with wire := s.tm.wire, pins := s.tm.pins }
    brs := { State.reset.brs with refill := s.cycle }
    pwr := { s.pwr with demand := [], bootAt := s.cycle, mcmd := [] } } : State) = T
  have q : T.Quiet := by rw [← hT]; exact ⟨rfl, rfl⟩
  have w : T.word R.FLT_REACT 35 = R.FLT_REACT.rst 35 0 := by
    rw [← word_of_kept { s with regs := s.regs.filter (fun e => numCdRegs ≤ keyReg e.1) } s.regs R.FLT_REACT 35 rfl (by decide) (by decide), ← hT]
    unfold State.word
    dsimp only
    split
    · exact Map.look_ins_other _ _ _ (by decide)
    · rfl
  unfold State.afterClkLoss
  split
  · exact q
  · refine raise_quiet T 35 _ ?_ ?_ (by decide) q
    · unfold State.on State.g; rw [show F.FLT_REACT_BRST.reg = R.FLT_REACT from rfl, w]; decide
    · unfold State.on State.g; rw [show F.FLT_REACT_CRST.reg = R.FLT_REACT from rfl, w]; decide

/-- The end of a command leaves no reset outstanding, whatever the command raised. -/
theorem settle_quiet (s : State) : s.settle.Quiet := by
  unfold State.settle
  dsimp only
  split
  · exact chipReset_quiet _
  · rename_i h
    exact ⟨rfl, Bool.eq_false_iff.mpr h⟩

end Sys2Proof.Machine
end

