-- ==== Sys2Proof/Tests/Builders.lean ====
section
/-! SUPPORT. Small states for the tests and for the witnesses of the statements. -/

namespace Sys2Proof.Machine

/-- Member A of the Sequencers in step and with the token; thread 0 runs, its code range is the first page, and a word stands at its start, with the word after it. -/
def oneThread (w : Nat) (x : Nat := 0) : State :=
  ((((State.reset.setMstate 0 0 4).put F.SEQ_LEASE_STAT_NOHOLDER 0).put F.SEQ_THR_CODE_SIZE 1 0).put F.SEQ_THR_STAT_STATE 1 0 0).wrN progBase 8 (w + x * 2 ^ 32)

/-- The same in OPERATE. -/
def oneThreadOp (w : Nat) : State := (oneThread w).put F.GLB_MODE_MODE 3

/-- A part in a freeze of n ns that no request holds any more; and the commit of partition 0, not yet armed anywhere. -/
def frozenFor (n : Nat) : State := { State.reset with clk := .frozen, flt.frozen := n, flt.frzPin := true, flt.frzMode := 3 }
def oneCommit : Commit := { lead := 0, mask := 1, tc := 1000000, toArm := [] }

/-! The states of the witnesses at the ends of a branch's range. -/

/-- Ring 0 enabled with entries to fetch, the link up, and k reads of its own outstanding. -/
def fetching (k : Nat) : State :=
  (({ State.reset with pci.linkUp := true, pci.fns := [(0, { bme := true })] } : State).put F.BRS_RING_CTL_EN 1 0 |>.put F.BRS_RQ_PI_PI 9 0 |>.put F.GLB_MODE_MODE 3).updRing 0
    (fun r => { r with reads := (List.range k).map (fun i => ⟨i, 1, none⟩) })
/-- Ring 0 with a message held back behind one that left in cycle 5, in cycle c. -/
def heldBack (c : Nat) : State :=
  ({ State.reset with cycle := c } : State).put F.BRS_RING_CTL_ITR 1 0 |>.updRing 0 (fun r => { r with lastMsg := some 5, msgDue := true })
/-- A value of SP_CFG with a FEC and a SPEED; the two ports enabled; a port enabled with its link up. -/
def cfgOf (fec speed : Nat) : W32 := BitVec.ofNat 32 (fec * 2 ^ F.SP_CFG_FEC.lo + speed * 2 ^ F.SP_CFG_SPEED.lo)
def portsOn : State := (State.reset.put F.SP_CFG_EN 1 0).put F.SP_CFG_EN 1 1
def portUp (p : Nat) : State := (State.reset.put F.SP_CFG_EN 1 p).put F.SP_STAT_LINK 1 p
/-- A broadcast frame of n bytes with a type. -/
def frameOf (type n : Nat) : List Byte := List.replicate 12 255 ++ [BitVec.ofNat 8 (type / 256), BitVec.ofNat 8 type] ++ List.replicate (n - 14) 0
/-- DMA channel 15 in a state; Chord channel 63 enabled in an enabled group; the device in a mode. -/
def dmaAt (k : Nat) : State := State.reset.put F.DMA_CH_STAT_STATE k 15
def chanOn : State := (State.reset.put F.EVT_CH_EN 1 63).put F.EVT_GRP_EN 0xFFFF
def inMode (m : Nat) : State := State.reset.put F.GLB_MODE_MODE m

/-- An OP3 word (R178). -/
def op3 (opc d s1 s2 func : Nat) : Nat := opc * 2 ^ 24 + d * 2 ^ 19 + s1 * 2 ^ 14 + s2 * 2 ^ 9 + func
/-- An instruction word with a 14-bit immediate, and one with a 19-bit offset (R178). -/
def opImm (opc d s1 imm : Nat) : Nat := opc * 2 ^ 24 + d * 2 ^ 19 + s1 * 2 ^ 14 + imm
def opOff (opc d off : Nat) : Nat := opc * 2 ^ 24 + d * 2 ^ 19 + off

end Sys2Proof.Machine
end

