-- ==== Sys2Proof/WellFormed.lean ====
section
/-! DEFINITION. Which commands a sender may give: the bounds that an operand's type does not carry. Every meaning is total and asks for none of them. -/

namespace Sys2Proof

/-- Bytes that lie in a window of n bytes from an offset on (R31, R32). -/
def fits (off n : Nat) (bs : List Byte) : Bool := !bs.isEmpty && off + bs.length ≤ n
/-- An address of register space aligned to its width (R8). -/
def alignedTo (wide : Bool) (a : Nat) : Bool := a % (if wide then 8 else 4) = 0
/-- No element stands twice. -/
def distinct (l : List Nat) : Bool := decide l.Nodup

/-- The size and payload of a received request: at most 512 bytes are written at once (R293). -/
def PcieReq.wf (r : PcieReq) : Bool :=
  match r with
  | .write _ _ data _ _ => !data.isEmpty && data.length ≤ 512
  | .read _ _ n _ => 0 < n.val
  | _ => true

/-- An access of an instrument keeps to the alignment of R8. -/
def JtagOp.wf (x : JtagOp) : Bool :=
  match x with
  | .regRead a w => alignedTo w a.toNat
  | .regWrite a w _ _ => alignedTo w a.toNat
  | .testRead a w => alignedTo w a.toNat
  | .testWrite a w _ => alignedTo w a.toNat
  | _ => true

def Instr.wf (i : Instr) : Bool :=
  match i with
  | .registerWrite _ a w _ _ => alignedTo w a.toNat
  | .reg64LatchRead _ a w => alignedTo w a.toNat
  | .contextWrite _ _ off bs => fits off.val 128 bs
  | .repTableWrite _ off bs => fits off.val 128 bs
  | .mapStoreWrite off bs => fits off.toNat 0x1000000 bs
  | .psWrite off bs => fits off.toNat 0x200000 bs
  | .entryArrival _ _ bs => !bs.isEmpty && bs.length % 64 = 0
  | .carafeWrite _ data _ _ => !data.isEmpty && data.length ≤ 1280
  | .flashWrite _ data got => data.length = got.length
  | .latStarvePromote _ heads => distinct (heads.map (fun h => h.val))
  | .vhtrDemandReport _ loads _ _ _ => distinct (loads.map (fun e => e.1.val))
  | .osDone _ x => distinct (x.sites.map (fun x => x.site.val))
  | .armReply _ _ loads _ => distinct (loads.map (fun e => e.1.val))
  | .rotorSkipCheck _ loads _ => distinct (loads.map (fun e => e.1.val))
  | .vfDoorbellAccess v _ _ _ _ => v.val != 0
  | .vfRingWrite v _ => v.val != 0
  | .vfVecWrite v _ => v.val != 0
  | .vfMboxSend v => v.val != 0
  | .pfMboxSend v => v.val != 0
  | .vfFlr v => v.val != 0
  | .vfFlrDone v => v.val != 0
  | .pcieRequest _ r => r.wf
  | .ijtagAccess x => x.wf
  | _ => true

end Sys2Proof
end

