-- ==== Sys2Proof/Tests/Slice0.lean ====
section
/-! SUPPORT. Tests on small states, with results from the spec's own worked examples and tables; ill-formed commands that the checks refuse; and for each statement a state and operands that meet its hypotheses. -/

namespace Sys2Proof.Machine

set_option Elab.async false

/-! ### Well-formedness: an ill-formed command for each check -/

theorem test_wf_register_align : (Instr.registerWrite 1 0x10002 false 0 []).wf = false ∧ (Instr.registerWrite 1 0x10004 true 0 []).wf = false ∧ (Instr.registerWrite 1 0x10004 false 0 []).wf = true := by decide
theorem test_wf_latch_align : (Instr.reg64LatchRead 1 0x10 true).wf = true ∧ (Instr.reg64LatchRead 1 0x14 true).wf = false := by decide
theorem test_wf_context_span : (Instr.contextWrite 0 0 127 [1, 2]).wf = false ∧ (Instr.contextWrite 0 0 0 []).wf = false ∧ (Instr.contextWrite 0 0 126 [1, 2]).wf = true := by decide
theorem test_wf_table_span : (Instr.repTableWrite 0 127 [1, 2]).wf = false := by decide
theorem test_wf_map_span : (Instr.mapStoreWrite 0xFFFFFF [1, 2]).wf = false := by decide
theorem test_wf_ps_span : (Instr.psWrite 0x1FFFFF [1, 2]).wf = false := by decide
theorem test_wf_entry_whole : (Instr.entryArrival 0 0 [1, 2, 3]).wf = false := by decide
theorem test_wf_carafe_count : (Instr.carafeWrite 0 [] 0 none).wf = false ∧ (Instr.carafeWrite 0 [0x1ACCD] 0 none).wf = true := by decide
theorem test_wf_flash_lengths : (Instr.flashWrite 0 [1, 2] [1]).wf = false := by decide
theorem test_wf_heads_distinct : (Instr.latStarvePromote 0 [1, 1]).wf = false := by decide
theorem test_wf_loads_distinct : (Instr.vhtrDemandReport 0 [(3, 5), (3, 6)] 0 0 0).wf = false ∧ (Instr.armReply 0 0 [(3, 5), (3, 6)] 0).wf = false ∧ (Instr.rotorSkipCheck 0 [(3, 5), (3, 6)] 0).wf = false ∧ (Instr.rotorSkipCheck 0 [(3, 5), (4, 5)] 0).wf = true := by decide
theorem test_wf_sites_distinct (m : OsMeas) : (Instr.osDone 0 ⟨[m, m], m⟩).wf = false ∧ (Instr.osDone 0 ⟨[m], m⟩).wf = true := by simp [Instr.wf, Sys2Proof.distinct]
theorem test_wf_vf_number : (Instr.vfRingWrite 0 0).wf = false ∧ (Instr.vfVecWrite 0 0).wf = false ∧ (Instr.vfMboxSend 0).wf = false ∧ (Instr.vfFlr 0).wf = false ∧ (Instr.vfFlr 63).wf = true := by decide
theorem test_wf_pcie_payload : (Instr.pcieRequest 0 (.write 0 0 [] false [])).wf = false ∧ (Instr.pcieRequest 0 (.read 0 0 0 false)).wf = false ∧ (Instr.pcieRequest 0 .atomic).wf = true := by decide
theorem test_wf_ijtag_align : (Instr.ijtagAccess (.regRead 0x10001 false)).wf = false ∧ (Instr.ijtagAccess (.testWrite 0x10004 true 0)).wf = false := by decide

/-! ### Places (R9, R29, R30; the worked example of 00) -/

theorem test_place_ao_9000 : aoTile 9000 = 7 ∧ aoChan 9000 = 40 ∧ miTile 5003 = 4 ∧ miPos 5003 = 907 ∧ miMadc 5003 = 3 := by decide
/-- 02: write32(0x005D_00A0) is AO_CFG of k = 40 in T7; write32(0x005D_C028) is AO_TOL2 of T7. -/
theorem test_address_ao_cfg : (placeAt 0x5D00A0).map (fun p => (p.reg.id, p.i, p.j)) = some (R.AO_CFG.id, 7, 40) := by decide +kernel
theorem test_address_ao_tol : (placeAt 0x5DC028).map (fun p => (p.reg.id, p.i, p.j)) = some (R.AO_TOL.id, 7, 2) := by decide +kernel
/-- 03: write32(0x0052_0E2C) is MI_CFG of j = 907 in T4. -/
theorem test_address_mi_cfg : (placeAt 0x520E2C).map (fun p => (p.reg.id, p.i, p.j)) = some (R.MI_CFG.id, 4, 907) := by decide +kernel
/-- 15: 0x0008_038C is THM_TD28_VAL. -/
theorem test_address_td_val : (placeAt 0x8038C).map (fun p => (p.reg.id, p.i)) = some (R.THM_TD_VAL.id, 28) := by decide +kernel

/-! ### Actuator outputs (the worked example of 02) -/

/-- AO 9000 as configured there: V-mode, ±10 V, CLOAD 60, PART 3, OWNED. -/
def ao9000 : State := State.reset.setWord R.AO_CFG 0x1343C9 7 40
theorem test_ao_cfg_fields : ao9000.ga F.AO_CFG_MODE 9000 = 1 ∧ ao9000.ga F.AO_CFG_CLOAD 9000 = 60 ∧ ao9000.ga F.AO_CFG_TOLSEL 9000 = 1 ∧ ao9000.ga F.AO_CFG_PART 9000 = 3 ∧ ao9000.ona F.AO_CFG_OWNED 9000 = true := by decide
/-- From 0 V to +3.5 V the rails give 26.25 pC: 420.007 sixteenths of a pC, rounded up (R46, R137). -/
theorem test_charge_term : (ao9000.pa F.AO_ACT_CODE 0x8000 9000).chargeTerm 9000 0xACCD = 421 := by decide
/-- The Carafe entry 0x0001_ACCD parks it at +3.5 V. -/
theorem test_park_entry : (({ ao9000 with af.carafe.entry := [(9000, 0x1ACCD)] } : State).park 9000).ga F.AO_ACT_CODE 9000 = 0xACCD := by decide +kernel
/-- A direct write in HOLD is refused (R43). -/
theorem test_dir_refused : aoDirWrite 9000 0x9000 ao9000 = ao9000.put F.AO_TILE_STAT_DIR_REFUSED 1 7 := by decide +kernel

/-! ### Monitor inputs (the worked example of 03) -/

/-- MI 5003 sampled in a focus slot in the 40 uA range during pass 5 with code 0x9A4. -/
theorem test_sq_entry : sqWord 5003 { code := 0x9A4, range := 1, focus := true, conv := 0, seq := 5, serial := 0 } = 0x4E2DD9A4 := by decide
/-- The same code in monitor units: 2,468 x 10 (R85). -/
theorem test_monitor_units : monUnits { code := 0x9A4, range := 1, focus := true, conv := 0, seq := 5, serial := 0 } = 24680 := by decide

/-! ### Obrix: the words of the worked example of 07 -/

theorem test_decode_ori : decodeObrix 0x12100FA0 0 = some { opc := 0x12, d := 2, s1 := 0, imm := 4000, uimm := 4000 } := by decide
theorem test_decode_timeadd_ext : decodeObrix 0xF0084041 0xFFFFFD44 = some { opc := 0x41, d := 1, s1 := 1, imm := -700, uimm := 0xFFFFFD44, len := 8 } := by decide
theorem test_decode_br_late : decodeObrix 0x30580006 0 = some { opc := 0x30, d := 11, imm := 6 } := by decide
theorem test_decode_br_back : decodeObrix 0x3007FFF4 0 = some { opc := 0x30, d := 0, imm := -12 } := by decide
theorem test_decode_trace : decodeObrix 0x4500C001 0 = some { opc := 0x45, s1 := 3, func := 1 } := by decide
theorem test_decode_round : decodeObrix 0x41084404 0 = some { opc := 0x41, d := 1, s1 := 1, s2 := 2, func := 4 } := by decide
/-- An opcode of no row, and a field that its instruction does not use, are ILLEGAL (R178). -/
theorem test_decode_illegal : decodeObrix 0xFF000000 0 = none ∧ decodeObrix 0x3F080000 0 = none := by decide
/-- ADDI wraps: all ones and 1 give 0 with Z and C, without V (R181). -/
theorem test_add_wraps : flagsAdd 0 0xFFFFFFFFFFFFFFFF 1 = withCV (withZN 0 0) true false := by decide
/-- SUB of the smallest number overflows: V, and C says no borrow (R181). -/
theorem test_sub_overflows : flagsSub 0 0x8000000000000000 1 = withCV (withZN 0 0x7FFFFFFFFFFFFFFF) true true := by decide
/-- ORI G2, G0, 4000 issued by thread 0. -/
theorem test_step_ori : (match exec (.ori 0) (oneThread 0x12100FA0) with
    | .next t => decide ((t.th 0 0).gr 2 = 4000 ∧ (t.th 0 0).pc = 4)
    | _ => false) = true := by decide +kernel
/-- G0 reads zero and takes no write (R173). -/
theorem test_g0_discards : (({} : ThrSt).setG 0 5).gr 0 = 0 := by decide

/-! ### Time (R268, R269) -/

/-- The increment of reset is 1 ns a CORE cycle. -/
theorem test_tick_counts : (match step State.reset with
    | .next t => decide (t.tbVal 0 = nsU ∧ t.cycle = 1)
    | _ => false) = true := by decide +kernel

/-! ### Registers (R5, R7, R12) -/

/-- GLB_ID reads 0x00B0_5120. -/
theorem test_read_id : (match exec (.reg64LatchRead 0 0 false) State.reset with
    | .next t => decide (t.readData = 0xB05120)
    | _ => false) = true := by decide +kernel
/-- An unused offset reads as zero and ignores a write. -/
theorem test_unused_offset : (match exec (.reg64LatchRead 0 0xFFF00 false) State.reset with
    | .next t => decide (t.readData = 0)
    | _ => false) = true := by decide +kernel

/-! ### Temperature (the worked example of 15) -/

/-- TD28 in DIODE mode with AUTO_RS and ETA 4,128; T7's converter takes its input 0. -/
def td28 : State := ((State.reset.updTl 7 (fun x => { x with linkUp := true })).setWord R.THM_TD_CFG 0x102091 28)
/-- 39.989 mV and 40.529 mV: R_s is 10.0 ohm, the temperature 57.5 degrees, and the input is OK. (RAW is 920 there; the model leaves its rounding free, log entry 6.) -/
theorem test_td_reading : (tdConversion 7 600000 700000 39989000 40529000 td28).g F.THM_TD_STAT_RSM 28 = 100 ∧
    (tdConversion 7 600000 700000 39989000 40529000 td28).g F.THM_TD_STAT_STATE 28 = 0 := by decide +kernel
/-- The median of its neighbours' 916, 920, 924 and 928. -/
theorem test_td_median : median (sortInts [924, 916, 928, 920]) = 922 := by decide

/-! ### Links and packets -/

/-- R398: x^7 + x^6 + 1 from all ones sends six zeros and a one. -/
def prbs7 (n : Nat) : LaneSt × List Bool :=
  (List.range n).foldl (fun (x : LaneSt × List Bool) _ => ((x.1.send ⟨1, false, 16, 0, 1⟩).1, x.2 ++ [(x.1.send ⟨1, false, 16, 0, 1⟩).2])) ({}, [])
theorem test_prbs7_start : (prbs7 7).2 = [false, false, false, false, false, false, true] := by decide +kernel
/-- R401: an INJ inverts the next bit and no other. -/
theorem test_inj_one_bit : (({ inj := 1 } : LaneSt).send ⟨1, false, 16, 0, 1⟩).2 = true ∧ (({ inj := 1 } : LaneSt).send ⟨1, false, 16, 0, 1⟩).1.inj = 0 := by decide +kernel
/-- R317: no request crosses a 4 KiB boundary. -/
theorem test_split_4k : (hostRuns 512 (atAddr 0xFFC [1, 2, 3, 4, 5, 6])).map (fun r => (r.1, r.2.length)) = [(0xFFC, 4), (0x1000, 2)] := by decide +kernel
/-- R296: BAR0 is a 64-bit BAR that is not prefetchable. -/
theorem test_bar_type : ({} : FnCfg).barWord 0 0 = 4 := by decide
/-- The check value of the CRC-32 of IEEE 802.3 over the digits 1 to 9. -/
theorem test_crc32 : crc32 [0x31, 0x32, 0x33, 0x34, 0x35, 0x36, 0x37, 0x38, 0x39] = 0xCBF43926 := by decide +kernel

/-! ### Commands waiting -/

/-- The front of the queue is carried out; nothing in the table spells a command by bits. -/
theorem test_queue_front : step { State.reset with pending := [.chordOccurrence, .evtRaise 3] } = .next { State.reset with pending := [.evtRaise 3] } := by rfl
theorem test_no_words : State.reset.withFetchWord 32 7 = State.reset := by rfl

/-! ### Witnesses: for each statement, a state and operands that meet its hypotheses -/

/-- The hypotheses of each clause of StepFront are met together. -/
theorem wit_StepFront :
    (∃ (s : State), (s.pending = [])) :=
  ⟨State.reset, by decide⟩

/-- The hypotheses of each clause of TileLinks are met together. -/
theorem wit_TileLinks :
    (∃ (s : State) (t : Tile), (s.Ready) ∧ ((s.tl t).linkUp = true) ∧ ((s.tl t).badFrame = false)) ∧
    (∃ (s : State) (t : Tile), (s.Ready) ∧ ((s.tl t).badFrame = true)) ∧
    (∃ (s : State) (t : Tile), (s.Ready) ∧ (s.tileLanesOn t = false)) ∧
    (∃ (s : State) (t : Tile) (b r v : State), (s.Ready) ∧ ((s.tl t).linkUp = false) ∧ ((s.tl t).powered = true) ∧ (s.tileLanesOn t = false) ∧ (b = (let u := s.updTl t (fun x => { x with linkUp := true, badFrame := false, retry := 0 }); ({ u with tm.reps := Map.upd u.tm.reps t {} (fun y => { y with due := u.cycle }) } : State))) ∧ (r = (if (s.tl t).needReinit then b.tileReinit t else b)) ∧ (v = (r.updTl t (fun x => { x with told := true })).fsum t 5)) :=
  ⟨⟨(State.reset.updTl 3 (fun x => { x with linkUp := true })), 3, by decide⟩,
   ⟨(State.reset.updTl 3 (fun x => { x with badFrame := true })), 3, by decide⟩,
   ⟨State.reset, 3, by decide⟩,
   ⟨State.reset.updTl 3 (fun x => { x with needReinit := false }), 3, _, _, _, by decide, by decide, by decide, by decide, rfl, rfl, rfl⟩⟩

/-- The hypotheses of each clause of AoWrites are met together. -/
theorem wit_AoWrites :
    (∃ (s : State) (a : Ao) (v : W32), (s.clk = Clk.running) ∧ (s.Quiet) ∧ (s.ga F.AO_CFG_OWNED a = 0)) ∧
    (∃ (s : State) (a : Ao) (code : BitVec 16), (s.Ready) ∧ (s.ona F.AO_CFG_OWNED a = true) ∧ (s.pm (s.ga F.AO_CFG_PART a) = 3 ∨ s.pm (s.ga F.AO_CFG_PART a) = 4) ∧ (s.ona F.AO_STAT_FAULT a = false) ∧ (s.tileFenced (aoTile a) = false) ∧ (s.partFenced (s.ga F.AO_CFG_PART a) = false) ∧ (s.cal.meas = []) ∧ (s.wroteNow a = none)) ∧
    (∃ (s : State) (a : Ao) (code : BitVec 16), (s.Ready) ∧ (s.ona F.AO_CFG_OWNED a = false ∨ (s.pm (s.ga F.AO_CFG_PART a) ≠ 3 ∧ s.pm (s.ga F.AO_CFG_PART a) ≠ 4) ∨ s.ona F.AO_STAT_FAULT a = true ∨ s.tileFenced (aoTile a) = true ∨ s.partFenced (s.ga F.AO_CFG_PART a) = true ∨ s.actBlocked a 4 = true)) ∧
    (∃ (s : State) (a : Ao), (s.clk = Clk.running) ∧ (s.ona F.AO_STAT_FAULT a = true)) ∧
    (∃ (s : State) (a : Ao), (s.Ready)) ∧
    (∃ (s : State) (o : LoopOut) (rest : List LoopOut), (s.Ready) ∧ (s.le.outs = o :: rest)) ∧
    (∃ (s : State) (a : Nat), ((s.tl (aoTile a)).powered = true) ∧ (s.on F.TST_OS_STAT_BUSY (aoTile a) = false) ∧ (s.ga F.AO_CFG_MODE a = 2) ∧ (s.ona F.AO_CFG_EN a = true)) :=
  ⟨⟨State.reset, 5, by decide⟩,
   ⟨(((State.reset.put F.AO_CFG_OWNED 1 0 5).put F.GLB_MODE_MODE 3).put F.GLB_PMODE_MODE 3 0), 5, 7, by decide⟩,
   ⟨State.reset, 5, 7, by decide⟩,
   ⟨State.reset.put F.AO_STAT_FAULT 1 0 5, 5, by decide⟩,
   ⟨State.reset, 5, by decide⟩,
   ⟨{ State.reset with le.outs := [⟨5, 7, 0⟩] }, ⟨5, 7, 0⟩, [], by decide⟩,
   ⟨((State.reset.put F.AO_CFG_MODE 2 0 5).put F.AO_CFG_EN 1 0 5), 5, by decide⟩⟩

/-- The hypotheses of each clause of Supervision are met together. -/
theorem wit_Supervision :
    (∃ (s : State) (t : Tile) (k : Nat) (reading : BitVec 16) (aux : Nat) (lim : Bool) (u : State), (s.Ready) ∧ ((s.tl t).sadc.prio = [(k, 0)]) ∧ (s.supervised t k = true) ∧ (u = ((s.updSadc t (fun q => { q with prio := [] })).pa F.AO_RB_READING reading.toNat (t * 1280 + k)).pa F.AO_RB_VALID 1 (t * 1280 + k))) ∧
    (∃ (s : State) (why : Fin 2), (s.Ready)) ∧
    (∃ (s : State), (s.clk = Clk.lost) ∧ (s.Quiet)) :=
  ⟨⟨(((State.reset.updSadc 0 (fun q => { q with prio := [(5, 0)] })).put F.AO_CFG_MODE 1 0 5).put F.AO_CFG_EN 1 0 5), 0, 5, 7, 0, false, _, by decide, by decide, by decide, rfl⟩,
   ⟨State.reset, 1, by decide⟩,
   ⟨{ State.reset with clk := .lost }, by decide⟩⟩

/-- The hypotheses of each clause of MonitorInputs are met together. -/
theorem wit_MonitorInputs :
    (∃ (s : State) (m : Mi) (v : W32), (s.Ready) ∧ (s.gm F.MI_CFG_OWNED m = bitsOf v.toNat F.MI_CFG_OWNED.lo F.MI_CFG_OWNED.wd) ∧ (s.gm F.MI_CFG_PART m = bitsOf v.toNat F.MI_CFG_PART.lo F.MI_CFG_PART.wd)) ∧
    (∃ (s : State) (t : Tile) (code : Byte), (s.Ready)) ∧
    (∃ (s : State) (t : Tile) (i : Byte), (s.Ready) ∧ (biasPos (s.ramp t) s.cycle = (s.ramp t).target)) ∧
    (∃ (s : State) (t : Tile), (s.clk = Clk.running)) ∧
    (∃ (s : State) (t : Tile) (d : Madc) (code : BitVec 12) (sat : Bool) (u : State) (c : Option Flight), (s.Ready) ∧ (s.madcRuns = true) ∧ (s.cycle % 4 = 0) ∧ ((s.md t d).edge ≠ some s.cycle) ∧ (s.startConv t d = (u, c))) ∧
    (∃ (s : State) (t : Tile) (d : Madc) (code : BitVec 12) (sat : Bool), (s.Ready) ∧ (s.madcRuns = false ∨ s.cycle % 4 ≠ 0 ∨ (s.md t d).edge = some s.cycle)) ∧
    (∃ (s : State) (t d : Nat), ((s.md t d).active = []) ∧ ((s.md t d).pass = true) ∧ ((s.md t d).pos ≤ (s.md t d).len) ∧ ((s.md t d).mode ≠ 1) ∧ ((s.md t d).delay = none)) ∧
    (∃ (s : State) (t : Tile) (d : Madc) (v : W32) (u : State), (s.Ready) ∧ (u = s.each [F.MI_SCAN_CTL_MODE, F.MI_SCAN_CTL_TPART, F.MI_SCAN_CTL_LEN, F.MI_SCAN_CTL_DELAY] (fun s f => s.sput f (bitsOf v.toNat f.lo f.wd) t d))) ∧
    (∃ (s : State) (t : Tile) (d : Madc), (s.Ready) ∧ ((s.md t d).mode = 1) ∧ ((s.md t d).timer ≤ s.cycle) ∧ (s.madcRuns = true) ∧ ((s.md t d).pass = false ∨ (s.md t d).pos ≤ (s.md t d).len)) ∧
    (∃ (s : State) (t : Tile) (d : Madc) (due : Nat), (s.Ready) ∧ ((s.md t d).delay = some due) ∧ (due ≤ s.cycle)) ∧
    (∃ (s : State) (t : Tile) (d : Madc), (s.Ready) ∧ ((s.md t d).pass = true) ∧ ((s.md t d).mode = s.g F.MI_SCAN_CTL_MODE t d)) ∧
    (∃ (s : State) (t : Tile) (d : Madc), (s.Ready) ∧ ((s.md t d).active.filter (s.focusOver (s.md t d).mode) = [])) ∧
    (∃ (s : State) (t : Tile) (d : Madc) (e : FocEnt), (s.Ready) ∧ ((s.md t d).active = [e]) ∧ (s.focusOver (s.md t d).mode e = true)) :=
  ⟨⟨State.reset, 5, 0, by decide⟩,
   ⟨State.reset, 5, 0, by decide⟩,
   ⟨State.reset, 5, 0, by decide⟩,
   ⟨State.reset, 5, by decide⟩,
   ⟨({ State.reset with mon.madcs := [(0, { pass := true })] }.put F.GLB_MODE_MODE 3), 0, 0, 0, false, _, _, by decide, by decide, by decide, by decide, (Prod.eta _).symm⟩,
   ⟨{ State.reset with cycle := 1 }, 0, 0, 0, false, by decide⟩,
   ⟨{ State.reset with mon.madcs := [(0, { pass := true })] }, 0, 0, by decide⟩,
   ⟨State.reset, 0, 0, 0, _, by decide, rfl⟩,
   ⟨({ State.reset with mon.madcs := [(0, { mode := 1 })] }.put F.GLB_MODE_MODE 3), 0, 0, by decide⟩,
   ⟨{ State.reset with mon.madcs := [(0, { mode := 2, delay := some 0 })] }, 0, 0, 0, by decide⟩,
   ⟨{ State.reset with mon.madcs := [(0, { pass := true, len := 0, pos := 1 })], cycle := 4 }, 0, 0, by decide⟩,
   ⟨State.reset, 0, 0, by decide⟩,
   ⟨{ State.reset with mon.madcs := [(0, { active := [⟨5, 0, 0⟩] })] }, 0, 0, ⟨5, 0, 0⟩, by decide⟩⟩

/-- The hypotheses of each clause of SampleQueues are met together. -/
theorem wit_SampleQueues :
    (∃ (s : State) (t m : Nat) (x : Samp) (rest : List (Nat × Nat × Samp)), (s.Ready) ∧ (s.mon.fwd = (t, m, x) :: rest)) ∧
    (∃ (s : State) (t : Tile) (b : Fin 3), (s.Ready) ∧ (125 * (Map.look s.mon.refills (3 * t + b) 0 + 1) ≤ 8 * s.cycle)) ∧
    (∃ (s : State) (q w : Nat) (rest : List (Nat × Nat)) (u : State), (s.Ready) ∧ (s.mon.sq = (q, w) :: rest) ∧ (u = { s with mon.sq := rest })) ∧
    (∃ (s : State) (q : Fin 16) (v : BitVec 17), (s.Ready)) ∧
    (∃ (s : State) (q : Fin 16), (s.Ready)) :=
  ⟨⟨{ State.reset with mon.fwd := [(0, 5, ⟨0, 0, false, 0, 0, 0⟩)] }, 0, 5, ⟨0, 0, false, 0, 0, 0⟩, [], by decide⟩,
   ⟨{ State.reset with cycle := 100 }, 0, 0, by decide⟩,
   ⟨{ State.reset with mon.sq := [(0, 5)] }, 0, 5, [], _, by decide, by decide, rfl⟩,
   ⟨State.reset, 0, 0, by decide⟩,
   ⟨State.reset, 0, by decide⟩⟩

/-- The hypotheses of each clause of LoopEngines are met together. -/
theorem wit_LoopEngines :
    (∃ (s : State) (a : Ao), (s.clk = Clk.running) ∧ (s.con 0 a C.TSRC = false) ∧ (s.noHolder (1 + aoTile a) = false) ∧ (s.cg 0 a C.LAW ≠ 0 ∧ s.cg 0 a C.LAW ≠ 3) ∧ (s.ctxRunning a = true) ∧ (s.isOuter a = false) ∧ ((s.cs a).due = false)) ∧
    (∃ (s : State) (a : Ao) (x : Samp) (u : State), (s.clk = Clk.running) ∧ (s.lastSamp (aoTile a) (s.cg 0 a C.MI1) = some x) ∧ (s.con 0 a C.TSRC = true) ∧ (s.noHolder (1 + aoTile a) = false) ∧ (s.cg 0 a C.LAW ≠ 0 ∧ s.cg 0 a C.LAW ≠ 3) ∧ (s.ctxRunning a = true) ∧ (s.isOuter a = false) ∧ ((s.cs a).due = false) ∧ (s.tickNow a = true) ∧ (u = s.updCs a (fun c => { c with tick := some s.cycle })) ∧ (u.ctxUe a = none)) ∧
    (∃ (s : State) (a : Ao) (u : State), (s.Ready) ∧ (u = s.updCs a (fun c => { c with due := false }))) ∧
    (∃ (s : State) (bank : Fin 2) (a : Ao) (off : Fin 128) (bs : List Byte), (s.Ready)) ∧
    (∃ (s : State) (a : Ao), (s.Ready)) ∧
    (∃ (s : State) (a : Ao), (s.clk = Clk.running)) ∧
    (∃ (s : State) (t : Tile) (slots fcost : Byte) (u : State), (s.Ready) ∧ (u = (s.sput F.LE_FOCUS_SLOTS slots.toNat t).sput F.LE_FOCUS_FCOST fcost.toNat t)) :=
  ⟨⟨((({ State.reset with le.last := [(0, ⟨5, 0, false, 0, 0, 1⟩)] }.put F.AO_CFG_OWNED 1 0 0).put F.LE_LEASE_STAT_NOHOLDER 0 0).cp 0 0 C.LAW 1).cp 0 0 C.STATE 2, 0, by decide +kernel⟩,
   ⟨((((({ State.reset with le.last := [(0, ⟨5, 0, false, 0, 0, 1⟩)] }.put F.AO_CFG_OWNED 1 0 0).put F.LE_LEASE_STAT_NOHOLDER 0 0).cp 0 0 C.LAW 1).cp 0 0 C.STATE 2).cp 0 0 C.TSRC 1).cp 0 0 C.MININT 8, 0, ⟨5, 0, false, 0, 0, 1⟩, _, by decide +kernel, by decide +kernel, by decide +kernel, by decide +kernel, by decide +kernel, by decide +kernel, by decide +kernel, by decide +kernel, by decide +kernel, rfl, by decide +kernel⟩,
   ⟨State.reset, 0, _, by decide, rfl⟩,
   ⟨State.reset, 0, 0, 0, [], by decide⟩,
   ⟨State.reset, 0, by decide⟩,
   ⟨State.reset, 0, by decide⟩,
   ⟨State.reset, 0, 0, 0, _, by decide, rfl⟩⟩

/-- The hypotheses of each clause of Routing are met together. -/
theorem wit_Routing :
    (∃ (s u : State) (off : BitVec 24) (bs : List Byte), (s.Ready) ∧ (u = s.grant 3 0)) ∧
    (∃ (s : State) (off c : Nat) (b : Byte) (rest : List (Nat × Nat × Byte)), (s.Ready) ∧ (s.rtu.mirror = (off, c, b) :: rest) ∧ (c + 2000 ≤ s.cycle)) ∧
    (∃ (s : State) (p : Part), (s.Ready)) ∧
    (∃ (s : State) (p : Part) (u v : State), (s.Ready) ∧ ((s.rp p).loading = true) ∧ (s.engGated = false) ∧ (u = (s.updRp p (fun r => { r with loading := false })).grant 3 6) ∧ (v = ((u.put F.RTU_PSTAT_DESC_ERR 0 p).put F.RTU_PSTAT_DESC_VALID 1 p).updRp p (fun r => { r with desc := s.descAt p }))) ∧
    (∃ (s : State) (p : Part), (s.Ready)) ∧
    (∃ (s : State) (p : Part), (s.Ready)) ∧
    (∃ (s : State) (p : Nat), (s.Ready)) ∧
    (∃ (s : State) (p : Nat) (j : Job) (u : State), (s.clk = Clk.running) ∧ (p = s.g F.RTU_STAT_CUR_PART) ∧ ((s.rp p).job = some j) ∧ ((s.rp p).running = true) ∧ (s.engGated = false)) :=
  ⟨⟨State.reset, _, 0, [], by decide, rfl⟩,
   ⟨{ State.reset with cycle := 2000, rtu.mirror := [(0x100000, 0, 1)] }, 0x100000, 0, 1, [], by decide⟩,
   ⟨State.reset, 0, by decide⟩,
   ⟨State.reset.updRp 0 (fun r => { r with loading := true }), 0, _, _, by decide, by decide, by decide, rfl, rfl⟩,
   ⟨State.reset, 0, by decide⟩,
   ⟨State.reset, 0, by decide⟩,
   ⟨State.reset, 0, by decide⟩,
   ⟨State.reset.updRp 0 (fun r => { r with job := some ⟨none, none, false, 0, [], none, false, 0⟩, running := true }), 0, ⟨none, none, false, 0, [], none, false, 0⟩, State.reset, by decide⟩⟩

/-- The hypotheses of each clause of Staging are met together. -/
theorem wit_Staging :
    (∃ (s : State) (t : Tile) (b : Burst) (w : SWord) (rest : List SWord), (s.clk = Clk.running) ∧ (s.findBurst (fun b => b.tile = t.val && b.kind ≤ 1 && !b.words.isEmpty) = some b) ∧ (b.words = w :: rest)) ∧
    (∃ (s : State) (t : Tile) (b : Burst), (s.clk = Clk.running) ∧ (s.findBurst (fun b => b.tile = t.val && b.complete) = some b)) ∧
    (∃ (s : State) (t : Tile) (b : Burst), (s.clk = Clk.running) ∧ (s.findBurst (fun b => b.tile = t.val && b.kind = 2 && !b.ready) = some b) ∧ (s.cacheSlot t b.part b.slot = none) ∧ (((s.rtu.cache.filter (fun c => c.tile = t.val && c.bank = b.part / 4 && c.slot != b.slot)).map (fun c => c.words.length)).sum + b.words.length ≤ 65536)) ∧
    (∃ (s : State) (t : Tile) (b : Burst) (c : CacheSlot), (s.clk = Clk.running) ∧ (s.findBurst (fun b => b.tile = t.val && b.kind = 2 && !b.ready) = some b) ∧ (s.cacheSlot t b.part b.slot = some c) ∧ (c.part ≠ b.part) ∧ (((s.rtu.cache.filter (fun c => c.tile = t.val && c.bank = b.part / 4 && c.slot != b.slot)).map (fun c => c.words.length)).sum + b.words.length ≤ 65536)) ∧
    (∃ (s : State) (t : Tile) (b : Burst), (s.clk = Clk.running) ∧ (s.findBurst (fun b => b.tile = t.val && (b.kind = 3 || b.kind = 4) && !b.ready) = some b) ∧ (b.kind = 3)) :=
  ⟨⟨{ State.reset with rtu.bursts := [{ part := 0, tile := 3, kind := 1, words := [⟨5, 0, true, 7⟩] }] }, 3, { part := 0, tile := 3, kind := 1, words := [⟨5, 0, true, 7⟩] }, ⟨5, 0, true, 7⟩, [], by decide⟩,
   ⟨{ State.reset with rtu.bursts := [{ part := 0, tile := 3, kind := 1 }] }, 3, { part := 0, tile := 3, kind := 1 }, by decide⟩,
   ⟨{ State.reset with rtu.bursts := [{ part := 0, tile := 3, kind := 2, words := [⟨5, 0, true, 7⟩] }] }, 3, { part := 0, tile := 3, kind := 2, words := [⟨5, 0, true, 7⟩] }, by decide⟩,
   ⟨{ State.reset with rtu.cache := [⟨3, 0, 0, 1, []⟩], rtu.bursts := [{ part := 0, tile := 3, kind := 2 }] }, 3, { part := 0, tile := 3, kind := 2 }, ⟨3, 0, 0, 1, []⟩, by decide⟩,
   ⟨{ State.reset with rtu.bursts := [{ part := 0, tile := 3, kind := 3 }] }, 3, { part := 0, tile := 3, kind := 3 }, by decide⟩⟩

/-- The hypotheses of each clause of Commits are met together. -/
theorem wit_Commits :
    (∃ (s : State) (p : Part) (t : Tile) (c c' : Commit), (s.Ready) ∧ (s.findCommit p (fun c => c.toArm.contains t.val) = some c) ∧ (c' = { c with toArm := c.toArm.erase t.val })) ∧
    (∃ (s : State) (p : Part) (t : Tile) (loads : List (Chan × BitVec 16)) (pw : Nat) (c c' : Commit), (s.Ready) ∧ (s.findCommit p (fun c => (Map.find c.toReply t).isSome) = some c) ∧ (c' = { c with toReply := Map.del c.toReply t, replies := Map.ins c.replies t (Map.look c.toReply t 0) })) ∧
    (∃ (s : State) (p : Part) (c : Commit) (nogo : List Nat), (s.clk = Clk.running) ∧ (s.findCommit p (fun c => !c.decided && !c.cancelled && !c.fired && c.slot.isNone && s.reached (c.at - 200000)) = some c) ∧ (nogo = (List.range 16).filter (fun t => Map.find c.replies t = some 1))) ∧
    (∃ (s : State) (p : Part) (t : Tile) (c : Commit), (s.Ready) ∧ (s.findCommit p (fun c => c.toCancel.contains t.val && !c.toArm.contains t.val) = some c) ∧ (s.live t = true) ∧ (s.rtu.arms.any (fun m => m.lead = p.val && m.tile = t.val && m.tc = c.tc) = true) ∧ (s.passedIn t (c.at - 20000) = false) ∧ (c.toCancel.erase t.val ≠ [])) ∧
    (∃ (s : State) (p : Part), (s.clk = Clk.running)) ∧
    (∃ (s : State) (p : Part) (t : Tile) (m : ArmSt) (c : Commit) (u : State), (s.Ready) ∧ (s.live t = true) ∧ (s.rtu.arms.find? (fun m => m.lead = p.val && m.tile = t.val && m.count ≤ m.next) = some m) ∧ (u = { s with rtu.arms := s.rtu.arms.erase m }) ∧ (u.findCommit p (fun c => c.tc = m.tc && c.fired) = some c)) ∧
    (∃ (s : State) (p : Part) (c : Commit), (s.clk = Clk.running) ∧ (s.findCommit p (fun c => c.fired) = some c) ∧ (s.rtu.arms.any (fun m => m.lead = p.val && m.tc = c.tc && s.live m.tile && m.next < m.count) = false)) :=
  ⟨⟨{ State.reset with rtu.commits := [{ lead := 0, mask := 1, tc := 0, toArm := [3] }] }, 0, 3, { lead := 0, mask := 1, tc := 0, toArm := [3] }, _, by decide, by decide, rfl⟩,
   ⟨{ State.reset with rtu.commits := [{ lead := 0, mask := 1, tc := 0, toArm := [], toReply := [(3, 0)] }] }, 0, 3, [], 0, { lead := 0, mask := 1, tc := 0, toArm := [], toReply := [(3, 0)] }, _, by decide, by decide, rfl⟩,
   ⟨{ State.reset with rtu.commits := [{ lead := 0, mask := 1, tc := 0, toArm := [] }] }, 0, { lead := 0, mask := 1, tc := 0, toArm := [] }, _, by decide, by decide, rfl⟩,
   ⟨{ State.reset with af := { tiles := [(3, { linkUp := true })] }, rtu := { commits := [{ lead := 0, mask := 1, tc := 20000, toArm := [], toCancel := [3, 4] }], arms := [{ lead := 0, tile := 3, mask := 1, tc := 20000 }] } }, 0, 3, { lead := 0, mask := 1, tc := 20000, toArm := [], toCancel := [3, 4] }, by decide⟩,
   ⟨State.reset, 0, by decide⟩,
   ⟨{ State.reset with af := { tiles := [(3, { linkUp := true })] }, rtu := { commits := [{ lead := 0, mask := 1, tc := 0, toArm := [], fired := true }], arms := [{ lead := 0, tile := 3, mask := 1, tc := 0, next := 1 }] } }, 0, 3, { lead := 0, tile := 3, mask := 1, tc := 0, next := 1 }, { lead := 0, mask := 1, tc := 0, toArm := [], fired := true }, _, by decide, by decide, by decide, rfl, by decide⟩,
   ⟨{ State.reset with rtu := { commits := [{ lead := 0, mask := 1, tc := 0, toArm := [], fired := true }] } }, 0, { lead := 0, mask := 1, tc := 0, toArm := [], fired := true }, by decide⟩⟩

/-- The hypotheses of each clause of RotorControl are met together. -/
theorem wit_RotorControl :
    (∃ (s : State) (p : Part), (s.Ready)) ∧
    (∃ (s : State) (p : Part), (s.Ready)) ∧
    (∃ (s : State) (p : Part), (s.Ready)) ∧
    (∃ (s : State) (p : Part), (s.Ready)) ∧
    (∃ (s : State) (p : Part) (b : Fin 2) (w : Fin 132) (v : W32), (s.Ready)) ∧
    (∃ (s : State) (p : Part) (v : W32), (s.Ready)) :=
  ⟨⟨State.reset, 0, by decide⟩,
   ⟨State.reset, 0, by decide⟩,
   ⟨State.reset, 0, by decide⟩,
   ⟨State.reset, 0, by decide⟩,
   ⟨State.reset, 0, 0, 0, 0, by decide⟩,
   ⟨State.reset, 0, 0, by decide⟩⟩

/-- The hypotheses of each clause of RotorSlots are met together. -/
theorem wit_RotorSlots :
    (∃ (s : State) (p : Part), (s.Ready)) ∧
    (∃ (s : State) (p : Part) (loads : List (Ao × BitVec 16)) (pw tc : Nat) (rest : List Nat) (ov : Bool), (s.clk = Clk.running) ∧ ((s.syncDecide p).rotStart p = s) ∧ (s.roRuns p = true) ∧ ((s.ro p).stopNow = false) ∧ ((s.ro p).stopPend = false) ∧ ((s.ro p).dues = tc :: rest) ∧ (s.reached ((tc : Int) - 500000) = true) ∧ (ov = s.overCaps (((List.range 16).filter s.live).map (fun t => s.currentAfter t (2 ^ p.val))).sum (s.powerAfter (2 ^ p.val) (loads.map (fun e => (e.1.val, e.2.toNat))) pw))) ∧
    (∃ (s : State) (p : Part) (e : SyncEdge) (u : State), (s.clk = Clk.running) ∧ (s.Quiet) ∧ (s.tm.edges.find? (fun e => e.part = p.val) = some e) ∧ (u = { s with tm.edges := s.tm.edges.erase e })) ∧
    (∃ (s : State) (p : Part) (e d tc : Nat) (u : State), (s.clk = Clk.running) ∧ ((s.ro p).edge = some (e, d)) ∧ (s.roSync p = true) ∧ (s.g F.RTU_ROT_CFG_LOSTN p ≠ 0) ∧ (s.roState p = 1 ∨ s.roState p = 2) ∧ (s.reached ((e + 1000 * s.g F.RTU_ROT_CFG_LOSTN p * d : Nat) : Int) = true) ∧ (tc = e + 1000 * s.g F.RTU_ROT_CFG_LOSTN p * d + 1000 * s.syncDly p) ∧ (u = (((((s.put F.RTU_ROT_STAT_LOST 1 p).put F.RTU_ROT_STAT_SYNC_OK 0 p).put F.RTU_ROT_STAT_STATE 3 p).setEnd p tc).updRo p (fun r => { r with dues := r.dues ++ [tc] })).raise 37 p)) ∧
    (∃ (s : State) (p : Part), (s.Ready)) ∧
    (∃ (s : State) (p : Part) (w : Win) (rest : List Win) (e : Nat), (s.clk = Clk.running) ∧ (s.Quiet) ∧ ((s.ro p).wins = w :: rest) ∧ (w.endAt = some e) ∧ (s.reached e = true)) ∧
    (∃ (s : State) (p : Part) (v : W32), (s.Ready)) ∧
    (∃ (s : State) (p : Part), (s.Ready)) ∧
    (∃ (s : State) (p : Part), (s.Ready) ∧ (s.on F.RTU_ROT_LSTAT_CLR_BUSY p = true)) ∧
    (∃ (s u : State) (a : Ao) (off : Fin 128) (bs : List Byte), (s.Ready) ∧ (u = s.grant 1 0)) :=
  ⟨⟨State.reset, 0, by decide⟩,
   ⟨({ State.reset with rot := [(0, { dues := [0] })] }.put F.RTU_ROT_STAT_STATE 2 0), 0, [], 0, 0, [], _, by decide +kernel, by decide +kernel, by decide +kernel, by decide +kernel, by decide +kernel, by decide +kernel, by decide +kernel, rfl⟩,
   ⟨{ State.reset with tm.edges := [⟨0, true, 5⟩] }, 0, ⟨0, true, 5⟩, _, by decide, by decide, by decide, rfl⟩,
   ⟨((({ State.reset with rot := [(0, { edge := some (0, 0) })] }.put F.RTU_ROT_STAT_STATE 2 0).put F.RTU_ROT_CFG_SRC 1 0).put F.RTU_ROT_CFG_LOSTN 1 0), 0, 0, 0, _, _, by decide +kernel, by decide +kernel, by decide +kernel, by decide +kernel, by decide +kernel, by decide +kernel, rfl, rfl⟩,
   ⟨State.reset, 0, by decide⟩,
   ⟨{ State.reset with rot := [(0, { wins := [⟨0, 0, some 0, none, [], []⟩] })] }, 0, ⟨0, 0, some 0, none, [], []⟩, [], 0, by decide +kernel⟩,
   ⟨State.reset, 0, 0, by decide⟩,
   ⟨State.reset, 0, by decide⟩,
   ⟨State.reset.put F.RTU_ROT_LSTAT_CLR_BUSY 1 0, 0, by decide⟩,
   ⟨State.reset, _, 0, 0, [], by decide, rfl⟩⟩

/-- The hypotheses of each clause of ObrixAlu are met together. -/
theorem wit_ObrixAlu :
    (∃ (s : State) (h : Thr) (i : OIns) (g : Nat → State → Bool) (f : Nat → State → State), (s.Ready) ∧ (i.opc = 1) ∧ (g = fun _ _ => true) ∧ (f = fun m s => (s.updTh m h (fun x => (x.setG i.d (x.gr i.s1 + x.gr i.s2)).setStatus (flagsAdd x.status (x.gr i.s1) (x.gr i.s2)))).retire m h i) ∧ (inStep h i g f s.lock s = true)) ∧
    (∃ (s : State) (h : Thr) (i : OIns) (g : Nat → State → Bool) (f : Nat → State → State), (s.Ready) ∧ (i.opc = 2) ∧ (g = fun _ _ => true) ∧ (f = fun m s => (s.updTh m h (fun x => (x.setG i.d (x.gr i.s1 - x.gr i.s2)).setStatus (flagsSub x.status (x.gr i.s1) (x.gr i.s2)))).retire m h i) ∧ (inStep h i g f s.lock s = true)) ∧
    (∃ (s : State) (h : Thr) (i : OIns) (g : Nat → State → Bool) (f : Nat → State → State), (s.Ready) ∧ (i.opc = 3) ∧ (g = fun _ _ => true) ∧ (f = fun m s => (s.updTh m h (fun x => (x.setG i.d (x.gr i.s1 &&& x.gr i.s2)).setStatus (flagsLogic x.status (x.gr i.s1 &&& x.gr i.s2)))).retire m h i) ∧ (inStep h i g f s.lock s = true)) ∧
    (∃ (s : State) (h : Thr) (i : OIns) (g : Nat → State → Bool) (f : Nat → State → State), (s.Ready) ∧ (i.opc = 4) ∧ (g = fun _ _ => true) ∧ (f = fun m s => (s.updTh m h (fun x => (x.setG i.d (x.gr i.s1 ||| x.gr i.s2)).setStatus (flagsLogic x.status (x.gr i.s1 ||| x.gr i.s2)))).retire m h i) ∧ (inStep h i g f s.lock s = true)) ∧
    (∃ (s : State) (h : Thr) (i : OIns) (g : Nat → State → Bool) (f : Nat → State → State), (s.Ready) ∧ (i.opc = 5) ∧ (g = fun _ _ => true) ∧ (f = fun m s => (s.updTh m h (fun x => (x.setG i.d (x.gr i.s1 ^^^ x.gr i.s2)).setStatus (flagsLogic x.status (x.gr i.s1 ^^^ x.gr i.s2)))).retire m h i) ∧ (inStep h i g f s.lock s = true)) ∧
    (∃ (s : State) (h : Thr) (i : OIns) (g : Nat → State → Bool) (f : Nat → State → State), (s.Ready) ∧ (i.opc = 6) ∧ (g = fun _ _ => true) ∧ (f = fun m s => (s.updTh m h (fun x => (x.setG i.d ((x.gr i.s1) <<< (shiftBy x i))).setStatus (flagsShift x.status ((x.gr i.s1) <<< (shiftBy x i)) (shlOut (x.gr i.s1) (shiftBy x i))))).retire m h i) ∧ (inStep h i g f s.lock s = true)) ∧
    (∃ (s : State) (h : Thr) (i : OIns) (g : Nat → State → Bool) (f : Nat → State → State), (s.Ready) ∧ (i.opc = 7) ∧ (g = fun _ _ => true) ∧ (f = fun m s => (s.updTh m h (fun x => (x.setG i.d ((x.gr i.s1) >>> (shiftBy x i))).setStatus (flagsShift x.status ((x.gr i.s1) >>> (shiftBy x i)) (shrOut (x.gr i.s1) (shiftBy x i))))).retire m h i) ∧ (inStep h i g f s.lock s = true)) ∧
    (∃ (s : State) (h : Thr) (i : OIns) (g : Nat → State → Bool) (f : Nat → State → State), (s.Ready) ∧ (i.opc = 8) ∧ (g = fun _ _ => true) ∧ (f = fun m s => (s.updTh m h (fun x => (x.setG i.d (BitVec.sshiftRight (x.gr i.s1) (shiftBy x i))).setStatus (flagsShift x.status (BitVec.sshiftRight (x.gr i.s1) (shiftBy x i)) (shrOut (x.gr i.s1) (shiftBy x i))))).retire m h i) ∧ (inStep h i g f s.lock s = true)) ∧
    (∃ (s : State) (h : Thr) (i : OIns) (g : Nat → State → Bool) (f : Nat → State → State), (s.Ready) ∧ (i.opc = 9) ∧ (g = fun _ _ => decide (i.func = 0)) ∧ (f = fun m s => (s.updTh m h (fun x => (x.setG i.d (x.gr i.s1 * x.gr i.s2)).setStatus (flagsMulLow x.status (x.gr i.s1) (x.gr i.s2)))).retire m h i) ∧ (inStep h i g f s.lock s = true)) ∧
    (∃ (s : State) (h : Thr) (i : OIns) (g : Nat → State → Bool) (f : Nat → State → State), (s.Ready) ∧ (i.opc = 9) ∧ (g = fun _ _ => decide (i.func = 1)) ∧ (f = fun m s => (s.updTh m h (fun x => (x.setG i.d (BitVec.ofInt 64 ((x.gr i.s1).toInt * (x.gr i.s2).toInt / 2 ^ 64))).setStatus (withCV (withZN x.status (BitVec.ofInt 64 ((x.gr i.s1).toInt * (x.gr i.s2).toInt / 2 ^ 64))) false false))).retire m h i) ∧ (inStep h i g f s.lock s = true)) ∧
    (∃ (s : State) (h : Thr) (i : OIns) (g : Nat → State → Bool) (f : Nat → State → State), (s.Ready) ∧ (i.opc = 9) ∧ (g = fun _ _ => decide (i.func = 2)) ∧ (f = fun m s => (s.updTh m h (fun x => (x.setG i.d (BitVec.ofNat 64 ((x.gr i.s1).toNat * (x.gr i.s2).toNat / 2 ^ 64))).setStatus (withCV (withZN x.status (BitVec.ofNat 64 ((x.gr i.s1).toNat * (x.gr i.s2).toNat / 2 ^ 64))) false false))).retire m h i) ∧ (inStep h i g f s.lock s = true)) ∧
    (∃ (s : State) (h : Thr) (i : OIns) (g : Nat → State → Bool) (f : Nat → State → State), (s.Ready) ∧ (i.opc = 10) ∧ (g = fun _ _ => true) ∧ (f = fun m s => (s.updTh m h (fun x => (x.setG i.d (if below i.func (x.gr i.s2) (x.gr i.s1) then x.gr i.s2 else x.gr i.s1)).setStatus (withZN x.status (if below i.func (x.gr i.s2) (x.gr i.s1) then x.gr i.s2 else x.gr i.s1)))).retire m h i) ∧ (inStep h i g f s.lock s = true)) ∧
    (∃ (s : State) (h : Thr) (i : OIns) (g : Nat → State → Bool) (f : Nat → State → State), (s.Ready) ∧ (i.opc = 11) ∧ (g = fun _ _ => true) ∧ (f = fun m s => (s.updTh m h (fun x => (x.setG i.d (if below i.func (x.gr i.s1) (x.gr i.s2) then x.gr i.s2 else x.gr i.s1)).setStatus (withZN x.status (if below i.func (x.gr i.s1) (x.gr i.s2) then x.gr i.s2 else x.gr i.s1)))).retire m h i) ∧ (inStep h i g f s.lock s = true)) ∧
    (∃ (s : State) (h : Thr) (i : OIns) (g : Nat → State → Bool) (f : Nat → State → State), (s.Ready) ∧ (i.opc = 12 ∧ i.d = 0) ∧ (g = fun _ _ => true) ∧ (f = fun m s => (s.updTh m h (fun x => x.setStatus (flagsSub x.status (x.gr i.s1) (x.gr i.s2)))).retire m h i) ∧ (inStep h i g f s.lock s = true)) ∧
    (∃ (s : State) (h : Thr) (i : OIns) (g : Nat → State → Bool) (f : Nat → State → State), (s.Ready) ∧ (i.opc = 16) ∧ (g = fun _ _ => true) ∧ (f = fun m s => (s.updTh m h (fun x => (x.setG i.d (x.gr i.s1 + BitVec.ofInt 64 i.imm)).setStatus (flagsAdd x.status (x.gr i.s1) (BitVec.ofInt 64 i.imm)))).retire m h i) ∧ (inStep h i g f s.lock s = true)) ∧
    (∃ (s : State) (h : Thr) (i : OIns) (g : Nat → State → Bool) (f : Nat → State → State), (s.Ready) ∧ (i.opc = 17) ∧ (g = fun _ _ => true) ∧ (f = fun m s => (s.updTh m h (fun x => (x.setG i.d (x.gr i.s1 &&& BitVec.ofNat 64 i.uimm)).setStatus (flagsLogic x.status (x.gr i.s1 &&& BitVec.ofNat 64 i.uimm)))).retire m h i) ∧ (inStep h i g f s.lock s = true)) ∧
    (∃ (s : State) (h : Thr) (i : OIns) (g : Nat → State → Bool) (f : Nat → State → State), (s.Ready) ∧ (i.opc = 18) ∧ (g = fun _ _ => true) ∧ (f = fun m s => (s.updTh m h (fun x => (x.setG i.d (x.gr i.s1 ||| BitVec.ofNat 64 i.uimm)).setStatus (flagsLogic x.status (x.gr i.s1 ||| BitVec.ofNat 64 i.uimm)))).retire m h i) ∧ (inStep h i g f s.lock s = true)) ∧
    (∃ (s : State) (h : Thr) (i : OIns) (g : Nat → State → Bool) (f : Nat → State → State), (s.Ready) ∧ (i.opc = 19) ∧ (g = fun _ _ => true) ∧ (f = fun m s => (s.updTh m h (fun x => (x.setG i.d (if i.len = 8 then BitVec.ofNat 64 i.uimm <<< 32 else BitVec.ofInt 64 i.imm <<< 14)).setStatus x.status)).retire m h i) ∧ (inStep h i g f s.lock s = true)) :=
  ⟨⟨oneThread (op3 1 1 2 3 0), 0, { opc := 1, d := 1, s1 := 2, s2 := 3, func := 0 }, _, _, by decide +kernel, by decide, rfl, rfl, by decide +kernel⟩,
   ⟨oneThread (op3 2 1 2 3 0), 0, { opc := 2, d := 1, s1 := 2, s2 := 3, func := 0 }, _, _, by decide +kernel, by decide, rfl, rfl, by decide +kernel⟩,
   ⟨oneThread (op3 3 1 2 3 0), 0, { opc := 3, d := 1, s1 := 2, s2 := 3, func := 0 }, _, _, by decide +kernel, by decide, rfl, rfl, by decide +kernel⟩,
   ⟨oneThread (op3 4 1 2 3 0), 0, { opc := 4, d := 1, s1 := 2, s2 := 3, func := 0 }, _, _, by decide +kernel, by decide, rfl, rfl, by decide +kernel⟩,
   ⟨oneThread (op3 5 1 2 3 0), 0, { opc := 5, d := 1, s1 := 2, s2 := 3, func := 0 }, _, _, by decide +kernel, by decide, rfl, rfl, by decide +kernel⟩,
   ⟨oneThread (op3 6 1 2 3 0), 0, { opc := 6, d := 1, s1 := 2, s2 := 3, func := 0 }, _, _, by decide +kernel, by decide, rfl, rfl, by decide +kernel⟩,
   ⟨oneThread (op3 7 1 2 3 0), 0, { opc := 7, d := 1, s1 := 2, s2 := 3, func := 0 }, _, _, by decide +kernel, by decide, rfl, rfl, by decide +kernel⟩,
   ⟨oneThread (op3 8 1 2 3 0), 0, { opc := 8, d := 1, s1 := 2, s2 := 3, func := 0 }, _, _, by decide +kernel, by decide, rfl, rfl, by decide +kernel⟩,
   ⟨oneThread (op3 9 1 2 3 0), 0, { opc := 9, d := 1, s1 := 2, s2 := 3, func := 0 }, _, _, by decide +kernel, by decide, rfl, rfl, by decide +kernel⟩,
   ⟨oneThread (op3 9 1 2 3 1), 0, { opc := 9, d := 1, s1 := 2, s2 := 3, func := 1 }, _, _, by decide +kernel, by decide, rfl, rfl, by decide +kernel⟩,
   ⟨oneThread (op3 9 1 2 3 2), 0, { opc := 9, d := 1, s1 := 2, s2 := 3, func := 2 }, _, _, by decide +kernel, by decide, rfl, rfl, by decide +kernel⟩,
   ⟨oneThread (op3 10 1 2 3 1), 0, { opc := 10, d := 1, s1 := 2, s2 := 3, func := 1 }, _, _, by decide +kernel, by decide, rfl, rfl, by decide +kernel⟩,
   ⟨oneThread (op3 11 1 2 3 1), 0, { opc := 11, d := 1, s1 := 2, s2 := 3, func := 1 }, _, _, by decide +kernel, by decide, rfl, rfl, by decide +kernel⟩,
   ⟨oneThread (op3 12 0 2 3 0), 0, { opc := 12, d := 0, s1 := 2, s2 := 3, func := 0 }, _, _, by decide +kernel, by decide, rfl, rfl, by decide +kernel⟩,
   ⟨oneThread (opImm 16 1 2 5), 0, { opc := 16, d := 1, s1 := 2, imm := 5, uimm := 5 }, _, _, by decide +kernel, by decide, rfl, rfl, by decide +kernel⟩,
   ⟨oneThread (opImm 17 1 2 5), 0, { opc := 17, d := 1, s1 := 2, imm := 5, uimm := 5 }, _, _, by decide +kernel, by decide, rfl, rfl, by decide +kernel⟩,
   ⟨oneThread (opImm 18 1 2 5), 0, { opc := 18, d := 1, s1 := 2, imm := 5, uimm := 5 }, _, _, by decide +kernel, by decide, rfl, rfl, by decide +kernel⟩,
   ⟨oneThread (opImm 19 1 0 5), 0, { opc := 19, d := 1, imm := 5, uimm := 5 }, _, _, by decide +kernel, by decide, rfl, rfl, by decide +kernel⟩⟩

/-- The hypotheses of each clause of ObrixMemory are met together. -/
theorem wit_ObrixMemory :
    (∃ (s : State) (h : Thr) (i : OIns) (g : Nat → State → Bool) (f : Nat → State → State), (s.Ready) ∧ (i.opc = 32) ∧ (g = fun m s => (memAddr (s.th m h) i % 1 = 0) && (match threadAddr h (memAddr (s.th m h) i) with | some (k, _) => (s.ueIn k 1).isNone | none => false)) ∧ (f = fun m s => ((s.thrAsk m ((threadAddr h (memAddr (s.th m h) i)).getD (0, false)).1 1).updTh m h (fun x => x.setG i.d (BitVec.ofNat 64 (leNat (s.bar2Bytes (((threadAddr h (memAddr (s.th m h) i)).getD (0, false)).1) 1))))).retire m h i) ∧ (inStep h i g f s.lock s = true)) ∧
    (∃ (s : State) (h : Thr) (i : OIns) (g : Nat → State → Bool) (f : Nat → State → State), (s.Ready) ∧ (i.opc = 33) ∧ (g = fun m s => (memAddr (s.th m h) i % 2 = 0) && (match threadAddr h (memAddr (s.th m h) i) with | some (k, _) => (s.ueIn k 2).isNone | none => false)) ∧ (f = fun m s => ((s.thrAsk m ((threadAddr h (memAddr (s.th m h) i)).getD (0, false)).1 2).updTh m h (fun x => x.setG i.d (BitVec.ofNat 64 (leNat (s.bar2Bytes (((threadAddr h (memAddr (s.th m h) i)).getD (0, false)).1) 2))))).retire m h i) ∧ (inStep h i g f s.lock s = true)) ∧
    (∃ (s : State) (h : Thr) (i : OIns) (g : Nat → State → Bool) (f : Nat → State → State), (s.Ready) ∧ (i.opc = 34) ∧ (g = fun m s => (memAddr (s.th m h) i % 4 = 0) && (match threadAddr h (memAddr (s.th m h) i) with | some (k, _) => (s.ueIn k 4).isNone | none => false)) ∧ (f = fun m s => ((s.thrAsk m ((threadAddr h (memAddr (s.th m h) i)).getD (0, false)).1 4).updTh m h (fun x => x.setG i.d (BitVec.ofNat 64 (leNat (s.bar2Bytes (((threadAddr h (memAddr (s.th m h) i)).getD (0, false)).1) 4))))).retire m h i) ∧ (inStep h i g f s.lock s = true)) ∧
    (∃ (s : State) (h : Thr) (i : OIns) (g : Nat → State → Bool) (f : Nat → State → State), (s.Ready) ∧ (i.opc = 35) ∧ (g = fun m s => (memAddr (s.th m h) i % 8 = 0) && (match threadAddr h (memAddr (s.th m h) i) with | some (k, _) => (s.ueIn k 8).isNone | none => false)) ∧ (f = fun m s => ((s.thrAsk m ((threadAddr h (memAddr (s.th m h) i)).getD (0, false)).1 8).updTh m h (fun x => x.setG i.d (BitVec.ofNat 64 (leNat (s.bar2Bytes (((threadAddr h (memAddr (s.th m h) i)).getD (0, false)).1) 8))))).retire m h i) ∧ (inStep h i g f s.lock s = true)) ∧
    (∃ (s : State) (h : Thr) (i : OIns) (g : Nat → State → Bool) (f : Nat → State → State), (s.Ready) ∧ (i.opc = 36) ∧ (g = fun m s => (memAddr (s.th m h) i % 1 = 0) && (match threadAddr h (memAddr (s.th m h) i) with | some (_, w) => w | none => false)) ∧ (f = fun m s => (s.when (s.holds 0 m) (fun s => ((s.grant (thrTarget (dmBase h + memAddr (s.th m h) i)) (2 + m)).dmStore (dmBase h + memAddr (s.th m h) i) (leBytes 1 ((s.th m h).gr i.d).toNat)).passEffect 0 (leBytes 8 (memAddr (s.th m h) i) ++ leBytes 1 ((s.th m h).gr i.d).toNat))).retire m h i) ∧ (inStep h i g f s.lock s = true)) ∧
    (∃ (s : State) (h : Thr) (i : OIns) (g : Nat → State → Bool) (f : Nat → State → State), (s.Ready) ∧ (i.opc = 37) ∧ (g = fun m s => (memAddr (s.th m h) i % 2 = 0) && (match threadAddr h (memAddr (s.th m h) i) with | some (_, w) => w | none => false)) ∧ (f = fun m s => (s.when (s.holds 0 m) (fun s => ((s.grant (thrTarget (dmBase h + memAddr (s.th m h) i)) (2 + m)).dmStore (dmBase h + memAddr (s.th m h) i) (leBytes 2 ((s.th m h).gr i.d).toNat)).passEffect 0 (leBytes 8 (memAddr (s.th m h) i) ++ leBytes 2 ((s.th m h).gr i.d).toNat))).retire m h i) ∧ (inStep h i g f s.lock s = true)) ∧
    (∃ (s : State) (h : Thr) (i : OIns) (g : Nat → State → Bool) (f : Nat → State → State), (s.Ready) ∧ (i.opc = 38) ∧ (g = fun m s => (memAddr (s.th m h) i % 4 = 0) && (match threadAddr h (memAddr (s.th m h) i) with | some (_, w) => w | none => false)) ∧ (f = fun m s => (s.when (s.holds 0 m) (fun s => ((s.grant (thrTarget (dmBase h + memAddr (s.th m h) i)) (2 + m)).dmStore (dmBase h + memAddr (s.th m h) i) (leBytes 4 ((s.th m h).gr i.d).toNat)).passEffect 0 (leBytes 8 (memAddr (s.th m h) i) ++ leBytes 4 ((s.th m h).gr i.d).toNat))).retire m h i) ∧ (inStep h i g f s.lock s = true)) ∧
    (∃ (s : State) (h : Thr) (i : OIns) (g : Nat → State → Bool) (f : Nat → State → State), (s.Ready) ∧ (i.opc = 39) ∧ (g = fun m s => (memAddr (s.th m h) i % 8 = 0) && (match threadAddr h (memAddr (s.th m h) i) with | some (_, w) => w | none => false)) ∧ (f = fun m s => (s.when (s.holds 0 m) (fun s => ((s.grant (thrTarget (dmBase h + memAddr (s.th m h) i)) (2 + m)).dmStore (dmBase h + memAddr (s.th m h) i) (leBytes 8 ((s.th m h).gr i.d).toNat)).passEffect 0 (leBytes 8 (memAddr (s.th m h) i) ++ leBytes 8 ((s.th m h).gr i.d).toNat))).retire m h i) ∧ (inStep h i g f s.lock s = true)) ∧
    (∃ (s : State) (h : Thr) (i : OIns) (g : Nat → State → Bool) (f : Nat → State → State), (s.Ready) ∧ (i.opc = 35) ∧ (g = fun m s => (memAddr (s.th m h) i % 8 != 0)) ∧ (f = fun m s => s.excAt m h 2 0 (some (memAddr (s.th m h) i))) ∧ (inStep h i g f s.lock s = true)) ∧
    (∃ (s : State) (h : Thr) (i : OIns) (g : Nat → State → Bool) (f : Nat → State → State), (s.Ready) ∧ (i.opc = 35) ∧ (g = fun m s => (memAddr (s.th m h) i % 8 = 0) && (threadAddr h (memAddr (s.th m h) i)).isNone) ∧ (f = fun m s => s.excAt m h 3 0 (some (memAddr (s.th m h) i))) ∧ (inStep h i g f s.lock s = true)) ∧
    (∃ (s : State) (h : Thr) (i : OIns) (g : Nat → State → Bool) (f : Nat → State → State), (s.Ready) ∧ (i.opc = 38) ∧ (g = fun m s => (memAddr (s.th m h) i % 4 != 0)) ∧ (f = fun m s => s.excAt m h 2 0 (some (memAddr (s.th m h) i))) ∧ (inStep h i g f s.lock s = true)) ∧
    (∃ (s : State) (h : Thr) (i : OIns) (g : Nat → State → Bool) (f : Nat → State → State), (s.Ready) ∧ (i.opc = 38) ∧ (g = fun m s => (memAddr (s.th m h) i % 4 = 0) && (threadAddr h (memAddr (s.th m h) i)).isNone) ∧ (f = fun m s => s.excAt m h 3 0 (some (memAddr (s.th m h) i))) ∧ (inStep h i g f s.lock s = true)) :=
  ⟨⟨oneThread (opImm 32 1 0 2), 0, { opc := 32, d := 1, imm := 2 }, _, _, by decide +kernel, by decide, rfl, rfl, by decide +kernel⟩,
   ⟨oneThread (opImm 33 1 0 4), 0, { opc := 33, d := 1, imm := 4 }, _, _, by decide +kernel, by decide, rfl, rfl, by decide +kernel⟩,
   ⟨oneThread (opImm 34 1 0 8), 0, { opc := 34, d := 1, imm := 8 }, _, _, by decide +kernel, by decide, rfl, rfl, by decide +kernel⟩,
   ⟨oneThread (opImm 35 1 0 16), 0, { opc := 35, d := 1, imm := 16 }, _, _, by decide +kernel, by decide, rfl, rfl, by decide +kernel⟩,
   ⟨oneThread (opImm 36 1 0 2), 0, { opc := 36, d := 1, imm := 2 }, _, _, by decide +kernel, by decide, rfl, rfl, by decide +kernel⟩,
   ⟨oneThread (opImm 37 1 0 4), 0, { opc := 37, d := 1, imm := 4 }, _, _, by decide +kernel, by decide, rfl, rfl, by decide +kernel⟩,
   ⟨oneThread (opImm 38 1 0 8), 0, { opc := 38, d := 1, imm := 8 }, _, _, by decide +kernel, by decide, rfl, rfl, by decide +kernel⟩,
   ⟨oneThread (opImm 39 1 0 16), 0, { opc := 39, d := 1, imm := 16 }, _, _, by decide +kernel, by decide, rfl, rfl, by decide +kernel⟩,
   ⟨oneThread (opImm 35 1 0 3), 0, { opc := 35, d := 1, imm := 3 }, _, _, by decide +kernel, by decide, rfl, rfl, by decide +kernel⟩,
   ⟨oneThread (opImm 35 1 0 16376), 0, { opc := 35, d := 1, imm := -8 }, _, _, by decide +kernel, by decide, rfl, rfl, by decide +kernel⟩,
   ⟨oneThread (opImm 38 1 0 3), 0, { opc := 38, d := 1, imm := 3 }, _, _, by decide +kernel, by decide, rfl, rfl, by decide +kernel⟩,
   ⟨oneThread (opImm 38 1 0 16376), 0, { opc := 38, d := 1, imm := -8 }, _, _, by decide +kernel, by decide, rfl, rfl, by decide +kernel⟩⟩

/-- The hypotheses of each clause of ObrixControl are met together. -/
theorem wit_ObrixControl :
    (∃ (s : State) (h : Thr) (i : OIns) (g : Nat → State → Bool) (f : Nat → State → State), (s.Ready) ∧ (i.opc = 48) ∧ (g = fun m s => condHolds (s.th m h).status i.d && decide (0 ≤ braTarget (s.th m h) i) && s.inCode h (braTarget (s.th m h) i).toNat) ∧ (f = fun m s => s.retireTo m h (braTarget (s.th m h) i).toNat) ∧ (inStep h i g f s.lock s = true)) ∧
    (∃ (s : State) (h : Thr) (i : OIns) (g : Nat → State → Bool) (f : Nat → State → State), (s.Ready) ∧ (i.opc = 48) ∧ (g = fun m s => !condHolds (s.th m h).status i.d) ∧ (f = fun m s => s.retire m h i) ∧ (inStep h i g f s.lock s = true)) ∧
    (∃ (s : State) (h : Thr) (i : OIns) (g : Nat → State → Bool) (f : Nat → State → State), (s.Ready) ∧ (i.opc = 48) ∧ (g = fun m s => condHolds (s.th m h).status i.d && !(decide (0 ≤ braTarget (s.th m h) i) && s.inCode h (braTarget (s.th m h) i).toNat)) ∧ (f = fun m s => s.excAt m h 4 0 (some (ofSigned 64 (braTarget (s.th m h) i)))) ∧ (inStep h i g f s.lock s = true)) ∧
    (∃ (s : State) (h : Thr) (i : OIns) (g : Nat → State → Bool) (f : Nat → State → State), (s.Ready) ∧ (i.opc = 49) ∧ (g = fun m s => decide (0 ≤ braTarget (s.th m h) i) && s.inCode h (braTarget (s.th m h) i).toNat) ∧ (f = fun m s => (s.updTh m h (fun x => x.setG i.d (BitVec.ofNat 64 (x.pc + i.len)))).retireTo m h (braTarget (s.th m h) i).toNat) ∧ (inStep h i g f s.lock s = true)) ∧
    (∃ (s : State) (h : Thr) (i : OIns) (g : Nat → State → Bool) (f : Nat → State → State), (s.Ready) ∧ (i.opc = 50 ∧ i.func = 0) ∧ (g = fun m s => decide (((s.th m h).gr i.s1).toNat % 4 = 0) && s.inCode h ((s.th m h).gr i.s1).toNat) ∧ (f = fun m s => (s.updTh m h (fun x => x.setG i.d (BitVec.ofNat 64 (x.pc + i.len)))).retireTo m h ((s.th m h).gr i.s1).toNat) ∧ (inStep h i g f s.lock s = true)) ∧
    (∃ (s : State) (h : Thr) (i : OIns) (g : Nat → State → Bool) (f : Nat → State → State), (s.Ready) ∧ (i.opc = 50 ∧ i.func = 0) ∧ (g = fun m s => ((s.th m h).gr i.s1).toNat % 4 != 0) ∧ (f = fun m s => s.excAt m h 2 0 (some ((s.th m h).gr i.s1).toNat)) ∧ (inStep h i g f s.lock s = true)) ∧
    (∃ (s : State) (h : Thr) (ok : Bool) (i : OIns) (g : Nat → State → Bool) (f : Nat → State → State), (s.Ready) ∧ (i.opc = 50 ∧ i.func = 1) ∧ (g = fun m s => decide (((s.th m h).gr i.s1).toNat % 4 = 0) && s.inCode h ((s.th m h).gr i.s1).toNat && !bitOf (s.th m h).status bitMT) ∧ (f = fun m s => (s.updTh m h (fun x => x.jrE x.status (x.pc + i.len) i.d)).retireTo m h ((s.th m h).gr i.s1).toNat) ∧ (inStep h i g f s.lock s = true)) ∧
    (∃ (s : State) (h : Thr) (i : OIns) (g : Nat → State → Bool) (f : Nat → State → State), (s.Ready) ∧ (i.opc = 56) ∧ (g = fun _ _ => true) ∧ (f = fun m s => s.exc m h { code := 7, info := i.func, epc := (s.th m h).pc + 4 }) ∧ (inStep h i g f s.lock s = true)) ∧
    (∃ (s : State) (h : Thr) (i : OIns) (g : Nat → State → Bool) (f : Nat → State → State), (s.Ready) ∧ (i.opc = 57) ∧ (g = fun _ _ => true) ∧ (f = fun m s => s.retire m h i) ∧ (inStep h i g f s.lock s = true)) ∧
    (∃ (s : State) (h : Thr) (i : OIns) (g : Nat → State → Bool) (f : Nat → State → State), (s.Ready) ∧ (i.opc = 63) ∧ (g = fun _ _ => true) ∧ (f = fun m s => s.retire m h i) ∧ (inStep h i g f s.lock s = true)) ∧
    (∃ (s : State) (h : Thr) (i : OIns) (g : Nat → State → Bool) (f : Nat → State → State), (s.Ready) ∧ (i.opc = 62) ∧ (g = fun _ _ => true) ∧ (f = fun m s => (s.retire m h i).thHalt m h 3) ∧ (inStep h i g f s.lock s = true)) ∧
    (∃ (s : State) (h : Thr) (i : OIns) (g : Nat → State → Bool) (f : Nat → State → State), (s.Ready) ∧ (i.opc = 58) ∧ (g = fun m s => (s.scrRead m h i.func).isSome) ∧ (f = fun m s => (s.updTh m h (fun x => x.setG i.d (BitVec.ofNat 64 ((s.scrRead m h i.func).getD 0)))).retire m h i) ∧ (inStep h i g f s.lock s = true)) ∧
    (∃ (s : State) (h : Thr) (i : OIns) (g : Nat → State → Bool) (f : Nat → State → State), (s.Ready) ∧ (i.opc = 58) ∧ (g = fun m s => (s.scrRead m h i.func).isNone) ∧ (f = fun m s => s.excAt m h 1 58) ∧ (inStep h i g f s.lock s = true)) ∧
    (∃ (s : State) (h : Thr) (i : OIns) (g : Nat → State → Bool) (f : Nat → State → State), (s.Ready) ∧ (i.opc = 59 ∧ i.func ≠ 5 ∧ i.func ≠ 64) ∧ (g = fun _ _ => (scrMask i.func).isSome) ∧ (f = fun m s => (s.updTh m h (fun x => x.setScr i.func ((x.gr i.s1).toNat &&& (scrMask i.func).getD 0))).retire m h i) ∧ (inStep h i g f s.lock s = true)) ∧
    (∃ (s : State) (h : Thr) (i : OIns) (g : Nat → State → Bool) (f : Nat → State → State), (s.Ready) ∧ (i.opc = 59 ∧ i.func = 5) ∧ (g = fun m s => bitOf ((s.th m h).gr i.s1).toNat 1 == (s.th m h).inD2) ∧ (f = fun m s => (s.updTh m h (fun x => x.setScr scrMode ((((s.th m h).gr i.s1).toNat &&& 1) + 2 * b2n (s.th m h).inD2))).retire m h i) ∧ (inStep h i g f s.lock s = true)) ∧
    (∃ (s : State) (h : Thr) (i : OIns) (g : Nat → State → Bool) (f : Nat → State → State), (s.Ready) ∧ (i.opc = 59) ∧ (g = fun _ _ => (scrMask i.func).isNone) ∧ (f = fun m s => s.excAt m h 1 59) ∧ (inStep h i g f s.lock s = true)) :=
  ⟨⟨oneThread (opOff 48 0 2), 0, { opc := 48, d := 0, imm := 2 }, _, _, by decide +kernel, by decide, rfl, rfl, by decide +kernel⟩,
   ⟨oneThread (opOff 48 1 2), 0, { opc := 48, d := 1, imm := 2 }, _, _, by decide +kernel, by decide, rfl, rfl, by decide +kernel⟩,
   ⟨oneThread (opOff 48 0 0x7FFFF), 0, { opc := 48, d := 0, imm := -1 }, _, _, by decide +kernel, by decide, rfl, rfl, by decide +kernel⟩,
   ⟨oneThread (opOff 49 1 2), 0, { opc := 49, d := 1, imm := 2 }, _, _, by decide +kernel, by decide, rfl, rfl, by decide +kernel⟩,
   ⟨oneThread (op3 50 1 2 0 0), 0, { opc := 50, d := 1, s1 := 2, s2 := 0, func := 0 }, _, _, by decide +kernel, by decide, rfl, rfl, by decide +kernel⟩,
   ⟨(oneThread (op3 50 1 2 0 0)).updTh 0 0 (fun x => x.setG 2 1), 0, { opc := 50, d := 1, s1 := 2, s2 := 0, func := 0 }, _, _, by decide +kernel, by decide, rfl, rfl, by decide +kernel⟩,
   ⟨oneThread (op3 50 1 2 0 1), 0, true, { opc := 50, d := 1, s1 := 2, s2 := 0, func := 1 }, _, _, by decide +kernel, by decide, rfl, rfl, by decide +kernel⟩,
   ⟨oneThread (op3 56 0 0 0 5), 0, { opc := 56, d := 0, s1 := 0, s2 := 0, func := 5 }, _, _, by decide +kernel, by decide, rfl, rfl, by decide +kernel⟩,
   ⟨oneThread (op3 57 0 0 0 0), 0, { opc := 57, d := 0, s1 := 0, s2 := 0, func := 0 }, _, _, by decide +kernel, by decide, rfl, rfl, by decide +kernel⟩,
   ⟨oneThread (op3 63 0 0 0 0), 0, { opc := 63, d := 0, s1 := 0, s2 := 0, func := 0 }, _, _, by decide +kernel, by decide, rfl, rfl, by decide +kernel⟩,
   ⟨oneThread (op3 62 0 0 0 0), 0, { opc := 62, d := 0, s1 := 0, s2 := 0, func := 0 }, _, _, by decide +kernel, by decide, rfl, rfl, by decide +kernel⟩,
   ⟨oneThread (op3 58 1 0 0 2), 0, { opc := 58, d := 1, s1 := 0, s2 := 0, func := 2 }, _, _, by decide +kernel, by decide, rfl, rfl, by decide +kernel⟩,
   ⟨oneThread (op3 58 1 0 0 0x50), 0, { opc := 58, d := 1, s1 := 0, s2 := 0, func := 80 }, _, _, by decide +kernel, by decide, rfl, rfl, by decide +kernel⟩,
   ⟨oneThread (op3 59 0 1 0 2), 0, { opc := 59, d := 0, s1 := 1, s2 := 0, func := 2 }, _, _, by decide +kernel, by decide, rfl, rfl, by decide +kernel⟩,
   ⟨oneThread (op3 59 0 1 0 5), 0, { opc := 59, d := 0, s1 := 1, s2 := 0, func := 5 }, _, _, by decide +kernel, by decide, rfl, rfl, by decide +kernel⟩,
   ⟨oneThread (op3 59 0 1 0 6), 0, { opc := 59, d := 0, s1 := 1, s2 := 0, func := 6 }, _, _, by decide +kernel, by decide, rfl, rfl, by decide +kernel⟩⟩

/-- The hypotheses of each clause of ObrixTime are met together. -/
theorem wit_ObrixTime :
    (∃ (s : State) (h : Thr) (i : OIns) (g : Nat → State → Bool) (f : Nat → State → State), (s.Ready) ∧ (i.opc = 64 ∧ i.func % 8 = 0) ∧ (g = fun _ _ => true) ∧ (f = fun m s => (s.updTh m h (fun x => x.setT i.d (s.tbNow (i.func / 8 % 4)))).retire m h i) ∧ (inStep h i g f s.lock s = true)) ∧
    (∃ (s : State) (h : Thr) (i : OIns) (g : Nat → State → Bool) (f : Nat → State → State), (s.Ready) ∧ (i.opc = 64 ∧ i.func % 8 = 1) ∧ (g = fun _ _ => true) ∧ (f = fun m s => (s.updTh m h (fun x => x.setG i.d (BitVec.ofNat 64 (getField (x.tr i.s1) 48 48)))).retire m h i) ∧ (inStep h i g f s.lock s = true)) ∧
    (∃ (s : State) (h : Thr) (i : OIns) (g : Nat → State → Bool) (f : Nat → State → State), (s.Ready) ∧ (i.opc = 64 ∧ i.func % 8 = 2) ∧ (g = fun _ _ => true) ∧ (f = fun m s => (s.updTh m h (fun x => x.setG i.d (BitVec.ofNat 64 (getField (x.tr i.s1) 18 30)))).retire m h i) ∧ (inStep h i g f s.lock s = true)) ∧
    (∃ (s : State) (h : Thr) (i : OIns) (g : Nat → State → Bool) (f : Nat → State → State), (s.Ready) ∧ (i.opc = 64 ∧ i.func % 8 = 3) ∧ (g = fun _ _ => true) ∧ (f = fun m s => (s.updTh m h (fun x => x.setG i.d (BitVec.ofNat 64 (getField (x.tr i.s1) 2 16)))).retire m h i) ∧ (inStep h i g f s.lock s = true)) ∧
    (∃ (s : State) (h : Thr) (i : OIns) (g : Nat → State → Bool) (f : Nat → State → State), (s.Ready) ∧ (i.opc = 64 ∧ i.func % 8 = 4) ∧ (g = fun _ _ => true) ∧ (f = fun m s => (s.updTh m h (fun x => x.setG i.d (BitVec.ofNat 64 (getField (x.tr i.s1) 0 2)))).retire m h i) ∧ (inStep h i g f s.lock s = true)) ∧
    (∃ (s : State) (h : Thr) (i : OIns) (g : Nat → State → Bool) (f : Nat → State → State), (s.Ready) ∧ (i.opc = 64 ∧ i.func % 8 = 5) ∧ (g = fun m s => decide (tvBase ((s.th m h).tr i.s1) = tvBase ((s.th m h).tr i.s2))) ∧ (f = fun m s => (s.updTh m h (fun x => x.setG i.d (BitVec.ofInt 64 (timeDiff (x.tr i.s1) (x.tr i.s2))))).retire m h i) ∧ (inStep h i g f s.lock s = true)) ∧
    (∃ (s : State) (h : Thr) (i : OIns) (g : Nat → State → Bool) (f : Nat → State → State), (s.Ready) ∧ (i.opc = 64 ∧ i.func % 8 = 5) ∧ (g = fun m s => !decide (tvBase ((s.th m h).tr i.s1) = tvBase ((s.th m h).tr i.s2))) ∧ (f = fun m s => s.excAt m h 6 5) ∧ (inStep h i g f s.lock s = true)) ∧
    (∃ (s : State) (h : Thr) (i : OIns) (g : Nat → State → Bool) (f : Nat → State → State), (s.Ready) ∧ (i.opc = 65 ∧ i.func % 8 = 0) ∧ (g = fun m s => (tvMake ((tvFine ((s.th m h).tr i.s1) : Int) + (if i.len = 8 then i.imm else ((s.th m h).gr i.s2).toInt) * 65536) (tvBase ((s.th m h).tr i.s1))).isSome) ∧ (f = fun m s => (s.updTh m h (fun x => x.setT i.d ((tvMake ((tvFine ((s.th m h).tr i.s1) : Int) + (if i.len = 8 then i.imm else ((s.th m h).gr i.s2).toInt) * 65536) (tvBase ((s.th m h).tr i.s1))).getD 0))).retire m h i) ∧ (inStep h i g f s.lock s = true)) ∧
    (∃ (s : State) (h : Thr) (i : OIns) (g : Nat → State → Bool) (f : Nat → State → State), (s.Ready) ∧ (i.opc = 65 ∧ i.func % 8 = 0) ∧ (g = fun m s => (tvMake ((tvFine ((s.th m h).tr i.s1) : Int) + (if i.len = 8 then i.imm else ((s.th m h).gr i.s2).toInt) * 65536) (tvBase ((s.th m h).tr i.s1))).isNone) ∧ (f = fun m s => s.excAt m h 6 0) ∧ (inStep h i g f s.lock s = true)) ∧
    (∃ (s : State) (h : Thr) (i : OIns) (g : Nat → State → Bool) (f : Nat → State → State), (s.Ready) ∧ (i.opc = 65 ∧ i.func % 8 = 1) ∧ (g = fun m s => ((if 10 ^ 9 ≤ ((s.th m h).gr i.s2).toNat then none else tvMake ((((((s.th m h).gr i.s1).toNat * 10 ^ 9 + ((s.th m h).gr i.s2).toNat) * 65536 : Nat)) : Int) (i.func / 8 % 4))).isSome) ∧ (f = fun m s => (s.updTh m h (fun x => x.setT i.d (((if 10 ^ 9 ≤ ((s.th m h).gr i.s2).toNat then none else tvMake ((((((s.th m h).gr i.s1).toNat * 10 ^ 9 + ((s.th m h).gr i.s2).toNat) * 65536 : Nat)) : Int) (i.func / 8 % 4))).getD 0))).retire m h i) ∧ (inStep h i g f s.lock s = true)) ∧
    (∃ (s : State) (h : Thr) (i : OIns) (g : Nat → State → Bool) (f : Nat → State → State), (s.Ready) ∧ (i.opc = 65 ∧ i.func % 8 = 1) ∧ (g = fun m s => ((if 10 ^ 9 ≤ ((s.th m h).gr i.s2).toNat then none else tvMake ((((((s.th m h).gr i.s1).toNat * 10 ^ 9 + ((s.th m h).gr i.s2).toNat) * 65536 : Nat)) : Int) (i.func / 8 % 4))).isNone) ∧ (f = fun m s => s.excAt m h 6 1) ∧ (inStep h i g f s.lock s = true)) ∧
    (∃ (s : State) (h : Thr) (i : OIns) (g : Nat → State → Bool) (f : Nat → State → State), (s.Ready) ∧ (i.opc = 65 ∧ i.func % 8 = 4) ∧ (g = fun m s => ((if ((s.th m h).gr i.s2).toNat = 0 || 10 ^ 9 % ((s.th m h).gr i.s2).toNat != 0 then none else tvMake (((ceilDiv (tvFine ((s.th m h).tr i.s1)) (((s.th m h).gr i.s2).toNat * 65536) * (((s.th m h).gr i.s2).toNat * 65536) : Nat)) : Int) (tvBase ((s.th m h).tr i.s1)))).isSome) ∧ (f = fun m s => (s.updTh m h (fun x => x.setT i.d (((if ((s.th m h).gr i.s2).toNat = 0 || 10 ^ 9 % ((s.th m h).gr i.s2).toNat != 0 then none else tvMake (((ceilDiv (tvFine ((s.th m h).tr i.s1)) (((s.th m h).gr i.s2).toNat * 65536) * (((s.th m h).gr i.s2).toNat * 65536) : Nat)) : Int) (tvBase ((s.th m h).tr i.s1)))).getD 0))).retire m h i) ∧ (inStep h i g f s.lock s = true)) ∧
    (∃ (s : State) (h : Thr) (i : OIns) (g : Nat → State → Bool) (f : Nat → State → State), (s.Ready) ∧ (i.opc = 65 ∧ i.func % 8 = 4) ∧ (g = fun m s => ((if ((s.th m h).gr i.s2).toNat = 0 || 10 ^ 9 % ((s.th m h).gr i.s2).toNat != 0 then none else tvMake (((ceilDiv (tvFine ((s.th m h).tr i.s1)) (((s.th m h).gr i.s2).toNat * 65536) * (((s.th m h).gr i.s2).toNat * 65536) : Nat)) : Int) (tvBase ((s.th m h).tr i.s1)))).isNone) ∧ (f = fun m s => s.excAt m h 6 4) ∧ (inStep h i g f s.lock s = true)) ∧
    (∃ (s : State) (h : Thr) (i : OIns) (g : Nat → State → Bool) (f : Nat → State → State), (s.Ready) ∧ (i.opc = 65 ∧ i.func % 8 = 2) ∧ (g = fun _ _ => true) ∧ (f = fun m s => (s.updTh m h (fun x => x.setT i.d (x.tr i.s1))).retire m h i) ∧ (inStep h i g f s.lock s = true)) ∧
    (∃ (s : State) (h : Thr) (i : OIns) (g : Nat → State → Bool) (f : Nat → State → State), (s.Ready) ∧ (i.opc = 65 ∧ i.func % 8 = 3) ∧ (g = fun m s => decide (tvBase ((s.th m h).tr i.s1) = tvBase ((s.th m h).tr i.s2))) ∧ (f = fun m s => (s.updTh m h (fun x => x.setStatus (flagsTime x.status (tvFine (x.tr i.s1)) (tvFine (x.tr i.s2))))).retire m h i) ∧ (inStep h i g f s.lock s = true)) ∧
    (∃ (s : State) (h : Thr) (i : OIns) (g : Nat → State → Bool) (f : Nat → State → State), (s.Ready) ∧ (i.opc = 65 ∧ i.func % 8 = 3) ∧ (g = fun m s => !decide (tvBase ((s.th m h).tr i.s1) = tvBase ((s.th m h).tr i.s2))) ∧ (f = fun m s => s.excAt m h 6 3) ∧ (inStep h i g f s.lock s = true)) ∧
    (∃ (s : State) (h : Thr) (i : OIns) (g : Nat → State → Bool) (f : Nat → State → State), (s.Ready) ∧ (i.opc = 66) ∧ (g = fun m s => s.tvPast ((s.th m h).tr i.s1)) ∧ (f = fun m s => (s.updTh m h (fun x => x.setStatus (withL x.status true))).retire m h i) ∧ (inStep h i g f s.lock s = true)) ∧
    (∃ (s : State) (h : Thr) (i : OIns) (g : Nat → State → Bool) (f : Nat → State → State), (s.Ready) ∧ (i.opc = 66) ∧ (g = fun m s => !s.tvPast ((s.th m h).tr i.s1)) ∧ (f = fun m s => (s.updTh m h (fun x => { x with wait := some (.time ((s.th m h).tr i.s1)) })).setThState m h 2) ∧ (inStep h i g f s.lock s = true)) ∧
    (∃ (s : State) (h : Thr) (i : OIns) (g : Nat → State → Bool) (f : Nat → State → State), (s.Ready) ∧ (i.opc = 69) ∧ (g = fun _ _ => true) ∧ (f = fun m s => (s.when (bitOf (s.g F.SEQ_TRC_CTL_THR_EN m) h) (fun s => s.trace m h i.func ((s.th m h).gr i.s1))).retire m h i) ∧ (inStep h i g f s.lock s = true)) :=
  ⟨⟨oneThread (op3 64 1 0 0 8), 0, { opc := 64, d := 1, s1 := 0, s2 := 0, func := 8 }, _, _, by decide +kernel, by decide, rfl, rfl, by decide +kernel⟩,
   ⟨oneThread (op3 64 1 2 0 1), 0, { opc := 64, d := 1, s1 := 2, s2 := 0, func := 1 }, _, _, by decide +kernel, by decide, rfl, rfl, by decide +kernel⟩,
   ⟨oneThread (op3 64 1 2 0 2), 0, { opc := 64, d := 1, s1 := 2, s2 := 0, func := 2 }, _, _, by decide +kernel, by decide, rfl, rfl, by decide +kernel⟩,
   ⟨oneThread (op3 64 1 2 0 3), 0, { opc := 64, d := 1, s1 := 2, s2 := 0, func := 3 }, _, _, by decide +kernel, by decide, rfl, rfl, by decide +kernel⟩,
   ⟨oneThread (op3 64 1 2 0 4), 0, { opc := 64, d := 1, s1 := 2, s2 := 0, func := 4 }, _, _, by decide +kernel, by decide, rfl, rfl, by decide +kernel⟩,
   ⟨oneThread (op3 64 1 2 3 5), 0, { opc := 64, d := 1, s1 := 2, s2 := 3, func := 5 }, _, _, by decide +kernel, by decide, rfl, rfl, by decide +kernel⟩,
   ⟨(oneThread (op3 64 1 2 3 5)).updTh 0 0 (fun x => x.setT 2 1), 0, { opc := 64, d := 1, s1 := 2, s2 := 3, func := 5 }, _, _, by decide +kernel, by decide, rfl, rfl, by decide +kernel⟩,
   ⟨oneThread (op3 65 1 2 3 0), 0, { opc := 65, d := 1, s1 := 2, s2 := 3, func := 0 }, _, _, by decide +kernel, by decide, rfl, rfl, by decide +kernel⟩,
   ⟨(oneThread (op3 65 1 2 3 0)).updTh 0 0 (fun x => x.setG 3 (-1)), 0, { opc := 65, d := 1, s1 := 2, s2 := 3, func := 0 }, _, _, by decide +kernel, by decide, rfl, rfl, by decide +kernel⟩,
   ⟨oneThread (op3 65 1 2 3 1), 0, { opc := 65, d := 1, s1 := 2, s2 := 3, func := 1 }, _, _, by decide +kernel, by decide, rfl, rfl, by decide +kernel⟩,
   ⟨(oneThread (op3 65 1 2 3 1)).updTh 0 0 (fun x => x.setG 3 1000000000), 0, { opc := 65, d := 1, s1 := 2, s2 := 3, func := 1 }, _, _, by decide +kernel, by decide, rfl, rfl, by decide +kernel⟩,
   ⟨(oneThread (op3 65 1 2 3 4)).updTh 0 0 (fun x => x.setG 3 1), 0, { opc := 65, d := 1, s1 := 2, s2 := 3, func := 4 }, _, _, by decide +kernel, by decide, rfl, rfl, by decide +kernel⟩,
   ⟨oneThread (op3 65 1 2 3 4), 0, { opc := 65, d := 1, s1 := 2, s2 := 3, func := 4 }, _, _, by decide +kernel, by decide, rfl, rfl, by decide +kernel⟩,
   ⟨oneThread (op3 65 1 2 0 2), 0, { opc := 65, d := 1, s1 := 2, s2 := 0, func := 2 }, _, _, by decide +kernel, by decide, rfl, rfl, by decide +kernel⟩,
   ⟨oneThread (op3 65 0 2 3 3), 0, { opc := 65, d := 0, s1 := 2, s2 := 3, func := 3 }, _, _, by decide +kernel, by decide, rfl, rfl, by decide +kernel⟩,
   ⟨(oneThread (op3 65 0 2 3 3)).updTh 0 0 (fun x => x.setT 2 1), 0, { opc := 65, d := 0, s1 := 2, s2 := 3, func := 3 }, _, _, by decide +kernel, by decide, rfl, rfl, by decide +kernel⟩,
   ⟨(oneThread (op3 66 0 2 0 0)).updTb 0 (fun x => { x with val := 1 }), 0, { opc := 66, d := 0, s1 := 2, s2 := 0, func := 0 }, _, _, by decide +kernel, by decide, rfl, rfl, by decide +kernel⟩,
   ⟨oneThread (op3 66 0 2 0 0), 0, { opc := 66, d := 0, s1 := 2, s2 := 0, func := 0 }, _, _, by decide +kernel, by decide, rfl, rfl, by decide +kernel⟩,
   ⟨oneThread (op3 69 0 2 0 7), 0, { opc := 69, d := 0, s1 := 2, s2 := 0, func := 7 }, _, _, by decide +kernel, by decide, rfl, rfl, by decide +kernel⟩⟩

/-- The hypotheses of each clause of Threads are met together. -/
theorem wit_Threads :
    (∃ (s : State) (h : Thr) (t : RWord), (s.Ready) ∧ ((s.leadTh h).wait = some (.time t))) ∧
    (∃ (s : State) (h : Thr) (i : OIns) (mask : Nat), (s.clk = Clk.running) ∧ (i.opc = 0x43) ∧ (s.leadIssues h i = true) ∧ (mask = ((s.leadTh h).gr i.s1).toNat)) ∧
    (∃ (s : State) (h : Thr) (d mask : Nat) (clear : Bool), (s.Ready) ∧ ((s.leadTh h).wait = some (.event d mask clear none))) ∧
    (∃ (s : State) (h : Thr) (i : OIns) (c : Nat), (s.clk = Clk.running) ∧ (i.opc = 0x44) ∧ (s.leadIssues h i = true) ∧ (c = if 64 ≤ i.func then i.func % 64 else ((s.leadTh h).gr i.s1).toNat % 64)) ∧
    (∃ (s : State) (h : Thr) (m : Nat), (s.Ready) ∧ (s.lock = [m])) ∧
    (∃ (s : State) (h : Thr) (m : Nat) (e : D2Effect) (u : State), (s.clk = Clk.running) ∧ (s.lock = [m]) ∧ (s.d2Runs m h = true) ∧ (s.fetchBad h (s.th m h).pc (s.th m h).pc = none) ∧ (e.switching = false) ∧ (u = s.updTh m h (fun x => let y := e.t.foldl (fun x y => x.setT y.1.val y.2) (e.g.foldl (fun x y => x.setG y.1.val y.2) x); { y.setStatus (y.status / 32 * 32 + e.flags.toNat) with d2 := {} }))) ∧
    (∃ (s : State) (h : Thr) (m : Nat) (upc : BitVec 13) (step : W64) (ut : List W64) (tt : List RWord) (f : List Byte), (s.Ready) ∧ (s.lock = [m]) ∧ (f = frameBytes (s.th m h) (s.microMatch 0 m upc.toNat) step.toNat ut tt)) ∧
    (∃ (s : State) (h : Thr), (s.Ready)) ∧
    (∃ (s : State) (off : BitVec 21) (bs : List Byte), (s.Ready)) ∧
    (∃ (s x : State) (m : Member) (v : W64) (a : Nat) (w : State → State), (s.Ready) ∧ (x = s.grant 0 0) ∧ (a = dmBase (s.g F.SEQ_DMWIN_ADDR_PART m) + 8 * s.g F.SEQ_DMWIN_ADDR_WORD m) ∧ (s.on F.SEQ_DMWIN_ADDR_INC m = true) ∧ (w = fun u => u.put F.SEQ_DMWIN_ADDR_WORD (s.g F.SEQ_DMWIN_ADDR_WORD m + 1) m)) ∧
    (∃ (s : State) (h : Thr) (v : W32), (s.Ready)) :=
  ⟨⟨State.reset.updTh 0 0 (fun x => { x with wait := some (.time 0) }), 0, 0, by decide⟩,
   ⟨oneThread (op3 0x43 1 2 0 0), 0, { opc := 0x43, d := 1, s1 := 2 }, 0, by decide +kernel⟩,
   ⟨State.reset.updTh 0 0 (fun x => { x with wait := some (.event 1 1 false none) }), 0, 1, 1, false, by decide⟩,
   ⟨oneThread (op3 0x44 0 0 0 64), 0, { opc := 0x44, func := 64 }, 0, by decide +kernel⟩,
   ⟨oneThread 0, 0, 0, by decide +kernel⟩,
   ⟨(oneThread 0).updTh 0 0 (fun x => x.setScr scrMode 2), 0, 0, { g := [], t := [], flags := 0, pc := 0, stores := [], switching := false }, _, by decide +kernel, by decide +kernel, by decide +kernel, by decide +kernel, by decide +kernel, rfl⟩,
   ⟨oneThread 0, 0, 0, 0, 0, [], [], _, by decide +kernel, by decide +kernel, rfl⟩,
   ⟨oneThread 0, 0, by decide +kernel⟩,
   ⟨State.reset, 0, [], by decide⟩,
   ⟨State.reset.put F.SEQ_DMWIN_ADDR_INC 1 0, _, 0, 0, _, _, by decide, rfl, rfl, by decide, rfl⟩,
   ⟨State.reset, 0, 0, by decide⟩⟩

/-- The hypotheses of each clause of SwitchRequests are met together. -/
theorem wit_SwitchRequests :
    (∃ (s : State) (h : Thr) (i : OIns), (s.clk = Clk.running) ∧ (i.opc = 128) ∧ (s.leadIssues h i = true) ∧ (allModes.contains (s.pm h) = true)) ∧
    (∃ (s : State) (h : Thr) (d a : Nat), (s.Ready) ∧ ((s.leadTh h).wait = some (.pop d a))) ∧
    (∃ (s : State) (h : Thr) (i : OIns), (s.clk = Clk.running) ∧ (i.opc = 129 ∧ i.func = 0) ∧ (s.leadIssues h i = true) ∧ (allModes.contains (s.pm h) = true)) ∧
    (∃ (s : State) (h : Thr) (i : OIns), (s.clk = Clk.running) ∧ (i.opc = 129 ∧ i.func = 1) ∧ (s.leadIssues h i = true) ∧ (allModes.contains (s.pm h) = true)) ∧
    (∃ (s : State) (h : Thr) (i : OIns), (s.clk = Clk.running) ∧ (i.opc = 130) ∧ (s.leadIssues h i = true) ∧ (allModes.contains (s.pm h) = true)) ∧
    (∃ (s : State) (h : Thr) (i : OIns), (s.clk = Clk.running) ∧ (i.opc = 131) ∧ (s.leadIssues h i = true) ∧ (allModes.contains (s.pm h) = true)) ∧
    (∃ (s : State) (h : Thr) (d : Nat), (s.Ready) ∧ ((s.leadTh h).wait = some (.route d))) ∧
    (∃ (s : State) (h : Thr) (i : OIns), (s.clk = Clk.running) ∧ (i.opc = 132) ∧ (s.leadIssues h i = true) ∧ (allModes.contains (s.pm h) = true)) :=
  ⟨⟨oneThread (op3 128 1 2 0 0), 0, { opc := 128, d := 1, s1 := 2, s2 := 0, func := 0 }, by decide +kernel⟩,
   ⟨State.reset.updTh 0 0 (fun x => { x with wait := some (.pop 1 0) }), 0, 1, 0, by decide⟩,
   ⟨oneThread (op3 129 0 2 3 0), 0, { opc := 129, d := 0, s1 := 2, s2 := 3, func := 0 }, by decide +kernel⟩,
   ⟨oneThread (op3 129 0 2 3 1), 0, { opc := 129, d := 0, s1 := 2, s2 := 3, func := 1 }, by decide +kernel⟩,
   ⟨oneThread (op3 130 0 2 0 0), 0, { opc := 130, d := 0, s1 := 2, s2 := 0, func := 0 }, by decide +kernel⟩,
   ⟨oneThread (op3 131 1 0 0 0), 0, { opc := 131, d := 1, s1 := 0, s2 := 0, func := 0 }, by decide +kernel⟩,
   ⟨State.reset.updTh 0 0 (fun x => { x with wait := some (.route 1) }), 0, 1, by decide⟩,
   ⟨oneThread (op3 132 0 2 3 0), 0, { opc := 132, d := 0, s1 := 2, s2 := 3, func := 0 }, by decide +kernel⟩⟩

/-- The hypotheses of each clause of SwitchStaging are met together. -/
theorem wit_SwitchStaging :
    (∃ (s : State) (h : Thr) (i : OIns), (s.clk = Clk.running) ∧ (i.opc = 133 ∧ i.func = 0) ∧ (s.leadIssues h i = true) ∧ (hscm.contains (s.pm h) = true)) ∧
    (∃ (s : State) (h : Thr) (i : OIns), (s.clk = Clk.running) ∧ (i.opc = 133 ∧ i.func = 1) ∧ (s.leadIssues h i = true) ∧ (hscm.contains (s.pm h) = true)) ∧
    (∃ (s : State) (h : Thr) (i : OIns), (s.clk = Clk.running) ∧ (i.opc = 134) ∧ (s.leadIssues h i = true) ∧ (hscm.contains (s.pm h) = true)) ∧
    (∃ (s : State) (h : Thr) (i : OIns), (s.clk = Clk.running) ∧ (i.opc = 135) ∧ (s.leadIssues h i = true) ∧ (hscm.contains (s.pm h) = true)) ∧
    (∃ (s : State) (h : Thr) (i : OIns), (s.clk = Clk.running) ∧ (i.opc = 136 ∧ i.func = 0) ∧ (s.leadIssues h i = true) ∧ (hscm.contains (s.pm h) = true)) ∧
    (∃ (s : State) (h : Thr) (i : OIns), (s.clk = Clk.running) ∧ (i.opc = 136 ∧ i.func = 1) ∧ (s.leadIssues h i = true) ∧ (hscm.contains (s.pm h) = true)) ∧
    (∃ (s : State) (h : Thr) (i : OIns), (s.clk = Clk.running) ∧ (i.opc = 136 ∧ i.func = 2) ∧ (s.leadIssues h i = true) ∧ (hscm.contains (s.pm h) = true)) ∧
    (∃ (s : State) (h : Thr) (i : OIns) (mask : Nat), (s.clk = Clk.running) ∧ (i.opc = 137) ∧ (s.leadIssues h i = true) ∧ (scm.contains (s.pm h) = true) ∧ (mask = (if s.gOf h i.s2 % 65536 = 0 then 2 ^ h.val else s.gOf h i.s2 % 65536))) ∧
    (∃ (s : State) (h : Thr) (i : OIns), (s.clk = Clk.running) ∧ (i.opc = 137) ∧ (s.leadIssues h i = true) ∧ (scm.contains (s.pm h) = false)) ∧
    (∃ (s : State) (h : Thr) (d : Nat) (t : RWord) (mask : Nat) (wt : Option Nat), (s.Ready) ∧ ((s.leadTh h).wait = some (.arm d t mask wt))) ∧
    (∃ (s : State) (h : Thr) (i : OIns), (s.clk = Clk.running) ∧ (i.opc = 138) ∧ (s.leadIssues h i = true) ∧ (allModes.contains (s.pm h) = true)) ∧
    (∃ (s : State) (h : Thr) (d : Nat) (wt : Option Nat), (s.Ready) ∧ ((s.leadTh h).wait = some (.commit d wt))) ∧
    (∃ (s : State) (h : Thr) (i : OIns), (s.clk = Clk.running) ∧ (i.opc = 139) ∧ (s.leadIssues h i = true) ∧ (hscm.contains (s.pm h) = true)) ∧
    (∃ (s : State) (h : Thr) (d : Nat), (s.Ready) ∧ ((s.leadTh h).wait = some (.abort d))) :=
  ⟨⟨oneThread (op3 133 0 0 0 0), 0, { opc := 133, d := 0, s1 := 0, s2 := 0, func := 0 }, by decide +kernel⟩,
   ⟨oneThread (op3 133 0 0 0 1), 0, { opc := 133, d := 0, s1 := 0, s2 := 0, func := 1 }, by decide +kernel⟩,
   ⟨oneThread (op3 134 1 2 3 0), 0, { opc := 134, d := 1, s1 := 2, s2 := 3, func := 0 }, by decide +kernel⟩,
   ⟨oneThread (op3 135 1 2 3 0), 0, { opc := 135, d := 1, s1 := 2, s2 := 3, func := 0 }, by decide +kernel⟩,
   ⟨oneThread (op3 136 1 0 0 0), 0, { opc := 136, d := 1, s1 := 0, s2 := 0, func := 0 }, by decide +kernel⟩,
   ⟨oneThread (op3 136 1 2 0 1), 0, { opc := 136, d := 1, s1 := 2, s2 := 0, func := 1 }, by decide +kernel⟩,
   ⟨oneThread (op3 136 1 2 3 2), 0, { opc := 136, d := 1, s1 := 2, s2 := 3, func := 2 }, by decide +kernel⟩,
   ⟨(oneThreadOp (op3 137 1 2 3 0)).put F.GLB_PMODE_MODE 1 0, 0, { opc := 137, d := 1, s1 := 2, s2 := 3 }, 1, by decide +kernel⟩,
   ⟨oneThread (op3 137 1 2 3 0), 0, { opc := 137, d := 1, s1 := 2, s2 := 3 }, by decide +kernel⟩,
   ⟨State.reset.updTh 0 0 (fun x => { x with wait := some (.arm 1 0 1 none) }), 0, 1, 0, 1, none, by decide⟩,
   ⟨oneThread (op3 138 1 0 0 0), 0, { opc := 138, d := 1, s1 := 0, s2 := 0, func := 0 }, by decide +kernel⟩,
   ⟨State.reset.updTh 0 0 (fun x => { x with wait := some (.commit 1 none) }), 0, 1, none, by decide⟩,
   ⟨oneThread (op3 139 1 0 0 0), 0, { opc := 139, d := 1, s1 := 0, s2 := 0, func := 0 }, by decide +kernel⟩,
   ⟨State.reset.updTh 0 0 (fun x => { x with wait := some (.abort 1) }), 0, 1, by decide⟩⟩

/-- The hypotheses of each clause of SwitchLoops are met together. -/
theorem wit_SwitchLoops :
    (∃ (s : State) (h : Thr) (i : OIns), (s.clk = Clk.running) ∧ (i.opc = 140) ∧ (s.leadIssues h i = true) ∧ (allModes.contains (s.pm h) = true)) ∧
    (∃ (s : State) (h : Thr) (i : OIns), (s.clk = Clk.running) ∧ (i.opc = 141) ∧ (s.leadIssues h i = true) ∧ (allModes.contains (s.pm h) = true)) ∧
    (∃ (s : State) (h : Thr) (d : Nat) (l : List Nat) (tmo : Option RWord), (s.Ready) ∧ ((s.leadTh h).wait = some (.bar d l tmo))) ∧
    (∃ (s : State) (h : Thr) (i : OIns), (s.clk = Clk.running) ∧ (i.opc = 145 ∧ i.func = 0) ∧ (s.leadIssues h i = true) ∧ (allModes.contains (s.pm h) = true)) ∧
    (∃ (s : State) (h : Thr) (i : OIns), (s.clk = Clk.running) ∧ (i.opc = 145 ∧ i.func = 1) ∧ (s.leadIssues h i = true) ∧ (allModes.contains (s.pm h) = true)) ∧
    (∃ (s : State) (h : Thr) (i : OIns), (s.clk = Clk.running) ∧ (i.opc = 142) ∧ (s.leadIssues h i = true) ∧ (allModes.contains (s.pm h) = true)) ∧
    (∃ (s : State) (h : Thr) (i : OIns), (s.clk = Clk.running) ∧ (i.opc = 143) ∧ (s.leadIssues h i = true) ∧ (allModes.contains (s.pm h) = true)) ∧
    (∃ (s : State) (h : Thr) (i : OIns), (s.clk = Clk.running) ∧ (i.opc = 144) ∧ (s.leadIssues h i = true) ∧ (allModes.contains (s.pm h) = true)) ∧
    (∃ (s : State) (h : Thr) (i : OIns), (s.clk = Clk.running) ∧ (i.opc = 146) ∧ (s.leadIssues h i = true) ∧ (allModes.contains (s.pm h) = true)) ∧
    (∃ (s : State) (h : Thr) (i : OIns), (s.clk = Clk.running) ∧ (i.opc = 192) ∧ (s.leadIssues h i = true) ∧ (allModes.contains (s.pm h) = true)) ∧
    (∃ (s : State) (h : Thr) (i : OIns), (s.clk = Clk.running) ∧ (i.opc = 193) ∧ (s.leadIssues h i = true) ∧ (allModes.contains (s.pm h) = true)) ∧
    (∃ (s : State) (h : Thr) (i : OIns), (s.clk = Clk.running) ∧ (i.opc = 194) ∧ (s.leadIssues h i = true) ∧ (allModes.contains (s.pm h) = true)) ∧
    (∃ (s : State) (h : Thr) (d : Nat), (s.Ready) ∧ ((s.leadTh h).wait = some (.rotor d))) :=
  ⟨⟨oneThread (op3 140 1 2 3 0), 0, { opc := 140, d := 1, s1 := 2, s2 := 3, func := 0 }, by decide +kernel⟩,
   ⟨oneThread (op3 141 1 0 0 0), 0, { opc := 141, d := 1, s1 := 0, s2 := 0, func := 0 }, by decide +kernel⟩,
   ⟨State.reset.updTh 0 0 (fun x => { x with wait := some (.bar 1 [] none) }), 0, 1, [], none, by decide⟩,
   ⟨oneThread (op3 145 1 2 0 0), 0, { opc := 145, d := 1, s1 := 2, s2 := 0, func := 0 }, by decide +kernel⟩,
   ⟨oneThread (op3 145 1 2 0 1), 0, { opc := 145, d := 1, s1 := 2, s2 := 0, func := 1 }, by decide +kernel⟩,
   ⟨oneThread (op3 142 1 2 0 0), 0, { opc := 142, d := 1, s1 := 2, s2 := 0, func := 0 }, by decide +kernel⟩,
   ⟨oneThread (op3 143 0 2 0 0), 0, { opc := 143, d := 0, s1 := 2, s2 := 0, func := 0 }, by decide +kernel⟩,
   ⟨oneThread (op3 144 1 2 0 0), 0, { opc := 144, d := 1, s1 := 2, s2 := 0, func := 0 }, by decide +kernel⟩,
   ⟨oneThread (op3 146 1 2 0 0), 0, { opc := 146, d := 1, s1 := 2, s2 := 0, func := 0 }, by decide +kernel⟩,
   ⟨oneThread (op3 192 1 2 0 0), 0, { opc := 192, d := 1, s1 := 2, s2 := 0, func := 0 }, by decide +kernel⟩,
   ⟨oneThread (op3 193 1 0 0 0), 0, { opc := 193, d := 1, s1 := 0, s2 := 0, func := 0 }, by decide +kernel⟩,
   ⟨oneThread (op3 194 1 0 0 0), 0, { opc := 194, d := 1, s1 := 0, s2 := 0, func := 0 }, by decide +kernel⟩,
   ⟨State.reset.updTh 0 0 (fun x => { x with wait := some (.rotor 1) }), 0, 1, by decide⟩⟩

/-- The hypotheses of each clause of RingQueues are met together. -/
theorem wit_RingQueues :
    (∃ (s : State) (n : Ring) (v : W32), (s.clk = Clk.running)) ∧
    (∃ (s : State) (n : Ring) (v : W32), (s.clk = Clk.running)) ∧
    (∃ (s : State) (n : Ring), (s.Ready)) ∧
    (∃ (s : State) (n : Ring) (k : Fin 4) (bs : List Byte), (s.clk = Clk.running)) ∧
    (∃ (s : State) (n : Ring) (x : FetchErr), (s.clk = Clk.running)) ∧
    (∃ (s : State) (n : Ring) (v : W32), (s.Ready)) ∧
    (∃ (s : State) (n : Ring) (v : W32) (u : State), (s.Ready)) ∧
    (∃ (s : State) (n : Ring), (s.clk = Clk.running)) ∧
    (∃ (s : State) (n : Ring), (s.Ready)) ∧
    (∃ (s w : State) (n : Ring) (k : Fin 5) (m : Fin 9) (v : W64), (s.Ready) ∧ (w = (if k = 0 then s.wideWritten m R.BRS_RQ_BASE n else if k = 1 then s.wideWritten m R.BRS_CQ_BASE n else s))) ∧
    (∃ (s : State) (n : Ring), (s.Ready)) :=
  ⟨⟨State.reset, 0, 0, by decide⟩,
   ⟨State.reset, 0, 0, by decide⟩,
   ⟨State.reset, 0, by decide⟩,
   ⟨State.reset, 0, 0, [], by decide⟩,
   ⟨State.reset.updRing 0 (fun r => { r with reads := [⟨0, 1, none⟩] }), 0, ⟨0, .ur⟩, by decide⟩,
   ⟨State.reset, 0, 0, by decide⟩,
   ⟨State.reset, 0, 0, State.reset, by decide⟩,
   ⟨State.reset, 0, by decide⟩,
   ⟨State.reset, 0, by decide⟩,
   ⟨State.reset, _, 0, 0, 0, 0, by decide, rfl⟩,
   ⟨State.reset, 0, by decide⟩⟩

/-- The branches of RingQueues are met at the ends of their ranges. -/
theorem edge_RingQueues :
    (∃ (s : State) (n : Ring) (v : W32), (s.clk = Clk.running) ∧ (s.on F.BRS_RING_CFG_KIND n = false ∧ v.toNat % 32768 + 1 = s.rqLen n)) ∧
    (∃ (s : State) (n : Ring) (v : W32), (s.clk = Clk.running) ∧ (s.on F.BRS_RING_CFG_KIND n = false ∧ v.toNat % 32768 = s.rqLen n)) ∧
    (∃ (s : State) (n : Ring) (v : W32), (s.clk = Clk.running) ∧ (s.on F.BRS_RING_CFG_KIND n = true)) ∧
    (∃ (s : State) (n : Ring) (v : W32), (s.clk = Clk.running) ∧ (v.toNat % 32768 + 1 = s.cqLen n)) ∧
    (∃ (s : State) (n : Ring) (v : W32), (s.clk = Clk.running) ∧ (v.toNat % 32768 = s.cqLen n)) ∧
    (∃ (s : State) (n : Ring), (s.Ready) ∧ ((openReads (s.ring n).reads).length = 3 ∧ s.on F.BRS_RING_CTL_EN n = true ∧ s.on F.BRS_RING_CFG_KIND n = false ∧ s.on F.BRS_RING_STAT_HALTED n = false ∧ (s.ring n).draining = false ∧ s.mayPost (s.ringFn n) = true ∧ s.readRoom 1 = true ∧ s.mode ≠ 2 ∧ s.readLen n ≠ 0)) ∧
    (∃ (s : State) (n : Ring), (s.Ready) ∧ ((openReads (s.ring n).reads).length = 4)) ∧
    (∃ (s : State) (n : Ring) (k : Fin 4) (bs : List Byte), (s.clk = Clk.running) ∧ ((openReads (s.ring n).reads)[k.val]? = some 2)) ∧
    (∃ (s : State) (n : Ring) (k : Fin 4) (bs : List Byte), (s.clk = Clk.running) ∧ ((openReads (s.ring n).reads)[k.val]? = none)) ∧
    (∃ (s : State) (n : Ring) (x : FetchErr), (s.clk = Clk.running) ∧ ((openReads (s.ring n).reads)[x.read.val]? = some 2)) ∧
    (∃ (s : State) (n : Ring) (x : FetchErr), (s.clk = Clk.running) ∧ ((openReads (s.ring n).reads)[x.read.val]? = none)) ∧
    (∃ (s : State) (n : Ring) (v : W32) (u : State), (s.Ready) ∧ (s.on F.BRS_RING_CTL_EN n = true)) ∧
    (∃ (s : State) (n : Ring) (v : W32) (u : State), (s.Ready) ∧ (s.on F.BRS_RING_STAT_BUSY n = true)) ∧
    (∃ (s : State) (n : Ring) (v : W32) (u : State), (s.Ready) ∧ (s.on F.BRS_RING_CTL_EN n = false ∧ s.on F.BRS_RING_STAT_BUSY n = false)) ∧
    (∃ (s w : State) (n : Ring) (k : Fin 5) (m : Fin 9) (v : W64), (s.Ready) ∧ (w = (if k = 0 then s.wideWritten m R.BRS_RQ_BASE n else if k = 1 then s.wideWritten m R.BRS_CQ_BASE n else s)) ∧ (s.on F.BRS_RING_STAT_BUSY n = true)) ∧
    (∃ (s w : State) (n : Ring) (k : Fin 5) (m : Fin 9) (v : W64), (s.Ready) ∧ (w = (if k = 0 then s.wideWritten m R.BRS_RQ_BASE n else if k = 1 then s.wideWritten m R.BRS_CQ_BASE n else s)) ∧ (s.on F.BRS_RING_CTL_EN n = false ∧ s.on F.BRS_RING_STAT_BUSY n = false ∧ k = 0)) ∧
    (∃ (s w : State) (n : Ring) (k : Fin 5) (m : Fin 9) (v : W64), (s.Ready) ∧ (w = (if k = 0 then s.wideWritten m R.BRS_RQ_BASE n else if k = 1 then s.wideWritten m R.BRS_CQ_BASE n else s)) ∧ (s.on F.BRS_RING_CTL_EN n = false ∧ s.on F.BRS_RING_STAT_BUSY n = false ∧ k = 1)) ∧
    (∃ (s w : State) (n : Ring) (k : Fin 5) (m : Fin 9) (v : W64), (s.Ready) ∧ (w = (if k = 0 then s.wideWritten m R.BRS_RQ_BASE n else if k = 1 then s.wideWritten m R.BRS_CQ_BASE n else s)) ∧ (s.on F.BRS_RING_CTL_EN n = false ∧ s.on F.BRS_RING_STAT_BUSY n = false ∧ k = 2)) ∧
    (∃ (s w : State) (n : Ring) (k : Fin 5) (m : Fin 9) (v : W64), (s.Ready) ∧ (w = (if k = 0 then s.wideWritten m R.BRS_RQ_BASE n else if k = 1 then s.wideWritten m R.BRS_CQ_BASE n else s)) ∧ (s.on F.BRS_RING_CTL_EN n = false ∧ s.on F.BRS_RING_STAT_BUSY n = false ∧ k = 3)) ∧
    (∃ (s w : State) (n : Ring) (k : Fin 5) (m : Fin 9) (v : W64), (s.Ready) ∧ (w = (if k = 0 then s.wideWritten m R.BRS_RQ_BASE n else if k = 1 then s.wideWritten m R.BRS_CQ_BASE n else s)) ∧ (s.on F.BRS_RING_CTL_EN n = false ∧ s.on F.BRS_RING_STAT_BUSY n = false ∧ k = 4)) ∧
    (∃ (s : State) (n : Ring), (s.Ready) ∧ ((s.ring n).lastMsg = some 5 ∧ (s.ring n).msgDue = true ∧ 5 + 1000 * s.g F.BRS_RING_CTL_ITR n = s.cycle)) ∧
    (∃ (s : State) (n : Ring), (s.Ready) ∧ ((s.ring n).lastMsg = some 5 ∧ (s.ring n).msgDue = true ∧ s.cycle + 1 = 5 + 1000 * s.g F.BRS_RING_CTL_ITR n)) :=
  ⟨⟨State.reset, 0, 15, by decide +kernel⟩,
   ⟨State.reset, 8191, 16, by decide +kernel⟩,
   ⟨State.reset.put F.BRS_RING_CFG_KIND 1 0, 0, 0, by decide +kernel⟩,
   ⟨State.reset, 8191, 15, by decide +kernel⟩,
   ⟨State.reset, 0, 16, by decide +kernel⟩,
   ⟨(fetching 3), 0, by decide +kernel⟩,
   ⟨(fetching 4), 0, by decide +kernel⟩,
   ⟨(fetching 3), 0, 2, [], by decide +kernel⟩,
   ⟨(fetching 3), 0, 3, [], by decide +kernel⟩,
   ⟨(fetching 3), 0, ⟨2, .ur⟩, by decide +kernel⟩,
   ⟨(fetching 3), 0, ⟨3, .ur⟩, by decide +kernel⟩,
   ⟨State.reset.put F.BRS_RING_CTL_EN 1 0, 0, 2, State.reset, by decide +kernel⟩,
   ⟨State.reset.put F.BRS_RING_STAT_BUSY 1 0, 0, 2, State.reset, by decide +kernel⟩,
   ⟨State.reset, 8191, 2, State.reset, by decide +kernel⟩,
   ⟨State.reset.put F.BRS_RING_STAT_BUSY 1 0, _, 0, 0, 0, 0, by decide, rfl, by decide⟩,
   ⟨State.reset, _, 0, 0, 8, 0, by decide, rfl, by decide⟩,
   ⟨State.reset, _, 0, 1, 8, 0, by decide, rfl, by decide⟩,
   ⟨State.reset, _, 0, 2, 8, 0, by decide, rfl, by decide⟩,
   ⟨State.reset, _, 0, 3, 8, 0, by decide, rfl, by decide⟩,
   ⟨State.reset, _, 0, 4, 8, 0, by decide, rfl, by decide⟩,
   ⟨heldBack 1005, 0, by decide +kernel⟩,
   ⟨heldBack 1004, 0, by decide +kernel⟩⟩

/-- The hypotheses of each clause of PortAdmission are met together. -/
theorem wit_PortAdmission :
    (∃ (s : State), (s.Ready) ∧ (s.cycle < s.brs.refill + 1000)) ∧
    (∃ (s : State), (s.clk = Clk.running) ∧ (s.brs.refill + 1000 ≤ s.cycle)) ∧
    (∃ (s : State) (n : Byte) (w : Fin 4) (v : W32) (t u : State), (s.clk = Clk.running) ∧ (t = (if w.val = 0 then [F.BRS_MP_CFG_MODE, F.BRS_MP_CFG_RST] else if w.val = 1 then [F.BRS_MP_CIR_CIR] else if w.val = 2 then [F.BRS_MP_PIR_PIR] else [F.BRS_MP_BKT_CBS, F.BRS_MP_BKT_PBS]).foldl (fun u f => u.sput f (bitsOf v.toNat f.lo f.wd) n.toNat) s) ∧ (u = { t with brs.mpDef := Map.upd t.brs.mpDef n.toNat (0, 0) id })) ∧
    (∃ (s : State) (n : Byte) (w : Fin 2) (v : W32) (t u : State), (s.clk = Clk.running) ∧ (t = (if w.val = 0 then [F.BRS_SP_CFG_MODE, F.BRS_SP_CFG_RST, F.BRS_SP_CFG_DEPTH] else [F.BRS_SP_RATE_RATE]).foldl (fun u f => u.sput f (bitsOf v.toNat f.lo f.wd) n.toNat) s) ∧ (u = { t with brs.spDef := Map.upd t.brs.spDef n.toNat 0 id })) ∧
    (∃ (s : State) (v : Fin 512) (x : W32), (s.Ready)) ∧
    (∃ (s : State) (p : Part), (s.Ready) ∧ (s.on F.BRS_PORT_CFG_EN p = false ∨ (s.port p).blocked = true ∨ 64 ≤ (s.port p).aq.length)) ∧
    (∃ (s : State) (p : Part) (u : State) (r : Req), (s.clk = Clk.running) ∧ (s.on F.BRS_PORT_CFG_EN p = true) ∧ ((s.port p).blocked = false) ∧ ((s.port p).aq.length < 64) ∧ (s.syncRounds.nextReq p = (u, some r))) ∧
    (∃ (s : State) (p : Part) (u : State), (s.Ready) ∧ (u = (s.slotSettings p).updPort p (fun x => { x with due := x.due - 1 }))) ∧
    (∃ (s : State) (p : Part) (v : W32) (u : State), (s.clk = Clk.running) ∧ (u = (s.sput F.BRS_PORT_CFG_EN (bitsOf v.toNat 0 1) p).sput F.BRS_PORT_CFG_SLOT_SRC (bitsOf v.toNat 1 1) p)) ∧
    (∃ (s : State) (p : Part), (s.Ready)) ∧
    (∃ (s : State) (p : Part) (err : Option HostErr) (bs : List Byte), (s.clk = Clk.running)) ∧
    (∃ (s : State), (s.clk = Clk.running)) :=
  ⟨⟨State.reset, by decide⟩,
   ⟨{ State.reset with cycle := 1000 }, by decide⟩,
   ⟨State.reset, 0, 1, 0, _, _, by decide, rfl, rfl⟩,
   ⟨State.reset, 0, 1, 0, _, _, by decide, rfl, rfl⟩,
   ⟨State.reset, 0, 0, by decide⟩,
   ⟨State.reset, 0, by decide⟩,
   ⟨(State.reset.put F.BRS_PORT_CFG_EN 1 0).updPort 0 (fun x => { x with held := some ⟨0, 0, 1, 0, 1, 0, false, false, 0, 0, [], [], 0, 0, 0, false, 0, false, 0, 0⟩ }), 0, _, _, by decide, by decide, by decide, by decide, rfl⟩,
   ⟨State.reset, 0, _, by decide, rfl⟩,
   ⟨State.reset, 0, 1, _, by decide, rfl⟩,
   ⟨State.reset, 0, by decide⟩,
   ⟨State.reset, 0, none, [], by decide⟩,
   ⟨State.reset, by decide⟩⟩

/-- The hypotheses of each clause of TwinPairs are met together. -/
theorem wit_TwinPairs :
    (∃ (s : State) (x : Pair) (m : Member), (s.Ready)) ∧
    (∃ (s : State) (x : Pair), (s.Ready)) ∧
    (∃ (s : State) (x : Pair), (s.clk = Clk.running)) ∧
    (∃ (s : State) (x : Pair), (s.Ready)) ∧
    (∃ (s : State) (x : Pair) (m : Member), (s.clk = Clk.running)) ∧
    (∃ (s : State) (x : Pair) (m : Member) (k : Fin 7) (i : PatchImage), (s.clk = Clk.running)) ∧
    (∃ (s : State) (x : Pair) (m : Member) (cls : Fin 16) (ua : BitVec 13), (s.clk = Clk.running)) ∧
    (∃ (s : State) (x : Pair) (m : Member), (s.clk = Clk.running)) ∧
    (∃ (s : State) (x : Pair) (m : Member) (cls : Fin 16) (ua : BitVec 13), (s.clk = Clk.running)) ∧
    (∃ (s : State) (x : Pair) (m : Member) (e : MicroEvt) (ua : BitVec 13), (s.clk = Clk.running)) :=
  ⟨⟨State.reset, 0, 0, by decide⟩,
   ⟨State.reset, 0, by decide⟩,
   ⟨State.reset, 0, by decide⟩,
   ⟨State.reset, 0, by decide⟩,
   ⟨State.reset, 0, 0, by decide⟩,
   ⟨State.reset, 0, 0, 1, ⟨0, 0, 0, [], []⟩, by decide⟩,
   ⟨State.reset, 0, 0, 0, 0, by decide⟩,
   ⟨State.reset, 0, 0, by decide⟩,
   ⟨State.reset, 0, 0, 0, 0, by decide⟩,
   ⟨State.reset, 0, 0, .parity, 0, by decide⟩⟩

/-- The hypotheses of each clause of TwinComparison are met together. -/
theorem wit_TwinComparison :
    (∃ (s : State) (x : Pair) (o : W64), (s.clk = Clk.running)) ∧
    (∃ (s : State) (x : Pair) (hf sf : Bool), (s.clk = Clk.running)) :=
  ⟨⟨State.reset, 0, 0, by decide⟩,
   ⟨State.reset, 0, true, true, by decide⟩⟩

/-- The hypotheses of each clause of TimeBases are met together. -/
theorem wit_TimeBases :
    (∃ (s w : State) (b : Fin 4) (m : Fin 9) (v : W64), (s.Ready) ∧ (w = s.wideWritten m R.TB_INC b)) ∧
    (∃ (s : State) (b : Fin 4), (s.Ready)) ∧
    (∃ (s : State) (b : Fin 4), (s.Ready)) ∧
    (∃ (s : State) (b : Fin 4), (s.Ready)) ∧
    (∃ (s : State) (b : Fin 4), (s.Ready)) ∧
    (∃ (s : State) (b : Fin 4), (s.Ready)) ∧
    (∃ (s : State) (b : Fin 4), (s.Ready)) ∧
    (∃ (s : State) (b : Fin 4), (s.Ready)) ∧
    (∃ (s : State) (b : Fin 4), (s.Ready)) ∧
    (∃ (s : State) (b : Fin 4), (s.Ready)) ∧
    (∃ (s u : State) (t : Tile) (x : MarkerTrip) (err : Int) (due : Nat), (s.Ready) ∧ (err = (s.rep t).dev - markerDev t x) ∧ (due = (s.rep t).due + 100000 * ((s.cycle - (s.rep t).due) / 100000 + 1)) ∧ (u = s.put F.TL_TSTAT_ERR (ofSigned 16 (clampI (-32768) 32767 err)) t)) :=
  ⟨⟨State.reset, _, 0, 0, 0, by decide, rfl⟩,
   ⟨State.reset, 0, by decide⟩,
   ⟨State.reset, 0, by decide⟩,
   ⟨State.reset, 0, by decide⟩,
   ⟨State.reset, 0, by decide⟩,
   ⟨State.reset, 0, by decide⟩,
   ⟨State.reset, 0, by decide⟩,
   ⟨State.reset, 0, by decide⟩,
   ⟨State.reset, 0, by decide⟩,
   ⟨State.reset, 0, by decide⟩,
   ⟨State.reset, _, 0, ⟨0, 0⟩, _, _, by decide, rfl, rfl, rfl⟩⟩

/-- The hypotheses of each clause of TimePins are met together. -/
theorem wit_TimePins :
    (∃ (s : State) (n : Fin 8) (u : State), (s.clk = Clk.running) ∧ (u = s.when ((s.tpoStaged n).mode = 1 && (s.tpoStaged n).first.isNone) (fun u => u.put F.TB_TPO_STAT_LATE 1 n))) ∧
    (∃ (s : State) (n : Fin 8), (s.Ready)) ∧
    (∃ (s u : State) (n : Fin 8) (falling : Bool) (x : PinEdge) (on : Bool), (s.Quiet) ∧ (u = s.pinTo (1 + n) (!falling)) ∧ (on = (if falling then bitOf (s.g F.TB_TCI_CTL_EDGE n) 1 else bitOf (s.g F.TB_TCI_CTL_EDGE n) 0))) ∧
    (∃ (s : State) (n m : Fin 8) (wide : Bool), (s.Ready)) ∧
    (∃ (s : State) (n : Fin 8), (s.Ready)) ∧
    (∃ (s : State) (rising : Bool) (x : PinEdge) (u : State), (s.Quiet) ∧ (u = (((s.pinTo 0 rising).putB F.TB_SYNC_STAT_LEVEL rising).sat F.TB_SYNC_STAT_EDGES).setWord (if rising then R.TB_SYNC_R else R.TB_SYNC_F) (tvOf (s.tbAt 0 x.k) 0))) :=
  ⟨⟨State.reset, 0, _, by decide, rfl⟩,
   ⟨State.reset, 0, by decide⟩,
   ⟨State.reset, _, 0, true, ⟨0, 0⟩, _, by decide, rfl, rfl⟩,
   ⟨State.reset, 0, 0, true, by decide⟩,
   ⟨State.reset, 0, by decide⟩,
   ⟨State.reset, true, ⟨0, 10⟩, _, by decide, rfl⟩⟩

/-- The hypotheses of each clause of SyncPorts are met together. -/
theorem wit_SyncPorts :
    (∃ (s : State) (p : Fin 2) (v : W32), (s.Ready)) ∧
    (∃ (s : State) (p : Fin 2), (s.Ready)) ∧
    (∃ (s : State) (p : Fin 2), (s.Ready)) ∧
    (∃ (s : State) (p : Fin 2) (bs : List Byte) (fcs : Bool) (k : Fin 5), (s.Ready)) ∧
    (∃ (s : State) (p : Fin 2), (s.Ready)) ∧
    (∃ (s : State) (p : Fin 2) (k : Fin 5), (s.Ready)) ∧
    (∃ (s : State) (p : Fin 2) (v : W32) (fr : List (List Byte × List Byte)), (s.Ready)) ∧
    (∃ (s : State) (p : Fin 2) (v : W32) (bufs : List (W64 × BitVec 14)), (s.Ready)) ∧
    (∃ (s : State) (p : Fin 2) (v : W32), (s.Ready)) ∧
    (∃ (s : State) (p : Fin 2) (m : Fin 8) (wide : Bool), (s.Ready)) ∧
    (∃ (s : State) (en : Bool), (s.Ready)) :=
  ⟨⟨State.reset, 0, 0, by decide⟩,
   ⟨State.reset, 0, by decide⟩,
   ⟨State.reset, 0, by decide⟩,
   ⟨State.reset, 0, [], true, 0, by decide⟩,
   ⟨State.reset, 0, by decide⟩,
   ⟨State.reset, 0, 0, by decide⟩,
   ⟨State.reset, 0, 0, [], by decide⟩,
   ⟨State.reset, 0, 0, [], by decide⟩,
   ⟨State.reset, 0, 0, by decide⟩,
   ⟨State.reset, 0, 0, true, by decide⟩,
   ⟨State.reset, true, by decide⟩⟩

/-- The branches of SyncPorts are met at the ends of their ranges. -/
theorem edge_SyncPorts :
    (∃ (s : State) (p : Fin 2) (v : W32), (s.Ready) ∧ (bitsOf v.toNat F.SP_CFG_FEC.lo F.SP_CFG_FEC.wd = 1 ∧ bitsOf v.toNat F.SP_CFG_SPEED.lo F.SP_CFG_SPEED.wd = 0)) ∧
    (∃ (s : State) (p : Fin 2) (v : W32), (s.Ready) ∧ (bitsOf v.toNat F.SP_CFG_FEC.lo F.SP_CFG_FEC.wd = 2 ∧ bitsOf v.toNat F.SP_CFG_SPEED.lo F.SP_CFG_SPEED.wd = 0)) ∧
    (∃ (s : State) (p : Fin 2) (v : W32), (s.Ready) ∧ (bitsOf v.toNat F.SP_CFG_FEC.lo F.SP_CFG_FEC.wd = 2 ∧ bitsOf v.toNat F.SP_CFG_SPEED.lo F.SP_CFG_SPEED.wd = 1)) ∧
    (∃ (s : State) (p : Fin 2) (v : W32), (s.Ready) ∧ (bitsOf v.toNat F.SP_CFG_FEC.lo F.SP_CFG_FEC.wd = 3 ∧ bitsOf v.toNat F.SP_CFG_SPEED.lo F.SP_CFG_SPEED.wd = 1)) ∧
    (∃ (s : State) (p : Fin 2) (v : W32), (s.Ready) ∧ (s.on F.SP_CFG_EN p = true ∧ bitsOf v.toNat F.SP_CFG_TB.lo F.SP_CFG_TB.wd ≠ s.g F.SP_CFG_TB p)) ∧
    (∃ (s : State) (p : Fin 2), (s.Ready) ∧ (s.on F.SP_CFG_EN p = true ∧ s.on F.SP_STAT_LINK p = true)) ∧
    (∃ (s : State) (p : Fin 2), (s.Ready) ∧ (s.on F.SP_CFG_EN p = true ∧ s.on F.SP_STAT_LINK p = false)) ∧
    (∃ (s : State) (p : Fin 2), (s.Ready) ∧ (s.on F.SP_CFG_EN p = true ∧ s.on F.TST_LCFG_GEN_EN (8 + p) = false ∧ s.on F.TST_LCFG_CHK_EN (8 + p) = false ∧ s.on F.SP_STAT_FENCED p = false)) ∧
    (∃ (s : State) (p : Fin 2), (s.Ready) ∧ (s.on F.TST_LCFG_GEN_EN (8 + p) = true)) ∧
    (∃ (s : State) (p : Fin 2) (bs : List Byte) (fcs : Bool) (k : Fin 5), (s.Ready) ∧ (s.spUp p = true ∧ fcs = true ∧ bs.length + 4 = 63)) ∧
    (∃ (s : State) (p : Fin 2) (bs : List Byte) (fcs : Bool) (k : Fin 5), (s.Ready) ∧ (s.spUp p = true ∧ fcs = true ∧ bs.length + 4 = 64 ∧ bs.length + 4 ≤ s.maxFrm p ∧ beAt bs 12 2 = 0x8808)) ∧
    (∃ (s : State) (p : Fin 2) (bs : List Byte) (fcs : Bool) (k : Fin 5), (s.Ready) ∧ (s.spUp p = true ∧ fcs = true ∧ bs.length + 4 = 64 ∧ bs.length + 4 ≤ s.maxFrm p ∧ beAt bs 12 2 ≠ 0x8808 ∧ s.on F.SP_TC_CTL_EN 0 = false ∧ s.macAccepts p (bs.take 6) = true ∧ (etherType bs).1 ≠ s.g F.BRS_ETYPE_ETYPE)) ∧
    (∃ (s : State) (p : Fin 2) (bs : List Byte) (fcs : Bool) (k : Fin 5), (s.Ready) ∧ (s.spUp p = true ∧ fcs = true ∧ bs.length + 4 = s.maxFrm p)) ∧
    (∃ (s : State) (p : Fin 2) (bs : List Byte) (fcs : Bool) (k : Fin 5), (s.Ready) ∧ (s.spUp p = true ∧ fcs = true ∧ bs.length + 4 = s.maxFrm p + 1)) ∧
    (∃ (s : State) (p : Fin 2) (v : W32) (fr : List (List Byte × List Byte)), (s.Ready) ∧ (v.toNat % 4096 + 1 = s.txLen p)) ∧
    (∃ (s : State) (p : Fin 2) (v : W32) (fr : List (List Byte × List Byte)), (s.Ready) ∧ (v.toNat % 4096 = s.txLen p)) ∧
    (∃ (s : State) (p : Fin 2) (v : W32) (bufs : List (W64 × BitVec 14)), (s.Ready) ∧ (v.toNat % 4096 + 1 = s.rxLen p)) ∧
    (∃ (s : State) (p : Fin 2) (v : W32) (bufs : List (W64 × BitVec 14)), (s.Ready) ∧ (v.toNat % 4096 = s.rxLen p)) ∧
    (∃ (s : State) (p : Fin 2) (v : W32), (s.Ready) ∧ (s.on F.SP_FR_CTL_EN p = true)) ∧
    (∃ (s : State) (p : Fin 2) (v : W32), (s.Ready) ∧ (s.on F.SP_FR_CTL_EN p = false)) ∧
    (∃ (s : State) (en : Bool), (s.Ready) ∧ (en = true ∧ s.on F.SP_CFG_EN 0 = true ∧ s.on F.SP_CFG_EN 1 = true ∧ s.g F.SP_CFG_TB 0 = s.g F.SP_CFG_TB 1)) ∧
    (∃ (s : State) (en : Bool), (s.Ready) ∧ (en = true ∧ s.on F.SP_CFG_EN 0 = true ∧ s.on F.SP_CFG_EN 1 = true ∧ s.g F.SP_CFG_TB 0 ≠ s.g F.SP_CFG_TB 1)) ∧
    (∃ (s : State) (en : Bool), (s.Ready) ∧ (s.on F.SP_CFG_EN 1 = false)) ∧
    (∃ (s : State) (en : Bool), (s.Ready) ∧ (en = false)) :=
  ⟨⟨State.reset, 0, cfgOf 1 0, by decide +kernel⟩,
   ⟨State.reset, 0, cfgOf 2 0, by decide +kernel⟩,
   ⟨State.reset, 0, cfgOf 2 1, by decide +kernel⟩,
   ⟨State.reset, 0, cfgOf 3 1, by decide +kernel⟩,
   ⟨State.reset.put F.SP_CFG_EN 1 0, 0, BitVec.ofNat 32 (2 ^ F.SP_CFG_TB.lo), by decide +kernel⟩,
   ⟨portUp 1, 1, by decide +kernel⟩,
   ⟨State.reset.put F.SP_CFG_EN 1 0, 0, by decide +kernel⟩,
   ⟨State.reset.put F.SP_CFG_EN 1 0, 0, by decide +kernel⟩,
   ⟨(State.reset.put F.SP_CFG_EN 1 0).put F.TST_LCFG_GEN_EN 1 8, 0, by decide +kernel⟩,
   ⟨portUp 0, 0, frameOf 0x0800 59, true, 0, by decide +kernel⟩,
   ⟨portUp 0, 0, frameOf 0x8808 60, true, 0, by decide +kernel⟩,
   ⟨portUp 0, 0, frameOf 0x0801 60, true, 0, by decide +kernel⟩,
   ⟨(portUp 0).put F.SP_MAXFRM_MAX 0 0, 0, frameOf 0x0801 1514, true, 0, by decide +kernel⟩,
   ⟨(portUp 0).put F.SP_MAXFRM_MAX 0 0, 0, frameOf 0x0801 1515, true, 0, by decide +kernel⟩,
   ⟨State.reset, 0, 15, [], by decide +kernel⟩,
   ⟨State.reset, 0, 16, [], by decide +kernel⟩,
   ⟨State.reset, 0, 15, [], by decide +kernel⟩,
   ⟨State.reset, 0, 16, [], by decide +kernel⟩,
   ⟨State.reset.put F.SP_FR_CTL_EN 1 0, 0, 2, by decide, by decide⟩,
   ⟨State.reset, 1, 2, by decide, by decide⟩,
   ⟨portsOn, true, by decide +kernel⟩,
   ⟨portsOn.put F.SP_CFG_TB 1 1, true, by decide +kernel⟩,
   ⟨portsOn.put F.SP_CFG_EN 0 1, true, by decide +kernel⟩,
   ⟨State.reset, false, by decide +kernel⟩⟩

/-- The hypotheses of each clause of HostLink are met together. -/
theorem wit_HostLink :
    (∃ (s u v : State), (u = { s with pci.fns := [], pci.linkUp := false, pci.inq := [] }) ∧ (v = (((u.put F.LAT_PCI_STAT_VF_EN 0).put F.LAT_PCI_STAT_SPEED 0).put F.LAT_PCI_STAT_WIDTH 0).put F.LAT_PCI_STAT_NUMVFS 0)) ∧
    (∃ (s : State) (speed : Fin 8) (width : Fin 16), (s.Quiet) ∧ (s.clk = Clk.running ∨ s.clk = Clk.frozen)) ∧
    (∃ (s : State) (f : Fn) (x : CfgItem) (u : State), (s.Ready)) ∧
    (∃ (s : State) (f : Fn) (v : BitVec 11), (s.Quiet)) ∧
    (∃ (s : State) (f : Fn) (v : BitVec 11), (s.Ready)) ∧
    (∃ (s : State) (v : Fn) (w : W32), (s.Ready) ∧ (v.val ≠ 0)) ∧
    (∃ (s : State) (v : Fn) (w : W32), (s.Ready) ∧ (v.val ≠ 0)) ∧
    (∃ (s : State) (v : Fn), (s.Ready) ∧ (v.val ≠ 0)) ∧
    (∃ (s : State) (v : Fn), (s.Ready) ∧ (v.val ≠ 0)) ∧
    (∃ (s : State) (v : Fn) (u : State), (s.Ready) ∧ (v.val ≠ 0) ∧ (u = { s.clrMbox v with pci.fns := Map.del (s.clrMbox v).pci.fns v, pci.msix := (s.clrMbox v).pci.msix.map (fun e => if e.1 / 2048 = v.val then (e.1, { e.2 with mask := true }) else e), pci.pba := (s.clrMbox v).pci.pba.filter (fun k => k / 2048 ≠ v.val), pci.inq := (s.clrMbox v).pci.inq.filter (fun r => r.1 ≠ v.val) })) ∧
    (∃ (s : State) (v : Fn), (s.Ready)) :=
  ⟨⟨State.reset, _, _, rfl, rfl⟩,
   ⟨State.reset, 0, 0, by decide⟩,
   ⟨State.reset, 0, .bme true, State.reset, by decide⟩,
   ⟨State.reset, 0, 0, by decide⟩,
   ⟨State.reset, 0, 0, by decide⟩,
   ⟨State.reset, 1, 0, by decide⟩,
   ⟨State.reset, 1, 0, by decide⟩,
   ⟨State.reset, 1, by decide⟩,
   ⟨State.reset, 1, by decide⟩,
   ⟨State.reset, 1, _, by decide, by decide, rfl⟩,
   ⟨State.reset, 1, by decide⟩⟩

/-- The hypotheses of each clause of RegisterSpace are met together. -/
theorem wit_RegisterSpace :
    (∃ (s : State) (m : Fin 8) (a : BitVec 24) (wide : Bool) (v : W64) (mem : List (List Byte × List Byte)) (n : Nat), (s.Ready) ∧ (n = a.toNat) ∧ (n % (if wide then 8 else 4) = 0)) ∧
    (∃ (s : State) (m : Fin 8) (a : BitVec 24) (wide : Bool) (n : Nat), (s.Ready) ∧ (n = a.toNat) ∧ (n % (if wide then 8 else 4) = 0)) ∧
    (∃ (s : State) (m : Fin 8) (a : BitVec 24) (t : Nat), (s.clk = Clk.running) ∧ (t = regTarget a.toNat)) ∧
    (∃ (s : State) (v : Fn) (i : Fin 1024) (w : Fin 8) (wr : Bool) (x : W32), (s.clk = Clk.running) ∧ (v.val ≠ 0)) ∧
    (∃ (s : State), (s.Quiet)) ∧
    (∃ (s : State) (f : Fn) (r : PcieReq), (s.Quiet)) ∧
    (∃ (s : State) (m : Fin 8), (s.clk = Clk.running)) :=
  ⟨⟨State.reset, 0, 0, false, 0, [], 0, by decide⟩,
   ⟨State.reset, 0, 0, false, 0, by decide⟩,
   ⟨State.reset, 0, 0, 0, by decide⟩,
   ⟨State.reset, 1, 0, 0, true, 0, by decide⟩,
   ⟨State.reset, by decide⟩,
   ⟨State.reset, 0, .atomic, by decide⟩,
   ⟨State.reset, 0, by decide⟩⟩

/-- The hypotheses of each clause of LatticeRules are met together. -/
theorem wit_LatticeRules :
    (∃ (s : State) (t : Fin 8) (hs : List (Fin 8)) (l : List Nat) (u : State), (s.clk = Clk.running) ∧ (l = (hs.map (fun m => m.val)).filter (fun m => latPath m t && !s.retiring m)) ∧ (u = s.latWait t l)) ∧
    (∃ (s : State) (m t : Fin 8) (wr : Bool) (x : LatWait), (s.clk = Clk.running)) ∧
    (∃ (s : State) (m t : Fin 8) (wr : Bool) (x : LatAddr), (s.clk = Clk.running)) ∧
    (∃ (s : State) (m : Fin 8), (s.Ready)) :=
  ⟨⟨State.reset, 0, [], [], _, by decide, by rfl, rfl⟩,
   ⟨State.reset, 0, 0, true, ⟨⟨0, 0⟩, 1⟩, by decide⟩,
   ⟨State.reset, 0, 0, true, ⟨0, 0⟩, by decide⟩,
   ⟨State.reset, 0, by decide⟩⟩

/-- The hypotheses of each clause of DmaChannels are met together. -/
theorem wit_DmaChannels :
    (∃ (s : State) (c : Fin 16), (s.Ready)) ∧
    (∃ (s : State) (c : Fin 16), (s.Ready)) ∧
    (∃ (s : State) (c : Fin 16), (s.Ready)) ∧
    (∃ (s : State) (c : Fin 16) (n : BitVec 32) (host : List Byte), (s.Ready)) ∧
    (∃ (s : State) (c : Fin 16), (s.Ready)) ∧
    (∃ (s : State) (c : Fin 16) (host : List Byte), (s.Ready)) ∧
    (∃ (s : State) (c : Fin 16) (host : List Byte), (s.Ready)) ∧
    (∃ (s : State) (c : Fin 16) (e : DmaErr) (n : BitVec 32) (host : List Byte) (k : Nat), (s.Ready) ∧ ((e = .lattice ∧ k = 8) ∨ (e = .host .poisoned ∧ k = 10) ∨ (e = .host .ur ∧ k = 9) ∨ (e = .host .ca ∧ k = 9) ∨ (e = .host .timeout ∧ k = 9) ∨ ((∃ w, e = .uncorrectable w) ∧ k = 10))) :=
  ⟨⟨State.reset, 0, by decide⟩,
   ⟨State.reset, 0, by decide⟩,
   ⟨State.reset, 0, by decide⟩,
   ⟨State.reset, 0, 0, [], by decide⟩,
   ⟨State.reset, 0, by decide⟩,
   ⟨State.reset, 0, [], by decide⟩,
   ⟨State.reset, 0, [], by decide⟩,
   ⟨State.reset, 0, .lattice, 0, [], 8, by decide⟩⟩

/-- The branches of DmaChannels are met at the ends of their ranges. -/
theorem edge_DmaChannels :
    (∃ (s : State) (c : Fin 16), (s.Ready) ∧ (s.dmaState c = 0)) ∧
    (∃ (s : State) (c : Fin 16), (s.Ready) ∧ (s.dmaState c = 1)) ∧
    (∃ (s : State) (c : Fin 16), (s.Ready) ∧ (s.dmaState c = 4)) ∧
    (∃ (s : State) (c : Fin 16), (s.Ready) ∧ (s.dmaState c = 0)) ∧
    (∃ (s : State) (c : Fin 16), (s.Ready) ∧ (s.dmaState c = 1)) ∧
    (∃ (s : State) (c : Fin 16), (s.Ready) ∧ (s.dmaState c = 4)) ∧
    (∃ (s : State) (c : Fin 16), (s.Ready) ∧ (s.dmaState c = 0)) ∧
    (∃ (s : State) (c : Fin 16), (s.Ready) ∧ (s.dmaState c = 1)) ∧
    (∃ (s : State) (c : Fin 16), (s.Ready) ∧ (s.dmaState c = 2)) ∧
    (∃ (s : State) (c : Fin 16), (s.Ready) ∧ (s.dmaState c = 3)) ∧
    (∃ (s : State) (c : Fin 16), (s.Ready) ∧ (s.dmaState c = 4)) ∧
    (∃ (s : State) (c : Fin 16) (n : BitVec 32) (host : List Byte), (s.Ready) ∧ (s.dmaState c = 0)) ∧
    (∃ (s : State) (c : Fin 16) (n : BitVec 32) (host : List Byte), (s.Ready) ∧ (s.dmaState c = 1)) ∧
    (∃ (s : State) (c : Fin 16) (n : BitVec 32) (host : List Byte), (s.Ready) ∧ (s.dmaState c = 3)) ∧
    (∃ (s : State) (c : Fin 16) (n : BitVec 32) (host : List Byte), (s.Ready) ∧ (s.dmaState c = 4)) ∧
    (∃ (s : State) (c : Fin 16) (n : BitVec 32) (host : List Byte), (s.Ready) ∧ (s.dmaState c = 2 ∧ s.dmaWaits c = false ∧ s.retiring 1 = false)) ∧
    (∃ (s : State) (c : Fin 16) (n : BitVec 32) (host : List Byte), (s.Ready) ∧ (s.dmaState c = 2 ∧ s.retiring 1 = true)) ∧
    (∃ (s : State) (c : Fin 16), (s.Ready) ∧ (s.dmaState c = 2)) ∧
    (∃ (s : State) (c : Fin 16), (s.Ready) ∧ (s.dmaState c = 3)) ∧
    (∃ (s : State) (c : Fin 16), (s.Ready) ∧ (s.dmaState c = 4)) ∧
    (∃ (s : State) (c : Fin 16) (host : List Byte), (s.Ready) ∧ (s.dmaState c = 0)) ∧
    (∃ (s : State) (c : Fin 16) (host : List Byte), (s.Ready) ∧ (s.dmaState c = 2)) ∧
    (∃ (s : State) (c : Fin 16) (host : List Byte), (s.Ready) ∧ (s.dmaState c = 1 ∧ s.retiring 1 = false ∧ s.on F.DMA_CH_CFG_CSP c = false ∧ (s.dma' c).relink = false)) ∧
    (∃ (s : State) (c : Fin 16) (host : List Byte), (s.Ready) ∧ (s.dmaState c = 1 ∧ s.on F.DMA_CH_CFG_CSP c = true ∧ s.dmaHost = false)) ∧
    (∃ (s : State) (c : Fin 16) (host : List Byte), (s.Ready) ∧ (s.dmaState c = 1 ∧ s.retiring 1 = false ∧ s.on F.DMA_CH_CFG_CSP c = true ∧ s.dmaHost = true ∧ s.readRoom 1 = true ∧ (s.dma' c).relink = false)) ∧
    (∃ (s : State) (c : Fin 16) (host : List Byte), (s.Ready) ∧ (s.dmaState c = 1)) ∧
    (∃ (s : State) (c : Fin 16) (host : List Byte), (s.Ready) ∧ (s.dmaState c = 3)) ∧
    (∃ (s : State) (c : Fin 16) (host : List Byte), (s.Ready) ∧ (s.dmaState c = 2 ∧ s.dmaWaits c = false ∧ s.retiring 1 = false)) ∧
    (∃ (s : State) (c : Fin 16) (host : List Byte), (s.Ready) ∧ (s.dmaState c = 2 ∧ s.dmaHost = false ∧ (Dd.ssp (s.dma' c).desc = 1 ∨ Dd.dsp (s.dma' c).desc = 1))) ∧
    (∃ (s : State) (c : Fin 16) (e : DmaErr) (n : BitVec 32) (host : List Byte) (k : Nat), (s.Ready) ∧ ((e = .lattice ∧ k = 8) ∨ (e = .host .poisoned ∧ k = 10) ∨ (e = .host .ur ∧ k = 9) ∨ (e = .host .ca ∧ k = 9) ∨ (e = .host .timeout ∧ k = 9) ∨ ((∃ w, e = .uncorrectable w) ∧ k = 10)) ∧ (s.dmaState c = 0)) ∧
    (∃ (s : State) (c : Fin 16) (e : DmaErr) (n : BitVec 32) (host : List Byte) (k : Nat), (s.Ready) ∧ ((e = .lattice ∧ k = 8) ∨ (e = .host .poisoned ∧ k = 10) ∨ (e = .host .ur ∧ k = 9) ∨ (e = .host .ca ∧ k = 9) ∨ (e = .host .timeout ∧ k = 9) ∨ ((∃ w, e = .uncorrectable w) ∧ k = 10)) ∧ (s.dmaState c = 1)) ∧
    (∃ (s : State) (c : Fin 16) (e : DmaErr) (n : BitVec 32) (host : List Byte) (k : Nat), (s.Ready) ∧ ((e = .lattice ∧ k = 8) ∨ (e = .host .poisoned ∧ k = 10) ∨ (e = .host .ur ∧ k = 9) ∨ (e = .host .ca ∧ k = 9) ∨ (e = .host .timeout ∧ k = 9) ∨ ((∃ w, e = .uncorrectable w) ∧ k = 10)) ∧ (s.dmaState c = 2)) ∧
    (∃ (s : State) (c : Fin 16) (e : DmaErr) (n : BitVec 32) (host : List Byte) (k : Nat), (s.Ready) ∧ ((e = .lattice ∧ k = 8) ∨ (e = .host .poisoned ∧ k = 10) ∨ (e = .host .ur ∧ k = 9) ∨ (e = .host .ca ∧ k = 9) ∨ (e = .host .timeout ∧ k = 9) ∨ ((∃ w, e = .uncorrectable w) ∧ k = 10)) ∧ (s.dmaState c = 3)) ∧
    (∃ (s : State) (c : Fin 16) (e : DmaErr) (n : BitVec 32) (host : List Byte) (k : Nat), (s.Ready) ∧ ((e = .lattice ∧ k = 8) ∨ (e = .host .poisoned ∧ k = 10) ∨ (e = .host .ur ∧ k = 9) ∨ (e = .host .ca ∧ k = 9) ∨ (e = .host .timeout ∧ k = 9) ∨ ((∃ w, e = .uncorrectable w) ∧ k = 10)) ∧ (s.dmaState c = 4)) :=
  ⟨⟨dmaAt 0, 15, by decide +kernel⟩,
   ⟨dmaAt 1, 15, by decide +kernel⟩,
   ⟨dmaAt 4, 15, by decide +kernel⟩,
   ⟨dmaAt 0, 15, by decide +kernel⟩,
   ⟨dmaAt 1, 15, by decide +kernel⟩,
   ⟨dmaAt 4, 15, by decide +kernel⟩,
   ⟨dmaAt 0, 15, by decide +kernel⟩,
   ⟨dmaAt 1, 15, by decide +kernel⟩,
   ⟨dmaAt 2, 15, by decide +kernel⟩,
   ⟨dmaAt 3, 15, by decide +kernel⟩,
   ⟨dmaAt 4, 15, by decide +kernel⟩,
   ⟨dmaAt 0, 15, 0, [], by decide +kernel⟩,
   ⟨dmaAt 1, 15, 0, [], by decide +kernel⟩,
   ⟨dmaAt 3, 15, 0, [], by decide +kernel⟩,
   ⟨dmaAt 4, 15, 0, [], by decide +kernel⟩,
   ⟨dmaAt 2, 15, 0, [], by decide +kernel⟩,
   ⟨(dmaAt 2).put F.LAT_STAT_RETIRE 2, 15, 0, [], by decide +kernel⟩,
   ⟨dmaAt 2, 15, by decide +kernel⟩,
   ⟨dmaAt 3, 15, by decide +kernel⟩,
   ⟨dmaAt 4, 15, by decide +kernel⟩,
   ⟨dmaAt 0, 15, [], by decide +kernel⟩,
   ⟨dmaAt 2, 15, [], by decide +kernel⟩,
   ⟨dmaAt 1, 15, [], by decide +kernel⟩,
   ⟨(dmaAt 1).put F.DMA_CH_CFG_CSP 1 15, 15, [], by decide +kernel⟩,
   ⟨({ dmaAt 1 with pci.linkUp := true, pci.fns := [(0, { bme := true })] } : State).put F.DMA_CH_CFG_CSP 1 15, 15, [], by decide +kernel⟩,
   ⟨dmaAt 1, 15, [], by decide +kernel⟩,
   ⟨dmaAt 3, 15, [], by decide +kernel⟩,
   ⟨dmaAt 2, 15, [], by decide +kernel⟩,
   ⟨(dmaAt 2).updDma 15 (fun x => { x with desc := List.replicate 64 1 }), 15, [], by decide +kernel⟩,
   ⟨dmaAt 0, 15, .lattice, 0, [], 8, by decide, .inl ⟨rfl, rfl⟩, by decide +kernel⟩,
   ⟨dmaAt 1, 15, .lattice, 0, [], 8, by decide, .inl ⟨rfl, rfl⟩, by decide +kernel⟩,
   ⟨dmaAt 2, 15, .lattice, 0, [], 8, by decide, .inl ⟨rfl, rfl⟩, by decide +kernel⟩,
   ⟨dmaAt 3, 15, .lattice, 0, [], 8, by decide, .inl ⟨rfl, rfl⟩, by decide +kernel⟩,
   ⟨dmaAt 4, 15, .lattice, 0, [], 8, by decide, .inl ⟨rfl, rfl⟩, by decide +kernel⟩⟩

/-- The hypotheses of each clause of ChordEvents are met together. -/
theorem wit_ChordEvents :
    (∃ (s : State), (s.Ready)) ∧
    (∃ (s : State) (c : Fin 64), (s.Ready)) ∧
    (∃ (s : State) (i : Fin 4) (level : Bool), (s.Ready)) ∧
    (∃ (s : State) (i : Fin 4) (level : Bool), (s.clk = Clk.frozen)) ∧
    (∃ (s : State) (i : Fin 4), (s.Ready)) ∧
    (∃ (s : State) (c : Fin 64) (v : W32) (u : State), (s.Ready) ∧ (u = [F.EVT_CH_PSEL, F.EVT_CH_CSEL, F.EVT_CH_GRP, F.EVT_CH_EN, F.EVT_CH_IEN, F.EVT_CH_RETRIG].foldl (fun u f => u.sput f (bitsOf v.toNat f.lo f.wd) c) s)) :=
  ⟨⟨State.reset, by decide⟩,
   ⟨State.reset, 0, by decide⟩,
   ⟨State.reset, 0, true, by decide⟩,
   ⟨{ State.reset with clk := .frozen }, 0, true, by decide⟩,
   ⟨State.reset, 0, by decide⟩,
   ⟨State.reset, 0, 0, _, by decide, rfl⟩⟩

/-- The branches of ChordEvents are met at the ends of their ranges. -/
theorem edge_ChordEvents :
    (∃ (s : State), (s.Ready) ∧ (s.evt.occ = [256] ∧ 256 ≤ 256)) ∧
    (∃ (s : State), (s.Ready) ∧ (s.evt.occ = [0xFF] ∧ producer 0xFF = true)) ∧
    (∃ (s : State), (s.Ready) ∧ (s.evt.occ = [0x70] ∧ producer 0x70 = false)) ∧
    (∃ (s : State), (s.Ready) ∧ (s.evt.occ = [1] ∧ producer 1 = true)) ∧
    (∃ (s : State), (s.Ready) ∧ (s.evt.occ = [0] ∧ producer 0 = false)) ∧
    (∃ (s : State) (c : Fin 64), (s.Ready) ∧ (s.on F.EVT_CH_EN c = true ∧ bitOf s.grpMask (s.g F.EVT_CH_GRP c) = true ∧ Map.find s.evt.last c ≠ some s.slow ∧ s.stormy c = false)) ∧
    (∃ (s : State) (c : Fin 64), (s.Ready) ∧ (s.on F.EVT_CH_EN c = true ∧ bitOf s.grpMask (s.g F.EVT_CH_GRP c) = true ∧ Map.find s.evt.last c = some s.slow)) ∧
    (∃ (s : State) (c : Fin 64), (s.Ready) ∧ (s.on F.EVT_CH_EN c = true ∧ bitOf s.grpMask (s.g F.EVT_CH_GRP c) = true ∧ Map.find s.evt.last c ≠ some s.slow ∧ s.stormy c = true)) ∧
    (∃ (s : State) (c : Fin 64), (s.Ready) ∧ (s.on F.EVT_CH_EN c = true ∧ s.stormy c = false)) ∧
    (∃ (s : State) (c : Fin 64), (s.Ready) ∧ (s.on F.EVT_CH_EN c = true ∧ bitOf s.grpMask (s.g F.EVT_CH_GRP c) = false)) ∧
    (∃ (s : State) (i : Fin 4) (level : Bool), (s.Ready) ∧ (s.on F.EVT_PIN_LEVEL i ≠ level)) ∧
    (∃ (s : State) (i : Fin 4) (level : Bool), (s.Ready) ∧ (s.on F.EVT_PIN_LEVEL i = level)) ∧
    (∃ (s : State) (i : Fin 4), (s.Ready) ∧ (s.pulseOver (1 + i) = false)) ∧
    (∃ (s : State) (i : Fin 4), (s.Ready) ∧ (s.pulseOver (1 + i) = true)) :=
  ⟨⟨{ State.reset with evt.occ := [256] }, by decide +kernel⟩,
   ⟨{ State.reset with evt.occ := [0xFF] }, by decide +kernel⟩,
   ⟨{ State.reset with evt.occ := [0x70] }, by decide +kernel⟩,
   ⟨{ State.reset with evt.occ := [1] }, by decide +kernel⟩,
   ⟨{ State.reset with evt.occ := [0] }, by decide +kernel⟩,
   ⟨chanOn, 63, by decide +kernel⟩,
   ⟨{ chanOn with evt.last := [(63, 0)] }, 63, by decide +kernel⟩,
   ⟨{ chanOn with cycle := 8 * 4096, evt.hist := [(63, List.replicate 256 1)] }, 63, by decide +kernel⟩,
   ⟨{ chanOn with cycle := 8 * 4096, evt.hist := [(63, List.replicate 256 0)] }, 63, by decide +kernel⟩,
   ⟨chanOn.put F.EVT_GRP_EN 0, 63, by decide +kernel⟩,
   ⟨State.reset, 3, true, by decide +kernel⟩,
   ⟨State.reset, 3, false, by decide +kernel⟩,
   ⟨{ State.reset with cycle := 71, evt.pulse := [(4, 9)] }, 3, by decide +kernel⟩,
   ⟨{ State.reset with cycle := 72, evt.pulse := [(4, 9)] }, 3, by decide +kernel⟩⟩

/-- The hypotheses of each clause of FaultCollector are met together. -/
theorem wit_FaultCollector :
    (∃ (s : State) (n : Fin 64) (info : W32) (k : Nat), (s.clk = Clk.running) ∧ (n ≠ 24) ∧ (k = info.toNat &&& infoBits n)) ∧
    (∃ (s : State) (info : W32) (w : Nat), (s.clk = Clk.running) ∧ (storeWord (bitsOf info.toNat 0 4) (bitsOf info.toNat 8 21) = some w)) ∧
    (∃ (s : State) (m : Fin 9) (mask : W64) (l : List (Nat × Nat × Nat)) (u : State), (s.clk = Clk.running) ∧ (l = s.flt.again.filter (fun e => e.2.1 = s.cycle && bitOf mask.toNat e.1)) ∧ (u = { (s.wideWritten m R.FLT_STAT).w1c F.FLT_STAT_STAT mask.toNat with flt.again := [] })) ∧
    (∃ (s : State), (s.clk = Clk.running)) ∧
    (∃ (s : State) (mask : BitVec 4), (s.clk = Clk.running)) ∧
    (∃ (s : State) (store : Fin 9) (n : BitVec 32) (d : Nat), (s.Ready) ∧ (d = Map.look s.flt.ceAt store s.flt.ceBase + 1000000 * max 1 (s.g F.FLT_CE_THR_WIN))) ∧
    (∃ (s : State) (i : Fin 4), (s.clk = Clk.running)) :=
  ⟨⟨State.reset, 0, 0, _, by decide, by decide, rfl⟩,
   ⟨State.reset, 0, 0, by decide⟩,
   ⟨State.reset, 0, 0, [], _, by decide, rfl, rfl⟩,
   ⟨State.reset, by decide⟩,
   ⟨State.reset, 0, by decide⟩,
   ⟨State.reset, 0, 0, _, by decide, rfl⟩,
   ⟨State.reset, 0, by decide⟩⟩

/-- The branches of FaultCollector are met at the ends of their ranges. -/
theorem edge_FaultCollector :
    (∃ (s : State) (n : Fin 64) (info : W32) (k : Nat), (s.clk = Clk.running) ∧ (n ≠ 24) ∧ (k = info.toNat &&& infoBits n) ∧ (s.fltOn n = false)) ∧
    (∃ (s : State) (n : Fin 64) (info : W32) (k : Nat), (s.clk = Clk.running) ∧ (n ≠ 24) ∧ (k = info.toNat &&& infoBits n) ∧ (s.fltOn n = true)) ∧
    (∃ (s : State) (info : W32) (w : Nat), (s.clk = Clk.running) ∧ (storeWord (bitsOf info.toNat 0 4) (bitsOf info.toNat 8 21) = some w) ∧ (w = dmBase 0)) ∧
    (∃ (s : State) (info : W32) (w : Nat), (s.clk = Clk.running) ∧ (storeWord (bitsOf info.toNat 0 4) (bitsOf info.toNat 8 21) = some w) ∧ (w = repBase + 8 * (2 ^ 21 - 1))) ∧
    (∃ (s : State), (s.clk = Clk.running) ∧ (bitList (s.hwOf R.FLT_STAT).set.toNat 64 = [])) ∧
    (∃ (s : State), (s.clk = Clk.running) ∧ (bitList (s.hwOf R.FLT_STAT).set.toNat 64 = [63])) ∧
    (∃ (s : State) (store : Fin 9) (n : BitVec 32) (d : Nat), (s.Ready) ∧ (d = Map.look s.flt.ceAt store s.flt.ceBase + 1000000 * max 1 (s.g F.FLT_CE_THR_WIN)) ∧ (s.cycle + 1 = d)) ∧
    (∃ (s : State) (store : Fin 9) (n : BitVec 32) (d : Nat), (s.Ready) ∧ (d = Map.look s.flt.ceAt store s.flt.ceBase + 1000000 * max 1 (s.g F.FLT_CE_THR_WIN)) ∧ (s.cycle = d ∧ n.toNat + 1 = s.g F.FLT_CE_THR_THR)) ∧
    (∃ (s : State) (store : Fin 9) (n : BitVec 32) (d : Nat), (s.Ready) ∧ (d = Map.look s.flt.ceAt store s.flt.ceBase + 1000000 * max 1 (s.g F.FLT_CE_THR_WIN)) ∧ (s.cycle = d ∧ n.toNat = s.g F.FLT_CE_THR_THR)) :=
  ⟨⟨State.reset, 63, 0, _, by decide, by decide, rfl, by decide⟩,
   ⟨State.reset.put F.FLT_STAT_STAT 1, 0, 0, _, by decide, by decide, rfl, by decide⟩,
   ⟨State.reset, 6, dmBase 0, by decide +kernel⟩,
   ⟨State.reset, 0x1FFFFF05, repBase + 8 * (2 ^ 21 - 1), by decide +kernel⟩,
   ⟨State.reset, by decide +kernel⟩,
   ⟨State.reset.raise 63, by decide +kernel⟩,
   ⟨{ State.reset with cycle := 999999999 }, 8, 0, _, by decide, rfl, by decide⟩,
   ⟨{ State.reset with cycle := 1000000000 }, 8, 15, _, by decide, rfl, by decide⟩,
   ⟨{ State.reset with cycle := 1000000000 }, 8, 16, _, by decide, rfl, by decide⟩⟩

/-- The hypotheses of each clause of FencesAndResumes are met together. -/
theorem wit_FencesAndResumes :
    (∃ (s : State) (r : Fin 8) (i : Fin 64) (u : State), (s.Ready) ∧ (u = (s.sput F.FLT_FENCE_CTL_REGION r).sput F.FLT_FENCE_CTL_INDEX i)) ∧
    (∃ (s : State), (s.Ready)) ∧
    (∃ (s : State) (r : Fin 8) (i : Fin 64) (u : State), (s.Ready) ∧ (u = (s.sput F.FLT_FENCE_CTL_REGION r).sput F.FLT_FENCE_CTL_INDEX i)) ∧
    (∃ (s : State) (r : Fin 8) (i : Fin 64), (s.Ready)) ∧
    (∃ (s : State) (r : Fin 8) (i : Fin 64), (s.Ready)) :=
  ⟨⟨State.reset, 0, 0, _, by decide, rfl⟩,
   ⟨State.reset, by decide⟩,
   ⟨State.reset, 0, 0, _, by decide, rfl⟩,
   ⟨State.reset, 0, 0, by decide⟩,
   ⟨State.reset, 0, 0, by decide⟩⟩

/-- The branches of FencesAndResumes are met at the ends of their ranges. -/
theorem edge_FencesAndResumes :
    (∃ (s : State) (r : Fin 8) (i : Fin 64) (u : State), (s.Ready) ∧ (u = (s.sput F.FLT_FENCE_CTL_REGION r).sput F.FLT_FENCE_CTL_INDEX i) ∧ (u.flt.cmds.any (fun c => c.2.2) = false ∧ regionIdx r i = true)) ∧
    (∃ (s : State) (r : Fin 8) (i : Fin 64) (u : State), (s.Ready) ∧ (u = (s.sput F.FLT_FENCE_CTL_REGION r).sput F.FLT_FENCE_CTL_INDEX i) ∧ (u.flt.cmds.any (fun c => c.2.2) = false ∧ regionIdx r i = false)) ∧
    (∃ (s : State) (r : Fin 8) (i : Fin 64) (u : State), (s.Ready) ∧ (u = (s.sput F.FLT_FENCE_CTL_REGION r).sput F.FLT_FENCE_CTL_INDEX i) ∧ (u.flt.cmds.any (fun c => c.2.2) = false ∧ regionIdx r i = true)) ∧
    (∃ (s : State) (r : Fin 8) (i : Fin 64) (u : State), (s.Ready) ∧ (u = (s.sput F.FLT_FENCE_CTL_REGION r).sput F.FLT_FENCE_CTL_INDEX i) ∧ (u.flt.cmds.any (fun c => c.2.2) = false ∧ regionIdx r i = false)) ∧
    (∃ (s : State) (r : Fin 8) (i : Fin 64) (u : State), (s.Ready) ∧ (u = (s.sput F.FLT_FENCE_CTL_REGION r).sput F.FLT_FENCE_CTL_INDEX i) ∧ (u.flt.cmds.any (fun c => c.2.2) = false ∧ regionIdx r i = true)) ∧
    (∃ (s : State) (r : Fin 8) (i : Fin 64) (u : State), (s.Ready) ∧ (u = (s.sput F.FLT_FENCE_CTL_REGION r).sput F.FLT_FENCE_CTL_INDEX i) ∧ (u.flt.cmds.any (fun c => c.2.2) = false ∧ regionIdx r i = false)) ∧
    (∃ (s : State) (r : Fin 8) (i : Fin 64) (u : State), (s.Ready) ∧ (u = (s.sput F.FLT_FENCE_CTL_REGION r).sput F.FLT_FENCE_CTL_INDEX i) ∧ (u.flt.cmds.any (fun c => c.2.2) = false ∧ regionIdx r i = true)) ∧
    (∃ (s : State) (r : Fin 8) (i : Fin 64) (u : State), (s.Ready) ∧ (u = (s.sput F.FLT_FENCE_CTL_REGION r).sput F.FLT_FENCE_CTL_INDEX i) ∧ (u.flt.cmds.any (fun c => c.2.2) = false ∧ regionIdx r i = false)) ∧
    (∃ (s : State) (r : Fin 8) (i : Fin 64) (u : State), (s.Ready) ∧ (u = (s.sput F.FLT_FENCE_CTL_REGION r).sput F.FLT_FENCE_CTL_INDEX i) ∧ (u.flt.cmds.any (fun c => c.2.2) = true)) ∧
    (∃ (s : State), (s.Ready) ∧ (s.flt.fences = [])) ∧
    (∃ (s : State), (s.Ready) ∧ (s.flt.fences ≠ [])) ∧
    (∃ (s : State) (r : Fin 8) (i : Fin 64) (u : State), (s.Ready) ∧ (u = (s.sput F.FLT_FENCE_CTL_REGION r).sput F.FLT_FENCE_CTL_INDEX i) ∧ (regionIdx r i = true ∧ u.regionFenced r i = false)) ∧
    (∃ (s : State) (r : Fin 8) (i : Fin 64) (u : State), (s.Ready) ∧ (u = (s.sput F.FLT_FENCE_CTL_REGION r).sput F.FLT_FENCE_CTL_INDEX i) ∧ (regionIdx r i = false)) ∧
    (∃ (s : State) (r : Fin 8) (i : Fin 64) (u : State), (s.Ready) ∧ (u = (s.sput F.FLT_FENCE_CTL_REGION r).sput F.FLT_FENCE_CTL_INDEX i) ∧ (regionIdx r i = true ∧ u.regionFenced r i = true ∧ u.on F.FLT_FENCE_STAT_BUSY = false)) ∧
    (∃ (s : State) (r : Fin 8) (i : Fin 64) (u : State), (s.Ready) ∧ (u = (s.sput F.FLT_FENCE_CTL_REGION r).sput F.FLT_FENCE_CTL_INDEX i) ∧ (u.on F.FLT_FENCE_STAT_BUSY = true)) ∧
    (∃ (s : State) (r : Fin 8) (i : Fin 64), (s.Ready) ∧ (s.resuming r i = true ∧ s.resumeReady r i = true)) ∧
    (∃ (s : State) (r : Fin 8) (i : Fin 64), (s.Ready) ∧ (s.resuming r i = true ∧ s.resumeReady r i = false)) ∧
    (∃ (s : State) (r : Fin 8) (i : Fin 64), (s.Ready) ∧ (s.resuming r i = false)) ∧
    (∃ (s : State) (r : Fin 8) (i : Fin 64), (s.Ready) ∧ (s.resuming r i = false)) ∧
    (∃ (s : State) (r : Fin 8) (i : Fin 64), (s.Ready) ∧ (s.resuming r i = true ∧ s.resumeReady r i = true)) ∧
    (∃ (s : State) (r : Fin 8) (i : Fin 64), (s.Ready) ∧ (s.resuming r i = true ∧ s.resumeReady r i = false)) ∧
    (∃ (s : State) (r : Fin 8) (i : Fin 64), (s.Ready) ∧ (s.resuming r i = true ∧ s.resumeReady r i = true)) ∧
    (∃ (s : State) (r : Fin 8) (i : Fin 64), (s.Ready) ∧ (s.resuming r i = true ∧ s.resumeReady r i = false)) ∧
    (∃ (s : State) (r : Fin 8) (i : Fin 64), (s.Ready) ∧ (s.resuming r i = true ∧ s.resumeReady r i = false)) :=
  ⟨⟨State.reset, 0, 15, _, by decide, rfl, by decide⟩,
   ⟨State.reset, 0, 16, _, by decide, rfl, by decide⟩,
   ⟨State.reset, 1, 15, _, by decide, rfl, by decide⟩,
   ⟨State.reset, 1, 16, _, by decide, rfl, by decide⟩,
   ⟨State.reset, 2, 1, _, by decide, rfl, by decide⟩,
   ⟨State.reset, 2, 2, _, by decide, rfl, by decide⟩,
   ⟨State.reset, 3, 31, _, by decide, rfl, by decide⟩,
   ⟨State.reset, 3, 32, _, by decide, rfl, by decide⟩,
   ⟨{ State.reset with flt.cmds := [(0, 0, true)] }, 0, 0, _, by decide, rfl, by decide⟩,
   ⟨State.reset, by decide +kernel⟩,
   ⟨State.reset.askFence 0 15 false, by decide +kernel⟩,
   ⟨State.reset, 0, 15, _, by decide, rfl, by decide⟩,
   ⟨State.reset, 0, 16, _, by decide, rfl, by decide⟩,
   ⟨State.reset.put F.FLT_FENCED_PT_PART 0x8000, 0, 15, _, by decide, rfl, by decide⟩,
   ⟨(State.reset.put F.FLT_FENCED_PT_PART 0x8000).put F.FLT_FENCE_STAT_BUSY 1, 0, 15, _, by decide, rfl, by decide⟩,
   ⟨{ State.reset with flt.resumes := [(0, 15)] }, 0, 15, by decide +kernel⟩,
   ⟨{ State.reset with flt.resumes := [(1, 15)] }, 1, 15, by decide +kernel⟩,
   ⟨State.reset, 0, 15, by decide +kernel⟩,
   ⟨State.reset, 0, 0, by decide +kernel⟩,
   ⟨{ State.reset with flt.resumes := [(0, 15)] }, 0, 15, by decide +kernel⟩,
   ⟨{ State.reset with flt.resumes := [(1, 15)] }, 1, 15, by decide +kernel⟩,
   ⟨{ State.reset with flt.resumes := [(6, 0)] }, 6, 0, by decide +kernel⟩,
   ⟨({ State.reset with flt.resumes := [(2, 1)] } : State).put F.FLT_FENCED_X_SEQ 2, 2, 1, by decide +kernel⟩,
   ⟨({ State.reset with flt.resumes := [(3, 31)] } : State).put F.FLT_FENCED_LE_LE 0x80000000, 3, 31, by decide +kernel⟩⟩

/-- The hypotheses of each clause of FreezeAndModes are met together. -/
theorem wit_FreezeAndModes :
    (∃ (s : State) (src : Fin 3) (u : State), (s.Quiet) ∧ (u = if src = 0 then { s with flt.frzPin := false } else s)) ∧
    (∃ (s : State), (s.Quiet)) ∧
    (∃ (s : State) (p : Part) (code : Fin 8) (u : State), (s.clk = Clk.running) ∧ (u = s.sput F.GLB_PMODE_REQ code p)) :=
  ⟨⟨State.reset, 0, _, by decide, rfl⟩,
   ⟨State.reset, by decide⟩,
   ⟨State.reset, 0, 0, _, by decide, rfl⟩⟩

/-- The branches of FreezeAndModes are met at the ends of their ranges. -/
theorem edge_FreezeAndModes :
    (∃ (s : State) (src : Fin 3) (u : State), (s.Quiet) ∧ (u = if src = 0 then { s with flt.frzPin := false } else s) ∧ (s.clk = Clk.running ∧ s.mode = 2 ∧ (src = 1))) ∧
    (∃ (s : State) (src : Fin 3) (u : State), (s.Quiet) ∧ (u = if src = 0 then { s with flt.frzPin := false } else s) ∧ (s.clk = Clk.running ∧ s.mode = 3 ∧ (src = 1))) ∧
    (∃ (s : State) (src : Fin 3) (u : State), (s.Quiet) ∧ (u = if src = 0 then { s with flt.frzPin := false } else s) ∧ (s.clk = Clk.running ∧ s.mode = 4 ∧ (src = 2))) ∧
    (∃ (s : State) (src : Fin 3) (u : State), (s.Quiet) ∧ (u = if src = 0 then { s with flt.frzPin := false } else s) ∧ (s.clk = Clk.running ∧ s.mode = 5 ∧ (src = 1))) ∧
    (∃ (s : State) (src : Fin 3) (u : State), (s.Quiet) ∧ (u = if src = 0 then { s with flt.frzPin := false } else s) ∧ (s.mode = 3 ∧ src = 0 ∧ s.on F.FLT_FRZ_CTL_PIN_EN = true)) ∧
    (∃ (s : State) (src : Fin 3) (u : State), (s.Quiet) ∧ (u = if src = 0 then { s with flt.frzPin := false } else s) ∧ (s.mode = 4 ∧ src = 0 ∧ s.on F.FLT_FRZ_CTL_PIN_EN = false)) ∧
    (∃ (s : State) (p : Part) (code : Fin 8) (u : State), (s.clk = Clk.running) ∧ (u = s.sput F.GLB_PMODE_REQ code p) ∧ (u.mode = 3 ∧ u.partFenced p = false ∧ u.resuming 0 p = false ∧ code.val = 4)) ∧
    (∃ (s : State) (p : Part) (code : Fin 8) (u : State), (s.clk = Clk.running) ∧ (u = s.sput F.GLB_PMODE_REQ code p) ∧ (u.mode = 3 ∧ u.partFenced p = false ∧ u.resuming 0 p = false ∧ code.val = 5)) ∧
    (∃ (s : State) (p : Part) (code : Fin 8) (u : State), (s.clk = Clk.running) ∧ (u = s.sput F.GLB_PMODE_REQ code p) ∧ (u.mode = 2 ∧ u.partFenced p = false ∧ u.resuming 0 p = false ∧ code.val = 0)) :=
  ⟨⟨inMode 2, 1, _, by decide, rfl, by decide⟩,
   ⟨inMode 3, 1, _, by decide, rfl, by decide⟩,
   ⟨inMode 4, 2, _, by decide, rfl, by decide⟩,
   ⟨inMode 5, 1, _, by decide, rfl, by decide⟩,
   ⟨inMode 3, 0, _, by decide, rfl, by decide⟩,
   ⟨(inMode 4).put F.FLT_FRZ_CTL_PIN_EN 0, 0, _, by decide, rfl, by decide⟩,
   ⟨inMode 3, 15, 4, _, by decide, rfl, by decide⟩,
   ⟨inMode 3, 15, 5, _, by decide, rfl, by decide⟩,
   ⟨inMode 2, 15, 0, _, by decide, rfl, by decide⟩⟩

/-- The hypotheses of each clause of ManagementCommands are met together. -/
theorem wit_ManagementCommands :
    (∃ (s : State) (slot : Fin 4), (s.Ready) ∧ (s.on F.GLB_MCMD_CTL_BUSY slot = true) ∧ (s.arg slot 0 % 256 = 1) ∧ (Map.find s.pwr.mcmd slot = none) ∧ (s.serving = true)) ∧
    (∃ (s : State) (slot : Fin 4), (s.Ready) ∧ (s.on F.GLB_MCMD_CTL_BUSY slot = true) ∧ (s.arg slot 0 % 256 = 2) ∧ (Map.find s.pwr.mcmd slot = none) ∧ (s.serving = true)) ∧
    (∃ (s : State) (slot : Fin 4), (s.Ready) ∧ (s.on F.GLB_MCMD_CTL_BUSY slot = true) ∧ (s.arg slot 0 % 256 = 3) ∧ (Map.find s.pwr.mcmd slot = none) ∧ (s.serving = true)) ∧
    (∃ (s : State) (slot : Fin 4), (s.Ready) ∧ (s.on F.GLB_MCMD_CTL_BUSY slot = true) ∧ (s.arg slot 0 % 256 = 4) ∧ (Map.find s.pwr.mcmd slot = none) ∧ (s.serving = true)) ∧
    (∃ (s : State) (slot : Fin 4), (s.Ready) ∧ (s.on F.GLB_MCMD_CTL_BUSY slot = true) ∧ (s.arg slot 0 % 256 = 5) ∧ (Map.find s.pwr.mcmd slot = none) ∧ (s.serving = true)) ∧
    (∃ (s : State) (slot : Fin 4) (data : List W32) (r : BitVec 16) (bad : Option Chan), (s.Ready) ∧ (s.on F.GLB_MCMD_CTL_BUSY slot = true) ∧ (s.arg slot 0 % 256 = 16) ∧ (Map.find s.pwr.mcmd slot = none) ∧ (s.serving = true)) ∧
    (∃ (s : State) (slot : Fin 4), (s.Ready) ∧ (s.on F.GLB_MCMD_CTL_BUSY slot = true) ∧ (s.arg slot 0 % 256 = 32) ∧ (Map.find s.pwr.mcmd slot = none) ∧ (s.serving = true)) ∧
    (∃ (s : State) (slot : Fin 4), (s.Ready) ∧ (s.on F.GLB_MCMD_CTL_BUSY slot = true) ∧ (s.arg slot 0 % 256 = 64) ∧ (Map.find s.pwr.mcmd slot = none) ∧ (s.serving = true)) ∧
    (∃ (s : State) (slot : Fin 4), (s.Ready) ∧ (s.on F.GLB_MCMD_CTL_BUSY slot = true) ∧ (s.arg slot 0 % 256 = 80) ∧ (Map.find s.pwr.mcmd slot = none) ∧ (s.serving = true)) ∧
    (∃ (s : State) (slot : Fin 4) (data : List Byte) (got : List Byte), (s.Ready) ∧ (s.on F.GLB_MCMD_CTL_BUSY slot = true) ∧ (s.arg slot 0 % 256 = 81) ∧ (Map.find s.pwr.mcmd slot = none) ∧ (s.serving = true)) ∧
    (∃ (s : State) (slot : Fin 4), (s.Ready)) ∧
    (∃ (s : State), (s.Ready)) ∧
    (∃ (s : State) (ok : Bool), (s.clk = Clk.running)) :=
  ⟨⟨(State.reset.put F.GLB_MCMD_CTL_BUSY 1 0).put F.GLB_MCMD_ARG_VAL 1 0 0 |>.put F.GLB_MODE_MODE 3, 0, by decide⟩,
   ⟨(State.reset.put F.GLB_MCMD_CTL_BUSY 1 0).put F.GLB_MCMD_ARG_VAL 2 0 0 |>.put F.GLB_MODE_MODE 3, 0, by decide⟩,
   ⟨(State.reset.put F.GLB_MCMD_CTL_BUSY 1 0).put F.GLB_MCMD_ARG_VAL 3 0 0 |>.put F.GLB_MODE_MODE 3, 0, by decide⟩,
   ⟨(State.reset.put F.GLB_MCMD_CTL_BUSY 1 0).put F.GLB_MCMD_ARG_VAL 4 0 0 |>.put F.GLB_MODE_MODE 3, 0, by decide⟩,
   ⟨(State.reset.put F.GLB_MCMD_CTL_BUSY 1 0).put F.GLB_MCMD_ARG_VAL 5 0 0 |>.put F.GLB_MODE_MODE 3, 0, by decide⟩,
   ⟨(State.reset.put F.GLB_MCMD_CTL_BUSY 1 0).put F.GLB_MCMD_ARG_VAL 16 0 0 |>.put F.GLB_MODE_MODE 3, 0, [], 0, none, by decide⟩,
   ⟨(State.reset.put F.GLB_MCMD_CTL_BUSY 1 0).put F.GLB_MCMD_ARG_VAL 32 0 0 |>.put F.GLB_MODE_MODE 3, 0, by decide⟩,
   ⟨(State.reset.put F.GLB_MCMD_CTL_BUSY 1 0).put F.GLB_MCMD_ARG_VAL 64 0 0 |>.put F.GLB_MODE_MODE 3, 0, by decide⟩,
   ⟨(State.reset.put F.GLB_MCMD_CTL_BUSY 1 0).put F.GLB_MCMD_ARG_VAL 80 0 0 |>.put F.GLB_MODE_MODE 3, 0, by decide⟩,
   ⟨(State.reset.put F.GLB_MCMD_CTL_BUSY 1 0).put F.GLB_MCMD_ARG_VAL 81 0 0 |>.put F.GLB_MODE_MODE 3, 0, [], [], by decide⟩,
   ⟨State.reset, 0, by decide⟩,
   ⟨State.reset, by decide⟩,
   ⟨State.reset, true, by decide⟩⟩

/-- The hypotheses of each clause of PowerSequences are met together. -/
theorem wit_PowerSequences :
    (∃ (s : State) (ms : BitVec 32), (s.Quiet)) ∧
    (∃ (s : State) (r : Fin 10) (v c : BitVec 16) (u : State), (u = s.setMeas r v.toNat c.toNat)) ∧
    (∃ (s : State), (s.Quiet)) ∧
    (∃ (s : State), (s.Quiet)) ∧
    (∃ (s : State), (s.Quiet)) ∧
    (∃ (s : State), (s.Quiet)) ∧
    (∃ (s : State), (s.Quiet)) ∧
    (∃ (s : State) (r : Fin 9) (kind : Fin 3) (v c : BitVec 16) (u : State), (u = s.setMeas r v.toNat c.toNat)) ∧
    (∃ (s : State) (n : Fin 4), (s.Ready)) ∧
    (∃ (s : State) (v : BitVec 16), (s.Ready)) ∧
    (∃ (s : State) (k : Fin 21), (s.Ready)) ∧
    (∃ (s : State) (t : Tile) (l : List (Chan × BitVec 16)) (v a w : BitVec 16) (u x : State), (s.clk = Clk.running) ∧ (u = if bitOf (s.g F.PWR_VHTR_CFG_TMASK) t then { s with pwr.demand := Map.ins s.pwr.demand t (s.tileDemand t l) } else s) ∧ (x = u.put F.DPC_MEAS_V v.toNat 4)) ∧
    (∃ (s : State) (a b : BitVec 16) (x u : State), (s.clk = Clk.running) ∧ (x = (s.put F.PWR_VHTR_LOAD_ITOT a.toNat).put F.PWR_VHTR_LOAD_PH b.toNat) ∧ (u = x.capCheck)) ∧
    (∃ (s : State), (s.Quiet)) :=
  ⟨⟨State.reset, 0, by decide⟩,
   ⟨State.reset, 0, 0, 0, _, rfl⟩,
   ⟨State.reset, by decide⟩,
   ⟨State.reset, by decide⟩,
   ⟨State.reset, by decide⟩,
   ⟨State.reset, by decide⟩,
   ⟨State.reset, by decide⟩,
   ⟨State.reset, 0, 0, 0, 0, _, rfl⟩,
   ⟨State.reset, 0, by decide⟩,
   ⟨State.reset, 0, by decide⟩,
   ⟨State.reset, 0, by decide⟩,
   ⟨State.reset, 0, [], 0, 0, 0, _, _, by decide, rfl, rfl⟩,
   ⟨State.reset, 0, 0, _, _, by decide, rfl, rfl⟩,
   ⟨State.reset, by decide⟩⟩

/-- The hypotheses of each clause of Temperature are met together. -/
theorem wit_Temperature :
    (∃ (s : State) (t : Tile) (a b c d : BitVec 32) (n : Nat) (u : State), (s.Ready) ∧ (n = 4 * t + Map.look s.thm.next t 0) ∧ (u = { s with thm.next := Map.ins s.thm.next t ((Map.look s.thm.next t 0 + 1) % 4) })) ∧
    (∃ (s : State) (raws : List (List Int)) (live : List Nat) (u : State), (s.clk = Clk.running) ∧ (raws = (List.range 64).map (fun n => sortInts (((s.neighbours n).filter (fun x => s.thm.usable.contains x)).map s.raw))) ∧ (live = (List.range 64).filter (fun n => !s.tdOff n && s.thm.conv.contains n)) ∧ (u = live.foldl (fun u n => (u.tdJudge n (raws.getD n [])).tdCompensate n (raws.getD n [])) s)) ∧
    (∃ (s : State) (i : Fin 8) (v : BitVec 16) (u : State), (u = s.put F.THM_IS_VAL_T v.toNat i)) ∧
    (∃ (s : State) (t : Tile) (v : BitVec 16), (s.Ready)) ∧
    (∃ (s : State) (err : BitVec 16), (s.Quiet)) :=
  ⟨⟨State.reset, 0, 0, 0, 0, 0, 0, _, by decide, by decide, rfl⟩,
   ⟨State.reset, _, _, _, by decide, rfl, rfl, rfl⟩,
   ⟨State.reset, 0, 0, _, rfl⟩,
   ⟨State.reset, 0, 0, by decide⟩,
   ⟨State.reset, 0, by decide⟩⟩

/-- The hypotheses of each clause of Calibration are met together. -/
theorem wit_Calibration :
    (∃ (s : State) (t : Tile) (p : Part), (s.clk = Clk.running)) ∧
    (∃ (s u : State) (op i : Nat), (u = (s.put F.CAL_CMD_OP op).put (if op = 1 then F.CAL_CMD_TILE else F.CAL_CMD_PART) i)) ∧
    (∃ (s : State) (v : W32) (w t : Nat), (s.Ready) ∧ (w = s.g F.CAL_TWIN_ADDR_WORD % 4096) ∧ (t = s.g F.CAL_TWIN_ADDR_WORD / 4096)) ∧
    (∃ (s : State), (s.Ready)) :=
  ⟨⟨State.reset, 0, 0, by decide⟩,
   ⟨State.reset, _, 2, 0, rfl⟩,
   ⟨State.reset, 0, 0, 0, by decide⟩,
   ⟨State.reset, by decide⟩⟩

/-- The hypotheses of each clause of LaneTests are met together. -/
theorem wit_LaneTests :
    (∃ (s : State) (l : Fin 256) (v : W32) (moved : Bool) (b u w x : State), (s.clk = Clk.running) ∧ (laneUsed l = true) ∧ (moved = [F.TST_LCFG_PAT, F.TST_LCFG_INV, F.TST_LCFG_SQN].any (fun f => s.g f l != bitsOf v.toNat f.lo f.wd)) ∧ (b = [F.TST_LCFG_PAT, F.TST_LCFG_INV, F.TST_LCFG_SQN, F.TST_LCFG_LPBK].foldl (fun u f => u.sput f (bitsOf v.toNat f.lo f.wd) l) s) ∧ (u = if (moved || (v.getLsbD 8 && !s.on F.TST_LCFG_GEN_EN l)) = true then b.setLane l (b.lane l).start else b) ∧ (w = if (moved && s.on F.TST_LCFG_CHK_EN l) = true then u.checkerLoss l else u) ∧ (x = ((w.turnChk l (v.getLsbD 9)).sput F.TST_LCFG_GEN_EN (b2n (v.getLsbD 8)) l).sput F.TST_LCFG_CHK_EN (b2n (v.getLsbD 9)) l)) ∧
    (∃ (s : State) (l : Fin 256) (v : W32), (s.Ready) ∧ (laneUsed l = false)) ∧
    (∃ (s : State), (s.Ready)) ∧
    (∃ (s : State) (l : Nat), (s.laneOn l = true)) ∧
    (∃ (s : State) (l : Fin 256) (rx line : List Bool) (r : LaneRun) (u : State), (s.Ready) ∧ (r = (if s.laneOwn l then line else rx).foldl (fun x b => LaneRun.take x (s.laneCfg l) (s.on F.TST_LCFG_GEN_EN l) (s.laneOwn l) b) { st := s.lane l, lock := false }) ∧ (u = (((((s.setLane l (r.st.tally s.cycle r.bits r.errs)).laneOut1 l r.out).sat F.TST_LBITS_BITS l 0 r.bits).sat F.TST_LERR_ERR l 0 r.errs).sat F.TST_LSTAT_LOSSES l 0 r.losses).put F.TST_LSTAT_CSTATE (if r.lock then 2 else 1) l)) ∧
    (∃ (s : State) (l : Fin 256) (rx line : List Bool) (r : LaneRun) (u : State), (s.Ready) ∧ (r = (if s.laneOwn l then line else rx).foldl (fun x b => LaneRun.take x (s.laneCfg l) (s.on F.TST_LCFG_GEN_EN l) (s.laneOwn l) b) { st := s.lane l, lock := true }) ∧ (u = (((((s.setLane l (r.st.tally s.cycle r.bits r.errs)).laneOut1 l r.out).sat F.TST_LBITS_BITS l 0 r.bits).sat F.TST_LERR_ERR l 0 r.errs).sat F.TST_LSTAT_LOSSES l 0 r.losses).put F.TST_LSTAT_CSTATE (if r.lock then 2 else 1) l)) ∧
    (∃ (x : LaneRun) (c : LaneCfg) (b : Bool) (miss : List Nat), (miss = (if (c.bit x.st.reg x.st.place != b) = true then [x.st.n] else []) ++ x.st.miss.filter (fun k => x.st.n < k + 256))) ∧
    (∃ (s : State) (l : Fin 256) (x : LaneSt), (s.clk = Clk.running) ∧ (x = { s.lane l with inj := 1 })) ∧
    (∃ (s : State) (l : Fin 256), (s.Ready)) :=
  ⟨⟨State.reset, 0, 0, _, _, _, _, _, by decide, by decide, rfl, rfl, rfl, rfl, rfl⟩,
   ⟨State.reset, 255, 0, by decide, by decide⟩,
   ⟨State.reset, by decide⟩,
   ⟨State.reset.put F.TST_LCFG_GEN_EN 1 0, 0, by decide⟩,
   ⟨State.reset, 0, [], [], _, _, by decide, rfl, rfl⟩,
   ⟨State.reset, 0, [], [], _, _, by decide, rfl, rfl⟩,
   ⟨{ st := {}, lock := true }, State.reset.laneCfg 0, false, _, rfl⟩,
   ⟨State.reset, 0, _, by decide, rfl⟩,
   ⟨State.reset, 0, by decide⟩⟩

/-- The hypotheses of each clause of ProductionTests are met together. -/
theorem wit_ProductionTests :
    (∃ (s : State) (t : Tile) (v : W32) (u : State), (s.clk = Clk.running) ∧ (u = [F.TST_STIM_CTL_WAVE, F.TST_STIM_CTL_HOLD, F.TST_STIM_CTL_DELAY, F.TST_STIM_CTL_NAVG].foldl (fun u f => u.sput f (bitsOf v.toNat f.lo f.wd) t) s)) ∧
    (∃ (s : State) (t : Tile), (s.Ready)) ∧
    (∃ (s : State) (t : Tile), (s.Ready)) ∧
    (∃ (s : State) (t : Tile), (s.Ready)) ∧
    (∃ (s : State) (t : Tile) (v : W32) (u : State), (s.clk = Clk.running) ∧ (u = (s.sput F.TST_OS_CTL_KELV_MAX (bitsOf v.toNat F.TST_OS_CTL_KELV_MAX.lo F.TST_OS_CTL_KELV_MAX.wd) t).sput F.TST_OS_CTL_RS_THR (bitsOf v.toNat F.TST_OS_CTL_RS_THR.lo F.TST_OS_CTL_RS_THR.wd) t)) ∧
    (∃ (s : State) (t : Tile) (l : OsRun), (s.Ready)) ∧
    (∃ (s : State) (t : Tile), (s.Ready)) ∧
    (∃ (s : State), (s.Ready)) :=
  ⟨⟨State.reset, 0, 0, _, by decide, rfl⟩,
   ⟨State.reset, 0, by decide⟩,
   ⟨State.reset, 0, by decide⟩,
   ⟨State.reset, 0, by decide⟩,
   ⟨State.reset, 0, 0, _, by decide, rfl⟩,
   ⟨State.reset, 0, ⟨[], ⟨0, 0, 0, 0, 0, 0, 0, 0⟩⟩, by decide⟩,
   ⟨State.reset, 0, by decide⟩,
   ⟨State.reset, by decide⟩⟩

/-- The hypotheses of each clause of TestAccessPort are met together. -/
theorem wit_TestAccessPort :
    (∃ (s : State) (op : Byte), (s.Quiet)) ∧
    (∃ (s : State), (s.Quiet)) ∧
    (∃ (s u : State) (ok k : Bool), (s.Ready) ∧ (u = { s with tst.verify := none })) ∧
    (∃ (s : State), (s.Ready)) :=
  ⟨⟨State.reset, 0, by decide⟩,
   ⟨State.reset, by decide⟩,
   ⟨State.reset, _, true, false, by decide, rfl⟩,
   ⟨State.reset, by decide⟩⟩

/-- The hypotheses of each clause of NothingOutstanding are met together. -/
theorem wit_NothingOutstanding :
    (∃ (s t : State), (s.Quiet) ∧ (step s = .next t)) :=
  ⟨State.reset, State.reset.tick, by decide, rfl⟩

/-- The hypotheses of each clause of StoppedClocks are met together. -/
theorem wit_StoppedClocks :
    (∃ (s : State) (c : Instr), (rootClocked c = true) ∧ (s.clk ≠ Clk.running)) :=
  ⟨{ State.reset with clk := Clk.lost }, .commitStrobe 0, by decide⟩

/-- The hypotheses of each clause of AntiWindup are met together. -/
theorem wit_AntiWindup :
    (∃ (ffp p i di imax j : Int) (lo hi : Nat), (j = antiWindup ffp p i di lo hi imax)) ∧
    (∃ (s : State) (a : Nat) (e p di i : Int) (inner : Option Nat), (p = sar (s.cgS 0 a C.KP * e) (s.cg 0 a C.KPSH)) ∧ (di = sar (s.cgS 0 a C.KI * e) (s.cg 0 a C.KISH)) ∧ (i = antiWindup (s.ffp a) p (s.cgS 0 a C.I) di (s.cg 0 a C.LO) (s.cg 0 a C.HI) ((s.cg 0 a C.IMAX : Nat) : Int))) :=
  ⟨⟨0, 0, 0, 0, 0, 0, 0, 0, by decide⟩,
   ⟨State.reset, 0, 0, 0, 0, 0, none, by decide⟩⟩

/-- The hypotheses of each clause of BudgetCheck are met together. -/
theorem wit_BudgetCheck :
    (∃ (s : State) (h : Thr) (i : OIns) (r : W64) (t : State), (s.Ready) ∧ (i.opc = 146) ∧ (s.leadIssues h i = true) ∧ (allModes.contains (s.pm h) = true) ∧ (r = BitVec.ofInt 64 (toSigned 24 (s.g F.BRS_PORT_STAT_REMAIN h)) - (s.leadTh h).gr i.s1) ∧ (t = ((s.each s.lock (fun u m => u.updTh m h (fun x => x.setStatus (withZN x.status r)))).wrAll h i.d r).retireAll h i)) :=
  ⟨oneThread (op3 146 1 2 0 0), 0, { opc := 146, d := 1, s1 := 2, s2 := 0, func := 0 }, _, _, by decide +kernel, by decide, by decide +kernel, by decide +kernel, rfl, rfl⟩

/-- The hypotheses of each clause of FocusRequests are met together. -/
theorem wit_FocusRequests :
    (∃ (s : State) (h : Thr) (i : OIns) (m : Nat) (l : List (Nat × Nat)), (s.clk = Clk.running) ∧ (i.opc = 145 ∧ i.func = 0) ∧ (s.leadIssues h i = true) ∧ (allModes.contains (s.pm h) = true) ∧ (m = s.gOf h i.s1) ∧ (m < 16384) ∧ (l = (s.md (miTile m) (miMadc m)).shadow)) :=
  ⟨oneThread (op3 145 1 2 0 0), 0, { opc := 145, d := 1, s1 := 2, s2 := 0, func := 0 }, _, _, by decide +kernel, by decide, by decide +kernel, by decide +kernel, rfl, by decide +kernel, rfl⟩

/-- The hypotheses of each clause of Retriggering are met together. -/
theorem wit_Retriggering :
    (∃ (s : State) (c t : Nat), (s.on F.EVT_CH_EN c = true) ∧ (bitOf s.grpMask (s.g F.EVT_CH_GRP c) = true) ∧ (Map.find s.evt.last c = some t) ∧ (t < s.slow)) ∧
    (∃ (s : State) (c : Nat), (Map.find s.evt.last c = none)) :=
  ⟨⟨((({ State.reset with cycle := 80, evt.last := [(0, 1)] } : State).put F.EVT_CH_EN 1 0).put F.EVT_GRP_EN 255), 0, 1, by decide⟩,
   ⟨State.reset, 0, by decide⟩⟩

/-- The hypotheses of each clause of FaultSources are met together. -/
theorem wit_FaultSources :
    (∃ (s : State) (n info : Nat), (n < 64) ∧ (s.clk ≠ Clk.lost)) ∧
    (∃ (s : State) (n info : Nat), (n < 64) ∧ (s.on F.FLT_FIRST_VALID = true) ∧ (s.flt.firstAt ≠ s.cycle)) ∧
    (∃ (s : State) (n info : Nat), (s.clk = Clk.lost)) :=
  ⟨⟨State.reset, 3, 0, by decide⟩,
   ⟨{ State.reset.put F.FLT_FIRST_VALID 1 with cycle := 9 }, 3, 0, by decide⟩,
   ⟨{ State.reset with clk := Clk.lost }, 3, 0, by decide⟩⟩

/-- The hypotheses of each clause of TimeValues are met together. -/
theorem wit_TimeValues :
    (∃ (u b : Nat), (u < tbWrap) ∧ (b < 4)) :=
  ⟨0, 0, by decide +kernel⟩

/-- The hypotheses of each clause of ActivePrecedence are met together. -/
theorem wit_ActivePrecedence :
    (∃ (s : State) (a c d p q : Nat), (a < 20480) ∧ (c < 65536 ∧ d < 65536) ∧ (s.actBlocked a p = false)) :=
  ⟨State.reset, 0, 0, 0, 1, 5, by decide⟩

/-- The hypotheses of each clause of OutputFrames are met together. -/
theorem wit_OutputFrames :
    (∃ (s : State) (a b : Ao) (code : BitVec 16) (r : Reg), (s.Ready) ∧ (a ≠ b) ∧ (r ∈ [R.AO_CFG, R.AO_SHD, R.AO_ACT, R.AO_RB, R.AO_STAT])) ∧
    (∃ (s : State) (a b : Ao) (r : Reg) (tc : Int), (a ≠ b) ∧ (r ∈ [R.AO_CFG, R.AO_SHD, R.AO_ACT, R.AO_RB, R.AO_STAT])) :=
  ⟨⟨State.reset, 0, 1, 0, R.AO_ACT, by decide, by decide, by simp⟩,
   ⟨State.reset, 0, 1, R.AO_ACT, 0, by decide, by simp⟩⟩

/-- The hypotheses of each clause of ResultFrames are met together. -/
theorem wit_ResultFrames :
    (∃ (s : State) (h : Thr) (c : Instr), (s.Ready) ∧ (s.ueWords = []) ∧ (∀ m ∈ s.lock, bitOf (s.th m h).status bitIE = true) ∧ (c ∈ [Instr.add h, Instr.sub h, Instr.and h, Instr.or h, Instr.xor h, Instr.shl h, Instr.shr h, Instr.sar h, Instr.mul h, Instr.min h, Instr.max h, Instr.cmp h, Instr.addi h, Instr.andi h, Instr.ori h, Instr.lui h, Instr.nop h, Instr.scrr h, Instr.timegetNow h, Instr.timegetSec h, Instr.timegetNs h, Instr.timegetFrac h, Instr.timegetTbn h, Instr.timegetDiff h, Instr.timeadd h, Instr.timeaddSet h, Instr.timeaddMov h, Instr.timeaddCmp h, Instr.timeaddRound h])) ∧
    (∃ (s : State) (h : Thr) (i : OIns) (n : Nat) (g : Nat → State → Bool) (f : Nat → State → State) (c : Instr), (s.Ready) ∧ ((n = 1 ∧ c = .ld8 h ∧ i.opc = 32) ∨ (n = 2 ∧ c = .ld16 h ∧ i.opc = 33) ∨ (n = 4 ∧ c = .ld32 h ∧ i.opc = 34) ∨ (n = 8 ∧ c = .ld64 h ∧ i.opc = 35)) ∧ (g = fun m s => (memAddr (s.th m h) i % n = 0) && (match threadAddr h (memAddr (s.th m h) i) with | some (k, _) => (s.ueIn k n).isNone && !(List.range n).any (fun j => thrTarget (k + j) = 3 && mapUnused (k + j - mapBase)) | none => false)) ∧ (f = fun m s => ((s.grant (thrTarget ((threadAddr h (memAddr (s.th m h) i)).getD (0, false)).1) (2 + m)).updTh m h (fun x => x.setG i.d (BitVec.ofNat 64 (leNat (s.bar2Bytes (((threadAddr h (memAddr (s.th m h) i)).getD (0, false)).1) n))))).retire m h i) ∧ (inStep h i g f s.lock s = true)) ∧
    (∃ (s t : State) (h : Thr) (i : OIns) (k : Nat → State → Option Nat) (f : Nat → State → ThrSt → ThrSt), (t = s.each s.lock (fun u m => ((match k m u with | none => u | some q => u.grant q (2 + m)).updTh m h (f m u)).retire m h i))) :=
  ⟨⟨(oneThread (op3 1 1 2 3 0)).updTh 0 0 (fun x => x.setStatus (2 ^ bitIE)), 0, .add 0, by decide +kernel, rfl, by decide +kernel, by simp⟩,
   ⟨oneThread (opImm 32 1 0 2), 0, { opc := 32, d := 1, imm := 2 }, 1, _, _, .ld8 0, by decide +kernel, Or.inl ⟨rfl, rfl, rfl⟩, rfl, rfl, by decide +kernel⟩,
   ⟨State.reset, _, 0, { opc := 1, d := 1, s1 := 2, s2 := 3, func := 0 }, fun _ _ => none, fun _ _ x => x, rfl⟩⟩

/-- The hypotheses of each clause of StoreFrames are met together. -/
theorem wit_StoreFrames :
    (∃ (s : State) (h : Thr) (i : OIns) (n : Nat) (g : Nat → State → Bool) (f : Nat → State → State) (c : Instr), (s.Ready) ∧ ((n = 1 ∧ c = .st8 h ∧ i.opc = 36) ∨ (n = 2 ∧ c = .st16 h ∧ i.opc = 37) ∨ (n = 4 ∧ c = .st32 h ∧ i.opc = 38) ∨ (n = 8 ∧ c = .st64 h ∧ i.opc = 39)) ∧ (g = fun m s => (memAddr (s.th m h) i % n = 0) && (match threadAddr h (memAddr (s.th m h) i) with | some (_, w) => w | none => false)) ∧ (f = fun m s => (s.when (s.holds 0 m) (fun s => ((s.grant (thrTarget (dmBase h + memAddr (s.th m h) i)) (2 + m)).dmStore (dmBase h + memAddr (s.th m h) i) (leBytes n ((s.th m h).gr i.d).toNat)).passEffect 0 (leBytes 8 (memAddr (s.th m h) i) ++ leBytes n ((s.th m h).gr i.d).toNat))).retire m h i) ∧ (inStep h i g f s.lock s = true)) :=
  ⟨oneThread (opImm 36 1 0 2), 0, { opc := 36, d := 1, imm := 2 }, 1, _, _, .st8 0, by decide +kernel, Or.inl ⟨rfl, rfl, rfl⟩, rfl, rfl, by decide +kernel⟩

/-- The hypotheses of each clause of MemoryFrames are met together. -/
theorem wit_MemoryFrames :
    (∃ (s : State) (off : BitVec 21) (bs : List Byte), (s.Ready)) ∧
    (∃ (s : State) (a : Ao) (off : Fin 128) (bs : List Byte) (p : Nat) (l : Bool), (s.Ready) ∧ (p = s.ga F.AO_CFG_PART a) ∧ (l = (s.ona F.AO_CFG_OWNED a && decide (s.pm p = 2) && s.on F.RTU_ROT_LRN_LEN p && !s.on F.RTU_ROT_LRN_FRZ p))) :=
  ⟨⟨State.reset, 0, [1, 2], by decide⟩,
   ⟨State.reset, 0, 0, [1, 2], _, _, by decide, rfl, rfl⟩⟩

/-- The hypotheses of each clause of ThawEffects are met together. -/
theorem wit_ThawEffects :
    (∃ (s : State) (t : State), (t = Sys2Proof.Machine.thaw s)) ∧
    (∃ (s u w x : State) (d : Nat), (s.clk = Clk.frozen) ∧ (s.frzHeld = false) ∧ (d = s.frzD) ∧ (u = s.runBases d) ∧ (w = ((({ u with clk := Clk.running, flt.frozen := 0, flt.frzBy := none, tm.tcis := u.tm.tcis.map (fun e => (e.1, { e.2 with lastEdge := none })), mon.ramps := u.mon.ramps.map (fun e => (e.1, { e.2 with pos := biasPos e.2 (u.cycle + d), start := u.cycle })) } : State).put F.FLT_FRZ_DUR_DUR (d / 32 * 5)).put F.GLB_MODE_MODE s.flt.frzMode).putB F.TB_SYNC_STAT_LEVEL (s.pinAt 0)) ∧ (x = (List.range 16).foldl State.thawWaitt ((List.range 4).foldl (fun y b => y.tpoJump b ((y.tbVal b : Int) - (s.tbVal b : Int))) ((List.range 16).foldl (fun y p => y.rotJump p false) (w.thawCommits s)).kicksOver))) ∧
    (∃ (s b : State) (c : Commit), (s.rtu.commits = [c])) ∧
    (∃ (s : State) (c : Commit) (res q : Nat), (res < 8) ∧ (q < 16) ∧ (bitOf c.mask q = true)) :=
  ⟨⟨State.reset, _, rfl⟩,
   ⟨frozenFor 100, _, _, _, _, rfl, by decide, rfl, rfl, rfl, rfl⟩,
   ⟨{ State.reset with rtu.commits := [oneCommit] }, State.reset, oneCommit, rfl⟩,
   ⟨State.reset, oneCommit, 4, 0, by decide, by decide, by decide⟩⟩

end Sys2Proof.Machine
end

section
/-! PROOF. That every command answers, what reset leaves, and register space as a master of the Lattice, a VF, the host and the test access port reach it. -/

namespace Sys2Proof.Machine

/-! ### How a command ends -/

/-- The commands that rootClocked names are functions of the state under the clock gate (R25, R347). -/
theorem exec_eq_clocked (c : Instr) (s : State) : rootClocked c = true → ∃ f, exec c s = clocked s f := by
  cases c with
  | tilePowerUp | tileWatchdogExpiry | clkLoss | clkLossReset | pcieRequest | msixSend | freezeRequest | freezePinRise
  | thaw | pwrReqRise | railPowerGood | pwrupStepTimeout | pwrReqFall | vstbyLow | powerDownDone | railFault | chipReset
  | isRead | boscCorrection | tapUpdateIr | unlock | ijtagAccess | vstbyPowerUp | vstbyBrownout | evinEdge | tciEdge
  | syncInEdge | pcieLinkDown | pcieLinkTrained | pcieConfigWrite => exact fun h => nomatch h
  | _ =>
    intro _
    dsimp only [exec]
    exact ⟨_, rfl⟩

/-- Under the clock gate a command answers, whether or not the clocks run. -/
theorem clocked_answers (s : State) (f : State → State) : ∃ t, clocked s f = .next t := by
  by_cases h : s.clk = Clk.running
  · exact ⟨_, clocked_of_running h⟩
  · exact ⟨_, clocked_of_stopped h⟩

/-- An outcome chosen between two answers is an answer. -/
theorem ite_answers {p : Prop} [Decidable p] {x y : Out} (hx : ∃ t, x = .next t) (hy : ∃ t, y = .next t) :
    ∃ t, (if p then x else y) = .next t := by
  split
  · exact hx
  · exact hy

/-- The commands outside the clock gate answer too: those of the supplies, the clocks, the pins, the endpoint and the test access port. -/
theorem exec_answers_of_not_rootClocked (c : Instr) (s : State) : rootClocked c = false → ∃ t, exec c s = .next t := by
  cases c with
  | tilePowerUp | clkLoss | clkLossReset | pcieRequest | freezeRequest | freezePinRise | thaw | pwrReqRise | railPowerGood
  | pwrupStepTimeout | pwrReqFall | vstbyLow | powerDownDone | railFault | chipReset | isRead | boscCorrection | tapUpdateIr
  | unlock | vstbyPowerUp | vstbyBrownout | pcieConfigWrite => exact fun _ => ⟨_, rfl⟩
  | tileWatchdogExpiry | msixSend | ijtagAccess => exact fun _ => ite_answers ⟨_, rfl⟩ ⟨_, rfl⟩
  | tciEdge | syncInEdge => exact fun _ => ite_answers (clocked_answers _ _) ⟨_, rfl⟩
  | pcieLinkDown | pcieLinkTrained | evinEdge => exact fun _ => ite_answers ⟨_, rfl⟩ (clocked_answers _ _)
  | _ => exact fun h => nomatch h

/-- Every command answers in every state. -/
theorem exec_answers (c : Instr) (s : State) : ∃ t, exec c s = .next t := by
  cases h : rootClocked c with
  | true =>
    obtain ⟨f, e⟩ := exec_eq_clocked c s h
    rw [e]
    exact clocked_answers s f
  | false => exact exec_answers_of_not_rootClocked c s h

/-- Settles O43: a command at the front of the queue answers, under the clock gate or outside it, and an empty queue is one tick. -/
theorem everyCommandAnswers : Obligations.EveryCommandAnswers := by
  intro s
  unfold step
  split
  · exact exec_answers _ _
  · exact ⟨_, rfl⟩

/-- Where nothing was outstanding and the faults stand as they did, a command ends in the state it made: settling changes nothing. -/
theorem next_settle_of_flt_eq {s t : State} (q : s.Quiet) (e : t.flt = s.flt) : (.next t.settle : Out) = .next t :=
  congrArg Host.Outcome.next (settle_of_quiet (by rw [State.Quiet, e]; exact q))

/-! ### Register space as a master of the Lattice reaches it (R7, R8, R306, R311, R312) -/

section RegisterAccess

variable {s : State} {m a : Nat} {wide : Bool} {v : Nat} {mem : List (List Byte × List Byte)}

theorem regWrite_of_retiring (h : s.retiring m = true) : regWrite m a wide v mem s = s := by
  simp [regWrite, h]

theorem regWrite_of_no_path (h : s.retiring m = false) (hp : latPath m (regTarget a) = false) :
    regWrite m a wide v mem s = s.latDecode m (regTarget a) true a := by
  simp [regWrite, h, hp]

theorem regWrite_of_path (h : s.retiring m = false) (hp : latPath m (regTarget a) = true) :
    regWrite m a wide v mem s = (s.grant (regTarget a) m).writeSpace m a wide v mem := by
  simp [regWrite, h, hp]

theorem regRead_of_retiring (h : s.retiring m = true) : regRead m a wide s = s := by
  simp [regRead, h]

theorem regRead_of_no_path (h : s.retiring m = false) (hp : latPath m (regTarget a) = false) :
    regRead m a wide s = ({ s with readData := 0 } : State).latDecode m (regTarget a) false a := by
  simp [regRead, h, hp]

theorem regRead_of_path (h : s.retiring m = false) (hp : latPath m (regTarget a) = true) :
    regRead m a wide s = (s.grant (regTarget a) m).readSpace m a wide := by
  simp [regRead, h, hp]

/-- A word written at an unused offset is ignored (R7). -/
theorem writeSpace_unused (h : placeAt a = none) : s.writeSpace m a false v mem = s := by
  simp [State.writeSpace, State.writeWord, h]

/-- A word read at an unused offset is 0 (R7). -/
theorem readSpace_unused (h : placeAt a = none) (ht : traceAddr a = none) (hr : s.rtuRegion a = none) :
    s.readSpace m a false = { s with readData := 0 } := by
  simp [State.readSpace, State.readWord, h, ht, hr]

theorem badWidth_of_retiring {wr : Bool} (h : s.retiring m = true) : badWidth m a wr s = s := by
  simp [badWidth, h]

theorem badWidth_of_no_path {wr : Bool} (h : s.retiring m = false) (hp : latPath m (regTarget a) = false) :
    badWidth m a wr s = (if wr then s else { s with readData := 0 }).latDecode m (regTarget a) wr a := by
  simp [badWidth, h, hp]

theorem badWidth_of_path {wr : Bool} (h : s.retiring m = false) (hp : latPath m (regTarget a) = true) :
    badWidth m a wr s = ((if wr then s else { s with readData := 0xFFFFFFFF }).grant (regTarget a) m).latDecode m (regTarget a) wr a := by
  simp [badWidth, h, hp]

end RegisterAccess

/-- A write aligned to its width is carried out at its own address. -/
theorem exec_registerWrite_of_aligned {s : State} {m : Fin 8} {a : BitVec 24} {wide : Bool} {v : W64} {mem : List (List Byte × List Byte)}
    (h : s.clk = Clk.running) (al : a.toNat % (if wide then 8 else 4) = 0) :
    exec (.registerWrite m a wide v mem) s = .next (regWrite m a.toNat wide v.toNat mem s).settle := by
  rw [exec_registerWrite, execRegisterWrite, Nat.div_mul_cancel (Nat.dvd_of_mod_eq_zero al)]
  exact clocked_settle h rfl

/-- A read aligned to its width is carried out at its own address. -/
theorem exec_reg64LatchRead_of_aligned {s : State} {m : Fin 8} {a : BitVec 24} {wide : Bool}
    (h : s.clk = Clk.running) (al : a.toNat % (if wide then 8 else 4) = 0) :
    exec (.reg64LatchRead m a wide) s = .next (regRead m a.toNat wide s).settle := by
  rw [exec_reg64LatchRead, execReg64LatchRead, Nat.div_mul_cancel (Nat.dvd_of_mod_eq_zero al)]
  exact clocked_settle h rfl

/-! ### The doorbell slots of a VF (R298, R299) -/

section DoorbellSlots

variable {s : State} {v i w x : Nat} {wr : Bool}

theorem vfSlot_of_shut (hv : v ≠ 0) (h : s.vfShut v = true) :
    vfSlot v i w wr x s = if wr then s else { s with readData := 0xFFFFFFFF } := by
  simp [vfSlot, hv, h]

/-- A slot that is not the VF's own counts in DB_BAD. -/
theorem vfSlot_of_not_own (hv : v ≠ 0) (h : s.vfShut v = false) (ho : s.slotOk v i = false) :
    vfSlot v i w wr x s = (if wr then s else { s with readData := 0 }).dbBad v := by
  simp [vfSlot, hv, h, ho]

theorem vfSlot_read (hv : v ≠ 0) (h : s.vfShut v = false) (ho : s.slotOk v i = true) :
    vfSlot v i w false x s = { s with readData := s.slotWord (s.g F.LAT_VF_RING_FIRST v + i) w } := by
  simp [vfSlot, hv, h, ho]

/-- Of its own slot a VF writes word 0, the request doorbell, word 3, the completion doorbell, or a word that takes no write. -/
theorem vfSlot_write (hv : v ≠ 0) (h : s.vfShut v = false) (ho : s.slotOk v i = true) :
    vfSlot v i w true x s =
      if w = 0 then rqDoorbell (s.g F.LAT_VF_RING_FIRST v + i) x s
      else if w = 3 then cqDoorbell (s.g F.LAT_VF_RING_FIRST v + i) x s
      else s := by
  simp [vfSlot, hv, h, ho]

end DoorbellSlots

/-! ### The IEEE 1687 network (R409) -/

/-- With the clocks off, the port locked or another instruction loaded, the network does nothing. -/
theorem exec_ijtagAccess_of_closed {s : State} (x : JtagOp) (h : s.clk = Clk.off ∨ s.unlocked = false ∨ s.tst.ir ≠ 16) :
    exec (.ijtagAccess x) s = .next s := by
  rw [exec_ijtagAccess, execIjtagAccess, if_pos (by simpa [or_assoc] using h)]

theorem exec_ijtagAccess_of_open {s : State} (x : JtagOp) (hc : s.clk ≠ Clk.off) (hu : s.unlocked = true) (hi : s.tst.ir = 16) :
    exec (.ijtagAccess x) s = .next (jtag x s).settle := by
  rw [exec_ijtagAccess, execIjtagAccess, if_neg (by simp [hc, hu, hi]), fin]

/-! ### Requests of the host (R293, R303, R311, R348, R365) -/

section Requests

variable {s : State} {f : Nat} {r : PcieReq}

theorem receive_of_link_down (h : s.pci.linkUp = false) : receive f r s = s := by
  simp [receive, h]

theorem receive_of_waiting (h : s.pci.linkUp = true) (hw : s.clk = Clk.frozen ∨ (s.clk = Clk.running ∧ s.retiring 0 = true)) :
    receive f r s = { s with pci.inq := s.pci.inq ++ [(f, r)] } := by
  simp [receive, h, hw]

theorem receive_config_of_earlyBoot {reg : BitVec 10} (h : s.pci.linkUp = true) (hc : s.clk = Clk.running) (hr : s.retiring 0 = false)
    (hb : s.earlyBoot = true) : receive f (.config reg) s = s.answer f 2 false [] := by
  simp [receive, h, hc, hr, hb]

theorem receive_of_served (h : s.pci.linkUp = true) (hc : s.clk = Clk.running) (hr : s.retiring 0 = false) (hb : s.earlyBoot = false) :
    receive f r s = serve f r s := by
  simp [receive, h, hc, hr, hb]

end Requests

@[simp] theorem answer_flt (s : State) (f status : Nat) (ep : Bool) (data : List Byte) : (s.answer f status ep data).flt = s.flt := by
  unfold State.answer
  split <;> rfl

/-! ### The end of a retirement (R311) -/

theorem retireDone_host (s : State) : retireDone 0 s = (s.put F.LAT_STAT_RETIRE (clrBit (s.g F.LAT_STAT_RETIRE) 0)).drainIn :=
  rfl

theorem retireDone_other {m : Nat} (s : State) (h : m ≠ 0) : retireDone m s = s.put F.LAT_STAT_RETIRE (clrBit (s.g F.LAT_STAT_RETIRE) m) :=
  if_neg h

/-- Settles O29, by the branches of each access: retired, without a path, granted; of the network: without access, with access; of a request: dropped, waiting, answered in early boot, served. -/
theorem registerSpace : Obligations.RegisterSpace := by
  refine ⟨fun s m a wide v mem n hs hn al => ?write, fun s m a wide n hs hn al => ?read, fun s m a t hc ht => ?badWidth,
    fun s v i w wr x hc hv => ?doorbell, fun s q => ?network, fun s f r q => ?request, fun s m hc => ?retire⟩
  case write =>
    subst hn
    obtain ⟨hc, q⟩ := hs
    rw [exec_registerWrite_of_aligned hc al]
    refine ⟨fun hr => ?_, fun hr hp => ?_, fun hr hp => ?_, fun hr hp hw hu => ?_⟩
    · rw [regWrite_of_retiring hr, settle_of_quiet q]
    · rw [regWrite_of_no_path hr hp]
    · rw [regWrite_of_path hr hp]
    · rw [regWrite_of_path hr hp, hw, writeSpace_unused hu]; exact next_settle_of_flt_eq q rfl
  case read =>
    subst hn
    obtain ⟨hc, q⟩ := hs
    rw [exec_reg64LatchRead_of_aligned hc al]
    refine ⟨fun hr => ?_, fun hr hp => ?_, fun hr hp => ?_, fun hr hp hw hu ht hg => ?_⟩
    · rw [regRead_of_retiring hr, settle_of_quiet q]
    · rw [regRead_of_no_path hr hp]
    · rw [regRead_of_path hr hp]
    · rw [regRead_of_path hr hp, hw, readSpace_unused hu ht hg]; exact next_settle_of_flt_eq q rfl
  case badWidth =>
    subst ht
    have run : ∀ wr, exec (.badWidthAccess m a wr) s = .next (badWidth m a.toNat wr s).settle := fun wr => clocked_settle hc rfl
    refine ⟨fun wr hr => ?_, fun hr hp => ⟨?_, ?_⟩, fun hr hp => ⟨?_, ?_⟩⟩
    · rw [run, badWidth_of_retiring hr]
    · rw [run, badWidth_of_path hr hp, if_pos rfl]
    · rw [run, badWidth_of_path hr hp, if_neg Bool.false_ne_true]
    · rw [run, badWidth_of_no_path hr hp, if_pos rfl]
    · rw [run, badWidth_of_no_path hr hp, if_neg Bool.false_ne_true]
  case doorbell =>
    have run : exec (.vfDoorbellAccess v i w wr x) s = .next (vfSlot v i w wr x.toNat s).settle := clocked_settle hc rfl
    rw [run]
    refine ⟨fun hs => ?_, fun hs ho => ?_, fun hs ho hr => ?_, fun hs ho hr h0 => ?_, fun hs ho hr h3 => ?_, fun hs ho hr h0 h3 => ?_⟩
    · rw [vfSlot_of_shut hv hs]
    · rw [vfSlot_of_not_own hv hs ho]
    · rw [hr, vfSlot_read hv hs ho]
    · rw [hr, vfSlot_write hv hs ho, h0]; rfl
    · rw [hr, vfSlot_write hv hs ho, h3]; rfl
    · have n0 : w.val ≠ 0 := fun e => h0 (Fin.ext e)
      have n3 : w.val ≠ 3 := fun e => h3 (Fin.ext e)
      rw [hr, vfSlot_write hv hs ho, if_neg n0, if_neg n3]
  case network =>
    refine ⟨fun x h => exec_ijtagAccess_of_closed x h, fun hc hu hi => ?_, fun hc hu hi => ?_, fun m h r hc hu hi => ?_⟩
    all_goals
      rw [exec_ijtagAccess_of_open _ hc hu hi]
      exact next_settle_of_flt_eq q rfl
  case request =>
    rw [exec_pcieRequest, execPcieRequest, fin]
    refine ⟨fun hl => ?_, fun hl hw => ?_, fun reg hl hc hr hb e => ?_, fun hl hc hr hb => ?_⟩
    · rw [receive_of_link_down hl, settle_of_quiet q]
    · rw [receive_of_waiting hl hw]; exact next_settle_of_flt_eq q rfl
    · rw [e, receive_config_of_earlyBoot hl hc hr hb]; exact next_settle_of_flt_eq q (answer_flt ..)
    · rw [receive_of_served hl hc hr hb]
  case retire =>
    have run : exec (.retireDone m) s = .next (retireDone m s).settle := clocked_settle hc rfl
    refine ⟨fun h => ?_, fun h => ?_⟩
    · rw [run, h]; exact congrArg (fun t : State => Host.Outcome.next t.settle) (retireDone_host s)
    · rw [run, retireDone_other s (Fin.val_ne_of_ne h)]

/-! ### What reset leaves -/

/-- After reset a register stands at its reset value (R5). -/
theorem reset_word (r : Reg) (i j : Nat) : State.reset.word r i j = r.rst i j := rfl

/-- The lowest bit of a word whose value is b + 2 k, with the rest of it free. -/
theorem getField_low_bit (b k : Nat) (h : b < 2) : getField (BitVec.ofNat 96 (b + 2 * k)) 0 1 = b := by
  simp only [getField, BitVec.ushiftRight_zero, BitVec.toNat_ofNat]
  omega

/-- After reset the rails of DPC 0 to 4 are up, whatever number of phases the board gives them (log 161). -/
theorem reset_dpcEn (n : Fin 6) : State.reset.on F.DPC_CFG_EN n = decide (n.val < 5) := by
  have low : State.reset.g F.DPC_CFG_EN n = if n.val < 5 then 1 else 0 := getField_low_bit _ _ (by split <;> decide)
  rw [State.on, low]
  split <;> simp [*]

/-- After reset the clocks run and no reset is outstanding. -/
theorem reset_ready : State.reset.Ready := ⟨rfl, rfl, rfl⟩

/-- After reset every output is set for a load of 100 (R61). -/
theorem reset_cload (t k : Nat) : State.reset.g F.AO_CFG_CLOAD t k = 100 := by
  have field : getField 0x640 F.AO_CFG_CLOAD.lo F.AO_CFG_CLOAD.wd = 100 := by decide
  exact field

/-- CLK_LOSS has PIN alone as its reaction after reset (R352). -/
theorem reset_clkLoss_react : State.reset.word R.FLT_REACT 35 = 0x10 := by decide

/-- Settles O45: after reset nothing is listed, so that every byte reads 0 and every register stands at the value of its table. -/
theorem resetState : Obligations.ResetState :=
  ⟨rfl, reset_ready, reset_mem_wf, fun _ => rfl, reset_word, rfl, fun _ => rfl, reset_clkLoss_react, rfl, rfl,
    reset_dpcEn, rfl, rfl, rfl, fun _ => rfl, fun t k => ⟨rfl, reset_cload t k⟩, fun _ _ => rfl⟩

end Sys2Proof.Machine
end

section
/-! PROOF. What stands while the root-derived clocks do not run, and what the raise of a source writes. -/

namespace Sys2Proof.Machine

/-- Settles O46: a command of a root-clocked block is a function under the clock gate, and a closed gate leaves the state. -/
theorem stoppedClocks : Obligations.StoppedClocks := by
  intro s c h stopped
  obtain ⟨f, e⟩ := exec_eq_clocked c s h
  rw [e, clocked_of_stopped stopped]

/-! ### The raise of a source (R336 to R338, R341) -/

theorem bitOf_eq_testBit (v i : Nat) : bitOf v i = v.testBit i := by
  rw [bitOf, Nat.testBit_eq_decide_div_mod_eq]

/-- FLT_STAT.STAT is the register bit by bit. -/
theorem fltOn_eq_bit (s : State) {k : Nat} (hk : k < 64) : s.fltOn k = (s.word R.FLT_STAT).getLsbD k := by
  rw [State.fltOn, bitOf_eq_testBit, State.g, getField_bit]
  simp [F.FLT_STAT_STAT, hk]

theorem fltOn_of_g_eq {s t : State} (h : t.g F.FLT_STAT_STAT = s.g F.FLT_STAT_STAT) (k : Nat) : t.fltOn k = s.fltOn k :=
  congrArg (bitOf · k) h

/-- The part of a launch that sets the source's bit and latches its information (R336). -/
def State.noted (s : State) (n info : Nat) : State :=
  (s.hwWord R.FLT_STAT (s.word R.FLT_STAT ||| BitVec.ofNat 96 (2 ^ n)) (BitVec.ofNat 96 (2 ^ n))).put F.FLT_INFO_INFO info n

theorem launch_eq (s : State) (n info : Nat) : s.launch n info = ((s.noted n info).fltFirst n).react n info := rfl

@[simp] theorem noted_flt (s : State) (n info : Nat) : (s.noted n info).flt = s.flt := rfl
@[simp] theorem noted_cycle (s : State) (n info : Nat) : (s.noted n info).cycle = s.cycle := rfl

theorem noted_fltOn (s : State) {n k : Nat} (info : Nat) (hn : n < 64) (hk : k < 64) :
    (s.noted n info).fltOn k = (decide (k = n) || s.fltOn k) := by
  have w : (s.noted n info).word R.FLT_STAT = s.word R.FLT_STAT ||| BitVec.ofNat 96 (2 ^ n) :=
    (word_put_other _ _ _ _ _ _ _ _ (key_ne _ _ (by decide) (by omega) (by decide))).trans (word_hwWord_same ..)
  rw [fltOn_eq_bit _ hk, fltOn_eq_bit _ hk, w, BitVec.getLsbD_or, BitVec.getLsbD_ofNat, Nat.testBit_two_pow,
    Bool.or_comm, decide_eq_true (by omega : k < 96), Bool.true_and]
  simp only [eq_comm]

/-- Noting a source writes FLT_STAT and FLT_INFO alone. -/
theorem noted_g (s : State) {n : Nat} (info : Nat) (d : Fld) (hn : n < 64) (h1 : d.reg.id ≠ R.FLT_STAT.id) (h2 : d.reg.id ≠ R.FLT_INFO.id) :
    (s.noted n info).g d = s.g d := by
  rw [State.noted, g_put_reg _ _ _ _ _ _ (by omega) (by decide) h2, State.g, State.g,
    word_hwWord_other _ _ _ _ _ _ _ _ _ (key_ne _ _ (by decide) (by decide) h1)]

theorem msix_clk (s : State) (f v : Nat) : (s.msix f v).clk = s.clk := by
  unfold State.msix
  split
  · rfl
  · split <;> rfl

theorem when_clk (s : State) (c : Bool) (f : State → State) (k : ∀ u, (f u).clk = u.clk) : (s.when c f).clk = s.clk := when_keep State.clk f k s c

theorem fltFirst_clk (s : State) (n : Nat) : (s.fltFirst n).clk = s.clk := by
  unfold State.fltFirst
  split
  · exact when_clk _ _ _ (by intro u; rfl)
  · rfl

theorem react_clk (s : State) (n info : Nat) : (s.react n info).clk = s.clk := by
  unfold State.react
  exact (when_clk _ _ _ (by intro u; rfl)).trans <| (when_clk _ _ _ (by intro u; rfl)).trans <|
    (when_clk _ _ _ (by intro u; rfl)).trans <| when_clk _ _ _ fun _ => msix_clk _ _ _

/-- No reaction stops or starts the clocks: a chip reset is left for the end of the command. -/
theorem launch_clk (s : State) (n info : Nat) : (s.launch n info).clk = s.clk := by
  rw [launch_eq, react_clk, fltFirst_clk]
  rfl

/-- A launch sets the source's own bit and leaves the others. -/
theorem launch_fltOn (s : State) {n k : Nat} (info : Nat) (hn : n < 64) (hk : k < 64) :
    (s.launch n info).fltOn k = (decide (k = n) || s.fltOn k) := by
  rw [launch_eq, fltOn_of_g_eq (react_g _ _ _ _ _ (by decide) (by decide) (by decide)),
    fltOn_of_g_eq (fltFirst_g _ _ _ _ (by decide) (by decide) (by decide)), noted_fltOn s info hn hk]

theorem raise_of_lost {s : State} (h : s.clk = Clk.lost) (n info : Nat) : s.raise n info = s := by
  rw [State.raise, if_pos h]

/-- Inside its handling window a raise leaves its note alone (R336). -/
theorem raise_of_standing {s : State} {n : Nat} (h : s.clk ≠ Clk.lost) (on : s.fltOn n = true) (info : Nat) :
    s.raise n info = { s with flt.again := s.flt.again.filter (fun e => e.2.1 = s.cycle && e.1 != n) ++ [(n, s.cycle, info)] } := by
  rw [State.raise, if_neg h, if_pos on]

theorem raise_of_clear {s : State} {n : Nat} (h : s.clk ≠ Clk.lost) (off : s.fltOn n = false) (info : Nat) : s.raise n info = s.launch n info := by
  rw [State.raise, if_neg h, off, if_neg Bool.false_ne_true]

theorem raise_clk (s : State) (n info : Nat) : (s.raise n info).clk = s.clk := by
  unfold State.raise
  split
  · rfl
  · split
    · rfl
    · exact launch_clk s n info

/-- What FLT_STAT holds after a raise. -/
theorem raise_fltOn {s : State} {n k : Nat} (info : Nat) (hn : n < 64) (hk : k < 64) (h : s.clk ≠ Clk.lost) :
    (s.raise n info).fltOn k = (decide (k = n) || s.fltOn k) := by
  cases on : s.fltOn n with
  | true =>
    have same : (s.raise n info).fltOn k = s.fltOn k := by rw [raise_of_standing h on]; rfl
    rw [same]
    by_cases e : k = n
    · rw [e, on, Bool.or_true]
    · rw [decide_eq_false e, Bool.false_or]
  | false => rw [raise_of_clear h on, launch_fltOn s info hn hk]

/-- A source that stands takes no second raise: only the note of it moves. -/
theorem raise_again {s : State} {n : Nat} (h : s.clk ≠ Clk.lost) (on : s.fltOn n = true) (info : Nat) :
    s.raise n info = { s with flt.again := (s.raise n info).flt.again } := by
  rw [raise_of_standing h on]

/-- Where FLT_FIRST holds the source of an earlier cycle, a further one sets OVF alone (R337). -/
theorem fltFirst_of_earlier {s : State} (n : Nat) (v : s.on F.FLT_FIRST_VALID = true) (e : s.flt.firstAt ≠ s.cycle) :
    s.fltFirst n = s.put F.FLT_FIRST_OVF 1 := by
  simp [State.fltFirst, v, State.when, e]

/-- The fields of FLT_FIRST and FLT_FIRST_TIME that an earlier cycle has filled stand through a launch. -/
theorem launch_g_of_earlier {s : State} {n : Nat} (info : Nat) (d : Fld) (hn : n < 64) (v : s.on F.FLT_FIRST_VALID = true) (e : s.flt.firstAt ≠ s.cycle)
    (hd : d.reg.id = R.FLT_FIRST.id ∨ d.reg.id = R.FLT_FIRST_TIME.id) (ovf : ∀ u : State, (u.put F.FLT_FIRST_OVF 1).g d = u.g d) :
    (s.launch n info).g d = s.g d := by
  have away : d.reg.id ≠ R.FLT_STAT.id ∧ d.reg.id ≠ R.FLT_INFO.id ∧ d.reg.id ≠ R.LAT_STAT.id ∧ d.reg.id ≠ R.FLT_RST_CAUSE.id := by
    rcases hd with h | h <;> rw [h] <;> decide
  obtain ⟨h1, h2, h3, h4⟩ := away
  have valid : (s.noted n info).on F.FLT_FIRST_VALID = true := by
    rw [State.on, noted_g s info _ hn (by decide) (by decide)]
    exact v
  rw [launch_eq, react_g _ _ _ _ _ h3 h4 (by decide), fltFirst_of_earlier n valid e, ovf, noted_g s info d hn h1 h2]

theorem raise_g_of_earlier {s : State} {n : Nat} (info : Nat) (d : Fld) (hn : n < 64) (v : s.on F.FLT_FIRST_VALID = true) (e : s.flt.firstAt ≠ s.cycle)
    (hd : d.reg.id = R.FLT_FIRST.id ∨ d.reg.id = R.FLT_FIRST_TIME.id) (ovf : ∀ u : State, (u.put F.FLT_FIRST_OVF 1).g d = u.g d) :
    (s.raise n info).g d = s.g d := by
  unfold State.raise
  split
  · rfl
  · split
    · rfl
    · exact launch_g_of_earlier info d hn v e hd ovf

/-- Settles O51: a raise sets its own bit, keeps the others, changes nothing but its note where the bit stands, and leaves FLT_FIRST to the earlier cycle. -/
theorem faultSources : Obligations.FaultSources := by
  refine ⟨fun s n info hn h => ⟨?_, fun k hk ne => ?_, fun x => ?_⟩, fun s n info hn v e => ⟨?_, ?_⟩, fun s n info h => raise_of_lost h n info⟩
  · rw [raise_fltOn info hn hn h, decide_eq_true rfl, Bool.true_or]
  · rw [raise_fltOn info hn hk h, decide_eq_false ne, Bool.false_or]
  · have stands : (s.raise n info).fltOn n = true := by rw [raise_fltOn info hn hn h, decide_eq_true rfl, Bool.true_or]
    exact raise_again (by rw [raise_clk]; exact h) stands x
  · exact raise_g_of_earlier info _ hn v e (.inl rfl) (fun u => g_put_other _ _ _ _ _ _ _ _ (.inr ⟨rfl, rfl, rfl, by decide⟩))
  · exact raise_g_of_earlier info _ hn v e (.inr rfl) (fun u => g_put_reg _ _ _ _ _ _ (by decide) (by decide) (by decide))

end Sys2Proof.Machine
end

section
/-! PROOF. What a direct write, a limit flag and a commit copy of one actuator output leave alone. -/

namespace Sys2Proof.Machine

/-! ### Keys of the registers of an output -/

theorem word_of_regs {s t : State} (h : t.regs = s.regs) (r : Reg) (i j : Nat) : t.word r i j = s.word r i j := by
  rw [State.word, State.word, h]

/-- Whatever its indices, a register of a higher identifier has another key. -/
theorem key_ne_of_id_lt {r r' : Reg} {i j : Nat} (i' j' : Nat) (h : r.id < r'.id) (hi : i < 16384) (hj : j < 4096) : r.key i j ≠ r'.key i' j' := by
  unfold Reg.key
  omega

theorem aoTile_lt {a : Nat} (h : a < 20480) : a / 1280 < 16384 := by omega

theorem aoChan_lt (a : Nat) : a % 1280 < 4096 := by omega

/-- The registers of two outputs have different keys. -/
theorem key_ne_of_ao_ne {a b : Nat} (r r' : Reg) (ha : a < 20480) (hb : b < 20480) (h : a ≠ b) :
    r.key (b / 1280) (b % 1280) ≠ r'.key (a / 1280) (a % 1280) := fun e => by
  obtain ⟨-, ht, hc⟩ := Reg.key_inj (aoTile_lt hb) (aoTile_lt ha) (aoChan_lt b) (aoChan_lt a) e
  omega

/-- Two registers of one output have different keys. -/
theorem key_ne_of_ao {r r' : Reg} {a : Nat} (ha : a < 20480) (h : r.id ≠ r'.id) : r.key (a / 1280) (a % 1280) ≠ r'.key (a / 1280) (a % 1280) :=
  fun e => h (Reg.key_inj (aoTile_lt ha) (aoTile_lt ha) (aoChan_lt a) (aoChan_lt a) e).1

/-- The registers of an output come before the summary registers of its tile and those of the Loop Engines. -/
theorem outputReg_id : ∀ r ∈ [R.AO_CFG, R.AO_SHD, R.AO_ACT, R.AO_RB, R.AO_STAT], r.id ≤ R.AO_STAT.id := by decide

/-! ### A write of the active register (R45) -/

/-- A write of an active register is writes of registers and of what stands beside the output. -/
theorem actWrite_keeps {β : Type} (π : State → β) (put : ∀ (u : State) (f : Fld) (v i j : Nat), π (u.put f v i j) = π u)
    (upd : ∀ (u : State) (a : Nat) (f : AoSt → AoSt), π (u.updAo a f) = π u) (s : State) (a code p : Nat) : π (s.actWrite a code p) = π s := by
  unfold State.actWrite
  split
  · rfl
  · dsimp only
    rw [upd, State.pa, State.pa, put, put]
    exact when_keep π _ (fun u => put u _ _ _ _) s _

@[simp] theorem actWrite_mem (s : State) (a code p : Nat) : (s.actWrite a code p).mem = s.mem :=
  actWrite_keeps State.mem (fun _ _ _ _ _ => rfl) (fun _ _ _ => rfl) s a code p
@[simp] theorem actWrite_le (s : State) (a code p : Nat) : (s.actWrite a code p).le = s.le :=
  actWrite_keeps State.le (fun _ _ _ _ _ => rfl) (fun _ _ _ => rfl) s a code p
@[simp] theorem actWrite_flt (s : State) (a code p : Nat) : (s.actWrite a code p).flt = s.flt :=
  actWrite_keeps State.flt (fun _ _ _ _ _ => rfl) (fun _ _ _ => rfl) s a code p

/-- It leaves every register alone but AO_ACT and AO_STAT of the output and the refusals of the tile. -/
theorem actWrite_word (s : State) (a code p : Nat) (r : Reg) (i j : Nat) (act : r.key i j ≠ R.AO_ACT.key (a / 1280) (a % 1280))
    (stat : r.key i j ≠ R.AO_STAT.key (a / 1280) (a % 1280)) (refused : r.key i j ≠ R.AO_TILE_STAT.key (aoTile a) 0) :
    (s.actWrite a code p).word r i j = s.word r i j := by
  unfold State.actWrite
  split
  · rfl
  · dsimp only
    rw [word_of_regs (State.updAo_regs ..), State.pa, State.pa, word_put_other _ F.AO_STAT_PARKED _ _ _ _ _ _ stat, word_put_other _ F.AO_ACT_CODE _ _ _ _ _ _ act]
    exact when_keep (State.word · r i j) (·.put F.AO_TILE_STAT_DIR_REFUSED 1 (aoTile a)) (fun u => word_put_other u _ _ _ _ _ _ _ refused) s _

/-- A write that no write of higher precedence stands against makes its code the active one. -/
theorem actWrite_code {s : State} {a p : Nat} (code : Nat) (ha : a < 20480) (free : s.actBlocked a p = false) :
    (s.actWrite a code p).ga F.AO_ACT_CODE a = code % 2 ^ 16 := by
  unfold State.actWrite
  rw [if_neg (by rw [free]; exact Bool.false_ne_true)]
  dsimp only
  rw [State.ga, g_of_regs (State.updAo_regs ..), State.pa, State.pa, g_put_other _ _ _ _ _ _ _ _ (.inl (key_ne_of_ao ha (by decide))),
    g_put_same _ _ _ _ _ (by decide)]
  rfl

/-! ### Direct writes and the limit flag (R43, R47) -/

/-- What a direct write can do: it is refused, left out, or applied. -/
theorem aoDirWrite_cases (a code : Nat) (s : State) :
    aoDirWrite a code s = s.put F.AO_TILE_STAT_DIR_REFUSED 1 (aoTile a) ∨ aoDirWrite a code s = s ∨ aoDirWrite a code s = s.actWrite a code 4 := by
  unfold aoDirWrite
  dsimp only
  split
  · exact .inl rfl
  · split
    · exact .inr (.inl rfl)
    · exact .inr (.inr rfl)

/-- The memories, the contexts, the faults and the registers of output b stand. -/
structure OutputKept (b : Nat) (s t : State) : Prop where
  mem : t.mem = s.mem
  le : t.le = s.le
  flt : t.flt = s.flt
  word : ∀ r : Reg, r.id ≤ R.AO_STAT.id → t.word r (b / 1280) (b % 1280) = s.word r (b / 1280) (b % 1280)

section OtherOutput

variable {a b : Nat} (ha : a < 20480) (hb : b < 20480) (ne : a ≠ b)
include ha hb ne

theorem actWrite_word_other (s : State) (code p : Nat) (r : Reg) (hr : r.id ≤ R.AO_STAT.id) :
    (s.actWrite a code p).word r (b / 1280) (b % 1280) = s.word r (b / 1280) (b % 1280) :=
  actWrite_word s a code p r _ _ (key_ne_of_ao_ne _ _ ha hb ne) (key_ne_of_ao_ne _ _ ha hb ne)
    (key_ne_of_id_lt _ _ (Nat.lt_of_le_of_lt hr (by decide)) (aoTile_lt hb) (aoChan_lt b))

theorem aoDirWrite_keeps (s : State) (code : Nat) : OutputKept b s (aoDirWrite a code s) := by
  rcases aoDirWrite_cases a code s with e | e | e <;> rw [e]
  · exact ⟨rfl, rfl, rfl, fun _ hr => word_put_other _ _ _ _ _ _ _ _
      (key_ne_of_id_lt _ _ (Nat.lt_of_le_of_lt hr (by decide)) (aoTile_lt hb) (aoChan_lt b))⟩
  · exact ⟨rfl, rfl, rfl, fun _ _ => rfl⟩
  · exact ⟨actWrite_mem .., actWrite_le .., actWrite_flt .., actWrite_word_other ha hb ne s code 4⟩

/-- The flag stands in the output's own AO_STAT, and its request in its tile's queue. -/
theorem limitFlag_keeps (s : State) : OutputKept b s ((s.pa F.AO_STAT_LIMIT 1 a).sadcAsk a) :=
  ⟨rfl, rfl, rfl, fun _ _ => (word_of_regs (State.updTl_regs ..) _ _ _).trans (word_put_other _ _ _ _ _ _ _ _ (key_ne_of_ao_ne _ _ ha hb ne))⟩

end OtherOutput

/-- A command under the clock gate whose function keeps output b answers a state that keeps it. -/
theorem OutputKept.answers {b : Nat} {s : State} {f : State → State} {r : Reg} (h : s.Ready) (k : OutputKept b s (f s)) (hr : r.id ≤ R.AO_STAT.id) :
    ∃ t, clocked s f = .next t ∧ t.mem = s.mem ∧ t.le = s.le ∧ t.word r (b / 1280) (b % 1280) = s.word r (b / 1280) (b % 1280) :=
  ⟨f s, clocked_eq h rfl k.flt, k.mem, k.le, k.word r hr⟩

/-! ### The copy at a strobe (R41, R44, R87) -/

@[simp] theorem updCs_regs (s : State) (a : Nat) (f : CtxSt → CtxSt) : (s.updCs a f).regs = s.regs := rfl
@[simp] theorem cp_regs (s : State) (bank a : Nat) (f : CFld) (v : Nat) : (s.cp bank a f v).regs = s.regs := rfl
@[simp] theorem cpS_regs (s : State) (bank a : Nat) (f : CFld) (v : Int) : (s.cpS bank a f v).regs = s.regs := rfl

/-- The state of a context follows in the memories alone. -/
theorem ctxSettle_regs (s : State) (a : Nat) : (s.ctxSettle a).regs = s.regs := by
  unfold State.ctxSettle
  dsimp only
  have first := when_keep State.regs (fun s => s.cp 0 a C.XREF (b2n (s.xref a))) (fun _ => rfl) s (!s.leNone a)
  split
  · exact first
  · split
    · exact first
    · split <;> exact first

theorem outerSettle_regs (s : State) (o : Option Nat) : (s.outerSettle o).regs = s.regs := by
  cases o with
  | none => rfl
  | some x => exact ctxSettle_regs s x

theorem ctxRefresh_regs (s : State) (a : Nat) : (s.ctxRefresh a).regs = s.regs :=
  (outerSettle_regs _ _).trans (ctxSettle_regs s a)

theorem startFields_regs (s : State) (a u : Nat) (oldI : Nat) : (s.startFields a u oldI).regs = s.regs := by
  unfold State.startFields
  dsimp only
  rw [cpS_regs, each_keep State.regs (fun s f => s.cp 0 a f 0) (fun _ _ => rfl)]
  split <;> rfl

/-- The exchange of the banks writes no register but LE_STAT of the tile (R112). -/
theorem exchange_word (s : State) (a u : Nat) (tc : Int) (r : Reg) (i j : Nat) (h : r.key i j ≠ R.LE_STAT.key (aoTile a) 0) :
    (s.exchange a u tc).word r i j = s.word r i j := by
  unfold State.exchange
  dsimp only
  have first : ∀ (v : State) (c : Bool), (v.when c (fun v => v.startFields a u (s.cg 0 a C.I))).regs = v.regs := fun v c =>
    when_keep State.regs _ (fun v => startFields_regs v a u _) v c
  split
  · rw [word_of_regs (updCs_regs ..), word_of_regs (updCs_regs ..), word_of_regs (first _ _)]
    rfl
  · split
    · rw [word_of_regs (updCs_regs ..), word_put_other _ F.LE_STAT_RESTART_REFUSED _ _ _ _ _ _ h, word_of_regs (cp_regs ..), word_of_regs (cp_regs ..),
        word_of_regs (updCs_regs ..), word_of_regs (first _ _)]
      rfl
    · rw [word_of_regs (outerSettle_regs ..), word_of_regs (ctxRefresh_regs ..), word_of_regs (cp_regs ..), word_of_regs (updCs_regs ..), word_of_regs (first _ _)]
      rfl

/-- Discarding a staged value writes AO_SHD and AO_STAT of the output and a charge sum, whose partition is free. -/
theorem unstage_word (s : State) (a : Nat) (r : Reg) (i j : Nat) (sum : r.id < R.AO_QSUM.id) (hi : i < 16384) (hj : j < 4096)
    (shd : r.key i j ≠ R.AO_SHD.key (a / 1280) (a % 1280)) (stat : r.key i j ≠ R.AO_STAT.key (a / 1280) (a % 1280)) :
    (s.unstage a).word r i j = s.word r i j := by
  unfold State.unstage
  dsimp only
  refine (word_put_other _ F.AO_STAT_STAGED _ _ _ _ _ _ stat).trans ((word_put_other _ F.AO_SHD_STAGED _ _ _ _ _ _ shd).trans ?_)
  split
  · rfl
  · exact word_put_other _ _ _ _ _ _ _ _ (key_ne_of_id_lt _ _ sum hi hj)

/-- The copy of one output leaves the registers of every other output alone. -/
theorem commitAo_word_other {a b : Nat} (ha : a < 20480) (hb : b < 20480) (ne : a ≠ b) (s : State) (tc : Int) (r : Reg) (hr : r.id ≤ R.AO_STAT.id) :
    (s.commitAo a tc).word r (b / 1280) (b % 1280) = s.word r (b / 1280) (b % 1280) := by
  have hle : r.id < R.LE_STAT.id := Nat.lt_of_le_of_lt hr (by decide)
  have hsum : r.id < R.AO_QSUM.id := Nat.lt_of_le_of_lt hr (by decide)
  unfold State.commitAo
  dsimp only
  rw [word_of_regs (State.updAo_regs ..), unstage_word _ _ _ _ _ hsum (aoTile_lt hb) (aoChan_lt b) (key_ne_of_ao_ne _ _ ha hb ne) (key_ne_of_ao_ne _ _ ha hb ne),
    exchange_word _ _ _ _ _ _ _ (key_ne_of_id_lt _ _ hle (aoTile_lt hb) (aoChan_lt b)), actWrite_word_other ha hb ne _ _ _ r hr]

/-- The active code becomes the shadow code, unless a park of the same cycle stands (R45). -/
theorem commitAo_code {a : Nat} (ha : a < 20480) (s : State) (tc : Int) (free : s.actBlocked a 2 = false) :
    (s.commitAo a tc).ga F.AO_ACT_CODE a = s.ga F.AO_SHD_CODE a := by
  have kept : (s.commitAo a tc).word R.AO_ACT (a / 1280) (a % 1280) = (s.actWrite a (s.ga F.AO_SHD_CODE a) 2).word R.AO_ACT (a / 1280) (a % 1280) := by
    unfold State.commitAo
    dsimp only
    rw [word_of_regs (State.updAo_regs ..), unstage_word _ _ _ _ _ (by decide) (aoTile_lt ha) (aoChan_lt a) (key_ne_of_ao ha (by decide)) (key_ne_of_ao ha (by decide)),
      exchange_word _ _ _ _ _ _ _ (key_ne_of_id_lt _ _ (by decide) (aoTile_lt ha) (aoChan_lt a))]
  calc (s.commitAo a tc).ga F.AO_ACT_CODE a
      = (s.actWrite a (s.ga F.AO_SHD_CODE a) 2).ga F.AO_ACT_CODE a := congrArg (getField · 0 16) kept
    _ = s.ga F.AO_SHD_CODE a % 2 ^ 16 := actWrite_code _ ha free
    _ = s.ga F.AO_SHD_CODE a := Nat.mod_eq_of_lt (Nat.mod_lt _ (by decide))

/-- Settles O54: a direct write, a limit flag and a commit copy each write registers of their own output or of a tile's summary. -/
theorem outputFrames : Obligations.OutputFrames := by
  refine ⟨fun s a b code r h ne hr => ?_, fun s a b r tc ne hr => ?_⟩
  all_goals
    have ne' : a.val ≠ b.val := fun e => ne (Fin.ext e)
    have hr' := outputReg_id r hr
  · refine ⟨(aoDirWrite_keeps a.isLt b.isLt ne' s code.toNat).answers h hr', ?_⟩
    rw [exec_limitQualified, execLimitQualified]
    refine OutputKept.answers h ?_ hr'
    split
    · exact limitFlag_keeps a.isLt b.isLt ne' s
    · exact ⟨rfl, rfl, rfl, fun _ _ => rfl⟩
  · exact ⟨commitAo_word_other a.isLt b.isLt ne' s tc r hr', commitAo_code a.isLt s tc⟩

end Sys2Proof.Machine
end

section
/-! PROOF. Host writes of the Program Store and of the repetitive tables: the bytes they write, those they leave, and what a refusal leaves. -/

namespace Sys2Proof.Machine

/-- Bytes outside those named, or past the end of what they are written to, stand. -/
theorem Memory.rd_wrBytes_take_other (m : List Host.Cell) (a n : Nat) (bs : List Byte) (c : Nat) (h : c < a ∨ a + bs.length ≤ c ∨ a + n ≤ c) :
    Memory.rd (Memory.wrBytes m a (bs.take n)) c = Memory.rd m c :=
  Memory.rd_wrBytes_other _ _ _ _ (by rw [List.length_take]; omega)

/-- Each byte named is read back as far as what it is written to reaches. -/
theorem Memory.rd_wrBytes_take_same (m : List Host.Cell) (a n : Nat) (bs : List Byte) (i : Nat) (hi : i < bs.length) (hn : i < n) :
    Memory.rd (Memory.wrBytes m a (bs.take n)) (a + i) = bs.getD i 0 := by
  rw [Memory.rd_wrBytes_same _ _ _ _ (by rw [List.length_take]; omega), List.getElem_take, List.getD_eq_getElem?_getD,
    List.getElem?_eq_getElem hi, Option.getD_some]

/-! ### The Program Store (R177) -/

/-- A write that overlaps running code is refused by both members. -/
theorem psWrite_of_running {s : State} {off : Nat} {bs : List Byte} (h : (List.range bs.length).any (fun i => s.runningCode (off + i)) = true) :
    psWrite off bs s = (s.put F.SEQ_STAT_PS_REFUSED 1 0).put F.SEQ_STAT_PS_REFUSED 1 1 := by
  rw [psWrite, if_pos h]

theorem psWrite_of_idle {s : State} {off : Nat} {bs : List Byte} (h : (List.range bs.length).any (fun i => s.runningCode (off + i)) = false) :
    psWrite off bs s = s.wrBs (progBase + off) (bs.take (0x200000 - off)) := by
  rw [psWrite, if_neg (by rw [h]; exact Bool.false_ne_true)]

/-- Which code runs does not depend on who was granted the Lattice. -/
theorem grant_runningCode (s : State) (t m off : Nat) : (s.grant t m).runningCode off = s.runningCode off := rfl

/-! ### The repetitive tables (R168) -/

/-- The rotor of an owned output's partition is learning, so that the output's table is the rotor's to write (R168). -/
def State.learnsInto (s : State) (a : Nat) : Bool :=
  s.ona F.AO_CFG_OWNED a && s.pm (s.ga F.AO_CFG_PART a) = 2 && s.on F.RTU_ROT_LRN_LEN (s.ga F.AO_CFG_PART a) && !s.on F.RTU_ROT_LRN_FRZ (s.ga F.AO_CFG_PART a)

theorem repTableWrite_of_learning {s : State} {a off : Nat} {bs : List Byte} (h : s.learnsInto a = true) :
    repTableWrite a off bs s = s.put F.RTU_ROT_LSTAT_WR_REFUSED 1 (s.ga F.AO_CFG_PART a) :=
  if_pos h

theorem repTableWrite_of_idle {s : State} {a off : Nat} {bs : List Byte} (h : s.learnsInto a = false) :
    repTableWrite a off bs s = s.wrBs (repBase + a * 128 + off) (bs.take (128 - off)) :=
  if_neg fun e => Bool.false_ne_true (h.symm.trans e)

theorem grant_learnsInto (s : State) (t m a : Nat) : (s.grant t m).learnsInto a = s.learnsInto a := rfl

theorem on_put_one {s : State} {f : Fld} {i j : Nat} (h : f.lo + f.wd ≤ 96) (w : f.wd = 1) : (s.put f 1 i j).on f i j = true := by
  rw [State.on, g_put_same _ _ _ _ _ h, w]
  rfl

/-- Settles O57: a refusal writes no memory, and a write reaches as far as the store, or the table, does. -/
theorem memoryFrames : Obligations.MemoryFrames := by
  refine ⟨fun s off bs h => ?program, fun s a off bs p l h hp hl => ?table⟩
  case program =>
    have fit : off.toNat < 0x200000 := off.isLt
    rw [exec_psWrite, execPsWrite]
    cases run : (List.range bs.length).any (fun i => s.runningCode (off.toNat + i)) with
    | true =>
      refine ⟨_, clocked_eq h (psWrite_of_running run) rfl, id, fun _ _ => rfl, fun _ => rfl, fun e => nomatch e⟩
    | false =>
      refine ⟨_, clocked_eq h (psWrite_of_idle run) rfl, Memory.wf_wrBytes _ _ _, fun c hc => ?_, (fun e => nomatch e), fun _ i hi hn => ?_⟩
      · exact Memory.rd_wrBytes_take_other _ _ _ _ _ (by omega)
      · exact Memory.rd_wrBytes_take_same _ _ _ _ _ hi (by omega)
  case table =>
    subst hp
    have fit : off.val < 128 := off.isLt
    rw [exec_repTableWrite, execRepTableWrite]
    cases learn : s.learnsInto a with
    | true =>
      have hl' : l = true := hl.trans learn
      refine ⟨_, clocked_eq h (repTableWrite_of_learning learn) rfl, id, fun _ _ => rfl, fun _ => ⟨rfl, on_put_one (by decide) rfl⟩, fun e => ?_⟩
      exact absurd (e.symm.trans hl') Bool.false_ne_true
    | false =>
      have hl' : l = false := hl.trans learn
      refine ⟨_, clocked_eq h (repTableWrite_of_idle learn) rfl, Memory.wf_wrBytes _ _ _, fun c hc => ?_, fun e => ?_, fun _ i hi hn => ?_⟩
      · exact Memory.rd_wrBytes_take_other _ _ _ _ _ (by omega)
      · exact absurd (hl'.symm.trans e) Bool.false_ne_true
      · exact Memory.rd_wrBytes_take_same _ _ _ _ _ hi (by omega)

end Sys2Proof.Machine
end

section
/-! PROOF. The Tile Links: retries, the watchdog, training and the power-up of a tile. -/

namespace Sys2Proof.Machine

/-! ### A frame that fails, and its retries (R16, R17) -/

section Links

variable {s : State} {t : Tile}

theorem exec_tileLinkRetry_good (h : s.Ready) (bad : (s.tl t).badFrame = true) :
    exec (.tileLinkRetry t true) s = .next (s.updTl t (fun x => { x with badFrame := false, retry := 0 })) := by
  rw [exec_tileLinkRetry]
  exact clocked_eq h (by simp [bad]) rfl

theorem exec_tileLinkRetry_counts (h : s.Ready) (bad : (s.tl t).badFrame = true) (few : (s.tl t).retry + 1 < 8) :
    exec (.tileLinkRetry t false) s = .next (s.updTl t (fun x => { x with retry := x.retry + 1 })) := by
  rw [exec_tileLinkRetry]
  exact clocked_eq h (by simp [bad, few]) rfl

theorem exec_tileLinkRetry_last (h : s.Ready) (bad : (s.tl t).badFrame = true) (seven : (s.tl t).retry = 7) :
    exec (.tileLinkRetry t false) s = .next ((s.linkDown t).loseBursts t).settle := by
  rw [exec_tileLinkRetry]
  exact clocked_settle h.1 (by simp [bad, seven])

/-! ### Training (R17, R62) -/

/-- The tile as training leaves it, before its watchdog fence is looked at: its link up, the realignment of its replica due, its registers re-initialised if they must be. -/
def State.linked (s : State) (t : Nat) : State :=
  let u := s.updTl t (fun x => { x with linkUp := true, badFrame := false, retry := 0 })
  let b : State := { u with tm.reps := Map.upd u.tm.reps t {} (fun y => { y with due := u.cycle }) }
  if (s.tl t).needReinit then b.tileReinit t else b

/-- The watchdog fence is reported. -/
def State.toldFence (s : State) (t : Nat) : State := (s.updTl t (fun x => { x with told := true })).fsum t 5

/-- Training completes on a tile that has its supplies and whose link no lane test holds. -/
theorem exec_tileLinkTrained_eq (h : s.Ready) (down : (s.tl t).linkUp = false) (pow : (s.tl t).powered = true) (free : s.tileLanesOn t = false) :
    exec (.tileLinkTrained t) s = .next (if ((s.linked t).tl t).wdog && !((s.linked t).tl t).told then
        (if bitOf (((s.linked t).toldFence t).g F.FLT_FENCED_PT_TILE) t || ((s.linked t).toldFence t).flt.fences.any (fun r => r.region = 1 && r.idx = t.val)
          then (s.linked t).toldFence t else ((s.linked t).toldFence t).askFence 1 t false)
      else s.linked t).settle := by
  have need : (s.tl t).needReinit = ((s.updTl t (fun x => { x with linkUp := true, badFrame := false, retry := 0 })).tl t).needReinit := by
    rw [tl_updTl_same]
  rw [exec_tileLinkTrained]
  refine clocked_settle h.1 ?_
  dsimp only
  rw [if_neg (by simp [down, pow, free]), State.linked, need]
  rfl

end Links

/-- Settles O2: each command is one branch of its function, under the clock gate where it has one. -/
theorem tileLinks : Obligations.TileLinks := by
  refine ⟨fun s t h up ok => ?_, fun s t h bad => ⟨exec_tileLinkRetry_good h bad, exec_tileLinkRetry_counts h bad, exec_tileLinkRetry_last h bad⟩,
    fun s t h free => ?_, fun s t b r v h down pow free hb hr hv => ?_, fun s t => rfl⟩
  · rw [exec_tileLinkCrcFail]
    exact clocked_eq h (by simp [up, ok]) rfl
  · rw [exec_tileWatchdogExpiry, execTileWatchdogExpiry, h.1, free]
    rfl
  · have hr' : r = s.linked t := by rw [hr, hb]; rfl
    subst hr' hv
    rw [exec_tileLinkTrained_eq h down pow free]
    refine ⟨fun quiet => ?_, fun wdog told clear none => ?_, fun wdog told fenced => ?_⟩
    · rcases quiet with e | e <;> simp [e]
    · rw [wdog, told]
      unfold State.toldFence
      rw [clear, none]
      rfl
    · rw [wdog, told]
      unfold State.toldFence
      rw [fenced]
      rfl

end Sys2Proof.Machine
end

section
/-! PROOF. The supervision converter of a tile, and the loss of REFCLK. -/

namespace Sys2Proof.Machine

/-! ### A supervision conversion (R48 to R54) -/

/-- Two updates of a tile that agree on what it holds are one. -/
theorem updTl_congr {s : State} {t : Nat} {f g : TileSt → TileSt} (e : f (s.tl t) = g (s.tl t)) : s.updTl t f = s.updTl t g := by
  unfold State.updTl Map.upd
  rw [show f (Map.look s.af.tiles t {}) = g (Map.look s.af.tiles t {}) from e]

section Conversion

variable {s : State} {t : Tile} {k : Nat}

/-- The only channel in the priority queue is taken from it. -/
theorem sadcNext_of_single (q : (s.tl t).sadc.prio = [(k, 0)]) (sup : s.supervised t k = true) :
    s.sadcNext t = (s.updSadc t (fun q => { q with prio := [] }), some (k, true)) := by
  have found : (s.tl t).sadc.prio.find? (fun e => s.supervised t e.1) = some (k, 0) := by rw [q]; exact List.find?_cons_of_pos sup
  unfold State.sadcNext
  dsimp only
  rw [found]
  refine congrArg (·, some (k, true)) (updTl_congr ?_)
  dsimp only
  rw [q, List.erase_cons_head]

/-- The state that a reading leaves before it is compared (R48). -/
def State.readBack (s : State) (t k reading : Nat) : State :=
  ((s.updSadc t (fun q => { q with prio := [] })).pa F.AO_RB_READING reading (t * 1280 + k)).pa F.AO_RB_VALID 1 (t * 1280 + k)

/-- A priority conversion compares its reading unless the channel is faulted. -/
theorem sadcConvert_of_single (reading aux : Nat) (lim : Bool) (q : (s.tl t).sadc.prio = [(k, 0)]) (sup : s.supervised t k = true) :
    sadcConvert t reading aux lim s = if (s.readBack t k reading).ona F.AO_STAT_FAULT (t * 1280 + k) then s.readBack t k reading
      else (s.readBack t k reading).compareReading (t * 1280 + k) reading aux lim := by
  rw [sadcConvert, sadcNext_of_single q sup]
  rfl

theorem compareReading_of_pass {a reading aux : Nat} {lim : Bool} (h : s.failCause a reading aux lim = none) :
    s.compareReading a reading aux lim = (s.pa F.AO_RB_FAILED 0 a).pa F.AO_STAT_FAILCNT 0 a := by
  rw [State.compareReading, h]

theorem compareReading_of_fail {a reading aux c : Nat} {lim : Bool} (h : s.failCause a reading aux lim = some c) :
    s.compareReading a reading aux lim = (let n := min (s.ga F.AO_STAT_FAILCNT a + 1) (s.tol F.AO_TOL_CONFIRM a + 1)
      let v := ((s.pa F.AO_RB_FAILED 1 a).pa F.AO_STAT_FAILCNT n a).sadcAsk a
      if n = v.tol F.AO_TOL_CONFIRM a + 1 then v.chanFault a c else v) := by
  rw [State.compareReading, h]

end Conversion

/-! ### The loss of REFCLK (R25, R341) -/

theorem exec_clkLoss_of_running {s : State} (h : s.Ready) (why : Fin 2) :
    exec (.clkLoss why) s = .next { (s.put F.FLT_RST_CAUSE_SRC 35).put F.FLT_RST_CAUSE_VALID 1 with clk := .lost, flt.clkLoss := some why.val } := by
  have run : clkLoss why.val s = { (s.put F.FLT_RST_CAUSE_SRC 35).put F.FLT_RST_CAUSE_VALID 1 with clk := .lost, flt.clkLoss := some why.val } := by
    rw [clkLoss, h.1]
    rfl
  rw [exec_clkLoss, execClkLoss, run]
  exact fin_of_quiet h.2

theorem clkLossReset_of_lost {s : State} (h : s.clk = Clk.lost) : clkLossReset s = if s.on F.FLT_REACT_CRST 35 then s.chipReset else s := by
  rw [clkLossReset, h]
  rfl

/-- Settles O4: the one channel that asks is converted, and its reading meets one of the three outcomes; the loss of REFCLK and its end are one branch each. -/
theorem supervision : Obligations.Supervision := by
  refine ⟨fun s t k reading aux lim u h q sup hu => ?_, fun s why h => exec_clkLoss_of_running h why, fun s lost quiet => ⟨fun on => ?_, fun off => ?_⟩⟩
  · have run : sadcConvert t reading.toNat aux lim s = if u.ona F.AO_STAT_FAULT (t * 1280 + k) then u
        else u.compareReading (t * 1280 + k) reading.toNat aux lim := by
      rw [sadcConvert_of_single _ _ _ q sup, hu]
      rfl
    have kept : u.flt = s.flt := by rw [hu]; rfl
    refine ⟨fun faulted => ?_, fun good pass => ?_, fun c good fail => ?_⟩
    · exact clocked_eq h (by rw [run, faulted]; rfl) kept
    · exact clocked_eq h (by rw [run, good]; exact compareReading_of_pass pass) kept
    · exact clocked_settle h.1 (by rw [run, good]; exact compareReading_of_fail fail)
  · rw [exec_clkLossReset, execClkLossReset, clkLossReset_of_lost lost, on]
    rfl
  · rw [exec_clkLossReset, execClkLossReset, clkLossReset_of_lost lost, off]
    exact fin_of_quiet quiet

end Sys2Proof.Machine
end

section
/-! PROOF. The first address of every register names it (R29, R30). -/

namespace Sys2Proof.Machine

/-- The first address of a register: at index 1 where the registers of a VF begin, else at index 0 (R30). -/
def Reg.first (r : Reg) : Nat := if r.stands 0 then r.addr else r.addr + r.si

/-- The index there. -/
def Reg.firstInst (r : Reg) : Nat := if r.stands 0 then 0 else 1

/-- The index there is one that the register has and that stands, with a stride to it and bytes in it. -/
def Reg.roomy (r : Reg) : Bool :=
  r.firstInst < r.ni && 0 < r.nj && 0 < r.bytes && (r.stands 0 || 0 < r.si) && r.stands r.firstInst

/-- The first address of a register falls into its first index, at byte 0. -/
theorem Reg.hit_first {r : Reg} (h : r.roomy = true) : r.hit r.first = some (r.firstInst, 0, 0) := by
  simp only [Reg.roomy, Bool.and_eq_true, Bool.or_eq_true, decide_eq_true_eq] at h
  obtain ⟨⟨⟨⟨inst, col⟩, byte⟩, stride⟩, -⟩ := h
  unfold Reg.hit Reg.first
  unfold Reg.firstInst at inst ⊢
  cases st : r.stands 0 with
  | true => simp_all
  | false =>
    have si : 0 < r.si := stride.resolve_left (by rw [st]; exact Bool.false_ne_true)
    simp_all [Nat.div_self si, Nat.ne_of_gt si]

/-- Of a list of registers, the first that an address falls into is found. -/
theorem findReg_of_earlier_miss {pre post : List Reg} {r : Reg} {a i j k : Nat} (miss : ∀ q ∈ pre, q.hit a = none) (hit : r.hit a = some (i, j, k))
    (st : r.stands i = true) : findReg (pre ++ r :: post) a = some ⟨r, i, j, k⟩ := by
  induction pre with
  | nil => simp [findReg, hit, st]
  | cons q t ih =>
    rw [List.cons_append, findReg, miss q (List.mem_cons_self ..)]
    exact ih fun x hx => miss x (List.mem_cons_of_mem _ hx)

/-- Where no register covers the first address of a later one, each is found at its own. -/
theorem findReg_first {l : List Reg} (apart : l.Pairwise (fun q r => q.hit r.first = none)) {r : Reg} (hr : r ∈ l) (room : r.roomy = true) :
    findReg l r.first = some ⟨r, r.firstInst, 0, 0⟩ := by
  obtain ⟨pre, post, rfl⟩ := List.append_of_mem hr
  have earlier : ∀ q ∈ pre, q.hit r.first = none := fun q hq => (List.pairwise_append.1 apart).2.2 q hq r (List.mem_cons_self ..)
  exact findReg_of_earlier_miss earlier (Reg.hit_first room) (by simp [Reg.roomy] at room; exact room.2)

/-- No register of the manual's tables covers the first address of a later one. -/
theorem regList_apart : regList.Pairwise (fun q r => q.hit r.first = none) := by decide +kernel

theorem regList_roomy : ∀ r ∈ regList, r.roomy = true := by decide +kernel

/-- Settles O58: an address is looked up in the order of the tables, and nothing there covers the first address of a later register. -/
theorem registerAddresses : Obligations.RegisterAddresses := by
  intro r hr
  change (placeAt r.first).map _ = some (r.id, r.firstInst, 0, 0)
  rw [placeAt, findReg_first regList_apart hr (regList_roomy r hr)]
  rfl

end Sys2Proof.Machine
end

section
/-! PROOF. Writes of an actuator output: its active register and what may write it, its configuration, the release of its fault, the loop outputs on their way, and its driver. -/

namespace Sys2Proof.Machine

/-! ### Two writes of one active register in one cycle (R45) -/

section ActiveWrites

variable {s : State} {a p : Nat}

@[simp] theorem actWrite_cycle (code : Nat) : (s.actWrite a code p).cycle = s.cycle :=
  actWrite_keeps State.cycle (fun _ _ _ _ _ => rfl) (fun _ _ _ => rfl) s a code p

/-- A write that is applied is the one that further writes of its cycle find. -/
theorem actWrite_lastW (code : Nat) (free : s.actBlocked a p = false) :
    ((s.actWrite a code p).aoSt a).lastW = some ⟨s.cycle, p, s.actBefore a⟩ := by
  unfold State.actWrite
  rw [if_neg (by rw [free]; exact Bool.false_ne_true)]
  dsimp only
  rw [aoSt_updAo_same]
  exact congrArg (fun n => some (LastWrite.mk n p (s.actBefore a))) (when_keep State.cycle (·.put F.AO_TILE_STAT_DIR_REFUSED 1 (aoTile a)) (fun _ => rfl) s _)

/-- After it those of lower precedence are blocked, and no others. -/
theorem actBlocked_actWrite (code q : Nat) (free : s.actBlocked a p = false) : (s.actWrite a code p).actBlocked a q = decide (p < q) := by
  rw [State.actBlocked, actWrite_lastW code free, actWrite_cycle]
  simp

theorem actWrite_of_blocked (code : Nat) (h : s.actBlocked a p = true) : s.actWrite a code p = s := if_pos h

end ActiveWrites

/-- Settles O53: the first write blocks those of lower precedence alone, a blocked write changes nothing, and one that is not blocked sets the code. -/
theorem activePrecedence : Obligations.ActivePrecedence := by
  intro s a c d p q ha ⟨hc, hd⟩ free
  refine ⟨fun le => ?_, fun lt => ?_, ?_⟩
  · have second : (s.actWrite a c p).actBlocked a q = false := by rw [actBlocked_actWrite c q free, decide_eq_false (Nat.not_lt.2 le)]
    exact (actWrite_code d ha second).trans (Nat.mod_eq_of_lt hd)
  · exact actWrite_of_blocked d (by rw [actBlocked_actWrite c q free, decide_eq_true lt])
  · exact (actWrite_code c ha free).trans (Nat.mod_eq_of_lt hc)

/-! ### Direct writes and loop outputs (R43 to R45, R83, R363) -/

section DirectWrites

variable {s : State} {a code : Nat}

/-- The first write of a cycle finds no other. -/
theorem actBlocked_of_first (first : s.wroteNow a = none) (p : Nat) : s.actBlocked a p = false := by
  unfold State.wroteNow at first
  unfold State.actBlocked
  cases w : (s.aoSt a).lastW with
  | none => rfl
  | some x =>
    have other : x.cycle ≠ s.cycle := by simpa [w] using first
    simp [other]

theorem absDiff_eq_zero (x y : Nat) : absDiff x y = 0 ↔ x = y := by
  unfold absDiff
  split <;> omega

/-- A direct write or a loop output that comes first in its cycle. -/
theorem actWrite_of_first {p : Nat} (first : s.wroteNow a = none) (weak : 3 < p) :
    s.actWrite a code p = ((s.pa F.AO_ACT_CODE code a).pa F.AO_STAT_PARKED 0 a).updAo a (fun x => { x with
      lastW := some ⟨s.cycle, p, s.ga F.AO_ACT_CODE a⟩
      moves := if s.ga F.AO_ACT_CODE a = code then x.moves.filter (fun m => m.1 != s.cycle && s.cycle ≤ m.1 + 16000)
        else (s.cycle, absDiff (s.ga F.AO_ACT_CODE a) code) :: x.moves.filter (fun m => m.1 != s.cycle && s.cycle ≤ m.1 + 16000) }) := by
  have before : s.actBefore a = s.ga F.AO_ACT_CODE a := by rw [State.actBefore, first]
  have parked : b2n (decide (p = 1)) = 0 := by rw [decide_eq_false (by omega)]; rfl
  have kept : ¬ p ≤ 3 := by omega
  unfold State.actWrite
  rw [if_neg (by rw [actBlocked_of_first first]; exact Bool.false_ne_true)]
  simp only [before, first, parked, kept, absDiff_eq_zero]
  rfl

/-- A direct write of the output is taken (R43): it is owned, in MAINTENANCE or TEST, without a fault or a fence, and no measurement holds it. -/
def State.takesDirect (s : State) (a : Nat) : Bool :=
  s.ona F.AO_CFG_OWNED a && (s.pm (s.ga F.AO_CFG_PART a) = 3 || s.pm (s.ga F.AO_CFG_PART a) = 4) && !s.ona F.AO_STAT_FAULT a
    && !s.tileFenced (aoTile a) && !s.partFenced (s.ga F.AO_CFG_PART a) && !s.cal.meas.any (fun e => e.2.ao = a)

theorem aoDirWrite_eq : aoDirWrite a code s =
    if !s.takesDirect a || s.actBlocked a 4 then s.put F.AO_TILE_STAT_DIR_REFUSED 1 (aoTile a)
    else if s.capped a code then s else s.actWrite a code 4 := rfl

theorem aoDirWrite_of_refused (h : s.takesDirect a = false ∨ s.actBlocked a 4 = true) :
    aoDirWrite a code s = s.put F.AO_TILE_STAT_DIR_REFUSED 1 (aoTile a) := by
  rw [aoDirWrite_eq, if_pos (by simpa using h)]

theorem aoDirWrite_of_taken (h : s.takesDirect a = true) (free : s.actBlocked a 4 = false) :
    aoDirWrite a code s = if s.capped a code then s else s.actWrite a code 4 := by
  rw [aoDirWrite_eq, if_neg (by simp [h, free])]

end DirectWrites

/-- A loop output is taken: it is of the output's generation, the output is owned and without a fault or a fence, its Loop Engine has a holder, and no cap keeps it out. -/
def State.takesLoop (s : State) (o : LoopOut) : Bool :=
  s.ona F.AO_CFG_OWNED o.ao && o.gen = (s.aoSt o.ao).gen && !s.ona F.AO_STAT_FAULT o.ao && !s.tileFenced (aoTile o.ao)
    && !s.partFenced (s.ga F.AO_CFG_PART o.ao) && !s.noHolder (1 + aoTile o.ao) && !s.capped o.ao o.code

/-- The oldest loop output on its way is written with the lowest precedence, or dropped. -/
theorem loopArrive_of_next {s : State} {o : LoopOut} {rest : List LoopOut} (next : s.le.outs = o :: rest) :
    loopArrive s = if s.takesLoop o then { s with le.outs := rest }.actWrite o.ao o.code 5 else { s with le.outs := rest } := by
  unfold loopArrive
  rw [next]
  rfl

/-! ### Configuration, fault release and the driver (R34, R38, R39, R54) -/

/-- What is done where one of two values changes. -/
theorem when_not_eq_or (s : State) (x x' y y' : Nat) (f : State → State) :
    s.when (x != x' || y != y') f = if x = x' ∧ y = y' then s else f s := by
  unfold State.when
  by_cases hx : x = x'
  · by_cases hy : y = y'
    · rw [if_neg (by simp [hx, hy]), if_pos ⟨hx, hy⟩]
    · rw [if_pos (by simp [hy]), if_neg (fun e => hy e.2)]
  · rw [if_pos (by simp [hx]), if_neg (fun e => hx e.1)]

/-- The fields of AO_CFG that a write sets as they are, MODE and RANGE apart. -/
def cfgFields : List Fld := [F.AO_CFG_EN, F.AO_CFG_CLOAD, F.AO_CFG_ILIM, F.AO_CFG_TOLSEL, F.AO_CFG_PART, F.AO_CFG_OWNED, F.AO_CFG_OPENCHK]

section Configuration

variable {s : State} {a v : Nat} (unowned : s.ga F.AO_CFG_OWNED a = 0)
include unowned

/-- The reserved mode is refused. -/
theorem aoCfgWrite_of_reserved (mode : bitsOf v 0 2 = 3) : aoCfgWrite a v s = s.put F.AO_TILE_STAT_CFG_ERR 1 (aoTile a) := by
  have reserved : bitsOf v F.AO_CFG_MODE.lo F.AO_CFG_MODE.wd = 3 := mode
  unfold aoCfgWrite
  simp [unowned, reserved, State.when]

/-- An output that is not owned takes every field, after the change of its mode or range. -/
theorem aoCfgWrite_of_unowned (mode : bitsOf v 0 2 ≠ 3) : aoCfgWrite a v s =
    ((if s.ga F.AO_CFG_MODE a = bitsOf v 0 2 ∧ s.ga F.AO_CFG_RANGE a = bitsOf v 2 1 then s
      else s.modeChange a (if s.on F.TST_OS_STAT_BUSY (aoTile a) then 0 else bitsOf v 0 2) (bitsOf v 2 1)).each cfgFields
        (fun s f => s.sput f (bitsOf v f.lo f.wd) (aoTile a) (aoChan a))).ctxRefresh a := by
  have legal : bitsOf v F.AO_CFG_MODE.lo F.AO_CFG_MODE.wd ≠ 3 := mode
  have stays : (decide (s.ga F.AO_CFG_OWNED a = 1) && decide (bitsOf v F.AO_CFG_OWNED.lo F.AO_CFG_OWNED.wd = 0)) = false := by rw [unowned]; rfl
  unfold aoCfgWrite
  dsimp only
  rw [if_neg (by simp [unowned, legal]), stays, when_not_eq_or]
  rfl

end Configuration

/-- A channel that stands faulted is released. -/
theorem releaseFault_of_faulted {s : State} {a : Nat} (h : s.ona F.AO_STAT_FAULT a = true) :
    releaseFault a s = (((s.pa F.AO_STAT_FAULT 0 a).pa F.AO_STAT_FAILCNT 0 a).sadcAsk a).chanSum (aoTile a) := if_pos h

/-- An enabled I-mode output of a tile with its supplies carries 0 mA, or what its active code says (R34). -/
theorem drive_of_current {s : State} {a : Nat} (powered : (s.tl (aoTile a)).powered = true) (free : s.on F.TST_OS_STAT_BUSY (aoTile a) = false)
    (mode : s.ga F.AO_CFG_MODE a = 2) (en : s.ona F.AO_CFG_EN a = true) :
    s.drive a = if s.on F.DPC_STAT_PG 4 then .amp (if s.ga F.AO_CFG_RANGE a = 1 then 10 * s.ga F.AO_ACT_CODE a else s.ga F.AO_ACT_CODE a) else .amp 0 := by
  cases good : s.on F.DPC_STAT_PG 4 <;> simp [State.drive, State.driveOf, powered, free, mode, en, good]

/-- Settles O3: each clause is one branch of the command's function. -/
theorem aoWrites : Obligations.AoWrites := by
  refine ⟨fun s a v run quiet unowned => ⟨fun mode => ?_, fun mode => ?_⟩,
    fun s a code h owned maint good tile part meas first => ?_,
    fun s a code h refused => ?_,
    fun s a run faulted => clocked_settle run (releaseFault_of_faulted faulted),
    fun s a h => ⟨fun sup => clocked_eq h (if_pos sup) rfl, fun sup => clocked_eq h (if_neg (by rw [sup]; exact Bool.false_ne_true)) rfl⟩,
    fun s o rest h next => ⟨fun drop => ?_, fun gen owned good tile part holder room => ?_⟩,
    fun s a powered free mode en => ⟨fun pg => ?_, fun pg => ?_⟩⟩
  · exact clocked_eq ⟨run, quiet⟩ (aoCfgWrite_of_reserved unowned mode) rfl
  · exact clocked_settle run (aoCfgWrite_of_unowned unowned mode)
  · have taken : s.takesDirect a = true := by simp [State.takesDirect, owned, maint, good, tile, part, meas]
    have write := aoDirWrite_of_taken (code := code.toNat) taken (actBlocked_of_first first 4)
    refine ⟨fun room => clocked_eq h ?_ rfl, fun cap => clocked_eq h ?_ rfl⟩
    · rw [write, room]
      exact actWrite_of_first first (by decide)
    · rw [write, cap]
      rfl
  · refine clocked_eq h (aoDirWrite_of_refused ?_) rfl
    rcases refused with e | ⟨e3, e4⟩ | e | e | e | blocked
    · simp [State.takesDirect, e]
    · simp [State.takesDirect, e3, e4]
    · simp [State.takesDirect, e]
    · simp [State.takesDirect, e]
    · simp [State.takesDirect, e]
    · exact .inr blocked
  · have dropped : s.takesLoop o = false := by rcases drop with e | e <;> simp [State.takesLoop, e]
    exact clocked_eq h (by rw [loopArrive_of_next next, dropped]; rfl) rfl
  · have taken : s.takesLoop o = true := by simp [State.takesLoop, gen, owned, good, tile, part, holder, room]
    exact clocked_eq h (by rw [loopArrive_of_next next, taken]; rfl) (actWrite_flt ..)
  · rw [drive_of_current powered free mode en, pg]
    rfl
  · rw [drive_of_current powered free mode en, pg]
    rfl

end Sys2Proof.Machine
end

section
/-! PROOF. Commits: arming, replies, the cancel deadline, cancellation, the strobe, reports and the close. -/

namespace Sys2Proof.Machine

/-! ### Arm messages (R145, R147, R276) -/

section Arming

variable {s : State} {p t : Nat} {c : Commit} (found : s.findCommit p (fun c => c.toArm.contains t) = some c)
include found

/-- An arm message for a dead tile only ends. -/
theorem armMessage_of_dead (dead : s.live t = false) : armMessage p t s = s.updCommit c { c with toArm := c.toArm.erase t } := by
  rw [armMessage, found]
  exact if_pos (by rw [dead]; rfl)

variable (live : s.live t = true)
include live

/-- A live tile that cannot hold the instant answers MISS. -/
theorem armMessage_of_miss (late : s.on F.TL_TSTAT_VALID t = false ∨ s.passedIn t (c.at - 100000) = true) :
    armMessage p t s = ((s.put F.AO_CMT_STAT_MISS 1 t).updCommit c { c with toArm := c.toArm.erase t, toReply := Map.ins c.toReply t 2 }).raise 27 (p + 65536 *
      ((List.range 16).filter (fun u => u = t || Map.find c.toReply u = some 2 || Map.find c.replies u = some 2)).foldl (fun v u => orBit v u) 0) := by
  rw [armMessage, found]
  exact (if_neg (by rw [live]; exact Bool.false_ne_true)).trans (if_pos (by simpa using late))

variable (valid : s.on F.TL_TSTAT_VALID t = true) (early : s.passedIn t (c.at - 100000) = false) (unslotted : c.slot = none)
include valid early unslotted

theorem armMessage_of_nogo (form : s.formSubs t c.mask = none) : armMessage p t s =
    (s.put F.AO_CMT_STAT_NOGO 1 t).updCommit c { c with toArm := c.toArm.erase t, toReply := Map.ins c.toReply t 1 } := by
  rw [armMessage, found]
  refine (if_neg (by rw [live]; exact Bool.false_ne_true)).trans ((if_neg (by simp [valid, early])).trans ?_)
  rw [unslotted, form]
  rfl

/-- In time and within its budget, the tile holds the arm and answers GO. -/
theorem armMessage_of_go {subs : Option (List (List Nat))} (form : s.formSubs t c.mask = some subs) : armMessage p t s =
    ({ s with rtu.arms := s.rtu.arms ++ [{ lead := p, tile := t, mask := c.mask, tc := c.tc, subs := subs, adj := c.adj }] } : State).updCommit c
      { c with toArm := c.toArm.erase t, toReply := Map.ins c.toReply t 0 } := by
  rw [armMessage, found]
  refine (if_neg (by rw [live]; exact Bool.false_ne_true)).trans ((if_neg (by simp [valid, early])).trans ?_)
  rw [unslotted, form]
  rfl

end Arming

/-! ### Replies, the cancel deadline and CANCEL (R144, R362) -/

section Deciding

variable {s : State} {p t : Nat} {c : Commit}

/-- A reply is entered; a GO brings the tile's current and I V products after the commit. -/
theorem armReply_of_found {loads : List (Chan × BitVec 16)} {pw : Nat} (found : s.findCommit p (fun c => (Map.find c.toReply t).isSome) = some c) :
    armReply p t loads pw s = s.updCommit c (if Map.look c.toReply t 0 = 0 then
        { c with toReply := Map.del c.toReply t, replies := Map.ins c.replies t (Map.look c.toReply t 0),
                 sumI := c.sumI + s.currentAfter t c.mask,
                 sumIV := c.sumIV + s.powerAfter c.mask (loads.map (fun e => (t * 1280 + e.1.val, e.2.toNat))) pw }
      else { c with toReply := Map.del c.toReply t, replies := Map.ins c.replies t (Map.look c.toReply t 0) }) := by
  rw [armReply, found]

/-- The tiles that answered NOGO. -/
def Commit.refusing (c : Commit) : List Nat := (List.range 16).filter (fun t => Map.find c.replies t = some 1)

/-- At the deadline a NOGO cancels the commit, exceeded caps do, and else it stands. -/
theorem cancelDeadline_of_found
    (found : s.findCommit p (fun c => !c.decided && !c.cancelled && !c.fired && c.slot.isNone && s.reached (c.at - 200000)) = some c) :
    cancelDeadline p s = if !c.refusing.isEmpty then (s.cancelCommit c 6).raise 29 (p + 65536 * c.refusing.foldl (fun v u => orBit v u) 0)
      else if s.overCaps c.sumI c.sumIV then ((s.cancelCommit c 6).put F.PWR_STAT_CAP_NOGO 1).raise 29 p
      else s.updCommit c { c with decided := true } := by
  rw [cancelDeadline, found]
  rfl

/-- CANCEL in time drops the arm; the commit goes on until the last tile has been told. -/
theorem cancelMessage_of_held (found : s.findCommit p (fun c => c.toCancel.contains t && !c.toArm.contains t) = some c) (live : s.live t = true)
    (held : s.rtu.arms.any (fun m => m.lead = p && m.tile = t && m.tc = c.tc) = true) (early : s.passedIn t (c.at - 20000) = false)
    (more : c.toCancel.erase t ≠ []) :
    cancelMessage p t s = (({ s with rtu.arms := s.rtu.arms.filter (fun m => !(m.lead = p && m.tile = t && m.tc = c.tc)) } : State).put
      F.AO_CMT_STAT_CANCELLED 1 t).updCommit c { c with toCancel := c.toCancel.erase t } := by
  rw [cancelMessage, found]
  dsimp only
  rw [live, held, early]
  exact if_neg (by simpa using more)

end Deciding

/-! ### Reports and the close (R148) -/

/-- A report takes its arm, and the commit learns which channels the tile moved. -/
theorem commitReport_of_held {s u : State} {p t : Nat} {m : ArmSt} {c : Commit} (held : s.rtu.arms.find? (fun m => m.lead = p && m.tile = t && m.count ≤ m.next) = some m)
    (taken : u = { s with rtu.arms := s.rtu.arms.erase m }) (found : u.findCommit p (fun c => c.tc = m.tc && c.fired) = some c) :
    commitReport p t s = u.updCommit c { c with done := c.done ++ m.done, missed := c.missed ++ m.missed, reported := c.reported ++ [t] } := by
  subst taken
  rw [commitReport, held]
  dsimp only
  rw [found]

/-- The close of a commit that has no strobe left. -/
theorem commitClose_of_strobed {s : State} {p : Nat} {c : Commit} (found : s.findCommit p (fun c => c.fired) = some c)
    (strobed : s.rtu.arms.any (fun m => m.lead = p && m.tc = c.tc && s.live m.tile && m.next < m.count) = false) :
    commitClose p s = ({ s with rtu.commits := s.rtu.commits.erase c, rtu.arms := s.rtu.arms.filter (fun m => !(m.lead = p && m.tc = c.tc)) } : State).each
      (bitList c.mask 16) (fun s q => s.closePart c q) := by
  rw [commitClose, found]
  exact if_neg (ne_true_of_eq_false strobed)

/-- Settles O10: each clause is one branch of the command's function. -/
theorem commits : Obligations.Commits := by
  refine ⟨fun s p t c c' h found hc => ?arm, fun s p t loads pw c c' h found hc => ?reply, fun s p c nogo run found hn => ?deadline,
    fun s p t c h found live held early more => clocked_eq h (cancelMessage_of_held found live held early more) rfl,
    fun s p run => clocked_settle run rfl, fun s p t m c u h live held taken found => ?report,
    fun s p c run found strobed => clocked_settle run (congrArg (State.rotStopped · p) (commitClose_of_strobed found strobed))⟩
  case arm =>
    subst hc
    exact ⟨fun dead => clocked_eq h (armMessage_of_dead found dead) rfl,
      fun live late => clocked_settle h.1 (armMessage_of_miss found live late),
      fun live valid early unslotted form => clocked_eq h (armMessage_of_nogo found live valid early unslotted form) rfl,
      fun subs live valid early unslotted form => clocked_eq h (armMessage_of_go found live valid early unslotted form) rfl⟩
  case reply =>
    subst hc
    have run := armReply_of_found (loads := loads) (pw := pw) found
    exact ⟨fun no => clocked_eq h (run.trans (by rw [if_neg no])) rfl, fun go => clocked_eq h (run.trans (by rw [if_pos go])) rfl⟩
  case deadline =>
    obtain rfl : nogo = c.refusing := hn
    have outcome := cancelDeadline_of_found found
    exact ⟨fun refused => clocked_settle run (outcome.trans (if_pos (by simpa using refused))),
      fun willing capped => clocked_settle run (outcome.trans (by rw [willing, capped]; rfl)),
      fun willing within => clocked_settle run (outcome.trans (by rw [willing, within]; rfl))⟩
  case report =>
    subst taken
    exact clocked_eq h ((if_pos live).trans (commitReport_of_held held rfl found)) rfl

end Sys2Proof.Machine
end

section
/-! PROOF. The management commands: how a slot's command is carried out or refused, what each does, how it ends, and the boot steps. -/

namespace Sys2Proof.Machine

/-! ### How a command is carried out (R367, R368) -/

/-- A command of a code waits in a slot that is served, and has not been carried out. -/
structure State.Waits (s : State) (slot code : Nat) : Prop where
  busy : s.on F.GLB_MCMD_CTL_BUSY slot = true
  code : s.arg slot 0 % 256 = code
  fresh : Map.find s.pwr.mcmd slot = none
  served : s.serving = true

section CarryOut

variable {s : State} {slot code tile : Nat} {f : State → State}

theorem carryOut_of_waits (w : s.Waits slot code) : s.carryOut slot code tile f =
    if !accepts code s.mode then s.record slot code tile 4 (s.idleData code)
    else if s.conflicts slot code tile then s.record slot code tile 3 (s.idleData code) else f s := by
  obtain ⟨busy, code, fresh, served⟩ := w
  exact if_neg (by simp [busy, code, fresh, served])

/-- A command that waits answers MODE, or CONFLICT, or does what it is for. -/
theorem clocked_carryOut {g : State → State} (h : s.Ready) (w : s.Waits slot code) (e : g s = s.carryOut slot code tile f) :
    (accepts code s.mode = false → clocked s g = .next (s.record slot code tile 4 (s.idleData code))) ∧
    (accepts code s.mode = true → s.conflicts slot code tile = true → clocked s g = .next (s.record slot code tile 3 (s.idleData code))) ∧
    (accepts code s.mode = true → s.conflicts slot code tile = false → clocked s g = .next (f s).settle) := by
  rw [carryOut_of_waits w] at e
  refine ⟨fun mode => clocked_eq h ?_ rfl, fun mode clash => clocked_eq h ?_ rfl, fun mode clash => clocked_settle h.1 ?_⟩
  · rw [e, mode]
    rfl
  · rw [e, mode, clash]
    rfl
  · rw [e, mode, clash]
    rfl

end CarryOut

/-- An answer whose state is known under another name. -/
theorem next_settle_eq {o : Out} {t u : State} (run : o = .next t.settle) (e : t = u) : o = .next u.settle := by rw [run, e]

/-- A range of entries that a tile has passes the check of CARAFE_WRITE. -/
theorem carafe_range_fits {n first : Nat} (n0 : n ≠ 0) (few : n ≤ 1280) (within : first + n ≤ 1280) : ¬ (n = 0 || 1280 < n || 1280 < first + n) = true := by
  simp only [Bool.or_eq_true, decide_eq_true_eq]
  omega

/-! ### The end of a command (R367, R368) -/

section Complete

variable {s : State} {slot : Nat} {r : McmdRun}

/-- A code that is not known is answered; a known one waits until it is carried out. -/
theorem mcmdComplete_of_fresh (fresh : Map.find s.pwr.mcmd slot = none) :
    mcmdComplete slot s = if s.on F.GLB_MCMD_CTL_BUSY slot && !knownCmd (s.arg slot 0 % 256) && s.serving then s.postResult slot 5 0 else s := by
  rw [mcmdComplete, fresh]

section Found

variable (found : Map.find s.pwr.mcmd slot = some r)
include found

theorem mcmdComplete_of_found :
    mcmdComplete slot s = if r.code = 2 && r.result = 0 && s.tilesResuming then s
      else
        let s := if r.code = 2 && r.result = 0 && s.mode = 1 then s.put F.GLB_MODE_MODE 3 else s
        let s := s.when (r.code = 0x10) (fun s => s.put F.CAR_STAT_BUSY 0 r.tile)
        let s := s.postResult slot r.result r.data
        if r.code = 4 && r.result = 0 then s.powerDown else s := by
  rw [mcmdComplete, found]

theorem mcmdComplete_of_resuming (resume : r.code = 2) (good : r.result = 0) (still : s.tilesResuming = true) : mcmdComplete slot s = s := by
  rw [mcmdComplete_of_found found, if_pos (by simp [resume, good, still])]

theorem mcmdComplete_of_resumed (resume : r.code = 2) (good : r.result = 0) (ended : s.tilesResuming = false) (parked : s.mode = 1) :
    mcmdComplete slot s = (s.put F.GLB_MODE_MODE 3).postResult slot r.result r.data := by
  rw [mcmdComplete_of_found found]
  simp [resume, good, ended, parked, State.when]

theorem mcmdComplete_of_shutdown (shutdown : r.code = 4) (good : r.result = 0) : mcmdComplete slot s = (s.postResult slot r.result r.data).powerDown := by
  rw [mcmdComplete_of_found found]
  simp [shutdown, good, State.when]

theorem mcmdComplete_of_carafe (carafe : r.code = 16) : mcmdComplete slot s = (s.put F.CAR_STAT_BUSY 0 r.tile).postResult slot r.result r.data := by
  rw [mcmdComplete_of_found found]
  simp [carafe, State.when]

theorem mcmdComplete_of_plain (n2 : r.code ≠ 2) (n4 : r.code ≠ 4) (n16 : r.code ≠ 16) : mcmdComplete slot s = s.postResult slot r.result r.data := by
  rw [mcmdComplete_of_found found]
  simp [n2, n4, n16, State.when]

end Found

end Complete

/-! ### The answer to an NMI (R338, R369) -/

theorem nmiResponse_of_idle {s : State} (idle : s.flt.nmi = [] ∨ s.serving = false) : nmiResponse s = s := by
  unfold nmiResponse
  split
  · rfl
  · next pending =>
    have unserved : s.serving = false := idle.resolve_left (by simp [pending])
    rw [unserved]
    rfl

/-- Service Firmware logs the oldest NMI, and goes to SAFE for a critical one. -/
theorem nmiResponse_of_next {s u : State} {e : Nat × Nat × RWord} {l : List (Nat × Nat × RWord)} (next : s.flt.nmi = e :: l) (served : s.serving = true)
    (logged : u = ({ s with flt.nmi := l } : State).logAppend e) :
    nmiResponse s = if (e.1 = 33 || (e.1 = 24 && bitsOf e.2.1 0 4 = 3)) && accepts 3 u.mode then u.enterSafe else u := by
  subst logged
  unfold nmiResponse
  rw [next]
  exact if_neg (by rw [served]; exact Bool.false_ne_true)

/-- Settles O36: each command is carried out or refused as every other, and what it does then is one branch of its function. -/
theorem managementCommands : Obligations.ManagementCommands := by
  refine ⟨fun s slot h busy code fresh served => clocked_carryOut h ⟨busy, code, fresh, served⟩ (g := parkCmd slot) rfl,
    fun s slot h busy code fresh served => clocked_carryOut h ⟨busy, code, fresh, served⟩ (g := resumeCmd slot) rfl,
    fun s slot h busy code fresh served => clocked_carryOut h ⟨busy, code, fresh, served⟩ (g := safeCmd slot) rfl,
    fun s slot h busy code fresh served => clocked_carryOut h ⟨busy, code, fresh, served⟩ (g := shutdownCmd slot) rfl,
    fun s slot h busy code fresh served => ?test, fun s slot data r bad h busy code fresh served => ?carafe,
    fun s slot h busy code fresh served => ?patch, fun s slot h busy code fresh served => ?log, fun s slot h busy code fresh served => ?flashRead,
    fun s slot data got h busy code fresh served => ?flashWrite, fun s slot h => ?complete, fun s h => ?nmi, fun s ok h => ?boot⟩
  case test =>
    obtain ⟨mode, clash, run⟩ := clocked_carryOut h ⟨busy, code, fresh, served⟩ (g := testEnterCmd slot) rfl
    exact ⟨mode, clash, fun a c idle => next_settle_eq (run a c) (if_pos idle), fun a c held => next_settle_eq (run a c) (if_neg (ne_true_of_eq_false held))⟩
  case carafe =>
    obtain ⟨mode, clash, run⟩ := clocked_carryOut h ⟨busy, code, fresh, served⟩ (tile := bitsOf (s.arg slot 1) 0 4)
      (g := carafeWrite slot data r.toNat (bad.map (fun k => k.val))) (by dsimp only [carafeWrite])
    refine ⟨mode, clash, fun a c range => next_settle_eq (run a c) (if_pos (by simpa [or_assoc] using range)),
      fun a c n0 few within unread => next_settle_eq (run a c) ((if_neg (carafe_range_fits n0 few within)).trans (if_pos (by simpa using unread))),
      fun a c n0 few within read host good down => next_settle_eq (run a c) ?_,
      fun u a c n0 few within read host good up written => next_settle_eq (run a c) ?_⟩
    all_goals
      refine (if_neg (carafe_range_fits n0 few within)).trans ((if_neg (by simp [read, host])).trans ((if_neg (ne_true_of_eq_false good)).trans ?_))
    · exact if_pos (by rw [down]; rfl)
    · rw [up, written]
      rfl
  case patch =>
    obtain ⟨mode, clash, run⟩ := clocked_carryOut h ⟨busy, code, fresh, served⟩ (g := patchArbCommit slot) rfl
    exact ⟨mode, clash, fun a c may => next_settle_eq (run a c) (if_pos may), fun a c no => next_settle_eq (run a c) (if_neg (ne_true_of_eq_false no))⟩
  case log =>
    obtain ⟨mode, clash, run⟩ := clocked_carryOut h ⟨busy, code, fresh, served⟩ (g := logRead slot) rfl
    exact ⟨mode, clash, fun a c empty => next_settle_eq (run a c) (if_pos empty), fun a c entries => next_settle_eq (run a c) (if_neg entries)⟩
  case flashRead =>
    obtain ⟨mode, clash, run⟩ := clocked_carryOut h ⟨busy, code, fresh, served⟩ (g := flashRead slot) rfl
    exact ⟨mode, clash, fun a c outside => next_settle_eq (run a c) (by rw [outside]), fun o n addr a c args => next_settle_eq (run a c) (by rw [args])⟩
  case flashWrite =>
    obtain ⟨mode, clash, run⟩ := clocked_carryOut h ⟨busy, code, fresh, served⟩ (g := flashWrite slot data got) rfl
    refine ⟨mode, clash, fun a c outside => next_settle_eq (run a c) (by rw [outside]), fun o n addr a c args read back host => next_settle_eq (run a c) ?_⟩
    rw [args]
    exact if_neg (by simp [read, back, host])
  case complete =>
    rw [exec_mcmdComplete, execMcmdComplete]
    refine ⟨fun fresh idle => clocked_eq h ((mcmdComplete_of_fresh fresh).trans (if_neg ?_)) rfl,
      fun fresh busy unknown served => clocked_settle h.1 ((mcmdComplete_of_fresh fresh).trans (if_pos (by simp [busy, unknown, served]))),
      fun r found resume good still => clocked_eq h (mcmdComplete_of_resuming found resume good still) rfl,
      fun r found resume good ended parked => clocked_settle h.1 (mcmdComplete_of_resumed found resume good ended parked),
      fun r found shutdown good => clocked_settle h.1 (mcmdComplete_of_shutdown found shutdown good),
      fun r found carafe => clocked_settle h.1 (mcmdComplete_of_carafe found carafe),
      fun r found n2 n4 n16 => clocked_settle h.1 (mcmdComplete_of_plain found n2 n4 n16)⟩
    rcases idle with e | e | e <;> simp [e]
  case nmi =>
    rw [exec_nmiResponse, execNmiResponse]
    refine ⟨fun idle => clocked_eq h (nmiResponse_of_idle idle) rfl,
      fun e l u next served logged => ⟨fun crit may => clocked_settle h.1 ?_, fun n33 n24 => clocked_settle h.1 ?_⟩⟩
    · rw [nmiResponse_of_next next served logged, if_pos (by simp [crit, may])]
    · rw [nmiResponse_of_next next served logged, if_neg (by simp [n33, n24])]
  case boot =>
    have run : exec (.bootStepDone ok) s = .next (bootStepDone ok s).settle := clocked_settle h rfl
    refine ⟨fun other => next_settle_eq run (if_pos (by simpa using other)), fun boot k good => ?_, fun boot k bad => ?_, fun boot k good => ?_, fun boot k bad => ?_,
      fun boot k => ?_, fun boot k => ?_, fun boot k => ?_, fun boot k => ?_, fun boot k => ?_⟩
    all_goals
      refine next_settle_eq run ?_
      unfold bootStepDone
      rw [boot, k]
    · rw [good]
      rfl
    · rw [bad]
      rfl
    · exact if_pos good
    · exact if_neg (ne_true_of_eq_false bad)
    all_goals rfl

end Sys2Proof.Machine
end

section
/-! PROOF. Monitor inputs and their converters: configuration, bias, the edges of the CONV clock, the scan and focus. -/

namespace Sys2Proof.Machine

/-- A choice between two states that hold the faults of a third holds them too. -/
theorem ite_flt {p : Prop} [Decidable p] {s t u : State} (ht : t.flt = s.flt) (hu : u.flt = s.flt) : (if p then t else u).flt = s.flt := by
  split
  · exact ht
  · exact hu

@[simp] theorem updMi_flt (s : State) (m : Nat) (f : MiSt → MiSt) : (s.updMi m f).flt = s.flt := rfl

@[simp] theorem md_updMd_same (s : State) (t d : Nat) (f : MadcSt → MadcSt) : (s.updMd t d f).md t d = f (s.md t d) :=
  Map.look_ins_same ..

/-- Two updates of a converter that agree on what it holds are one. -/
theorem updMd_congr {s : State} {t d : Nat} {f g : MadcSt → MadcSt} (e : f (s.md t d) = g (s.md t d)) : s.updMd t d f = s.updMd t d g := by
  unfold State.updMd Map.upd
  rw [show f (Map.look s.mon.madcs (8 * t + d) {}) = g (Map.look s.mon.madcs (8 * t + d) {}) from e]

/-- Software writes of the fields of a word, one after the other, reach no further than one of them does. -/
theorem each_sput_keep {β : Type} (g : State → β) (k : ∀ u f x i j, g (State.sput u f x i j) = g u) (s : State) (l : List Fld) (v i j : Nat) :
    g (s.each l (fun s f => s.sput f (bitsOf v f.lo f.wd) i j)) = g s :=
  each_keep g _ (fun u f => k u f _ i j) s l

@[simp] theorem each_sput_flt (s : State) (l : List Fld) (v i j : Nat) : (s.each l (fun s f => s.sput f (bitsOf v f.lo f.wd) i j)).flt = s.flt :=
  each_sput_keep State.flt sput_flt s l v i j

@[simp] theorem each_sput_md (s : State) (l : List Fld) (v i j t d : Nat) : (s.each l (fun s f => s.sput f (bitsOf v f.lo f.wd) i j)).md t d = s.md t d :=
  each_sput_keep (State.md · t d) (fun _ _ _ _ _ => rfl) s l v i j

/-! ### Configuration and bias (R64 to R68, R405) -/

/-- What is done where a value changes. -/
theorem when_ne (s : State) (x y : Nat) (f : State → State) : s.when (x != y) f = if x = y then s else f s := by
  unfold State.when
  by_cases same : x = y
  · rw [if_neg (by simp [same]), if_pos same]
  · rw [if_pos (by simp [same]), if_neg same]

/-- The fields of MI_CFG that a write sets as they are, RANGE apart. -/
def miCfgFields : List Fld := [F.MI_CFG_AUTO, F.MI_CFG_HOLD, F.MI_CFG_SQSEL, F.MI_CFG_SQEN, F.MI_CFG_DECIM, F.MI_CFG_PART, F.MI_CFG_OWNED]

/-- A write that leaves an input with its owner is never refused, and no context is looked at again. -/
theorem miCfgWrite_of_same_owner {s : State} {m v : Nat} (owned : s.gm F.MI_CFG_OWNED m = bitsOf v F.MI_CFG_OWNED.lo F.MI_CFG_OWNED.wd)
    (part : s.gm F.MI_CFG_PART m = bitsOf v F.MI_CFG_PART.lo F.MI_CFG_PART.wd) :
    miCfgWrite m v s = ((if s.gm F.MI_CFG_RANGE m = bitsOf v F.MI_CFG_RANGE.lo F.MI_CFG_RANGE.wd then s
        else s.setRange m (bitsOf v F.MI_CFG_RANGE.lo F.MI_CFG_RANGE.wd)).updMi m (fun x => { x with
          wrote := some s.cycle
          low := if bitsOf v F.MI_CFG_AUTO.lo F.MI_CFG_AUTO.wd = 0 ∨ (s.gm F.MI_CFG_HOLD m = 1 ∧ bitsOf v F.MI_CFG_HOLD.lo F.MI_CFG_HOLD.wd = 0) then 0 else x.low })).each
      miCfgFields (fun s f => s.sput f (bitsOf v f.lo f.wd) (miTile m) (miPos m)) := by
  have same : (s.gm F.MI_CFG_OWNED m != bitsOf v F.MI_CFG_OWNED.lo F.MI_CFG_OWNED.wd || s.gm F.MI_CFG_PART m != bitsOf v F.MI_CFG_PART.lo F.MI_CFG_PART.wd) = false := by
    simp [owned, part]
  have clock : (s.when (s.gm F.MI_CFG_RANGE m != bitsOf v F.MI_CFG_RANGE.lo F.MI_CFG_RANGE.wd) (fun s => s.setRange m (bitsOf v F.MI_CFG_RANGE.lo F.MI_CFG_RANGE.wd))).cycle = s.cycle :=
    when_keep State.cycle (·.setRange m _) (fun _ => rfl) s _
  unfold miCfgWrite
  dsimp only
  rw [same, if_neg (by simp), clock, when_ne]
  simp only [Bool.or_eq_true, Bool.and_eq_true, decide_eq_true_eq]
  rfl

theorem miBiasWrite_eq {s : State} {t code : Nat} : miBiasWrite t code s =
    if (s.sput F.MI_BIAS_CODE code t).on F.TST_OS_STAT_BUSY t then s.sput F.MI_BIAS_CODE code t else (s.sput F.MI_BIAS_CODE code t).biasTo t code := rfl

/-! ### Passes of the table (R70, R71) -/

section Scan

variable {s : State} {t d : Nat}

theorem passOver_iff : s.passOver t d = true ↔ (s.md t d).pass = true ∧ (s.md t d).len < (s.md t d).pos ∧ (s.md t d).walked + 4 ≤ s.cycle := by
  simp [State.passOver, and_assoc]

/-- No pass ends where none runs, where one has an entry still to walk, or within the clock of its last entry. -/
theorem passOver_eq_false (going : (s.md t d).pass = false ∨ (s.md t d).pos ≤ (s.md t d).len ∨ s.cycle < (s.md t d).walked + 4) :
    s.passOver t d = false := by
  refine Bool.eq_false_iff.2 fun ended => ?_
  obtain ⟨pass, walked, past⟩ := passOver_iff.1 ended
  rcases going with idle | walking | last
  · exact Bool.false_ne_true (idle.symm.trans pass)
  · omega
  · omega

/-- Nothing ends where no pass is over. -/
theorem scanPassEnd_of_not_over (h : s.passOver t d = false) : scanPassEnd t d s = s := if_neg (ne_true_of_eq_false h)

/-- A pass that ends with its mode unchanged is followed by the next in FREE alone. -/
theorem scanPassEnd_of_same_mode (ended : s.passOver t d = true) (mode : (s.md t d).mode = s.g F.MI_SCAN_CTL_MODE t d) :
    scanPassEnd t d s = if (s.md t d).mode = 0 then s.startPass t d else s.updMd t d (fun y => { y with pass := false }) := by
  refine (if_pos ended).trans ?_
  rw [← mode]
  by_cases free : (s.md t d).mode = 0
  · rw [if_neg (by simp [free]), if_pos (by simp [free]), if_pos free]
  · rw [if_pos (by simp [free]), if_neg free]

/-- FREE taken up with no entry in focus. -/
theorem takeMode_of_free (free : s.g F.MI_SCAN_CTL_MODE t d = 0) (empty : (s.md t d).active = []) :
    s.takeMode t d = (s.updMd t d (fun x => { x with mode := 0, pass := false, delay := none, slot := 0 })).startPass t d := by
  unfold State.takeMode
  dsimp only
  rw [free, if_pos rfl]
  refine congrArg (·.startPass t d) (updMd_congr ?_)
  simp [empty]

/-- A write of MI_SCAN_CTL sets its fields, and a changed MODE takes effect where no pass runs. -/
theorem scanCtlWrite_eq {u : State} {v : Nat} (hu : u = s.each [F.MI_SCAN_CTL_MODE, F.MI_SCAN_CTL_TPART, F.MI_SCAN_CTL_LEN, F.MI_SCAN_CTL_DELAY]
      (fun s f => s.sput f (bitsOf v f.lo f.wd) t d)) :
    scanCtlWrite t d v s = if (s.md t d).pass = true ∨ s.g F.MI_SCAN_CTL_MODE t d = u.g F.MI_SCAN_CTL_MODE t d then u else u.takeMode t d := by
  subst hu
  unfold scanCtlWrite
  dsimp only
  rw [each_sput_md]
  simp only [Bool.or_eq_true, decide_eq_true_eq]

/-- A tick that is due moves the timer on, and starts a pass or is missed by the one that runs. -/
theorem scanTimerTick_of_due (mode : (s.md t d).mode = 1) (due : (s.md t d).timer ≤ s.cycle) (runs : s.madcRuns = true) (unended : s.passOver t d = false) :
    scanTimerTick t d s = (let u := s.updMd t d (fun y => { y with timer := y.timer + s.timerPeriod t d })
      if (s.md t d).pass then u.sat F.MI_SCAN_STAT_TRIG_MISS t d else u.startPass t d) := by
  unfold scanTimerTick
  dsimp only
  rw [if_neg (by simp [mode, runs, due]), scanPassEnd_of_not_over unended, md_updMd_same]

theorem scanTimerTick_of_other_mode (other : (s.md t d).mode ≠ 1) : scanTimerTick t d s = s := if_pos (by simp [other])

theorem scanDelayExpiry_of_due {due : Nat} (delay : (s.md t d).delay = some due) (past : due ≤ s.cycle) :
    scanDelayExpiry t d s = (s.updMd t d (fun x => { x with delay := none })).startPass t d := by
  rw [scanDelayExpiry, delay]
  exact if_pos past

theorem scanDelayExpiry_of_none (delay : (s.md t d).delay = none) : scanDelayExpiry t d s = s := by
  rw [scanDelayExpiry, delay]

/-- No pass starts by itself where one runs. -/
theorem freeRun_of_pass (pass : (s.md t d).pass = true) : s.freeRun t d = s := if_neg (by simp [pass])

/-! ### The end of focus (R75, R107) -/

theorem focusExpiry_of_none (kept : (s.md t d).active.filter (s.focusOver (s.md t d).mode) = []) :
    focusExpiry t d s = s.updMd t d (fun x => { x with active := x.active.filter (fun e => !s.focusOver x.mode e), gone := some (s.goneNow t d) }) := by
  unfold focusExpiry
  dsimp only
  rw [kept, List.flatMap_nil, List.append_nil]
  rfl

/-- The only entry of a list leaves it, and the focus slots that hung on it are given back. -/
theorem focusExpiry_of_single {e : FocEnt} (only : (s.md t d).active = [e]) (lapsed : s.focusOver (s.md t d).mode e = true) :
    focusExpiry t d s = ((s.updMd t d (fun x => { x with
      active := x.active.filter (fun e => !s.focusOver x.mode e)
      gone := some { s.goneNow t d with slots := (s.goneNow t d).slots ++ s.slotsOf (t * 1024 + e.j) } })).updMi (t * 1024 + e.j)
      (fun y => { y with low := 0 })).releaseSlots (t * 1024 + e.j) := by
  have expired : (s.md t d).active.filter (s.focusOver (s.md t d).mode) = [e] := by rw [only, List.filter_cons_of_pos lapsed, List.filter_nil]
  unfold focusExpiry
  dsimp only
  rw [expired, List.flatMap_singleton]
  rfl

/-! ### The CONV edge (R22, R69, R70) -/

/-- A table entry that is not IDLE starts a conversion of its input. -/
theorem background_of_walking (pass : (s.md t d).pass = true) (walking : (s.md t d).pos ≤ (s.md t d).len) :
    (s.background t d).2 = if s.on F.MI_SCAN_IDLE t (256 * d + (s.md t d).pos) then none
      else some ⟨8 * s.g F.MI_SCAN_I t (256 * d + (s.md t d).pos) + d, false, s.cycle, s.g F.MI_SCAN_STAT_SEQ t d⟩ := by
  unfold State.background
  dsimp only
  rw [if_neg (by simp [pass, walking])]
  rfl

/-- Without a trigger due and without focus, a converter in a pass starts what its table says. -/
theorem startConv_of_walking (empty : (s.md t d).active = []) (pass : (s.md t d).pass = true) (walking : (s.md t d).pos ≤ (s.md t d).len)
    (untimed : (s.md t d).mode ≠ 1) (undelayed : (s.md t d).delay = none) :
    (s.startConv t d).2 = if s.on F.MI_SCAN_IDLE t (256 * d + (s.md t d).pos) then none
      else some ⟨8 * s.g F.MI_SCAN_I t (256 * d + (s.md t d).pos) + d, false, s.cycle, s.g F.MI_SCAN_STAT_SEQ t d⟩ := by
  unfold State.startConv
  dsimp only
  rw [scanTimerTick_of_other_mode untimed, scanDelayExpiry_of_none undelayed, freeRun_of_pass pass,
    scanPassEnd_of_not_over (passOver_eq_false (.inr (.inl walking)))]
  unfold State.when
  split
  · rw [focusExpiry_of_none (by rw [empty, List.filter_nil]), if_pos (by simp [empty]),
      background_of_walking (by simpa using pass) (by simpa using walking), md_updMd_same]
    rfl
  · rw [if_pos (by simp [empty]), background_of_walking pass walking]

theorem madcSample_of_no_edge {code : Nat} {sat : Bool} (h : s.madcRuns = false ∨ s.cycle % 4 ≠ 0 ∨ (s.md t d).edge = some s.cycle) :
    madcSample t d code sat s = s :=
  if_pos (by simpa [or_assoc] using h)

section Edge

variable {u : State} {c : Option Flight} {code : Nat} {sat : Bool} (runs : s.madcRuns = true) (conv : s.cycle % 4 = 0)
  (new : (s.md t d).edge ≠ some s.cycle) (start : s.startConv t d = (u, c))
include runs conv new start

/-- With fewer than ten edges behind it, a converter has no result yet. -/
theorem madcSample_of_filling (room : (u.md t d).pipe.length < 10) :
    madcSample t d code sat s = u.updMd t d (fun x => { x with edge := some s.cycle, pipe := (u.md t d).pipe ++ [c] }) := by
  unfold madcSample
  dsimp only
  rw [if_neg (by simp [runs, conv, new]), start, List.length_append, List.length_singleton, if_pos (Nat.succ_le_of_lt room)]

/-- With ten edges behind it, the oldest conversion has its result, unless its edge started none. -/
theorem madcSample_of_full {f : Option Flight} {p : List (Option Flight)} (pipe : (u.md t d).pipe = f :: p) (nine : p.length = 9) :
    madcSample t d code sat s = f.elim (u.updMd t d (fun x => { x with edge := some s.cycle, pipe := p ++ [c] }))
      (fun x => (u.updMd t d (fun x => { x with edge := some s.cycle, pipe := p ++ [c] })).convert t x code sat) := by
  unfold madcSample
  dsimp only
  rw [if_neg (by simp [runs, conv, new]), start, pipe, if_neg (by simp [nine])]
  cases f <;> rfl

end Edge

end Scan

/-- Settles O5: each clause is one branch of the command's function. -/
theorem monitorInputs : Obligations.MonitorInputs := by
  refine ⟨fun s m v h owned part => clocked_eq h (miCfgWrite_of_same_owner owned part) ?cfg,
    fun s t code h => ⟨fun free => clocked_eq h (miBiasWrite_eq.trans (if_neg (ne_true_of_eq_false free))) rfl,
      fun test => clocked_eq h (miBiasWrite_eq.trans (if_pos test)) rfl⟩,
    fun s t i h reached => clocked_eq h (if_pos reached) rfl,
    fun s t run => ?overload,
    fun s t d code sat u c h runs conv new start => ⟨fun room => clocked_settle h.1 (madcSample_of_filling runs conv new start room), fun f p pipe nine => ?result⟩,
    fun s t d code sat h idle => clocked_eq h (madcSample_of_no_edge idle) rfl,
    fun s t d empty pass walking untimed undelayed => startConv_of_walking empty pass walking untimed undelayed,
    fun s t d v u h hu => ?scanCtl,
    fun s t d h mode due runs going => ?tick,
    fun s t d due h delay past => clocked_eq h (scanDelayExpiry_of_due delay past) rfl,
    fun s t d h pass mode => ⟨fun going => clocked_eq h (scanPassEnd_of_not_over (passOver_eq_false (.inr going))) rfl, fun walked past => ?ended⟩,
    fun s t d h kept => clocked_eq h (focusExpiry_of_none kept) rfl,
    fun s t d e h only lapsed => clocked_eq h (focusExpiry_of_single only lapsed) rfl⟩
  case cfg =>
    rw [each_sput_flt, updMi_flt]
    exact ite_flt rfl rfl
  case overload =>
    rw [exec_biasOverload]
    exact clocked_settle run rfl
  case result =>
    have run := madcSample_of_full (code := code.toNat) (sat := sat) runs conv new start pipe nine
    cases f with
    | none => exact clocked_settle h.1 run
    | some x => exact clocked_settle h.1 run
  case scanCtl =>
    have kept : u.flt = s.flt := by rw [hu, each_sput_flt]
    have entry : u.md t d = s.md t d := by rw [hu, each_sput_md]
    refine ⟨fun waits => clocked_eq h ((scanCtlWrite_eq hu).trans (if_pos waits)) kept, fun idle moved free empty => clocked_eq h ?_ kept⟩
    rw [scanCtlWrite_eq hu, if_neg (by simp [idle, moved]), takeMode_of_free free (by rw [entry, empty])]
  case tick =>
    have unended : s.passOver t d = false := passOver_eq_false (going.imp_right .inl)
    exact clocked_eq h (scanTimerTick_of_due mode due runs unended) (ite_flt rfl rfl)
  case ended => exact clocked_eq h (scanPassEnd_of_same_mode (passOver_iff.2 ⟨pass, walked, past⟩) mode) (ite_flt rfl rfl)

end Sys2Proof.Machine
end

section
/-! PROOF. Forwarded samples, token buckets and Sample Queues. -/

namespace Sys2Proof.Machine

/-! ### Forwarded samples and tokens (R72, R76, R345) -/

section Forwarding

variable {s : State} {t m : Nat} {x : Samp} {rest : List (Nat × Nat × Samp)} (next : s.mon.fwd = (t, m, x) :: rest)
include next

/-- A sample that one of its links no longer carries is lost without a mark. -/
theorem forwardArrive_of_cut (cut : (s.tl t).linkUp = false ∨ s.forwards (miTile m) = false) : forwardArrive s = { s with mon.fwd := rest } := by
  rw [forwardArrive, next]
  exact if_pos (show (!(s.tl t).linkUp || !s.forwards (miTile m)) = true by simpa using cut)

/-- A sample that its links carry needs an inbound token. -/
theorem forwardArrive_of_carried (up : (s.tl t).linkUp = true) (sent : s.forwards (miTile m) = true) :
    forwardArrive s = if (s.tok t).inb = 0 then { s with mon.fwd := rest }.put F.MI_TILE_STAT_FWD_DROP 1 t
      else ({ s with mon.fwd := rest }.updTok t (fun k => { k with inb := k.inb - 1 })).deliver t m x := by
  rw [forwardArrive, next]
  exact if_neg (show ¬ (!(s.tl t).linkUp || !s.forwards (miTile m)) = true by simp [up, sent])

end Forwarding

/-- The n-th token of a bucket is due 15.625 n ns after the start. -/
theorem tokenRefill_of_due {s : State} {t b n : Nat} (count : Map.look s.mon.refills (3 * t + b) 0 + 1 = n) (due : 125 * n ≤ 8 * s.cycle) :
    tokenRefill t b s = { s with mon.refills := Map.ins s.mon.refills (3 * t + b) n }.updTok t
      (fun k => if b = 0 then { k with out := min 16 (k.out + 1) } else if b = 1 then { k with inb := min 16 (k.inb + 1) } else { k with sq := min 16 (k.sq + 1) }) := by
  rw [tokenRefill, count]
  exact if_neg (Nat.not_lt.2 due)

/-! ### Sample Queues (R76 to R79) -/

section Queues

variable {s : State} {q w : Nat} {rest : List (Nat × Nat)} (next : s.mon.sq = (q, w) :: rest)
include next

theorem sqArrive_of_disabled (off : s.on F.MI_SQ_CTL_EN q = false) : sqArrive s = { s with mon.sq := rest } := by
  rw [sqArrive, next]
  exact if_pos (show (!s.on F.MI_SQ_CTL_EN q) = true by rw [off]; rfl)

variable (en : s.on F.MI_SQ_CTL_EN q = true)
include en

/-- A queue is full when its write index would reach RD as it stood at the start of the cycle. -/
theorem sqArrive_of_full (full : (s.g F.MI_SQ_WR_WR q + 1) % sqSize = s.sqRdStart q) :
    sqArrive s = ({ s with mon.sq := rest }.put F.MI_SQ_STAT_OVF 1 q).sat F.MI_SQ_DROP_CNT q := by
  rw [sqArrive, next]
  exact (if_neg (show ¬ (!s.on F.MI_SQ_CTL_EN q) = true by simp [en])).trans (if_pos full)

/-- With THRESH = 0 a copy is stored and no threshold event fires. -/
theorem sqArrive_of_room (room : (s.g F.MI_SQ_WR_WR q + 1) % sqSize ≠ s.sqRdStart q) (thresh : s.g F.MI_SQ_CTL_THRESH q = 0) :
    sqArrive s = ({ s with mon.sq := rest }.wrN (sqBase + q * 0x80000 + s.g F.MI_SQ_WR_WR q * 4) 4 w).put F.MI_SQ_WR_WR ((s.g F.MI_SQ_WR_WR q + 1) % sqSize) q := by
  have silent : ∀ before after : Bool, ¬ ((s.g F.MI_SQ_CTL_THRESH q != 0) && before && after) = true := by simp [thresh]
  rw [sqArrive, next]
  exact (if_neg (show ¬ (!s.on F.MI_SQ_CTL_EN q) = true by simp [en])).trans ((if_neg room).trans (if_neg (silent _ _)))

end Queues

/-- A read index within the size of a queue is accepted or refused as it is written. -/
theorem sqRdWrite_of_lt {s : State} {q v : Nat} (fit : v < sqSize) :
    sqRdWrite q v s = if s.sqFill q < (v + sqSize - s.g F.MI_SQ_RD_RD q) % sqSize then s.put F.MI_SQ_STAT_RD_ERR 1 q
      else { s with mon.rdOld := Map.ins s.mon.rdOld q (s.cycle, s.sqRdStart q) }.sput F.MI_SQ_RD_RD v q := by
  rw [sqRdWrite, Nat.mod_eq_of_lt fit]

/-- Settles O6: each clause is one branch of the command's function. -/
theorem sampleQueues : Obligations.SampleQueues := by
  refine ⟨fun s t m x rest h next => ⟨fun cut => clocked_eq h (forwardArrive_of_cut next cut) rfl, fun up sent => ?carried⟩,
    fun s t b h due => clocked_eq h (tokenRefill_of_due rfl due) rfl,
    fun s q w rest u h next hu => ?copy,
    fun s q v h => clocked_eq h (sqRdWrite_of_lt v.isLt) (ite_flt rfl rfl),
    fun s q h => clocked_eq h rfl rfl⟩
  case carried => exact clocked_eq h (forwardArrive_of_carried next up sent) (ite_flt rfl rfl)
  case copy =>
    subst hu
    exact ⟨fun off => clocked_eq h (sqArrive_of_disabled next off) rfl, fun en full => clocked_eq h (sqArrive_of_full next en full) rfl,
      fun en room thresh => clocked_eq h (sqArrive_of_room next en room thresh) rfl⟩

end Sys2Proof.Machine
end

section
/-! PROOF. Loop Engines: the updates of a context on samples, ticks and commits, and the writes and commands on contexts. -/

namespace Sys2Proof.Machine

/-! ### Updates on samples and ticks (R82, R83, R88, R340) -/

theorem guardUe_of_clean {s : State} {a : Nat} {f : State → State} (clean : s.ctxUe a = none) : s.guardUe a f = f s := by
  rw [State.guardUe, clean]

theorem guardUe_of_ue {s : State} {a : Nat} {f : State → State} {e : Nat × Nat} (ue : s.ctxUe a = some e) : s.guardUe a f = s.sramUe e.1 e.2 := by
  rw [State.guardUe, ue]

/-- Nothing keeps a context from updates that runs an inner law under a holder, with no commit update due. -/
theorem ctxStill_eq_false {s : State} {a : Nat} (held : s.noHolder (1 + aoTile a) = false) (law : s.cg 0 a C.LAW ≠ 0 ∧ s.cg 0 a C.LAW ≠ 3)
    (runs : s.ctxRunning a = true) (inner : s.isOuter a = false) (settled : (s.cs a).due = false) : s.ctxStill a = false := by
  simp [State.ctxStill, held, law, runs, inner, settled]

section Samples

variable {s u : State} {a : Nat} {x : Samp}

theorem loopUpdate_of_none (none' : s.nextSamp a = none) : loopUpdate a s = s := by
  rw [loopUpdate, none']

/-- The state in which a context has taken a sample, and asked for a focus slot where the sample entitles it to one (R107). -/
def State.taking (s : State) (a : Nat) (x : Samp) : State :=
  (s.updCs a (fun c => { c with lastSerial := x.serial, waiting := c.waiting.tail })).askSlot a x

/-- The first delivery after an exchange or a restart is not early. -/
theorem loopUpdate_of_first (next : s.nextSamp a = some x) (sampled : s.con 0 a C.TSRC = false) (free : s.ctxStill a = false)
    (first : ((s.taking a x).cs a).lastConv = none) :
    loopUpdate a s = (s.taking a x).guardUe a (fun s => s.update a x false) := by
  rw [State.taking] at first
  unfold loopUpdate
  simp only [next]
  rw [if_neg (by simp [sampled, free]), first]
  rfl

/-- A tick of the replica updates a context with TSRC from the last sample delivered. -/
theorem loopTick_of_now (ticked : s.con 0 a C.TSRC = true) (free : s.ctxStill a = false) (now : s.tickNow a = true)
    (last : s.lastSamp (aoTile a) (s.cg 0 a C.MI1) = some x) :
    loopTick a s = (s.updCs a (fun c => { c with tick := some s.cycle })).guardUe a (fun s => s.update a x true) := by
  have seen : (s.updCs a (fun c => { c with tick := some s.cycle })).lastSamp (aoTile a) ((s.updCs a (fun c => { c with tick := some s.cycle })).cg 0 a C.MI1) = some x := last
  unfold loopTick
  rw [if_neg (by simp [ticked, free, now])]
  dsimp only
  rw [seen]

end Samples

/-! ### Commit updates (R88) -/

section CommitUpdates

variable {s : State} {a : Nat}

theorem commitUpdate_of_settled (settled : (s.cs a).due = false) : commitUpdate a s = s := if_pos (by rw [settled]; rfl)

/-- The commit update of a channel with no other due below it. -/
theorem commitUpdate_of_only (due : (s.cs a).due = true)
    (only : (aosOfTile (aoTile a)).filter (fun (x : Nat) => decide (x ≤ a) && (s.cs x).due) = [a]) : commitUpdate a s = s.commitOne a := by
  unfold commitUpdate
  rw [if_neg (by simp [due]), only]
  rfl

/-- A context that does not run, or whose pair has no holder, drops its commit update and the samples that waited for it. -/
theorem commitOne_of_still (still : s.noHolder (1 + aoTile a) = true ∨ s.ctxRunning a = false) :
    s.commitOne a = s.updCs a (fun c => { c with due := false, waiting := [] }) :=
  if_pos (by simpa using still)

theorem commitOne_of_running (held : s.noHolder (1 + aoTile a) = false) (runs : s.ctxRunning a = true) :
    s.commitOne a = (s.updCs a (fun c => { c with due := false })).guardUe a (fun s =>
      (s.sendOut a (s.outCode a (s.ffp a + s.cgS 0 a C.I)).1 (s.innerOf a)).noteOut a (s.outCode a (s.ffp a + s.cgS 0 a C.I)).1 (s.cgS 0 a C.I)) :=
  if_neg (by simp [held, runs])

end CommitUpdates

/-! ### Writes and commands (R89, R90, R108, R112, R113) -/

section Commands

variable {s : State} {a : Nat}

theorem contextWrite_of_refused {bank off : Nat} {bs : List Byte} (owned : s.ona F.AO_CFG_OWNED a = true)
    (mode : s.pm (s.ga F.AO_CFG_PART a) = 1 ∨ s.pm (s.ga F.AO_CFG_PART a) = 2) :
    contextWrite bank a off bs s = s.put F.LE_STAT_WR_REFUSED 1 (aoTile a) :=
  if_pos (by simpa [owned] using mode)

theorem contextWrite_of_open {bank off : Nat} {bs : List Byte} (not_switch : s.pm (s.ga F.AO_CFG_PART a) ≠ 1) (not_rotor : s.pm (s.ga F.AO_CFG_PART a) ≠ 2) :
    contextWrite bank a off bs s = (s.ctxUnit bank a off bs srcHost false).1 :=
  if_neg (by simp [not_switch, not_rotor])

/-- RESTART is for a context in FAULT whose pair has a holder. -/
theorem leRestart_of_other (other : s.cg 0 a C.STATE ≠ 4 ∨ s.leNone a = true) : leRestart a s = s := if_pos (by simpa using other)

theorem leRestart_of_fault (fault : s.cg 0 a C.STATE = 4) (held : s.leNone a = false) :
    leRestart a s = if s.mayRestart a then
        ((((s.each [C.I, C.ACC, C.ACCN, C.MCNT, C.KICK0, C.LCNT, C.RCNT, C.UPDCNT] (fun s f => s.cp 0 a f 0)).cp 0 a C.STATE 1).updCs a
          (fun c => { c with lastConv := none, started := false, swept := false, fbprev := 0 })).ctxRefresh a)
      else (s.leErr a 0 srcReg 6).put F.LE_STAT_RESTART_REFUSED 1 (aoTile a) := by
  unfold leRestart
  rw [if_neg (by simp [fault, held])]
  cases s.mayRestart a <;> rfl

/-- A write of LE_FOCUS stands while both loads that it gives are within the budget. -/
theorem leFocusWrite_eq {u : State} {t slots fcost : Nat} (written : u = (s.sput F.LE_FOCUS_SLOTS slots t).sput F.LE_FOCUS_FCOST fcost t) :
    leFocusWrite t slots fcost s = if leBudget < u.load false t ∨ leBudget < u.load true t then
      (s.leErr (t * 1280) 0 srcReg 0).leOvercommit t (max (u.load false t) (u.load true t)) else u := by
  subst written
  unfold leFocusWrite
  simp only [Bool.or_eq_true, decide_eq_true_eq]

end Commands

/-- Settles O7: each clause is one branch of the command's function. -/
theorem loopEngines : Obligations.LoopEngines := by
  refine ⟨fun s a run sampled held law runs inner settled => ?sample,
    fun s a x u run last ticked held law runs inner settled now hu clean => ?tick,
    fun s a u h hu => ?commit,
    fun s bank a off bs h => ?write,
    fun s a h => ⟨fun other => clocked_eq h (leRestart_of_other other) rfl,
      fun fault held refused => clocked_settle h.1 ((leRestart_of_fault fault held).trans (if_neg (ne_true_of_eq_false refused))),
      fun fault held granted => clocked_settle h.1 ((leRestart_of_fault fault held).trans (if_pos granted))⟩,
    fun s a run => ⟨clocked_settle run rfl, clocked_settle run rfl⟩,
    fun s t slots fcost u h written => ?focus⟩
  case sample =>
    have free := ctxStill_eq_false held law runs inner settled
    refine ⟨fun none' quiet => clocked_eq ⟨run, quiet⟩ (loopUpdate_of_none none') rfl, fun x u next hu first clean => ?_, fun x u e next hu first ue => ?_⟩
    all_goals
      obtain rfl : u = s.taking a x := hu
      refine clocked_settle run ((loopUpdate_of_first next sampled free first).trans ?_)
    · exact guardUe_of_clean clean
    · exact guardUe_of_ue ue
  case tick =>
    subst hu
    have free := ctxStill_eq_false held law runs inner settled
    exact clocked_settle run ((loopTick_of_now ticked free now last).trans (guardUe_of_clean clean))
  case commit =>
    subst hu
    refine ⟨fun settled => clocked_eq h (commitUpdate_of_settled settled) rfl,
      fun due only still => clocked_eq h ((commitUpdate_of_only due only).trans (commitOne_of_still still)) rfl,
      fun due only held runs clean => clocked_settle h.1 ?_⟩
    exact (commitUpdate_of_only due only).trans ((commitOne_of_running held runs).trans (guardUe_of_clean clean))
  case write =>
    rw [exec_contextWrite, execContextWrite]
    exact ⟨fun owned mode => clocked_eq h (contextWrite_of_refused (s := s.grant 1 0) owned mode) rfl,
      fun not_switch not_rotor => clocked_settle h.1 (contextWrite_of_open (s := s.grant 1 0) not_switch not_rotor)⟩
  case focus =>
    refine ⟨fun cur pro => clocked_eq h ((leFocusWrite_eq written).trans (if_neg (by omega))) (by rw [written]; rfl), fun heavy => ?_⟩
    exact clocked_settle h.1 ((leFocusWrite_eq written).trans (if_pos heavy))

end Sys2Proof.Machine
end

section
/-! PROOF. The integrator of laws 1 and 2: its freeze at a clamp, its bound, and the steps that use it. -/

namespace Sys2Proof.Machine

/-! ### A whole number between two bounds -/

theorem clampI_mem {lo hi : Int} (h : lo ≤ hi) (i : Int) : lo ≤ clampI lo hi i ∧ clampI lo hi i ≤ hi := by
  unfold clampI
  split
  · omega
  · split <;> omega

/-- A step down ends no higher than where it started within the bounds. -/
theorem clampI_add_le {lo hi i di : Int} (above : lo ≤ i) (down : di ≤ 0) : clampI lo hi (i + di) ≤ i := by
  unfold clampI
  split
  · exact above
  · split <;> omega

/-- A step up ends no lower than where it started within the bounds. -/
theorem le_clampI_add {lo hi i di : Int} (below : i ≤ hi) (up : 0 ≤ di) : i ≤ clampI lo hi (i + di) := by
  unfold clampI
  split
  · omega
  · split <;> omega

/-! ### Anti-windup (R97) -/

/-- The trial stands at or beyond a clamp and di pushes it further in. -/
def pushesIn (trial di : Int) (lo hi : Nat) : Prop :=
  ((hi : Int) * 65536 + 0x8000 ≤ trial ∧ 0 < di) ∨ (trial < (lo : Int) * 65536 - 0x8000 ∧ di < 0)

section Integrator

variable {ffp p i di imax : Int} {lo hi : Nat}

theorem antiWindup_of_pushesIn (h : pushesIn (ffp + p + i + di) di lo hi) : antiWindup ffp p i di lo hi imax = i :=
  if_pos (by simpa [pushesIn] using h)

theorem antiWindup_of_free (h : ¬ pushesIn (ffp + p + i + di) di lo hi) : antiWindup ffp p i di lo hi imax = clampI (-imax) imax (i + di) :=
  if_neg (by simpa [pushesIn] using h)

/-- An integrator within its bound stays within it. -/
theorem antiWindup_mem (above : -imax ≤ i) (below : i ≤ imax) :
    -imax ≤ antiWindup ffp p i di lo hi imax ∧ antiWindup ffp p i di lo hi imax ≤ imax := by
  by_cases h : pushesIn (ffp + p + i + di) di lo hi
  · rw [antiWindup_of_pushesIn h]
    exact ⟨above, below⟩
  · rw [antiWindup_of_free h]
    exact clampI_mem (Int.le_trans above below) _

/-- A trial at the upper clamp or above it never raises the integrator. -/
theorem antiWindup_le_of_high (above : -imax ≤ i) (high : (hi : Int) * 65536 + 0x8000 ≤ ffp + p + i + di) :
    antiWindup ffp p i di lo hi imax ≤ i := by
  by_cases h : pushesIn (ffp + p + i + di) di lo hi
  · exact Int.le_of_eq (antiWindup_of_pushesIn h)
  · have down : di ≤ 0 := Int.not_lt.1 fun up => h (.inl ⟨high, up⟩)
    rw [antiWindup_of_free h]
    exact clampI_add_le above down

/-- A trial below the lower clamp never lowers it. -/
theorem le_antiWindup_of_low (below : i ≤ imax) (low : ffp + p + i + di < (lo : Int) * 65536 - 0x8000) :
    i ≤ antiWindup ffp p i di lo hi imax := by
  by_cases h : pushesIn (ffp + p + i + di) di lo hi
  · exact Int.le_of_eq (antiWindup_of_pushesIn h).symm
  · have up : 0 ≤ di := Int.not_lt.1 fun down => h (.inr ⟨low, down⟩)
    rw [antiWindup_of_free h]
    exact le_clampI_add below up

end Integrator

/-- Law 2 on two samples of enough light is the PI step on their ratio's error (R100). -/
theorem lawRatio_of_lit {s : State} {a : Nat} {y1 : Int} {inner : Option Nat} {x : Samp} (second : s.lastSamp (aoTile a) (s.cg 0 a C.MI2) = some x)
    (lit : ((s.cg 0 a C.YMIN : Nat) : Int) ≤ y1 + monUnits x) (nonzero : y1 + monUnits x ≠ 0) :
    s.lawRatio a y1 inner = s.piStep a (s.signed a (Int.tdiv
      (((65536 - ((s.cg 0 a C.SP : Nat) : Int)) * y1 - ((s.cg 0 a C.SP : Nat) : Int) * (y1 + monUnits x - y1)) * 16) (y1 + monUnits x))) inner := by
  unfold State.lawRatio
  dsimp only
  rw [second]
  exact if_neg (by simp [lit, nonzero])

/-- Settles O47: the freeze and the bound are the two branches of the integrator, and laws 1 and 2 both end in the PI step. -/
theorem antiWindup_freeze_and_bound : Obligations.AntiWindup := by
  refine ⟨fun ffp p i di imax j lo hi hj => ?_, fun s a e p di i inner hp hdi hi => ?_⟩
  · subst hj
    exact ⟨antiWindup_of_pushesIn, antiWindup_of_free, antiWindup_mem,
      fun above _ high => antiWindup_le_of_high above high, fun _ below low => le_antiWindup_of_low below low⟩
  · subst hp hdi hi
    refine ⟨rfl, fun y he => by rw [he]; rfl, fun y1 x tot second htot lit nonzero he => ?_⟩
    subst htot
    rw [he]
    exact lawRatio_of_lit second lit nonzero

end Sys2Proof.Machine
end

section
/-! PROOF. The thaw: how long the bases run on, which commits it cancels, and what it answers. -/

namespace Sys2Proof.Machine

/-! ### A base that runs on (R273, R349) -/

section Bases

variable {x : TbSt} {n : Nat} {a : Amort}

theorem run_of_plain (h : x.amort = none) : x.run n = { x with val := (x.val + n * x.inc) % tbWrap } := by
  rw [TbSt.run, h]

/-- A positive offset is absorbed at the rate of its adjustment, as far as it reaches. -/
theorem run_val_of_amort (h : x.amort = some a) (pos : 0 ≤ a.left) :
    (x.run n).val = (x.val + n * x.inc + min (n * x.extra) a.left.natAbs) % tbWrap := by
  rw [TbSt.run, h]
  dsimp only
  rw [if_neg (Int.not_lt.2 pos)]

end Bases

/-- The frozen time is rounded up to a multiple of 32 ns that is not 0 (R349, log 152). -/
theorem frzD_bounds (s : State) : s.frzD % 32 = 0 ∧ 0 < s.frzD ∧ s.flt.frozen ≤ s.frzD ∧ s.frzD ≤ s.flt.frozen + 32 := by
  have d : s.frzD = (max 1 s.flt.frozen + 31) / 32 * 32 := rfl
  omega

/-! ### Commits past their deadline (R144, R350) -/

/-- What a step makes true of its element, and no step undoes, is true of every element after the sequence. -/
theorem each_of_mem {α : Type} {P : State → Prop} {l : List α} {f : State → α → State} {a : α} (mem : a ∈ l) (sets : ∀ u, P (f u a))
    (keeps : ∀ u, ∀ b ∈ l, P u → P (f u b)) (s : State) : P (s.each l f) := by
  have stays : ∀ (l' : List α), l' ⊆ l → ∀ u, P u → P (u.each l' f) := by
    intro l'
    induction l' with
    | nil => exact fun _ _ h => h
    | cons b t ih =>
      intro sub u h
      exact ih (fun y hy => sub (List.mem_cons_of_mem _ hy)) _ (keeps u b (sub (List.mem_cons_self ..)) h)
  obtain ⟨before, after, rfl⟩ := List.append_of_mem mem
  have split : s.each (before ++ a :: after) f = (f (s.each before f) a).each after f := by simp [State.each, List.foldl_append]
  rw [split]
  exact stays after (fun y hy => List.mem_append_right _ (List.mem_cons_of_mem _ hy)) _ (sets _)

/-- What a cancelled commit writes for a partition: not armed, and its result. -/
def State.endPart (s : State) (res q : Nat) : State := (s.put F.RTU_PSTAT_ARMED 0 q).put F.RTU_PSTAT_LAST_RESULT res q

section EndPart

variable {s : State} {res q : Nat}

theorem endPart_armed : (s.endPart res q).g F.RTU_PSTAT_ARMED q = 0 := by
  have other : (s.endPart res q).g F.RTU_PSTAT_ARMED q = (s.put F.RTU_PSTAT_ARMED 0 q).g F.RTU_PSTAT_ARMED q :=
    g_put_other _ _ _ _ _ _ _ _ (.inr ⟨rfl, rfl, rfl, by decide⟩)
  rw [other, g_put_same _ _ _ _ _ (by decide)]
  rfl

theorem endPart_result (fit : res < 8) : (s.endPart res q).g F.RTU_PSTAT_LAST_RESULT q = res :=
  (g_put_same _ _ _ _ _ (by decide)).trans (Nat.mod_eq_of_lt fit)

theorem endPart_word_other {r : Reg} {i j : Nat} (h : r.key i j ≠ R.RTU_PSTAT.key q 0) : (s.endPart res q).word r i j = s.word r i j :=
  (word_put_other _ F.RTU_PSTAT_LAST_RESULT _ _ _ _ _ _ h).trans (word_put_other _ F.RTU_PSTAT_ARMED _ _ _ _ _ _ h)

end EndPart

/-- A commit that is cancelled changes what stands for the commits, then ends it for each partition of its mask. -/
theorem cancelCommit_eq (s : State) (c : Commit) (res : Nat) :
    ∃ u : State, u.regs = s.regs ∧ s.cancelCommit c res = u.each (bitList c.mask 16) (fun v q => v.endPart res q) := by
  unfold State.cancelCommit
  dsimp only
  split
  all_goals
    refine ⟨_, ?_, rfl⟩
    rfl

theorem mem_bitList {v n q : Nat} : q ∈ bitList v n ↔ q < n ∧ bitOf v q = true := by
  rw [bitList, List.mem_filter, List.mem_range]

theorem lt_of_mem_bitList {v n q : Nat} (h : q ∈ bitList v n) : q < n := (mem_bitList.1 h).1

/-- Each masked partition of a cancelled commit is not armed, and has the result. -/
theorem cancelCommit_part {c : Commit} {res q : Nat} (s : State) (fit : res < 8) (hq : q < 16) (masked : bitOf c.mask q = true) :
    (s.cancelCommit c res).g F.RTU_PSTAT_ARMED q = 0 ∧ (s.cancelCommit c res).g F.RTU_PSTAT_LAST_RESULT q = res := by
  obtain ⟨u, -, e⟩ := cancelCommit_eq s c res
  rw [e]
  refine each_of_mem (P := fun v => v.g F.RTU_PSTAT_ARMED q = 0 ∧ v.g F.RTU_PSTAT_LAST_RESULT q = res) (mem_bitList.2 ⟨hq, masked⟩)
    (fun v => ⟨endPart_armed, endPart_result fit⟩) (fun v b hb kept => ?_) u
  by_cases same : b = q
  · subst same
    exact ⟨endPart_armed, endPart_result fit⟩
  · have apart : (v.endPart res b).word R.RTU_PSTAT q = v.word R.RTU_PSTAT q := endPart_word_other fun k =>
      same (Reg.key_inj (by omega) (Nat.lt_trans (lt_of_mem_bitList hb) (by decide)) (by decide) (by decide) k).2.1.symm
    obtain ⟨armed, result⟩ := kept
    exact ⟨(congrArg (getField · 5 1) apart).trans armed, (congrArg (getField · 6 3) apart).trans result⟩

/-- The shadow registers, and with them the staged values, stand through a cancellation. -/
theorem cancelCommit_shadow (s : State) (c : Commit) (res : Nat) {t k : Nat} (ht : t < 16384) (hk : k < 4096) :
    (s.cancelCommit c res).word R.AO_SHD t k = s.word R.AO_SHD t k := by
  obtain ⟨u, regs, e⟩ := cancelCommit_eq s c res
  have kept : ∀ v, ∀ b ∈ bitList c.mask 16, State.word (State.endPart v res b) R.AO_SHD t k = v.word R.AO_SHD t k := fun v b hb =>
    endPart_word_other fun key => absurd (Reg.key_inj ht (Nat.lt_trans (lt_of_mem_bitList hb) (by decide)) hk (by decide) key).1 (by decide)
  rw [e, each_keeps (State.word · R.AO_SHD t k) u _ _ kept, word_of_regs regs]

/-- The thaw cancels the only commit if its deadline has come in the freeze, and it was armed and neither decided, fired nor of a rotor slot. -/
theorem thawCommits_of_single {s b : State} {c : Commit} (only : s.rtu.commits = [c]) : s.thawCommits b =
    if c.cancelled || c.fired || c.decided || c.slot.isSome || b.reached (c.at - 200000) || !s.reached (c.at - 200000) then s
    else { s.cancelCommit c 4 with rtu.arms := s.rtu.arms.filter (fun m => !(m.lead = c.lead && m.tc = c.tc)) } := by
  rw [State.thawCommits, only]
  rfl

/-! ### The thaw (R348 to R351) -/

theorem thaw_of_kept {s : State} (h : s.clk ≠ Clk.frozen ∨ s.frzHeld = true) : thaw s = s := if_pos (by simpa using h)

theorem thawAll_eq (s : State) : thawAll s =
    if s.clk = Clk.frozen ∧ (thaw s).clk = Clk.running then (thaw s).thawPins.thawLink.drainIn else thaw s := by
  simp only [thawAll, Bool.and_eq_true, decide_eq_true_eq]

/-- The clocks restart after D: what the freeze leaves to the blocks before their times are compared. -/
def State.restarted (s : State) (d : Nat) : State :=
  ((({ s.runBases d with
      clk := Clk.running
      flt.frozen := 0
      flt.frzBy := none
      tm.tcis := (s.runBases d).tm.tcis.map (fun e => (e.1, { e.2 with lastEdge := none }))
      mon.ramps := (s.runBases d).mon.ramps.map (fun e => (e.1, { e.2 with pos := biasPos e.2 ((s.runBases d).cycle + d), start := (s.runBases d).cycle })) } : State).put
    F.FLT_FRZ_DUR_DUR (d / 32 * 5)).put F.GLB_MODE_MODE s.flt.frzMode).putB F.TB_SYNC_STAT_LEVEL (s.pinAt 0)

/-- Commits, rotors, kicks, pulse outputs and WAITT follow the advance of the bases. -/
def State.caughtUp (w s : State) : State :=
  (List.range 16).foldl State.thawWaitt ((List.range 4).foldl (fun y b => y.tpoJump b ((y.tbVal b : Int) - (s.tbVal b : Int)))
    ((List.range 16).foldl (fun y p => y.rotJump p false) (w.thawCommits s)).kicksOver)

theorem thaw_of_released {s : State} (frozen : s.clk = Clk.frozen) (released : s.frzHeld = false) :
    thaw s = ((((s.restarted s.frzD).caughtUp s).raise 54 (s.flt.frzBy.getD 0)).flushHeld).flushMsix :=
  if_neg (by simp [frozen, released])

theorem restarted_tb (s : State) {d b : Nat} (h : b < 4) : (s.restarted d).tb b = (s.tb b).run d := by
  have kept : (s.restarted d).tb b = (s.runBases d).tb b := by
    unfold State.restarted
    generalize s.runBases d = u
    rfl
  rw [kept, tb_runBases s d b h]

theorem restarted_dur {s : State} {d : Nat} (fit : d / 32 * 5 < 2 ^ 64) : (s.restarted d).g F.FLT_FRZ_DUR_DUR = d / 32 * 5 := by
  rw [State.restarted, State.putB, g_put_reg _ _ _ _ _ _ (by decide) (by decide) (by decide), g_put_reg _ _ _ _ _ _ (by decide) (by decide) (by decide),
    g_put_same _ _ _ _ _ (by decide)]
  exact Nat.mod_eq_of_lt fit

/-- Settles O59: the thaw goes on from the clocks' restart, FREEZE_TAKEN is raised as every source, and a commit past its deadline is cancelled as every other. -/
theorem thawEffects : Obligations.ThawEffects := by
  refine ⟨fun s t ht => ?command, fun s u w x d frozen released hd hu hw hx => ?effects, fun x n => ?base, fun s => thaw_of_kept,
    fun s b c only => ?commit, fun s c res q fit hq masked => ?cancelled⟩
  case command =>
    subst ht
    rw [exec_thaw, execThaw, thawAll_eq, fin]
    exact ⟨fun frozen runs => by rw [if_pos ⟨frozen, runs⟩], fun kept => by rw [if_neg (fun e => kept.elim (· e.1) (· e.2))]⟩
  case effects =>
    subst hd hu
    obtain rfl : w = s.restarted s.frzD := hw
    refine ⟨?_, frzD_bounds s, fun b => restarted_tb s, restarted_dur, fun clk => ?_⟩
    · rw [thaw_of_released frozen released, hx, State.caughtUp]
    · rw [raise_fltOn _ (by decide) (by decide) clk, decide_eq_true rfl, Bool.true_or]
  case base =>
    refine ⟨fun none' => ?_, fun a amort pos part => ?_, fun a amort pos whole => ?_⟩
    · rw [run_of_plain none']
      exact ⟨rfl, none'⟩
    · rw [run_val_of_amort amort pos, Nat.min_eq_left (by omega)]
    · rw [run_val_of_amort amort pos, Nat.min_eq_right (by omega)]
  case commit =>
    rw [thawCommits_of_single only]
    refine ⟨fun live unfired undecided unslotted before after => ?_, fun kept => if_pos (by simpa [or_assoc] using kept)⟩
    rw [if_neg (by simp [live, unfired, undecided, unslotted, before, after])]
  case cancelled =>
    obtain ⟨armed, result⟩ := cancelCommit_part s fit hq masked
    exact ⟨armed, result, fun t k ht hk => cancelCommit_shadow s c res ht hk⟩

end Sys2Proof.Machine
end

section
/-! PROOF. Routing: host writes of the Map Store, its mirror, descriptors, plans and caches, and the turn of a routing job. -/

namespace Sys2Proof.Machine

/-! ### The Map Store and its mirror (R115, R121) -/

section MapWrites

variable {s : State} {off : Nat} {bs : List Byte}

theorem mapStoreWrite_of_busy (busy : s.libBusy off bs.length = true) :
    mapStoreWrite off bs s = { s with rtu.heldW := s.rtu.heldW ++ [(off, bs)] } :=
  if_pos busy

/-- A write accepted in every byte corrects the words that it covers whole. -/
theorem mapStoreWrite_of_accepted (free : s.libBusy off bs.length = false)
    (accepted : (List.range bs.length).all (fun i => s.mapAccepts (off + i) = some true) = true) :
    mapStoreWrite off bs s = { s.mapBytes off bs with ueWords := ueLeft (s.mapBytes off bs).ueWords (mapBase + off) bs.length } := by
  rw [mapStoreWrite, if_neg (ne_true_of_eq_false free), State.mapStore, accepted]
  exact if_pos rfl

end MapWrites

/-- The oldest write on its way is applied 2 us after it was made, unless its tile is to receive its whole mirror again. -/
theorem stateMirrorApply_of_due {s : State} {off c : Nat} {b : Byte} {rest : List (Nat × Nat × Byte)} (next : s.rtu.mirror = (off, c, b) :: rest)
    (due : c + 2000 ≤ s.cycle) :
    stateMirrorApply s = if s.live (aoTile ((off - 0x100000) / 64)) then { s with rtu.mirror := rest, mem := Memory.wr s.mem (mirrorBase + off) b }
      else { s with rtu.mirror := rest } := by
  rw [stateMirrorApply, next]
  exact if_neg (Nat.not_lt.2 due)

/-! ### Plans and caches (R140, R152) -/

@[simp] theorem updRp_flt (s : State) (p : Nat) (f : RtPart → RtPart) : (s.updRp p f).flt = s.flt := rfl

@[simp] theorem pcSync_flt (s : State) (t : Nat) : (s.pcSync t).flt = s.flt := each_keep State.flt _ (fun _ _ => by rfl) s _

@[simp] theorem cacheClear_flt (s : State) (p : Nat) : (s.cacheClear p).flt = s.flt := each_keep State.flt _ pcSync_flt _ _

/-! ### Descriptors (R119) -/

section Descriptors

variable {s : State} {p : Nat}

theorem rtuLoad_of_not_hold (active : s.pm p ≠ 0) : rtuLoad p s = s.put F.RTU_STAT_MAP_REFUSED 1 :=
  if_pos (by simpa using active)

/-- LOAD in HOLD empties the partition's routing state and its cache slots. -/
theorem rtuLoad_of_hold (hold : s.pm p = 0) : rtuLoad p s = ((s.put F.RTU_PSTAT_DESC_VALID 0 p).updRp p (fun r =>
    { r with loading := true, desc := {}, com := [], circ := [], cells := [], pcells := [], plan := [], closed := false, carry := [], mend := [],
             tent := none, hint := none, cached := [], cmiss := false })).cacheClear p :=
  if_neg (by simpa using hold)

/-- The load of a partition has ended, and the Route Unit has read the descriptor. -/
def State.loadRead (s : State) (p : Nat) : State := (s.updRp p (fun r => { r with loading := false })).grant 3 6

/-- The descriptor read is sound and is taken over. -/
def State.loadTaken (s : State) (p : Nat) : State :=
  (((s.loadRead p).put F.RTU_PSTAT_DESC_ERR 0 p).put F.RTU_PSTAT_DESC_VALID 1 p).updRp p (fun r => { r with desc := s.descAt p })

@[simp] theorem loadTaken_flt : (s.loadTaken p).flt = s.flt := by simp [State.loadTaken, State.loadRead]

variable (loading : (s.rp p).loading = true) (awake : s.engGated = false)
include loading awake

/-- A load that completes: no descriptor, one that fails a check, or one taken over with the circuits of its base entry. -/
theorem rtuLoadDone_of_loading : rtuLoadDone p s = if (s.descAt p).kind = 0 then (s.loadRead p).put F.RTU_PSTAT_DESC_ERR 0 p
    else if (s.loadRead p).descErr p (s.descAt p) ≠ 0 then (s.loadRead p).put F.RTU_PSTAT_DESC_ERR ((s.loadRead p).descErr p (s.descAt p)) p
    else if (s.loadTaken p).on F.RTU_PCFG_BASE_VALID p then (s.loadTaken p).libState p (some ((s.loadTaken p).g F.RTU_PCFG_BASE p))
    else s.loadTaken p := by
  rw [rtuLoadDone, if_neg (by simp [loading, awake])]
  simp only [bne_iff_ne]
  rfl

theorem rtuLoadDone_of_none (absent : (s.descAt p).kind = 0) : rtuLoadDone p s = (s.loadRead p).put F.RTU_PSTAT_DESC_ERR 0 p := by
  rw [rtuLoadDone_of_loading loading awake, if_pos absent]

variable (present : (s.descAt p).kind ≠ 0)
include present

theorem rtuLoadDone_of_faulty (faulty : (s.loadRead p).descErr p (s.descAt p) ≠ 0) :
    rtuLoadDone p s = (s.loadRead p).put F.RTU_PSTAT_DESC_ERR ((s.loadRead p).descErr p (s.descAt p)) p := by
  rw [rtuLoadDone_of_loading loading awake, if_neg present, if_pos faulty]

theorem rtuLoadDone_of_sound (sound : (s.loadRead p).descErr p (s.descAt p) = 0) (baseless : (s.loadTaken p).on F.RTU_PCFG_BASE_VALID p = false) :
    rtuLoadDone p s = s.loadTaken p := by
  rw [rtuLoadDone_of_loading loading awake, if_neg present, if_neg (not_not_intro sound), if_neg (ne_true_of_eq_false baseless)]

end Descriptors

/-! ### The turn of a routing job (R125, R130, R132) -/

/-- The partition whose waiting job is next in turn after the one served last. -/
def State.jobTurn (s : State) : Option Nat := ((List.range 16).map (fun i => (s.rtu.served + 1 + i) % 16)).find? (fun p => (s.rp p).job.isSome)

section JobTurn

variable {s : State}

theorem routeJobStart_of_idle (idle : s.on F.RTU_STAT_BUSY = true ∨ s.engGated = true ∨ s.jobTurn = none) : routeJobStart s = s := by
  obtain busy | gated | nobody := idle
  · exact if_pos (by rw [busy, Bool.true_or])
  · exact if_pos (by rw [gated, Bool.or_true])
  · rw [State.jobTurn] at nobody
    rw [routeJobStart, nobody]
    exact ite_self _

theorem routeJobStart_of_turn {p : Nat} (free : s.on F.RTU_STAT_BUSY = false) (awake : s.engGated = false) (turn : s.jobTurn = some p) :
    routeJobStart s = (({ s with rtu.served := p }.put F.RTU_STAT_BUSY 1).put F.RTU_STAT_CUR_PART p).updRp p (fun r => { r.openPlan with running := true }) := by
  rw [State.jobTurn] at turn
  rw [routeJobStart, if_neg (by simp [free, awake]), turn]

/-- What a running job comes to: the Route Unit's own fault, or its routing. -/
def State.jobOutcome (s : State) (bad : Bool) (p : Nat) (j : Job) : State × Nat :=
  if bad then ((s.put F.RTU_STAT_FAULT 1).raise 26 p, 8) else s.runJob p j

theorem routeJobDone_of_running {bad : Bool} {p res : Nat} {j : Job} {u : State} (current : p = s.g F.RTU_STAT_CUR_PART) (job : (s.rp p).job = some j)
    (running : (s.rp p).running = true) (awake : s.engGated = false) (outcome : (u, res) = s.jobOutcome bad p j) :
    routeJobDone bad s = ((u.endJob p j res ((u.rp p).plan.length - (s.rp p).plan.length)).put F.RTU_STAT_BUSY 0).releaseHeld := by
  subst current
  rw [State.jobOutcome] at outcome
  rw [routeJobDone]
  dsimp only
  rw [job]
  dsimp only
  rw [if_neg (by simp [running, awake]), ← outcome]

end JobTurn

/-- Settles O8: each clause is one branch of the command's function. -/
theorem routing : Obligations.Routing := by
  refine ⟨fun s u off bs h hu => ?store, fun s off c b rest h next due => clocked_eq h (stateMirrorApply_of_due next due) (ite_flt rfl rfl),
    fun s p h => ⟨fun active => clocked_eq h (rtuLoad_of_not_hold active) rfl, fun hold => clocked_settle h.1 (rtuLoad_of_hold hold)⟩,
    fun s p u v h loading awake hu hv => ?load, fun s p h => clocked_eq h rfl (ite_flt (updRp_flt ..) rfl),
    fun s p h => clocked_eq (f := (State.cacheClear · p)) h rfl (cacheClear_flt s p),
    fun s p h => ⟨fun idle => clocked_eq h (routeJobStart_of_idle idle) rfl,
      fun free awake turn => clocked_eq h (routeJobStart_of_turn free awake turn) rfl⟩,
    fun s p j u run current job running awake => ⟨fun res _ outcome => clocked_settle run (routeJobDone_of_running current job running awake outcome),
      fun faulted => clocked_settle run (routeJobDone_of_running current job running awake (congrArg (·, 8) faulted))⟩⟩
  case store =>
    subst hu
    rw [exec_mapStoreWrite, execMapStoreWrite]
    exact ⟨fun busy => clocked_eq h (mapStoreWrite_of_busy busy) rfl, fun free accepted => clocked_settle h.1 (mapStoreWrite_of_accepted free accepted)⟩
  case load =>
    obtain rfl : u = s.loadRead p := hu
    obtain rfl : v = s.loadTaken p := hv
    exact ⟨fun absent => clocked_eq h (rtuLoadDone_of_none loading awake absent) rfl,
      fun present faulty => clocked_eq h (rtuLoadDone_of_faulty loading awake present faulty) rfl,
      fun present sound baseless => clocked_eq h (rtuLoadDone_of_sound loading awake present sound baseless) loadTaken_flt⟩

end Sys2Proof.Machine
end

section
/-! PROOF. Staging: words at their tile, acknowledgements of bursts, fills and loads of the plan caches. -/

namespace Sys2Proof.Machine

/-! ### Words and acknowledgements (R137, R138) -/

theorem stagingWord_of_found {s : State} {t : Nat} {b : Burst} {w : SWord} {rest : List SWord}
    (found : s.findBurst (fun b => b.tile = t && b.kind ≤ 1 && !b.words.isEmpty) = some b) (next : b.words = w :: rest) :
    stagingWord t s = (s.stageWord b.part w).1.updBurst b { b with
      words := rest, sent := b.sent ++ [w.ao], refused := if (s.stageWord b.part w).2 then b.refused else b.refused ++ [w.ao] } := by
  rw [stagingWord, found]
  dsimp only
  rw [next]

theorem stageBurstAck_of_found {s : State} {t : Nat} {b : Burst} (found : s.findBurst (fun b => b.tile = t && b.complete) = some b) :
    stageBurstAck t s = s.ackBurst b := by
  rw [stageBurstAck, found]

section Acknowledged

variable {s : State} {b : Burst}

theorem ackBurst_of_fill (fill : b.kind = 2) : s.ackBurst b =
    ((s.dropBurst b).updRp b.part (fun r => { r with fillRef := r.fillRef + (if b.refused.isEmpty then 0 else 1) })).stageEnd b.part :=
  if_pos fill

theorem ackBurst_of_rotor (rotor : b.kind = 4) : s.ackBurst b =
    { s.dropBurst b with rot := Map.upd s.rot b.part {} (fun r => { r with loaded := r.loaded ++ [b.tile], ackAt := s.tbVal 0 }) } :=
  (if_neg (by omega)).trans (if_pos rotor)

theorem ackBurst_of_stage (stage : b.kind = 0 ∨ b.kind = 1 ∨ b.kind = 3) : s.ackBurst b = ((s.dropBurst b).updRp b.part (fun r =>
    { r with refused := r.refused + b.refused.length, plan := if b.kind = 0 then ackPlan r.plan b else r.plan })).stageEnd b.part :=
  (if_neg (by omega)).trans (if_neg (by omega))

end Acknowledged

/-! ### Fills and loads of the plan cache (R140, R141, R159) -/

section Fills

variable {s : State} {t : Nat} {b : Burst} (found : s.findBurst (fun b => b.tile = t && b.kind = 2 && !b.ready) = some b)
  (room : ((s.rtu.cache.filter (fun c => c.tile = t && c.bank = b.part / 4 && c.slot != b.slot)).map (fun c => c.words.length)).sum + b.words.length ≤ 65536)
include found room

/-- A fill with room replaces its slot. -/
theorem cacheFill_of_empty (empty : s.cacheSlot t b.part b.slot = none) :
    cacheFill t s = (({ s with rtu.cache := s.rtu.cache.filter (fun c => !(c.tile = t && c.bank = b.part / 4 && c.slot = b.slot)) ++
      [CacheSlot.mk t (b.part / 4) b.slot b.part b.words] } : State).pcSync t).updBurst b { b with ready := true } := by
  rw [cacheFill, found]
  dsimp only
  rw [empty]
  exact if_neg (by simpa using room)

/-- A fill of another partition's slot is refused whole. -/
theorem cacheFill_of_foreign {c : CacheSlot} (held : s.cacheSlot t b.part b.slot = some c) (foreign : c.part ≠ b.part) :
    cacheFill t s = s.updBurst b { b with ready := true, refused := [b.tile] } := by
  rw [cacheFill, found]
  dsimp only
  rw [held, decide_eq_false (Nat.not_lt.2 room)]
  exact if_pos (by simpa using foreign)

end Fills

section Loads

variable {s : State} {t : Nat} {b : Burst} (found : s.findBurst (fun b => b.tile = t && (b.kind = 3 || b.kind = 4) && !b.ready) = some b)
  (stage : b.kind = 3)
include found stage

/-- An empty slot stages nothing. -/
theorem cacheLoad_of_empty (empty : s.cacheSlot t b.part b.slot = none) : cacheLoad t s = s.updBurst b { b with ready := true, refused := [] } := by
  rw [cacheLoad, found]
  dsimp only
  rw [empty]
  exact if_pos (by simp [stage])

variable {c : CacheSlot} (held : s.cacheSlot t b.part b.slot = some c)
include held

theorem cacheLoad_of_own (own : c.part = b.part) :
    cacheLoad t s = (s.stageWords b.part c.words).1.updBurst b { b with ready := true, refused := (s.stageWords b.part c.words).2 } := by
  rw [cacheLoad, found]
  dsimp only
  rw [held]
  dsimp only
  rw [if_pos (by simp [stage]), if_neg (by simp [own])]

/-- Another partition's slot counts as refused in every word. -/
theorem cacheLoad_of_foreign (foreign : c.part ≠ b.part) :
    cacheLoad t s = (s.updRp b.part (fun r => { r with cmiss := true })).updBurst b { b with ready := true, refused := c.words.map (fun w => w.ao) } := by
  rw [cacheLoad, found]
  dsimp only
  rw [held]
  dsimp only
  rw [if_pos (by simp [stage]), if_pos (by simpa using foreign), State.when, if_neg (by simp [stage])]

end Loads

/-- Settles O9: each clause is one branch of the command's function. -/
theorem staging : Obligations.Staging := by
  refine ⟨fun s t b w rest run found next => clocked_settle run (stagingWord_of_found found next), fun s t b run found => ?ack,
    fun s t b run found empty room => clocked_settle run (cacheFill_of_empty found room empty),
    fun s t b c run found held foreign room => clocked_settle run (cacheFill_of_foreign found room held foreign), fun s t b run found stage => ?load⟩
  case ack =>
    have acked := stageBurstAck_of_found found
    exact ⟨fun fill => clocked_settle run (acked.trans (ackBurst_of_fill fill)), fun stage => clocked_settle run (acked.trans (ackBurst_of_stage stage)),
      fun rotor => clocked_settle run (acked.trans (ackBurst_of_rotor rotor))⟩
  case load =>
    exact ⟨fun empty => clocked_settle run (cacheLoad_of_empty found stage empty),
      fun c held own => clocked_settle run (cacheLoad_of_own found stage held own),
      fun c held foreign => clocked_settle run (cacheLoad_of_foreign found stage held foreign)⟩

end Sys2Proof.Machine
end

section
/-! PROOF. Rotor Engines: how a schedule starts, stops and swaps, and what its buffers and its configuration take. -/

namespace Sys2Proof.Machine

@[simp] theorem updRo_flt (s : State) (p : Nat) (f : RotSt → RotSt) : (s.updRo p f).flt = s.flt := rfl

/-! ### GO (R158) -/

/-- What a good GO finds staged is unstaged, and the partition's plan is closed. -/
def State.goUnstaged (s : State) (p : Nat) : State :=
  ((s.each ((s.ownedBy p).filter (fun a => s.ona F.AO_SHD_STAGED a)) State.unstage).focusDrop p).updRp p
    (fun r => { r with circ := r.com, pcells := r.cells, closed := true, carry := [], mend := [], tent := none, hint := none })

/-- The engine as a good GO finds it anew; only one that was HALTED keeps its last slot's library entry. -/
def State.goFresh (s : State) (p : Nat) : State :=
  s.updRo p (fun r => { r with
    slot := 0, dues := [], own := 0, begun := none, begins := [], skips := 0, stopPend := false, stopNow := false, edge := none, wait := [], ask := none
    lib := if s.roState p = 4 then r.lib else none })

section Go

variable {s : State} {p : Nat}

theorem exec_rotCtlGo_of_eq {p : Part} {t : State} {n : Nat} (run : s.clk = Clk.running) (e : s.rotGo p = (t, n)) : exec (.rotCtlGo p) s = .next t.settle :=
  clocked_settle (f := fun s => (s.rotGo p).1) run (congrArg Prod.fst e)

theorem rotGo_of_runs (runs : s.roRuns p = true) : s.rotGo p = (s, 6) := if_pos runs

variable (stands : s.roRuns p = false)
include stands

theorem rotGo_of_faulty (faulty : s.bufErr p (1 - s.actBuf p) ≠ 0) :
    s.rotGo p = (s.put F.RTU_ROT_STAT_SWAP_ERR (s.bufErr p (1 - s.actBuf p)) p, s.bufErr p (1 - s.actBuf p)) :=
  (if_neg (ne_true_of_eq_false stands)).trans (if_pos (bne_iff_ne.2 faulty))

theorem rotGo_of_good (good : s.bufErr p (1 - s.actBuf p) = 0) :
    s.rotGo p = (((((((s.goUnstaged p).goFresh p).put F.RTU_ROT_STAT_ACT_BUF (1 - s.actBuf p) p).put F.RTU_ROT_STAT_STATE 1 p).put
      F.RTU_ROT_STAT_SYNC_OK 0 p).put F.RTU_ROT_STAT_SWAP_PEND 0 p).put F.RTU_ROT_CYC_N 0 p |>.startLoad p, 0) :=
  (if_neg (ne_true_of_eq_false stands)).trans (if_neg (by simp [good]))

end Go

/-! ### STOP and STOP_NOW (R160) -/

section Stop

variable {s : State} {p : Nat}

theorem exec_rotCtlStop_of_eq {p : Part} {t : State} (run : s.clk = Clk.running) (e : s.stopEnd p = t) :
    exec (.rotCtlStop p) s = .next (t.updRo p (fun r => { r with ask := none })).settle :=
  clocked_settle (f := fun s => s.rotStop p) run (by rw [State.rotStop, e])

theorem stopEnd_of_idle (idle : s.roState p = 0) : s.stopEnd p = s := if_pos idle

theorem stopEnd_of_halted (halted : s.roState p = 4) :
    s.stopEnd p = if s.slotOpen p then s.updRo p (fun r => { r with stopNow := true }) else s.rotIdle p :=
  (if_neg (by omega)).trans (if_pos halted)

/-- A running engine with no slot sent out only notes the stop. -/
theorem stopEnd_of_unsent (awake : s.roState p ≠ 0) (going : s.roState p ≠ 4) (unsent : s.slotCommit p = none) :
    s.stopEnd p = s.updRo p (fun r => { r with stopPend := true }) := by
  rw [State.stopEnd, if_neg awake, if_neg going, unsent]

/-- A slot 0 sent out and still before its cancel deadline does not commit. -/
theorem stopEnd_of_sent {c : Commit} {f : RotFire} (awake : s.roState p ≠ 0) (going : s.roState p ≠ 4) (sent : s.slotCommit p = some c)
    (fired : c.slot = some f) (first : f.slot = 0) (early : s.reached (c.at - 200000) = false) :
    s.stopEnd p = (s.unfire c).updRo p (fun r => { r with stopPend := true }) := by
  rw [State.stopEnd, if_neg awake, if_neg going, sent]
  dsimp only
  rw [if_pos (by simp [fired, first, early])]

theorem exec_rotCtlStopNow_of_eq {p : Part} {t : State} (run : s.clk = Clk.running) (e : s.stopNow p = t) :
    exec (.rotCtlStopNow p) s = .next (t.updRo p (fun r => { r with ask := none })).settle :=
  clocked_settle (f := fun s => s.rotStopNow p) run (by rw [State.rotStopNow, e])

theorem stopNow_of_idle (idle : s.roState p = 0) : s.stopNow p = s := if_pos idle

theorem stopNow_of_awake (awake : s.roState p ≠ 0) : s.stopNow p =
    if (s.callBack p).slotOpen p then (s.callBack p).updRo p (fun r => { r with stopNow := true, dues := [], wait := [] }) else (s.callBack p).rotIdle p :=
  if_neg awake

end Stop

/-! ### Swaps (R165) -/

section Swap

variable {s : State} {p : Nat}

theorem exec_rotCtlSwap_of_eq {p : Part} {t : State} {n : Nat} (run : s.clk = Clk.running) (e : s.rotSwap p = (t, n)) : exec (.rotCtlSwap p) s = .next t.settle :=
  clocked_settle (f := fun s => (s.rotSwap p).1) run (congrArg Prod.fst e)

theorem rotSwap_of_pending (pending : s.on F.RTU_ROT_STAT_SWAP_PEND p = true) : s.rotSwap p = (s.put F.RTU_ROT_STAT_BUF_REFUSED 1 p, 0x20) :=
  if_pos pending

variable (free : s.on F.RTU_ROT_STAT_SWAP_PEND p = false)
include free

theorem rotSwap_of_faulty (faulty : s.bufErr p (1 - s.actBuf p) ≠ 0) :
    s.rotSwap p = ((s.put F.RTU_ROT_STAT_SWAP_ERR (s.bufErr p (1 - s.actBuf p)) p).put F.RTU_ROT_STAT_BUF_REFUSED 1 p, 0x10 + s.bufErr p (1 - s.actBuf p)) :=
  (if_neg (ne_true_of_eq_false free)).trans (if_pos (bne_iff_ne.2 faulty))

theorem rotSwap_of_good (good : s.bufErr p (1 - s.actBuf p) = 0) : s.rotSwap p = (s.put F.RTU_ROT_STAT_SWAP_PEND 1 p, 0) :=
  (if_neg (ne_true_of_eq_false free)).trans (if_neg (by simp [good]))

end Swap

/-! ### Configuration (R169) -/

/-- The fields of RTU_ROT_CFG. -/
def rotCfgFields : List Fld := [F.RTU_ROT_CFG_SRC, F.RTU_ROT_CFG_EDGE, F.RTU_ROT_CFG_SKIP_MAX, F.RTU_ROT_CFG_LOSTN, F.RTU_ROT_CFG_SYNC_DLY]

theorem rotCfgWrite_of_awake {s : State} {p v : Nat} (awake : s.roState p ≠ 0) : rotCfgWrite p v s = s.put F.RTU_ROT_STAT_BUF_REFUSED 1 p :=
  if_pos (bne_iff_ne.2 awake)

theorem rotCfgWrite_of_idle {s : State} {p v : Nat} (idle : s.roState p = 0) :
    rotCfgWrite p v s = s.each rotCfgFields (fun s f => s.sput f (bitsOf v f.lo f.wd) p) :=
  if_neg (by simp [idle])

/-- Settles O11: each clause is one branch of the command's function. -/
theorem rotorControl : Obligations.RotorControl := by
  refine ⟨fun s p h => ?go, fun s p h => ?stop, fun s p h => ?stopNow, fun s p h => ?swap,
    fun s p b w v h => clocked_eq h rfl (ite_flt rfl rfl), fun s p v h => ?cfg⟩
  case go =>
    refine ⟨fun runs => (exec_rotCtlGo_of_eq h.1 (rotGo_of_runs runs)).trans (next_settle_of_flt_eq h.2 rfl),
      fun stands faulty => (exec_rotCtlGo_of_eq h.1 (rotGo_of_faulty stands faulty)).trans (next_settle_of_flt_eq h.2 rfl), fun u v stands good hu hv => ?_⟩
    obtain rfl : u = s.goUnstaged p := hu
    obtain rfl : v = (s.goUnstaged p).goFresh p := hv
    exact exec_rotCtlGo_of_eq h.1 (rotGo_of_good stands good)
  case stop =>
    exact ⟨fun idle => (exec_rotCtlStop_of_eq h.1 (stopEnd_of_idle idle)).trans (next_settle_of_flt_eq h.2 rfl),
      fun halted closed => exec_rotCtlStop_of_eq h.1 ((stopEnd_of_halted halted).trans (if_neg (ne_true_of_eq_false closed))),
      fun halted opened => (exec_rotCtlStop_of_eq h.1 ((stopEnd_of_halted halted).trans (if_pos opened))).trans (next_settle_of_flt_eq h.2 rfl),
      fun awake going unsent => (exec_rotCtlStop_of_eq h.1 (stopEnd_of_unsent awake going unsent)).trans (next_settle_of_flt_eq h.2 rfl),
      fun c f awake going sent fired first early => exec_rotCtlStop_of_eq h.1 (stopEnd_of_sent awake going sent fired first early)⟩
  case stopNow =>
    refine ⟨fun idle => (exec_rotCtlStopNow_of_eq h.1 (stopNow_of_idle idle)).trans (next_settle_of_flt_eq h.2 rfl), fun u awake hu closed => ?_, fun u awake hu opened => ?_⟩
    · subst hu
      exact exec_rotCtlStopNow_of_eq h.1 ((stopNow_of_awake awake).trans (if_neg (ne_true_of_eq_false closed)))
    · subst hu
      exact exec_rotCtlStopNow_of_eq h.1 ((stopNow_of_awake awake).trans (if_pos opened))
  case swap =>
    exact ⟨fun pending => (exec_rotCtlSwap_of_eq h.1 (rotSwap_of_pending pending)).trans (next_settle_of_flt_eq h.2 rfl),
      fun free faulty => (exec_rotCtlSwap_of_eq h.1 (rotSwap_of_faulty free faulty)).trans (next_settle_of_flt_eq h.2 rfl),
      fun free good => (exec_rotCtlSwap_of_eq h.1 (rotSwap_of_good free good)).trans (next_settle_of_flt_eq h.2 rfl),
      clocked_eq (f := fun s => s.put F.RTU_ROT_STAT_SWAP_PEND 0 p) h rfl rfl⟩
  case cfg =>
    exact ⟨fun awake => clocked_eq h (rotCfgWrite_of_awake awake) rfl, fun idle => clocked_eq h (rotCfgWrite_of_idle idle) (each_sput_flt ..)⟩

end Sys2Proof.Machine
end

section
/-! PROOF. Rotor slots, SYNC_IN, the learning windows and the repetitive tables. -/

namespace Sys2Proof.Machine

/-- A choice depends on its condition up to equivalence. -/
theorem ite_of_iff {α : Type} {p q : Prop} [Decidable p] [Decidable q] {x y : α} (e : p ↔ q) : (if p then x else y) = if q then x else y :=
  ite_congr (propext e) (fun _ => rfl) (fun _ => rfl)

/-! ### Slots (R159, R160) -/

section Slots

variable {s : State} {p : Nat}

theorem rotorSlotLoad_of_standing (stands : s.roRuns p = false) (unstopped : (s.ro p).stopNow = false) : rotorSlotLoad p s = s :=
  (if_neg (ne_true_of_eq_false unstopped)).trans (if_pos (by simp [stands]))

/-- An engine that STOP_NOW has stopped becomes idle with its last slot commit. -/
theorem rotorSlotLoad_of_stopped (stopped : (s.ro p).stopNow = true) (closed : s.slotOpen p = false) : rotorSlotLoad p s = s.rotIdle p :=
  (if_pos stopped).trans (if_neg (ne_true_of_eq_false closed))

/-- An engine with nothing loading, committing or still to strobe goes on to its next slot. -/
theorem rotorSlotLoad_of_free (runs : s.roRuns p = true) (unstopped : (s.ro p).stopNow = false) (unloaded : (s.ro p).loading = false)
    (unsent : s.slotCommit p = none) (unarmed : s.rtu.arms = []) : rotorSlotLoad p s = (s.applySwap p).startLoad p := by
  rw [rotorSlotLoad, if_neg (ne_true_of_eq_false unstopped), if_neg (by simp [runs])]
  exact if_neg (by simp [unloaded, unsent, unarmed])

/-- At the check of a due slot, with the edges judged and the first instant fixed, the slot is late, refused, over a cap, or fired. -/
theorem rotorSkipCheck_of_due {loads : List (Ao × BitVec 16)} {pw tc : Nat} {rest : List Nat} (fixed : (s.syncDecide p).rotStart p = s)
    (runs : s.roRuns p = true) (unstopped : (s.ro p).stopNow = false) (kept : (s.ro p).stopPend = false) (next : (s.ro p).dues = tc :: rest)
    (due : s.reached ((tc : Int) - 500000) = true) :
    rotorSkipCheck p loads pw s = if !s.loadReady p then s.skipSlot p tc true []
      else if !(s.ro p).nogo.isEmpty then s.skipSlot p tc false (s.ro p).nogo
      else if s.overCaps (((List.range 16).filter s.live).map (fun t => s.currentAfter t (2 ^ p))).sum
          (s.powerAfter (2 ^ p) (loads.map (fun e => (e.1.val, e.2.toNat))) pw) then (s.put F.PWR_STAT_CAP_NOGO 1).skipSlot p tc false []
      else s.fireSlot p tc := by
  rw [rotorSkipCheck, fixed]
  rw [if_neg (by simp [runs, unstopped]), next]
  dsimp only
  rw [if_neg (by simp [kept]), if_neg (by simp [due])]

end Slots

/-! ### SYNC_IN (R163, R164) -/

section Sync

variable {s : State} {p : Nat}

/-- An edge leaves the queue, and reaches its engine where that follows SYNC_IN, runs unstopped and takes edges of its polarity. -/
theorem rotorSyncEdge_of_found {e : SyncEdge} {u : State} (found : s.tm.edges.find? (fun e => e.part = p) = some e)
    (taken : u = { s with tm.edges := s.tm.edges.erase e }) :
    rotorSyncEdge p s = if u.roSync p = true ∧ u.roRuns p = true ∧ (u.ro p).stopNow = false ∧ u.g F.RTU_ROT_CFG_EDGE p = (if e.rising then 0 else 1)
      then u.syncEdge p e.ps else u := by
  subst taken
  rw [rotorSyncEdge, found]
  refine ite_of_iff ?_
  simp only [Bool.and_eq_true, Bool.not_eq_true', decide_eq_true_eq]
  exact ⟨fun ⟨⟨⟨sync, runs⟩, polarity⟩, unstopped⟩ => ⟨sync, runs, unstopped, polarity⟩,
    fun ⟨sync, runs, unstopped, polarity⟩ => ⟨⟨⟨sync, runs⟩, polarity⟩, unstopped⟩⟩

/-- SYNC_IN is lost: the engine goes on in FREEWHEEL with a slot at the instant tc. -/
def State.freewheel (s : State) (p tc : Nat) : State :=
  ((((s.put F.RTU_ROT_STAT_LOST 1 p).put F.RTU_ROT_STAT_SYNC_OK 0 p).put F.RTU_ROT_STAT_STATE 3 p).setEnd p tc).updRo p (fun r => { r with dues := r.dues ++ [tc] }) |>.raise 37 p

theorem syncLost_of_due {e d : Nat} (last : (s.ro p).edge = some (e, d)) (sync : s.roSync p = true) (watched : s.g F.RTU_ROT_CFG_LOSTN p ≠ 0)
    (following : s.roState p = 1 ∨ s.roState p = 2) (due : s.reached ((e + 1000 * s.g F.RTU_ROT_CFG_LOSTN p * d : Nat) : Int) = true) {tc : Nat}
    (instant : tc = e + 1000 * s.g F.RTU_ROT_CFG_LOSTN p * d + 1000 * s.syncDly p) :
    syncLost p s = if (s.freewheel p tc).reached (tc : Int) then (s.freewheel p tc).rotJump p false else s.freewheel p tc := by
  subst instant
  rw [syncLost, last]
  have follows : (s.roState p = 1 || s.roState p = 2) = true := by simpa using following
  exact if_neg (by rw [sync, follows, due]; simpa using watched)

end Sync

/-! ### Learning windows (R166, R167) -/

section Windows

variable {s : State} {p : Nat}

/-- A window opens at its instant, unless it has ended by then. -/
theorem learnWindowOpen_eq : learnWindowOpen p s = s.updRo p (fun r => { r with wins := r.wins.map (fun w =>
    if w.since = none ∧ s.reached w.openAt = true ∧ (∀ e, w.endAt = some e → s.reached e = false) then { w with since := some s.cycle } else w) }) := by
  refine congrArg (fun g : Win → Win => s.updRo p (fun r => { r with wins := r.wins.map g })) (funext fun w => ite_of_iff ?_)
  cases w.endAt <;> simp [and_assoc]

variable {w : Win} {rest : List Win} {e : Nat} (next : (s.ro p).wins = w :: rest) (ends : w.endAt = some e) (ended : s.reached e = true)
include next ends ended

/-- The first window, where it has ended, is the one that closes. -/
theorem learnWindowClose_of_ended : learnWindowClose p s =
    (if s.on F.RTU_ROT_LRN_LEN p && !s.on F.RTU_ROT_LRN_FRZ p
      then s.each ((s.ownedBy p).filter (fun a => w.tiles.contains (aoTile a) && s.learner a)) (fun s a => s.learnOne p w.slot a (Map.look w.acc a (0, 0)))
      else s).updRo p (fun r => { r with wins := r.wins.erase w }) := by
  rw [learnWindowClose, next, List.find?_cons_of_pos (by simp [ends, ended])]

end Windows

/-! ### Learning and the repetitive tables (R168) -/

section Learning

variable {s : State} {p v : Nat}

/-- The fields of RTU_ROT_LRN, CLR apart. -/
def lrnFields : List Fld := [F.RTU_ROT_LRN_LEN, F.RTU_ROT_LRN_FRZ, F.RTU_ROT_LRN_GSH, F.RTU_ROT_LRN_MINN, F.RTU_ROT_LRN_GAMMA]

theorem lrnWrite_of_within (within : s.lrnLate p v = []) : lrnWrite p v s = s.each lrnFields (fun s f => s.sput f (bitsOf v f.lo f.wd) p) :=
  if_pos (by simp [within])

/-- One tile over its budget refuses the write and logs it. -/
theorem lrnWrite_of_over {t l : Nat} (beyond : s.lrnLate p v = [(t, l)]) :
    lrnWrite p v s = ((s.put F.RTU_ROT_LSTAT_OVC 1 p).leErr (t * 1280) 0 srcReg 0).leOvercommit t l := by
  rw [lrnWrite, beyond]
  rfl

/-- With LEN = 0 no tile refuses. -/
theorem lrnLate_of_off (off : bitOf v 0 = false) : s.lrnLate p v = [] := if_neg (ne_true_of_eq_false off)

theorem learnClr_eq : learnClr p s =
    if s.on F.RTU_ROT_LRN_LEN p = true ∧ s.on F.RTU_ROT_LRN_FRZ p = false then s else s.put F.RTU_ROT_LSTAT_CLR_BUSY 1 p := by
  unfold learnClr
  simp only [Bool.and_eq_true, Bool.not_eq_true']

/-- An address within the tables of the partition's outputs. -/
def State.inTables (s : State) (p k : Nat) : Bool :=
  repBase ≤ k && k < repBase + 20480 * 128 && s.ona F.AO_CFG_OWNED ((k - repBase) / 128) && s.ga F.AO_CFG_PART ((k - repBase) / 128) = p

theorem inTables_iff {k : Nat} : s.inTables p k = true ↔ repBase ≤ k ∧ k < repBase + 20480 * 128 ∧ s.ona F.AO_CFG_OWNED ((k - repBase) / 128) = true ∧
    s.ga F.AO_CFG_PART ((k - repBase) / 128) = p := by
  simp [State.inTables, and_assoc]

/-- The end of a clear drops the cells of the partition's tables. -/
theorem learnClrDone_of_busy (busy : s.on F.RTU_ROT_LSTAT_CLR_BUSY p = true) :
    learnClrDone p s = ({ s with mem := s.mem.filter (fun c => !s.inTables p c.1) } : State).put F.RTU_ROT_LSTAT_CLR_BUSY 0 p :=
  if_neg (by simp [busy])

/-- A byte of a dropped table reads 0, every other as before. -/
theorem rd_filter_inTables (k : Nat) : Memory.rd (s.mem.filter (fun c => !s.inTables p c.1)) k =
    if s.inTables p k = true then 0 else Memory.rd s.mem k := by
  rw [Memory.rd_filter s.mem (fun k => !s.inTables p k)]
  cases s.inTables p k <;> rfl

theorem learnsInto_iff {a : Nat} : s.learnsInto a = true ↔ s.ona F.AO_CFG_OWNED a = true ∧ s.pm (s.ga F.AO_CFG_PART a) = 2 ∧
    s.on F.RTU_ROT_LRN_LEN (s.ga F.AO_CFG_PART a) = true ∧ s.on F.RTU_ROT_LRN_FRZ (s.ga F.AO_CFG_PART a) = false := by
  simp [State.learnsInto, and_assoc]

end Learning

/-- Settles O12: each clause is one branch of the command's function, and the clear of the tables is read byte by byte. -/
theorem rotorSlots : Obligations.RotorSlots := by
  refine ⟨fun s p h => ?load, fun s p loads pw tc rest ov run fixed runs unstopped kept next due hov => ?check,
    fun s p e u run quiet found taken => ?edge, fun s p e d tc u run last sync watched following due instant hu => ?lost,
    fun s p h => clocked_eq h learnWindowOpen_eq rfl, fun s p w rest e run quiet next ends ended => ?close, fun s p v h => ?learn,
    fun s p h => clocked_eq h learnClr_eq (ite_flt rfl rfl), fun s p h busy => ?clear, fun s u a off bs h hu => ?table⟩
  case load =>
    exact ⟨fun stands unstopped => clocked_eq h (rotorSlotLoad_of_standing stands unstopped) rfl,
      fun stopped closed => clocked_settle h.1 (rotorSlotLoad_of_stopped stopped closed),
      fun runs unstopped unloaded unsent unarmed => clocked_settle h.1 (rotorSlotLoad_of_free runs unstopped unloaded unsent unarmed)⟩
  case check =>
    subst hov
    have outcome := rotorSkipCheck_of_due (loads := loads) (pw := pw) fixed runs unstopped kept next due
    exact ⟨fun late => clocked_settle run (outcome.trans (by simp [late])),
      fun ready refused => clocked_settle run (outcome.trans (by simp [ready, refused])),
      fun ready willing capped => clocked_settle run (outcome.trans (by simp [ready, willing, capped])),
      fun ready willing within => clocked_settle run (outcome.trans (by simp [ready, willing, within]))⟩
  case edge =>
    have outcome := rotorSyncEdge_of_found found taken
    refine ⟨fun other => clocked_eq ⟨run, quiet⟩ (outcome.trans (if_neg fun ⟨sync, runs, unstopped, polarity⟩ => ?_)) (by rw [taken]),
      fun sync runs unstopped polarity => clocked_settle run (outcome.trans (if_pos ⟨sync, runs, unstopped, polarity⟩))⟩
    simp [sync, runs, unstopped, polarity] at other
  case lost =>
    obtain rfl : u = s.freewheel p tc := hu
    exact clocked_settle run (syncLost_of_due last sync watched following due instant)
  case close =>
    have outcome := learnWindowClose_of_ended next ends ended
    refine ⟨fun still => ?_, fun learns thawed => clocked_settle run (outcome.trans (by rw [if_pos (by simp [learns, thawed])]))⟩
    have idle : (s.on F.RTU_ROT_LRN_LEN p && !s.on F.RTU_ROT_LRN_FRZ p) = false := by
      rcases still with off | frozen
      · rw [off, Bool.false_and]
      · rw [frozen, Bool.not_true, Bool.and_false]
    exact clocked_eq ⟨run, quiet⟩ (outcome.trans (by rw [idle]; rfl)) rfl
  case learn =>
    exact ⟨fun within => clocked_eq h (lrnWrite_of_within within) (each_sput_flt ..), fun t l beyond => clocked_settle h.1 (lrnWrite_of_over beyond), lrnLate_of_off⟩
  case clear =>
    exact ⟨_, clocked_eq h (learnClrDone_of_busy busy) rfl, rfl, fun k => (rd_filter_inTables k).trans (ite_of_iff inTables_iff)⟩
  case table =>
    subst hu
    exact clocked_eq (f := fun s => repTableWrite a off bs (s.grant 1 0)) h (ite_of_iff (learnsInto_iff (s := s))) (ite_flt rfl rfl)

end Sys2Proof.Machine
end

section
/-! PROOF. The core instructions of Obrix: arithmetic and logic, loads and stores, control, and time. -/

namespace Sys2Proof.Machine

/-! ### An instruction that every member in step issues (R170, R172) -/

section InStep

variable {s : State} {h : Nat} {i : OIns} {kind : OIns → Bool} {F : OIns → Nat → State → State} {g : Nat → State → Bool} {f : Nat → State → State}

/-- The command makes the step f, which leaves the faults alone, on each member in step. -/
theorem clocked_issue (rdy : s.Ready) (is : kind i = true) (acts : ∀ m u, g m u = true → F i m u = f m u) (calm : ∀ m u, (f m u).flt = u.flt)
    (e : inStep h i g f s.lock s = true) : clocked s (fun s => s.issue h kind F) = .next (s.each s.lock (fun s m => f m s)) :=
  clocked_eq rdy (issue_eq is acts e) (eachMember_flt _ _ _ calm)

/-- An instruction that updates its thread by w and retires. -/
theorem clocked_issue_thread {w : State → Nat → ThrSt → ThrSt} (rdy : s.Ready) (is : kind i = true) (hf : f = fun m u => (u.updTh m h (w u m)).retire m h i)
    (acts : ∀ m u, g m u = true → F i m u = (u.updTh m h (w u m)).retire m h i) (e : inStep h i g f s.lock s = true) :
    clocked s (fun s => s.issue h kind F) = .next (s.each s.lock (fun s m => f m s)) := by
  subst hf
  exact clocked_issue rdy is acts (fun m u => by rw [retire_flt, updTh_flt]) e

/-- An instruction of arithmetic or logic, whose result and flags are what w makes of the thread. -/
theorem clocked_alu {opc : Nat} {res : ThrSt → OIns → W64 × Nat} {w : ThrSt → ThrSt} (rdy : s.Ready) (op : i.opc = opc)
    (hf : f = fun m u => (u.updTh m h w).retire m h i)
    (acts : ∀ m u, g m u = true → ∀ x, (x.setG i.d (res x i).1).setStatus (res x i).2 = w x) (e : inStep h i g f s.lock s = true) :
    clocked s (fun s => s.alu h opc res) = .next (s.each s.lock (fun s m => f m s)) :=
  clocked_issue_thread rdy (decide_eq_true op) hf (fun m u cond => congrArg (State.retire · m h i) (updTh_congr (acts m u cond _))) e

/-- An instruction that ends in an exception (R190). -/
theorem clocked_issue_exc {code info : Nat} {bad : State → Nat → Option Nat} (rdy : s.Ready) (is : kind i = true)
    (hf : f = fun m u => u.excAt m h code info (bad u m)) (acts : ∀ m u, g m u = true → F i m u = u.excAt m h code info (bad u m))
    (e : inStep h i g f s.lock s = true) : clocked s (fun s => s.issue h kind F) = .next (s.each s.lock (fun s m => f m s)) := by
  subst hf
  exact clocked_issue rdy is acts (fun m u => excAt_flt ..) e

end InStep

/-! ### Arithmetic and logic (R181) -/

/-- G0 takes no result. -/
theorem setG_zero (x : ThrSt) (v : W64) : x.setG 0 v = x := if_pos rfl

/-- Settles O13: each instruction is the common one with its own result and flags. -/
theorem obrixAlu : Obligations.ObrixAlu := by
  refine ⟨fun s h i g f rdy op _ hf e => (exec_add h s).trans (clocked_alu rdy op hf (fun _ _ _ _ => rfl) e),
    fun s h i g f rdy op _ hf e => (exec_sub h s).trans (clocked_alu rdy op hf (fun _ _ _ _ => rfl) e),
    fun s h i g f rdy op _ hf e => (exec_and h s).trans (clocked_alu rdy op hf (fun _ _ _ _ => rfl) e),
    fun s h i g f rdy op _ hf e => (exec_or h s).trans (clocked_alu rdy op hf (fun _ _ _ _ => rfl) e),
    fun s h i g f rdy op _ hf e => (exec_xor h s).trans (clocked_alu rdy op hf (fun _ _ _ _ => rfl) e),
    fun s h i g f rdy op _ hf e => (exec_shl h s).trans (clocked_alu rdy op hf (fun _ _ _ _ => rfl) e),
    fun s h i g f rdy op _ hf e => (exec_shr h s).trans (clocked_alu rdy op hf (fun _ _ _ _ => rfl) e),
    fun s h i g f rdy op _ hf e => (exec_sar h s).trans (clocked_alu rdy op hf (fun _ _ _ _ => rfl) e),
    fun s h i g f rdy op hg hf e => (exec_mul h s).trans (clocked_alu rdy op hf (fun m u func x => ?low) e),
    fun s h i g f rdy op hg hf e => (exec_mul h s).trans (clocked_alu rdy op hf (fun m u func x => ?high) e),
    fun s h i g f rdy op hg hf e => (exec_mul h s).trans (clocked_alu rdy op hf (fun m u func x => ?unsigned) e),
    fun s h i g f rdy op _ hf e => (exec_min h s).trans (clocked_alu rdy op hf (fun _ _ _ _ => rfl) e),
    fun s h i g f rdy op _ hf e => (exec_max h s).trans (clocked_alu rdy op hf (fun _ _ _ _ => rfl) e),
    fun s h i g f rdy op _ hf e => (exec_cmp h s).trans (clocked_alu rdy op.1 hf (fun m u _ x => ?cmp) e),
    fun s h i g f rdy op _ hf e => (exec_addi h s).trans (clocked_alu rdy op hf (fun _ _ _ _ => rfl) e),
    fun s h i g f rdy op _ hf e => (exec_andi h s).trans (clocked_alu rdy op hf (fun _ _ _ _ => rfl) e),
    fun s h i g f rdy op _ hf e => (exec_ori h s).trans (clocked_alu rdy op hf (fun _ _ _ _ => rfl) e),
    fun s h i g f rdy op _ hf e => (exec_lui h s).trans (clocked_alu rdy op hf (fun _ _ _ _ => rfl) e)⟩
  case low =>
    have func : i.func = 0 := by simpa [hg] using func
    simp [mulOf, func]
  case high =>
    have func : i.func = 1 := by simpa [hg] using func
    simp [mulOf, func]
  case unsigned =>
    have func : i.func = 2 := by simpa [hg] using func
    simp [mulOf, func]
  case cmp => rw [op.2, setG_zero]

/-! ### Loads and stores (R175, R176, R182) -/

/-- A thread may store to its data memory alone. -/
theorem threadAddr_writable_iff {p a k : Nat} : threadAddr p a = some (k, true) ↔ a < 0x40000 ∧ k = dmBase p + a := by
  unfold threadAddr
  split
  case isTrue low => simp [low, eq_comm]
  case isFalse high =>
    simp only [high, false_and, iff_false]
    split
    · simp
    · split <;> simp

section Memory

variable {s : State} {h opc n : Nat} {i : OIns} {g : Nat → State → Bool} {f : Nat → State → State}

/-- A load whose members in step all find an aligned, mapped address and no uncorrectable word, where their grants are ask. -/
theorem loadOp_eq {ask : Nat → Nat → State → State} (op : i.opc = opc)
    (reads : ∀ m u, g m u = true → memAddr (u.th m h) i % n = 0 ∧
      ∃ k w, threadAddr h (memAddr (u.th m h) i) = some (k, w) ∧ u.ueIn k n = none ∧ u.thrAsk m k n = ask m k u)
    (hf : f = fun m u => ((ask m ((threadAddr h (memAddr (u.th m h) i)).getD (0, false)).1 u).updTh m h (fun x =>
      x.setG i.d (BitVec.ofNat 64 (leNat (u.bar2Bytes ((threadAddr h (memAddr (u.th m h) i)).getD (0, false)).1 n))))).retire m h i)
    (e : inStep h i g f s.lock s = true) : s.loadOp h opc n = s.each s.lock (fun s m => f m s) := by
  refine issue_eq (decide_eq_true op) (fun m u cond => ?_) e
  obtain ⟨aligned, k, w, place, good, asked⟩ := reads m u cond
  simp [hf, aligned, place, good, asked]

/-- Each grant notes the order of the Lattice, and reports an unused offset of the Map Store. -/
theorem clocked_loadOp (run : s.clk = Clk.running) (op : i.opc = opc)
    (hg : g = fun m u => decide (memAddr (u.th m h) i % n = 0) && (match threadAddr h (memAddr (u.th m h) i) with | some (k, _) => (u.ueIn k n).isNone | none => false))
    (hf : f = fun m u => ((u.thrAsk m ((threadAddr h (memAddr (u.th m h) i)).getD (0, false)).1 n).updTh m h (fun x =>
      x.setG i.d (BitVec.ofNat 64 (leNat (u.bar2Bytes ((threadAddr h (memAddr (u.th m h) i)).getD (0, false)).1 n))))).retire m h i)
    (e : inStep h i g f s.lock s = true) : clocked s (fun s => s.loadOp h opc n) = .next (s.each s.lock (fun s m => f m s)).settle := by
  refine clocked_settle run (loadOp_eq (ask := fun m k u => u.thrAsk m k n) op (fun m u cond => ?_) hf e)
  subst hg
  obtain ⟨aligned, mapped⟩ := Bool.and_eq_true_iff.1 cond
  cases place : threadAddr h (memAddr (u.th m h) i) with
  | none => simp [place] at mapped
  | some x =>
    rw [place] at mapped
    exact ⟨of_decide_eq_true aligned, x.1, x.2, rfl, Option.isNone_iff_eq_none.1 mapped, rfl⟩

/-- A store at an aligned address of data memory. -/
theorem clocked_storeOp (rdy : s.Ready) (op : i.opc = opc)
    (hg : g = fun m u => decide (memAddr (u.th m h) i % n = 0) && (match threadAddr h (memAddr (u.th m h) i) with | some (_, w) => w | none => false))
    (hf : f = fun m u => (u.when (u.holds 0 m) (fun v => ((v.grant (thrTarget (dmBase h + memAddr (v.th m h) i)) (2 + m)).dmStore (dmBase h + memAddr (v.th m h) i)
      (leBytes n ((v.th m h).gr i.d).toNat)).passEffect 0 (leBytes 8 (memAddr (v.th m h) i) ++ leBytes n ((v.th m h).gr i.d).toNat))).retire m h i)
    (e : inStep h i g f s.lock s = true) : clocked s (fun s => s.storeOp h opc n) = .next (s.each s.lock (fun s m => f m s)) := by
  subst hg hf
  refine clocked_issue rdy (decide_eq_true op) (fun m u cond => ?_) (fun m u => ?_) e
  · obtain ⟨aligned, mapped⟩ := Bool.and_eq_true_iff.1 cond
    cases place : threadAddr h (memAddr (u.th m h) i) with
    | none => simp [place] at mapped
    | some x =>
      obtain ⟨k, w⟩ := x
      rw [place] at mapped
      obtain rfl : w = true := mapped
      obtain ⟨_, rfl⟩ := threadAddr_writable_iff.1 place
      simp [of_decide_eq_true aligned, place, State.when]
  · simp

variable {kind : OIns → Bool} {F : OIns → Nat → State → State}

/-- A misaligned access raises exception 2 with the address. -/
theorem clocked_issue_misaligned (rdy : s.Ready) (is : kind i = true) (hg : g = fun m u => memAddr (u.th m h) i % n != 0)
    (hf : f = fun m u => u.excAt m h 2 0 (some (memAddr (u.th m h) i)))
    (acts : ∀ m u, (memAddr (u.th m h) i % n != 0) = true → F i m u = u.excAt m h 2 0 (some (memAddr (u.th m h) i)))
    (e : inStep h i g f s.lock s = true) : clocked s (fun s => s.issue h kind F) = .next (s.each s.lock (fun s m => f m s)) := by
  subst hg
  exact clocked_issue_exc rdy is hf acts e

/-- An aligned access of an unmapped address raises exception 3. -/
theorem clocked_issue_unmapped (rdy : s.Ready) (is : kind i = true)
    (hg : g = fun m u => decide (memAddr (u.th m h) i % n = 0) && (threadAddr h (memAddr (u.th m h) i)).isNone)
    (hf : f = fun m u => u.excAt m h 3 0 (some (memAddr (u.th m h) i)))
    (acts : ∀ m u, memAddr (u.th m h) i % n = 0 → threadAddr h (memAddr (u.th m h) i) = none → F i m u = u.excAt m h 3 0 (some (memAddr (u.th m h) i)))
    (e : inStep h i g f s.lock s = true) : clocked s (fun s => s.issue h kind F) = .next (s.each s.lock (fun s m => f m s)) := by
  subst hg
  refine clocked_issue_exc rdy is hf (fun m u cond => ?_) e
  obtain ⟨aligned, unmapped⟩ := Bool.and_eq_true_iff.1 cond
  exact acts m u (of_decide_eq_true aligned) (Option.isNone_iff_eq_none.1 unmapped)

end Memory

/-- Settles O14: each width is the one load or the one store, at an aligned, a misaligned or an unmapped address. -/
theorem obrixMemory : Obligations.ObrixMemory :=
  ⟨fun s h _ _ _ rdy op hg hf e => (exec_ld8 h s).trans (clocked_loadOp rdy.1 op hg hf e),
    fun s h _ _ _ rdy op hg hf e => (exec_ld16 h s).trans (clocked_loadOp rdy.1 op hg hf e),
    fun s h _ _ _ rdy op hg hf e => (exec_ld32 h s).trans (clocked_loadOp rdy.1 op hg hf e),
    fun s h _ _ _ rdy op hg hf e => (exec_ld64 h s).trans (clocked_loadOp rdy.1 op hg hf e),
    fun s h _ _ _ rdy op hg hf e => (exec_st8 h s).trans (clocked_storeOp rdy op hg hf e),
    fun s h _ _ _ rdy op hg hf e => (exec_st16 h s).trans (clocked_storeOp rdy op hg hf e),
    fun s h _ _ _ rdy op hg hf e => (exec_st32 h s).trans (clocked_storeOp rdy op hg hf e),
    fun s h _ _ _ rdy op hg hf e => (exec_st64 h s).trans (clocked_storeOp rdy op hg hf e),
    fun s h _ _ _ rdy op hg hf e => (exec_ld64 h s).trans (clocked_issue_misaligned rdy (decide_eq_true op) hg hf (fun _ _ odd => if_pos odd) e),
    fun s h _ _ _ rdy op hg hf e => (exec_ld64 h s).trans (clocked_issue_unmapped rdy (decide_eq_true op) hg hf (fun _ _ aligned unmapped => by simp [aligned, unmapped]) e),
    fun s h _ _ _ rdy op hg hf e => (exec_st32 h s).trans (clocked_issue_misaligned rdy (decide_eq_true op) hg hf (fun _ _ odd => if_pos odd) e),
    fun s h _ _ _ rdy op hg hf e => (exec_st32 h s).trans (clocked_issue_unmapped rdy (decide_eq_true op) hg hf (fun _ _ aligned unmapped => by simp [aligned, unmapped]) e)⟩

/-! ### Control (R171, R174, R182, R190) -/

/-- A jump to a target in the code range goes on there. -/
theorem jump_of_within {s : State} {m h : Nat} {target : Int} {f : State → State} (within : (decide (0 ≤ target) && s.inCode h target.toNat) = true) :
    s.jump m h target f = (f s).retireTo m h target.toNat :=
  if_pos within

/-- A jump to a target outside it raises FETCH. -/
theorem jump_of_outside {s : State} {m h : Nat} {target : Int} {f : State → State} (outside : (decide (0 ≤ target) && s.inCode h target.toNat) = false) :
    s.jump m h target f = s.excAt m h 4 0 (some (ofSigned 64 target)) :=
  if_neg (by rw [outside]; exact Bool.false_ne_true)

/-- A jump to an address of a register. -/
theorem jump_of_inCode {s : State} {m h t : Nat} {f : State → State} (within : s.inCode h t = true) : s.jump m h (t : Int) f = (f s).retireTo m h t :=
  jump_of_within (by simpa using within)

section Control

variable {s : State} {h : Thr} {i : OIns} {g : Nat → State → Bool} {f : Nat → State → State} (rdy : s.Ready) (e : inStep h i g f s.lock s = true)
include rdy e

theorem exec_br_taken (op : i.opc = 48)
    (hg : g = fun m s => condHolds (s.th m h).status i.d && decide (0 ≤ braTarget (s.th m h) i) && s.inCode h (braTarget (s.th m h) i).toNat)
    (hf : f = fun m s => s.retireTo m h (braTarget (s.th m h) i).toNat) : exec (.br h) s = .next (s.each s.lock (fun s m => f m s)) := by
  subst hg hf
  refine (exec_br h s).trans (clocked_issue rdy (decide_eq_true op) (fun m u cond => ?_) (fun m u => retireTo_flt ..) e)
  rw [Bool.and_assoc, Bool.and_eq_true_iff] at cond
  obtain ⟨holds, within⟩ := cond
  exact (if_pos holds).trans (jump_of_within within)

theorem exec_br_untaken (op : i.opc = 48) (hg : g = fun m s => !condHolds (s.th m h).status i.d) (hf : f = fun m s => s.retire m h i) :
    exec (.br h) s = .next (s.each s.lock (fun s m => f m s)) := by
  subst hg hf
  refine (exec_br h s).trans (clocked_issue rdy (decide_eq_true op) (fun m u cond => ?_) (fun m u => retire_flt ..) e)
  exact if_neg (by simpa using cond)

theorem exec_br_outside (op : i.opc = 48)
    (hg : g = fun m s => condHolds (s.th m h).status i.d && !(decide (0 ≤ braTarget (s.th m h) i) && s.inCode h (braTarget (s.th m h) i).toNat))
    (hf : f = fun m s => s.excAt m h 4 0 (some (ofSigned 64 (braTarget (s.th m h) i)))) : exec (.br h) s = .next (s.each s.lock (fun s m => f m s)) := by
  subst hg
  refine (exec_br h s).trans (clocked_issue_exc rdy (decide_eq_true op) hf (fun m u cond => ?_) e)
  obtain ⟨holds, outside⟩ := Bool.and_eq_true_iff.1 cond
  exact (if_pos holds).trans (jump_of_outside (Bool.not_eq_true' _ ▸ outside))

theorem exec_jal_within (op : i.opc = 49) (hg : g = fun m s => decide (0 ≤ braTarget (s.th m h) i) && s.inCode h (braTarget (s.th m h) i).toNat)
    (hf : f = fun m s => (s.updTh m h (fun x => x.setG i.d (BitVec.ofNat 64 (x.pc + i.len)))).retireTo m h (braTarget (s.th m h) i).toNat) :
    exec (.jal h) s = .next (s.each s.lock (fun s m => f m s)) := by
  subst hg hf
  exact (exec_jal h s).trans (clocked_issue rdy (decide_eq_true op) (fun m u within => jump_of_within within) (fun m u => by simp) e)

theorem exec_jr_within (op : i.opc = 50 ∧ i.func = 0) (hg : g = fun m s => decide (((s.th m h).gr i.s1).toNat % 4 = 0) && s.inCode h ((s.th m h).gr i.s1).toNat)
    (hf : f = fun m s => (s.updTh m h (fun x => x.setG i.d (BitVec.ofNat 64 (x.pc + i.len)))).retireTo m h ((s.th m h).gr i.s1).toNat) :
    exec (.jr h) s = .next (s.each s.lock (fun s m => f m s)) := by
  subst hg hf
  refine (exec_jr h s).trans (clocked_issue rdy (by simp [op]) (fun m u cond => ?_) (fun m u => by simp) e)
  obtain ⟨aligned, within⟩ := Bool.and_eq_true_iff.1 cond
  exact (if_neg (by simpa using aligned)).trans (jump_of_inCode within)

theorem exec_jr_misaligned (op : i.opc = 50 ∧ i.func = 0) (hg : g = fun m s => ((s.th m h).gr i.s1).toNat % 4 != 0)
    (hf : f = fun m s => s.excAt m h 2 0 (some ((s.th m h).gr i.s1).toNat)) : exec (.jr h) s = .next (s.each s.lock (fun s m => f m s)) := by
  subst hg
  exact (exec_jr h s).trans (clocked_issue_exc rdy (by simp [op]) hf (fun m u odd => if_pos odd) e)

/-- JR.E outside a micro-trap resumes nothing. -/
theorem exec_jrE_plain {ok : Bool} (op : i.opc = 50 ∧ i.func = 1)
    (hg : g = fun m s => decide (((s.th m h).gr i.s1).toNat % 4 = 0) && s.inCode h ((s.th m h).gr i.s1).toNat && !bitOf (s.th m h).status bitMT)
    (hf : f = fun m s => (s.updTh m h (fun x => x.jrE x.status (x.pc + i.len) i.d)).retireTo m h ((s.th m h).gr i.s1).toNat) :
    exec (.jrE h ok) s = .next (s.each s.lock (fun s m => f m s)) := by
  subst hg hf
  refine (exec_jrE h ok s).trans (clocked_issue rdy (by simp [op]) (fun m u cond => ?_) (fun m u => by simp) e)
  obtain ⟨⟨aligned, within⟩, plain⟩ : (((u.th m h).gr i.s1).toNat % 4 = 0 ∧ u.inCode h ((u.th m h).gr i.s1).toNat = true) ∧ bitOf (u.th m h).status bitMT = false := by
    simpa using cond
  simp [aligned, plain, State.when, jump_of_inCode within]

theorem exec_trap_next (op : i.opc = 56) (hf : f = fun m s => s.exc m h { code := 7, info := i.func, epc := (s.th m h).pc + 4 }) :
    exec (.trap h) s = .next (s.each s.lock (fun s m => f m s)) := by
  subst hf
  exact (exec_trap h s).trans (clocked_issue rdy (decide_eq_true op) (fun _ _ _ => rfl) (fun m u => exc_flt ..) e)

theorem exec_fenceM_next (op : i.opc = 57) (hf : f = fun m s => s.retire m h i) : exec (.fenceM h) s = .next (s.each s.lock (fun s m => f m s)) := by
  subst hf
  exact (exec_fenceM h s).trans (clocked_issue rdy (decide_eq_true op) (fun _ _ _ => rfl) (fun m u => retire_flt ..) e)

theorem exec_nop_next (op : i.opc = 63) (hf : f = fun m s => s.retire m h i) : exec (.nop h) s = .next (s.each s.lock (fun s m => f m s)) := by
  subst hf
  exact (exec_nop h s).trans (clocked_issue rdy (decide_eq_true op) (fun _ _ _ => rfl) (fun m u => retire_flt ..) e)

theorem exec_halt_next (op : i.opc = 62) (hf : f = fun m s => (s.retire m h i).thHalt m h 3) : exec (.halt h) s = .next (s.each s.lock (fun s m => f m s)) := by
  subst hf
  exact (exec_halt h s).trans (clocked_issue rdy (decide_eq_true op) (fun _ _ _ => rfl) (fun m u => by simp) e)

theorem exec_scrr_assigned (op : i.opc = 58) (hg : g = fun m s => (s.scrRead m h i.func).isSome)
    (hf : f = fun m s => (s.updTh m h (fun x => x.setG i.d (BitVec.ofNat 64 ((s.scrRead m h i.func).getD 0)))).retire m h i) :
    exec (.scrr h) s = .next (s.each s.lock (fun s m => f m s)) := by
  subst hg
  refine (exec_scrr h s).trans (clocked_issue_thread rdy (decide_eq_true op) hf (fun m u cond => ?_) e)
  obtain ⟨v, read⟩ := Option.isSome_iff_exists.1 cond
  simp [read]

theorem exec_scrr_unassigned (op : i.opc = 58) (hg : g = fun m s => (s.scrRead m h i.func).isNone) (hf : f = fun m s => s.excAt m h 1 58) :
    exec (.scrr h) s = .next (s.each s.lock (fun s m => f m s)) := by
  subst hg
  exact (exec_scrr h s).trans (clocked_issue_exc rdy (decide_eq_true op) hf (fun m u cond => by simp [Option.isNone_iff_eq_none.1 cond]) e)

theorem exec_scrw_plain (op : i.opc = 59 ∧ i.func ≠ 5 ∧ i.func ≠ 64) (hg : g = fun _ _ => (scrMask i.func).isSome)
    (hf : f = fun m s => (s.updTh m h (fun x => x.setScr i.func ((x.gr i.s1).toNat &&& (scrMask i.func).getD 0))).retire m h i) :
    exec (.scrw h) s = .next (s.each s.lock (fun s m => f m s)) := by
  subst hg
  obtain ⟨opc, notMode, notExchange⟩ := op
  refine (exec_scrw h s).trans (clocked_issue_thread rdy (decide_eq_true opc) hf (fun m u cond => ?_) e)
  obtain ⟨k, mask⟩ := Option.isSome_iff_exists.1 cond
  simp only [mask, notMode, notExchange, if_false, Option.getD_some]
  exact congrArg (State.retire · m h i) (updTh_congr rfl)

/-- SCRW of SCR_MODE that leaves D2 as it is. -/
theorem exec_scrw_mode (op : i.opc = 59 ∧ i.func = 5) (hg : g = fun m s => bitOf ((s.th m h).gr i.s1).toNat 1 == (s.th m h).inD2)
    (hf : f = fun m s => (s.updTh m h (fun x => x.setScr scrMode ((((s.th m h).gr i.s1).toNat &&& 1) + 2 * b2n (s.th m h).inD2))).retire m h i) :
    exec (.scrw h) s = .next (s.each s.lock (fun s m => f m s)) := by
  subst hg
  obtain ⟨opc, mode⟩ := op
  refine (exec_scrw h s).trans (clocked_issue_thread rdy (decide_eq_true opc) hf (fun m u same => ?_) e)
  have same : bitOf ((u.th m h).gr i.s1).toNat 1 = (u.th m h).inD2 := beq_iff_eq.1 same
  simp only [mode, scrMask, same, bne_self_eq_false, if_true, Bool.false_eq_true, if_false]
  exact congrArg (State.retire · m h i) (updTh_congr rfl)

theorem exec_scrw_unassigned (op : i.opc = 59) (hg : g = fun _ _ => (scrMask i.func).isNone) (hf : f = fun m s => s.excAt m h 1 59) :
    exec (.scrw h) s = .next (s.each s.lock (fun s m => f m s)) := by
  subst hg
  exact (exec_scrw h s).trans (clocked_issue_exc rdy (decide_eq_true op) hf (fun m u cond => by simp [Option.isNone_iff_eq_none.1 cond]) e)

end Control

/-- Settles O15: each clause is one way through the instruction's step on a member. -/
theorem obrixControl : Obligations.ObrixControl :=
  ⟨fun _ _ _ _ _ rdy op hg hf e => exec_br_taken rdy e op hg hf, fun _ _ _ _ _ rdy op hg hf e => exec_br_untaken rdy e op hg hf,
    fun _ _ _ _ _ rdy op hg hf e => exec_br_outside rdy e op hg hf, fun _ _ _ _ _ rdy op hg hf e => exec_jal_within rdy e op hg hf,
    fun _ _ _ _ _ rdy op hg hf e => exec_jr_within rdy e op hg hf, fun _ _ _ _ _ rdy op hg hf e => exec_jr_misaligned rdy e op hg hf,
    fun _ _ _ _ _ _ rdy op hg hf e => exec_jrE_plain rdy e op hg hf, fun _ _ _ _ _ rdy op _ hf e => exec_trap_next rdy e op hf,
    fun _ _ _ _ _ rdy op _ hf e => exec_fenceM_next rdy e op hf, fun _ _ _ _ _ rdy op _ hf e => exec_nop_next rdy e op hf,
    fun _ _ _ _ _ rdy op _ hf e => exec_halt_next rdy e op hf, fun _ _ _ _ _ rdy op hg hf e => exec_scrr_assigned rdy e op hg hf,
    fun _ _ _ _ _ rdy op hg hf e => exec_scrr_unassigned rdy e op hg hf, fun _ _ _ _ _ rdy op hg hf e => exec_scrw_plain rdy e op hg hf,
    fun _ _ _ _ _ rdy op hg hf e => exec_scrw_mode rdy e op hg hf, fun _ _ _ _ _ rdy op hg hf e => exec_scrw_unassigned rdy e op hg hf⟩

/-! ### Time (R183, R184, R187) -/

theorem isTimeGet_of {op : Nat} {i : OIns} (is : i.opc = 64 ∧ i.func % 8 = op) : isTimeGet op i = true := by
  simp [isTimeGet, is]

theorem isTimeAdd_of {op : Nat} {i : OIns} (is : i.opc = 65 ∧ i.func % 8 = op) : isTimeAdd op i = true := by
  simp [isTimeAdd, is]

section Time

variable {s : State} {h : Thr} {i : OIns} {g : Nat → State → Bool} {f : Nat → State → State} (rdy : s.Ready) (e : inStep h i g f s.lock s = true)
include rdy e

/-- A field of a time value into a general register. -/
theorem clocked_timeField {op lo w : Nat} (is : i.opc = 64 ∧ i.func % 8 = op)
    (hf : f = fun m s => (s.updTh m h (fun x => x.setG i.d (BitVec.ofNat 64 (getField (x.tr i.s1) lo w)))).retire m h i) :
    clocked s (fun s => s.timeField h op lo w) = .next (s.each s.lock (fun s m => f m s)) :=
  clocked_issue_thread rdy (isTimeGet_of is) hf (fun _ _ _ => rfl) e

/-- A time result that there is. -/
theorem clocked_timeResult_some {kind : OIns → Bool} {v : State → Nat → Option RWord} (is : kind i = true) (hg : g = fun m u => (v u m).isSome)
    (hf : f = fun m u => (u.updTh m h (fun x => x.setT i.d ((v u m).getD 0))).retire m h i) {F : OIns → Nat → State → State}
    (acts : ∀ m u, F i m u = u.timeResult m h i (v u m)) : clocked s (fun s => s.issue h kind F) = .next (s.each s.lock (fun s m => f m s)) := by
  subst hg
  refine clocked_issue_thread rdy is hf (fun m u cond => ?_) e
  obtain ⟨t, result⟩ := Option.isSome_iff_exists.1 cond
  rw [acts, result, State.timeResult, Option.getD_some]

/-- A time result that there is not: the TIME exception, with the operation. -/
theorem clocked_timeResult_none {kind : OIns → Bool} {v : State → Nat → Option RWord} {op : Nat} (is : kind i = true) (func : i.func % 8 = op)
    (hg : g = fun m u => (v u m).isNone) (hf : f = fun m u => u.excAt m h 6 op) {F : OIns → Nat → State → State}
    (acts : ∀ m u, F i m u = u.timeResult m h i (v u m)) : clocked s (fun s => s.issue h kind F) = .next (s.each s.lock (fun s m => f m s)) := by
  subst hg
  exact clocked_issue_exc rdy is hf (fun m u cond => by rw [acts, Option.isNone_iff_eq_none.1 cond, State.timeResult, func]) e

/-- TIMEGET.DIFF of two values of one base. -/
theorem exec_timegetDiff_same (is : i.opc = 64 ∧ i.func % 8 = 5) (hg : g = fun m s => decide (tvBase ((s.th m h).tr i.s1) = tvBase ((s.th m h).tr i.s2)))
    (hf : f = fun m s => (s.updTh m h (fun x => x.setG i.d (BitVec.ofInt 64 (timeDiff (x.tr i.s1) (x.tr i.s2))))).retire m h i) :
    exec (.timegetDiff h) s = .next (s.each s.lock (fun s m => f m s)) := by
  subst hg
  exact (exec_timegetDiff h s).trans (clocked_issue_thread rdy (isTimeGet_of is) hf (fun m u same => if_neg (by simpa using same)) e)

theorem exec_timegetDiff_other (is : i.opc = 64 ∧ i.func % 8 = 5) (hg : g = fun m s => !decide (tvBase ((s.th m h).tr i.s1) = tvBase ((s.th m h).tr i.s2)))
    (hf : f = fun m s => s.excAt m h 6 5) : exec (.timegetDiff h) s = .next (s.each s.lock (fun s m => f m s)) := by
  subst hg
  exact (exec_timegetDiff h s).trans (clocked_issue_exc rdy (isTimeGet_of is) hf (fun m u other => if_pos (by simpa using other)) e)

/-- TIMEADD.CMP of two values of one base. -/
theorem exec_timeaddCmp_same (is : i.opc = 65 ∧ i.func % 8 = 3) (hg : g = fun m s => decide (tvBase ((s.th m h).tr i.s1) = tvBase ((s.th m h).tr i.s2)))
    (hf : f = fun m s => (s.updTh m h (fun x => x.setStatus (flagsTime x.status (tvFine (x.tr i.s1)) (tvFine (x.tr i.s2))))).retire m h i) :
    exec (.timeaddCmp h) s = .next (s.each s.lock (fun s m => f m s)) := by
  subst hg
  exact (exec_timeaddCmp h s).trans (clocked_issue_thread rdy (isTimeAdd_of is) hf (fun m u same => if_neg (by simpa using same)) e)

theorem exec_timeaddCmp_other (is : i.opc = 65 ∧ i.func % 8 = 3) (hg : g = fun m s => !decide (tvBase ((s.th m h).tr i.s1) = tvBase ((s.th m h).tr i.s2)))
    (hf : f = fun m s => s.excAt m h 6 3) : exec (.timeaddCmp h) s = .next (s.each s.lock (fun s m => f m s)) := by
  subst hg
  exact (exec_timeaddCmp h s).trans (clocked_issue_exc rdy (isTimeAdd_of is) hf (fun m u other => if_pos (by simpa using other)) e)

/-- WAITT of a time that is past. -/
theorem exec_waitt_past (op : i.opc = 66) (hg : g = fun m s => s.tvPast ((s.th m h).tr i.s1))
    (hf : f = fun m s => (s.updTh m h (fun x => x.setStatus (withL x.status true))).retire m h i) : exec (.waitt h) s = .next (s.each s.lock (fun s m => f m s)) := by
  subst hg
  exact (exec_waitt h s).trans (clocked_issue_thread rdy (decide_eq_true op) hf (fun m u past => if_pos past) e)

/-- WAITT of a time to come waits. -/
theorem exec_waitt_ahead (op : i.opc = 66) (hg : g = fun m s => !s.tvPast ((s.th m h).tr i.s1))
    (hf : f = fun m s => (s.updTh m h (fun x => { x with wait := some (.time ((s.th m h).tr i.s1)) })).setThState m h 2) :
    exec (.waitt h) s = .next (s.each s.lock (fun s m => f m s)) := by
  subst hg hf
  exact (exec_waitt h s).trans (clocked_issue rdy (decide_eq_true op) (fun m u ahead => if_neg (by simpa using ahead)) (fun m u => by simp) e)

theorem exec_trace_next (op : i.opc = 69)
    (hf : f = fun m s => (s.when (bitOf (s.g F.SEQ_TRC_CTL_THR_EN m) h) (fun s => s.trace m h i.func ((s.th m h).gr i.s1))).retire m h i) :
    exec (.trace h) s = .next (s.each s.lock (fun s m => f m s)) := by
  subst hf
  exact (exec_trace h s).trans (clocked_issue rdy (decide_eq_true op) (fun _ _ _ => rfl) (fun m u => by simp) e)

end Time

/-- Settles O16: TIMEGET and TIMEADD write what there is and raise TIME where there is nothing, WAITT goes by the time of its base. -/
theorem obrixTime : Obligations.ObrixTime :=
  ⟨fun s h _ _ _ rdy is _ hf e => (exec_timegetNow h s).trans (clocked_issue_thread rdy (isTimeGet_of is) hf (fun _ _ _ => rfl) e),
    fun s h _ _ _ rdy is _ hf e => (exec_timegetSec h s).trans (clocked_timeField rdy e is hf),
    fun s h _ _ _ rdy is _ hf e => (exec_timegetNs h s).trans (clocked_timeField rdy e is hf),
    fun s h _ _ _ rdy is _ hf e => (exec_timegetFrac h s).trans (clocked_timeField rdy e is hf),
    fun s h _ _ _ rdy is _ hf e => (exec_timegetTbn h s).trans (clocked_timeField rdy e is hf),
    fun _ _ _ _ _ rdy is hg hf e => exec_timegetDiff_same rdy e is hg hf,
    fun _ _ _ _ _ rdy is hg hf e => exec_timegetDiff_other rdy e is hg hf,
    fun s h _ _ _ rdy is hg hf e => (exec_timeadd h s).trans (clocked_timeResult_some rdy e (isTimeAdd_of is) hg hf fun _ _ => rfl),
    fun s h _ _ _ rdy is hg hf e => (exec_timeadd h s).trans (clocked_timeResult_none rdy e (isTimeAdd_of is) is.2 hg hf fun _ _ => rfl),
    fun s h _ _ _ rdy is hg hf e => (exec_timeaddSet h s).trans (clocked_timeResult_some rdy e (isTimeAdd_of is) hg hf fun _ _ => rfl),
    fun s h _ _ _ rdy is hg hf e => (exec_timeaddSet h s).trans (clocked_timeResult_none rdy e (isTimeAdd_of is) is.2 hg hf fun _ _ => rfl),
    fun s h _ _ _ rdy is hg hf e => (exec_timeaddRound h s).trans (clocked_timeResult_some rdy e (isTimeAdd_of is) hg hf fun _ _ => rfl),
    fun s h _ _ _ rdy is hg hf e => (exec_timeaddRound h s).trans (clocked_timeResult_none rdy e (isTimeAdd_of is) is.2 hg hf fun _ _ => rfl),
    fun s h _ _ _ rdy is _ hf e => (exec_timeaddMov h s).trans (clocked_issue_thread rdy (isTimeAdd_of is) hf (fun _ _ _ => rfl) e),
    fun _ _ _ _ _ rdy is hg hf e => exec_timeaddCmp_same rdy e is hg hf,
    fun _ _ _ _ _ rdy is hg hf e => exec_timeaddCmp_other rdy e is hg hf,
    fun _ _ _ _ _ rdy op hg hf e => exec_waitt_past rdy e op hg hf,
    fun _ _ _ _ _ rdy op hg hf e => exec_waitt_ahead rdy e op hg hf,
    fun _ _ _ _ _ rdy op _ hf e => exec_trace_next rdy e op hf⟩

end Sys2Proof.Machine
end

section
/-! PROOF. The layout of a time value. -/

namespace Sys2Proof.Machine

/-- A field of a number that fits a register. -/
theorem getField_ofNat {v : Nat} (lo w : Nat) (fit : v < 2 ^ 96) : getField (BitVec.ofNat 96 v) lo w = v / 2 ^ lo % 2 ^ w := by
  rw [getField, BitVec.toNat_ushiftRight, BitVec.toNat_ofNat, Nat.mod_eq_of_lt fit, Nat.shiftRight_eq_div_pow]

section Layout

variable {sec ns frac base : Nat} (hs : sec < 2 ^ 48) (hn : ns < 2 ^ 30) (hf : frac < 2 ^ 16) (hb : base < 4)
include hs hn hf hb

/-- The fields of R173 lie side by side in a time value. -/
theorem fields_of_layout : getField (BitVec.ofNat 96 (sec * 2 ^ 48 + ns * 2 ^ 18 + frac * 4 + base)) 48 48 = sec ∧
    getField (BitVec.ofNat 96 (sec * 2 ^ 48 + ns * 2 ^ 18 + frac * 4 + base)) 18 30 = ns ∧
    getField (BitVec.ofNat 96 (sec * 2 ^ 48 + ns * 2 ^ 18 + frac * 4 + base)) 2 16 = frac ∧
    getField (BitVec.ofNat 96 (sec * 2 ^ 48 + ns * 2 ^ 18 + frac * 4 + base)) 0 2 = base := by
  have fit : sec * 2 ^ 48 + ns * 2 ^ 18 + frac * 4 + base < 2 ^ 96 := by omega
  refine ⟨?_, ?_, ?_, ?_⟩ <;> rw [getField_ofNat _ _ fit] <;> omega

end Layout

/-- The fields of a time of a base (R173, R268). -/
theorem tvOf_fields (u b : Nat) : getField (tvOf u b) 48 48 = u / secU % 2 ^ 48 ∧ getField (tvOf u b) 18 30 = u % secU / nsU ∧
    getField (tvOf u b) 2 16 = u % nsU / 2 ^ 32 ∧ getField (tvOf u b) 0 2 = b % 4 :=
  fields_of_layout (Nat.mod_lt _ (by decide)) (by rw [secU, nsU]; omega) (by rw [nsU]; omega) (Nat.mod_lt _ (by decide))

/-- Settles O52: the seconds, nanoseconds and fraction are the digits of the time in those units. -/
theorem timeValues : Obligations.TimeValues := by
  intro u b below base
  obtain ⟨sec, ns, frac, num⟩ := tvOf_fields u b
  rw [tvUnits, sec, ns, frac, num]
  unfold tbWrap at below
  unfold secU nsU at *
  omega

end Sys2Proof.Machine
end

section
/-! PROOF. What the core instructions of Obrix leave alone: an instruction with register results all but its thread, a store all but its bytes. -/

namespace Sys2Proof.Machine

/-! ### An instruction of one thread (R170, R171, R190) -/

/-- The thread takes its results and retires. -/
theorem ThreadOnly.updTh_retire (u : State) {m h : Nat} (w : ThrSt → ThrSt) (i : OIns) (hm : m < 2) (hh : h < 16) : ThreadOnly [m] h u ((u.updTh m h w).retire m h i) :=
  (ThreadOnly.updTh u w hm hh).trans (ThreadOnly.retire _ i hm hh)

/-- A member is granted its read, if it makes one, and the thread takes its results and retires. -/
theorem ThreadOnly.ask_updTh_retire (u : State) {m h : Nat} (ask : Option Nat) (w : ThrSt → ThrSt) (i : OIns) (hm : m < 2) (hh : h < 16) :
    ThreadOnly [m] h u (((match ask with | none => u | some q => u.grant q (2 + m)).updTh m h w).retire m h i) := by
  cases ask with
  | none => exact ThreadOnly.updTh_retire u w i hm hh
  | some q => exact (ThreadOnly.grant [m] u h q (2 + m)).trans (ThreadOnly.updTh_retire _ w i hm hh)

/-- So does every member in step. -/
theorem ThreadOnly.each_ask_updTh_retire (s : State) (h : Thr) (i : OIns) (k : Nat → State → Option Nat) (f : Nat → State → ThrSt → ThrSt) :
    ThreadOnly s.lock h s (s.each s.lock (fun u m => ((match k m u with | none => u | some q => u.grant q (2 + m)).updTh m h (f m u)).retire m h i)) :=
  ThreadOnly.each s s.lock _ (lock_nodup s) (fun _ hm => mem_lock hm) h.isLt (fun u m hm _ _ => ThreadOnly.ask_updTh_retire u (k m u) (f m u) i (mem_lock hm) h.isLt)

/-- Whatever does not look at registers, threads and grants is kept. -/
theorem ThreadOnly.keeps {β : Type} (π : State → β) {ms : List Nat} {h : Nat} {s t : State} (only : ThreadOnly ms h s t)
    (blind : ∀ x : State, π { s with regs := x.regs, hw := x.hw, seq.thr := x.seq.thr, lat.last := x.lat.last, lat.since := x.lat.since } = π s) : π t = π s :=
  (congrArg π only.rest).trans (blind t)

theorem ThreadOnly.ite {ms : List Nat} {h : Nat} {s t u : State} {c : Prop} [Decidable c] (a : ThreadOnly ms h s t) (b : ThreadOnly ms h s u) :
    ThreadOnly ms h s (if c then t else u) := by
  split
  · exact a
  · exact b

section Results

variable {s : State} {h : Thr} (rdy : s.Ready) (good : s.ueWords = []) (ie : ∀ m ∈ s.lock, bitOf (s.th m h).status bitIE = true)
include rdy good ie

/-- An instruction that in each member leaves alone all but its thread. -/
theorem clocked_issue_threadOnly {kind : OIns → Bool} {F : OIns → Nat → State → State}
    (own : ∀ i m u, m < 2 → bitOf (u.th m h).status bitIE = true → ThreadOnly [m] h u (F i m u)) :
    ∃ t, clocked s (fun s => s.issue h kind F) = .next t ∧ ThreadOnly s.lock h s t := by
  have only := ThreadOnly.issue kind F h.isLt good ie own
  exact ⟨_, clocked_eq rdy rfl (only.keeps State.flt fun _ => rfl), only⟩

theorem clocked_updTh_retire_threadOnly {kind : OIns → Bool} {w : OIns → Nat → State → ThrSt → ThrSt} :
    ∃ t, clocked s (fun s => s.issue h kind (fun i m u => (u.updTh m h (w i m u)).retire m h i)) = .next t ∧ ThreadOnly s.lock h s t :=
  clocked_issue_threadOnly rdy good ie fun i _ u hm _ => ThreadOnly.updTh_retire u _ i hm h.isLt

theorem clocked_alu_threadOnly {opc : Nat} {res : ThrSt → OIns → W64 × Nat} : ∃ t, clocked s (fun s => s.alu h opc res) = .next t ∧ ThreadOnly s.lock h s t :=
  clocked_updTh_retire_threadOnly rdy good ie

theorem execNop_threadOnly : ∃ t, execNop h s = .next t ∧ ThreadOnly s.lock h s t :=
  clocked_issue_threadOnly rdy good ie fun i _ u hm _ => ThreadOnly.retire u i hm h.isLt

theorem execScrr_threadOnly : ∃ t, execScrr h s = .next t ∧ ThreadOnly s.lock h s t := by
  refine clocked_issue_threadOnly rdy good ie fun i m u hm on => ?_
  split
  · exact ThreadOnly.exc u _ hm h.isLt on
  · exact ThreadOnly.updTh_retire u _ i hm h.isLt

theorem execTimegetDiff_threadOnly : ∃ t, execTimegetDiff h s = .next t ∧ ThreadOnly s.lock h s t :=
  clocked_issue_threadOnly rdy good ie fun i _ u hm on => ThreadOnly.ite (ThreadOnly.exc u _ hm h.isLt on) (ThreadOnly.updTh_retire u _ i hm h.isLt)

theorem execTimeaddCmp_threadOnly : ∃ t, execTimeaddCmp h s = .next t ∧ ThreadOnly s.lock h s t :=
  clocked_issue_threadOnly rdy good ie fun i _ u hm on => ThreadOnly.ite (ThreadOnly.exc u _ hm h.isLt on) (ThreadOnly.updTh_retire u _ i hm h.isLt)

/-- TIMEADD in each of its forms with a result, which may be none. -/
theorem clocked_timeResult_threadOnly {kind : OIns → Bool} {v : OIns → Nat → State → Option RWord} :
    ∃ t, clocked s (fun s => s.issue h kind (fun i m u => u.timeResult m h i (v i m u))) = .next t ∧ ThreadOnly s.lock h s t := by
  refine clocked_issue_threadOnly rdy good ie fun i m u hm on => ?_
  cases v i m u with
  | none => exact ThreadOnly.exc u _ hm h.isLt on
  | some t => exact ThreadOnly.updTh_retire u _ i hm h.isLt

end Results

/-- A member whose load meets no unused offset of the Map Store is granted its read and nothing else. -/
theorem thrAsk_of_used {s : State} {m k n : Nat} (used : (List.range n).any (fun j => thrTarget (k + j) = 3 && mapUnused (k + j - mapBase)) = false) :
    s.thrAsk m k n = s.grant (thrTarget k) (2 + m) := by
  have none : (List.range n).find? (fun j => thrTarget (k + j) = 3 && mapUnused (k + j - mapBase)) = none :=
    List.find?_eq_none.2 fun j hj => by simpa using List.any_eq_false.1 used j hj
  rw [State.thrAsk, none]

/-- A load at an aligned, mapped address that is no unused offset and meets no uncorrectable word. -/
theorem clocked_loadOp_used {s : State} {h : Thr} {opc n : Nat} {i : OIns} {g : Nat → State → Bool} {f : Nat → State → State} (rdy : s.Ready) (op : i.opc = opc)
    (hg : g = fun m u => decide (memAddr (u.th m h) i % n = 0) && (match threadAddr h (memAddr (u.th m h) i) with
      | some (k, _) => (u.ueIn k n).isNone && !(List.range n).any (fun j => thrTarget (k + j) = 3 && mapUnused (k + j - mapBase)) | none => false))
    (hf : f = fun m u => ((u.grant (thrTarget ((threadAddr h (memAddr (u.th m h) i)).getD (0, false)).1) (2 + m)).updTh m h (fun x =>
      x.setG i.d (BitVec.ofNat 64 (leNat (u.bar2Bytes ((threadAddr h (memAddr (u.th m h) i)).getD (0, false)).1 n))))).retire m h i)
    (e : inStep h i g f s.lock s = true) : clocked s (fun s => s.loadOp h opc n) = .next (s.each s.lock (fun s m => f m s)) := by
  refine clocked_eq rdy (loadOp_eq (ask := fun m k u => u.grant (thrTarget k) (2 + m)) op (fun m u cond => ?_) hf e)
    (eachMember_flt _ _ _ (fun m u => by rw [hf]; simp))
  subst hg
  obtain ⟨aligned, mapped⟩ := Bool.and_eq_true_iff.1 cond
  cases place : threadAddr h (memAddr (u.th m h) i) with
  | none => simp [place] at mapped
  | some x =>
    rw [place] at mapped
    obtain ⟨correct, used⟩ := Bool.and_eq_true_iff.1 mapped
    exact ⟨of_decide_eq_true aligned, x.1, x.2, rfl, Option.isNone_iff_eq_none.1 correct, thrAsk_of_used (Bool.not_eq_true' _ ▸ used)⟩

/-- Settles O55: each step of a member writes the state of its thread alone, besides the order of the Lattice's grants. -/
theorem resultFrames : Obligations.ResultFrames := by
  refine ⟨fun s h c rdy good ie mem => ?registers, fun s h i n g f c rdy load hg hf e => ?load, ThreadOnly.each_ask_updTh_retire, fun s t h i k f ht => ?rest⟩
  case registers =>
    have alu : ∀ opc res, ∃ t, clocked s (fun s => s.alu h opc res) = .next t ∧ ThreadOnly s.lock h s t := fun _ _ => clocked_alu_threadOnly rdy good ie
    have plain := fun kind w => clocked_updTh_retire_threadOnly (kind := kind) (w := w) rdy good ie
    have result := fun kind v => clocked_timeResult_threadOnly (kind := kind) (v := v) rdy good ie
    revert c
    simp only [List.forall_mem_cons, exec_add, exec_sub, exec_and, exec_or, exec_xor, exec_shl, exec_shr, exec_sar, exec_mul, exec_min, exec_max, exec_cmp, exec_addi, exec_andi, exec_ori, exec_lui, exec_nop, exec_scrr, exec_timegetNow, exec_timegetSec, exec_timegetNs, exec_timegetFrac, exec_timegetTbn, exec_timegetDiff, exec_timeadd, exec_timeaddSet, exec_timeaddMov, exec_timeaddCmp, exec_timeaddRound]
    exact ⟨alu _ _, alu _ _, alu _ _, alu _ _, alu _ _, alu _ _, alu _ _, alu _ _, alu _ _, alu _ _, alu _ _, alu _ _, alu _ _, alu _ _, alu _ _, alu _ _,
      execNop_threadOnly rdy good ie, execScrr_threadOnly rdy good ie, plain _ _, plain _ _, plain _ _, plain _ _, plain _ _, execTimegetDiff_threadOnly rdy good ie,
      result _ _, result _ _, plain _ _, execTimeaddCmp_threadOnly rdy good ie, result _ _, fun _ none => absurd none List.not_mem_nil⟩
  case load =>
    refine ⟨?_, ?_⟩
    · rcases load with ⟨rfl, rfl, op⟩ | ⟨rfl, rfl, op⟩ | ⟨rfl, rfl, op⟩ | ⟨rfl, rfl, op⟩
      · exact (exec_ld8 h s).trans (clocked_loadOp_used rdy op hg hf e)
      · exact (exec_ld16 h s).trans (clocked_loadOp_used rdy op hg hf e)
      · exact (exec_ld32 h s).trans (clocked_loadOp_used rdy op hg hf e)
      · exact (exec_ld64 h s).trans (clocked_loadOp_used rdy op hg hf e)
    · subst hf
      exact ThreadOnly.each_ask_updTh_retire s h i (fun m u => some (thrTarget ((threadAddr h (memAddr (u.th m h) i)).getD (0, false)).1)) _
  case rest =>
    subst ht
    have only := ThreadOnly.each_ask_updTh_retire s h i k f
    have keeps {β : Type} (π : State → β) := only.keeps π
    exact ⟨⟨keeps State.mem fun _ => rfl, keeps State.hostOut fun _ => rfl, keeps State.af fun _ => rfl, keeps State.mon fun _ => rfl, keeps State.le fun _ => rfl, keeps State.rtu fun _ => rfl, keeps State.rot fun _ => rfl, keeps State.brs fun _ => rfl, keeps State.twin fun _ => rfl, keeps State.tm fun _ => rfl, keeps State.pci fun _ => rfl, keeps State.dma fun _ => rfl, keeps State.evt fun _ => rfl, keeps State.flt fun _ => rfl, keeps State.pwr fun _ => rfl, keeps State.thm fun _ => rfl, keeps State.cal fun _ => rfl, keeps State.tst fun _ => rfl, keeps State.pending fun _ => rfl, keeps State.cycle fun _ => rfl, keeps State.clk fun _ => rfl⟩,
      fun m q other => only.threads m q m.isLt q.isLt (.inr (Fin.val_ne_of_ne other)), only.words⟩

/-! ### A store: the bytes of the lease holder (R175, R176) -/

/-- Writes bytes from an address on, but those that the host has written. -/
def Memory.wrUnless (host : Nat → Bool) (m : List Host.Cell) (a : Nat) (bs : List Byte) : List Host.Cell :=
  match bs with
  | [] => m
  | b :: t => Memory.wrUnless host (if host a then m else Memory.wr m a b) (a + 1) t

theorem Memory.wf_wrUnless (host : Nat → Bool) (bs : List Byte) (m : List Host.Cell) (a : Nat) (h : Memory.wf m) : Memory.wf (Memory.wrUnless host m a bs) := by
  induction bs generalizing m a with
  | nil => exact h
  | cons b t ih =>
    refine ih _ _ ?_
    split
    · exact h
    · exact Memory.wf_wr m a b h

/-- Bytes outside those written stand. -/
theorem Memory.rd_wrUnless_other (host : Nat → Bool) (bs : List Byte) (m : List Host.Cell) (a c : Nat) (h : c < a ∨ a + bs.length ≤ c) :
    Memory.rd (Memory.wrUnless host m a bs) c = Memory.rd m c := by
  induction bs generalizing m a with
  | nil => rfl
  | cons b t ih =>
    rw [List.length_cons] at h
    rw [Memory.wrUnless, ih _ _ (by omega)]
    split
    · rfl
    · exact Memory.rd_wr_other m b (by omega)

/-- So do the host's. -/
theorem Memory.rd_wrUnless_host {host : Nat → Bool} {c : Nat} (h : host c = true) (bs : List Byte) (m : List Host.Cell) (a : Nat) :
    Memory.rd (Memory.wrUnless host m a bs) c = Memory.rd m c := by
  induction bs generalizing m a with
  | nil => rfl
  | cons b t ih =>
    rw [Memory.wrUnless, ih]
    split
    · rfl
    · rename_i free
      exact Memory.rd_wr_other m b (fun e => free (e ▸ h))

/-- The others written are read back. -/
theorem Memory.rd_wrUnless_same {host : Nat → Bool} (bs : List Byte) (m : List Host.Cell) (a k : Nat) (hk : k < bs.length) (free : host (a + k) = false) :
    Memory.rd (Memory.wrUnless host m a bs) (a + k) = bs[k] := by
  induction bs generalizing m a k with
  | nil => simp at hk
  | cons b t ih =>
    rw [Memory.wrUnless]
    cases k with
    | zero =>
      rw [Nat.add_zero] at free ⊢
      rw [Memory.rd_wrUnless_other _ _ _ _ _ (by omega), if_neg (ne_true_of_eq_false free)]
      exact Memory.rd_wr_same m a b
    | succ k =>
      rw [show a + (k + 1) = a + 1 + k by omega] at free ⊢
      exact ih _ _ k (by simpa using hk) free

/-- The host has written the byte in this cycle. -/
def State.hostWrote (s : State) (a : Nat) : Bool := s.seq.dmHost.contains (a, s.cycle)

/-- What a store looks at besides the memory: its registers and threads, and the host's writes of the cycle. -/
def State.core (s : State) : Map RWord × SeqSt × Nat := (s.regs, s.seq, s.cycle)

section Core

variable {s u : State} (same : u.core = s.core)
include same

theorem th_of_core (m h : Nat) : u.th m h = s.th m h := congrArg (fun c : Map RWord × SeqSt × Nat => Map.look c.2.1.thr (thKey m h) {}) same

theorem word_of_core (r : Reg) (i j : Nat) : u.word r i j = s.word r i j := word_of_regs (congrArg Prod.fst same) r i j

theorem hostWrote_of_core : u.hostWrote = s.hostWrote := congrArg (fun c : Map RWord × SeqSt × Nat => fun a => c.2.1.dmHost.contains (a, c.2.2)) same

end Core

theorem dmByte_core (s : State) (a : Nat) (b : Byte) : (s.dmByte a b).core = s.core := by
  unfold State.dmByte
  split <;> rfl

theorem dmStore_core (s : State) (a : Nat) (bs : List Byte) : (s.dmStore a bs).core = s.core :=
  each_keep State.core (fun u (e : Nat × Byte) => u.dmByte (a + e.1) e.2) (fun u _ => dmByte_core u _ _) s _

theorem passBeats_core (k : Nat) (s : State) (x : Nat) (bs : List Byte) : (s.passBeats x k bs).core = s.core ∧ (s.passBeats x k bs).mem = s.mem := by
  induction k generalizing s bs with
  | zero => exact ⟨rfl, rfl⟩
  | succ k ih => exact ih _ _

theorem passEffect_core (s : State) (x : Nat) (bs : List Byte) : (s.passEffect x bs).core = s.core := (passBeats_core _ s x bs).1
theorem passEffect_mem (s : State) (x : Nat) (bs : List Byte) : (s.passEffect x bs).mem = s.mem := (passBeats_core _ s x bs).2

theorem dmByte_mem (s : State) (a : Nat) (b : Byte) : (s.dmByte a b).mem = if s.hostWrote a then s.mem else Memory.wr s.mem a b := by
  unfold State.dmByte State.hostWrote
  split <;> rfl

theorem each_dmByte_mem (bs : List Byte) (s : State) (a j : Nat) :
    (s.each ((List.range' j bs.length).zip bs) (fun s e => s.dmByte (a + e.1) e.2)).mem = Memory.wrUnless s.hostWrote s.mem (a + j) bs := by
  induction bs generalizing s j with
  | nil => rfl
  | cons b t ih =>
    rw [List.length_cons, List.range'_succ, List.zip_cons_cons, Memory.wrUnless, ← dmByte_mem, ← hostWrote_of_core (dmByte_core s (a + j) b)]
    exact ih (s.dmByte (a + j) b) (j + 1)

theorem dmStore_mem (s : State) (a : Nat) (bs : List Byte) : (s.dmStore a bs).mem = Memory.wrUnless s.hostWrote s.mem a bs := by
  have bytes := each_dmByte_mem bs s a 0
  rw [← List.range_eq_range'] at bytes
  exact bytes

@[simp] theorem length_leBytes (n v : Nat) : (leBytes n v).length = n := by
  induction n generalizing v with
  | zero => rfl
  | succ n ih => rw [leBytes, List.length_cons, ih]

section Store

variable (h : Nat) (i : OIns) (n : Nat)

/-- Where thread h of a member stores, and what. -/
def State.storeAt (s : State) (m : Nat) : Nat := dmBase h + memAddr (s.th m h) i
def State.storeBytes (s : State) (m : Nat) : List Byte := leBytes n ((s.th m h).gr i.d).toNat

/-- The store as its member makes it, before it retires. -/
def State.storeGate (s : State) (m : Nat) : State :=
  s.when (s.holds 0 m) (fun v => ((v.grant (thrTarget (v.storeAt h i m)) (2 + m)).dmStore (v.storeAt h i m) (v.storeBytes h i n m)).passEffect 0
    (leBytes 8 (memAddr (v.th m h) i) ++ v.storeBytes h i n m))

theorem storeGate_core (s : State) (m : Nat) : (s.storeGate h i n m).core = s.core :=
  when_keep State.core _ (fun v => (passEffect_core _ _ _).trans (dmStore_core (v.grant (thrTarget (v.storeAt h i m)) (2 + m)) _ _)) s _

theorem storeGate_mem (s : State) (m : Nat) :
    (s.storeGate h i n m).mem = if s.holds 0 m then Memory.wrUnless s.hostWrote s.mem (s.storeAt h i m) (s.storeBytes h i n m) else s.mem := by
  unfold State.storeGate State.when
  split
  · rw [passEffect_mem, dmStore_mem]
    rfl
  · rfl

end Store

/-- What the stores of the members ms look at stands in u as in s: their threads, who holds the token, and the host's writes of the cycle. -/
structure StoreView (h : Nat) (ms : List Nat) (s u : State) : Prop where
  threads : ∀ m ∈ ms, u.th m h = s.th m h
  holder : ∀ m, u.holds 0 m = s.holds 0 m
  host : u.hostWrote = s.hostWrote

section StoreSteps

variable {h : Nat} {i : OIns} {n : Nat}

theorem retire_hostWrote (s : State) (m : Nat) (i : OIns) : (s.retire m h i).hostWrote = s.hostWrote :=
  retire_keeps State.hostWrote (fun _ _ _ _ _ _ => rfl) (fun _ _ _ _ => rfl) s m h i

theorem retire_mem (s : State) (m : Nat) (i : OIns) : (s.retire m h i).mem = s.mem :=
  retire_keeps State.mem (fun _ _ _ _ _ _ => rfl) (fun _ _ _ _ => rfl) s m h i

theorem holds_of_word {s u : State} (k : u.word R.SEQ_LEASE_STAT 0 0 = s.word R.SEQ_LEASE_STAT 0 0) (m : Nat) : u.holds 0 m = s.holds 0 m := by
  unfold State.holds State.noHolder State.holder State.pg State.g
  simp only [if_true]
  rw [show F.SEQ_LEASE_STAT_NOHOLDER.reg = R.SEQ_LEASE_STAT from rfl, show F.SEQ_LEASE_STAT_HOLDER.reg = R.SEQ_LEASE_STAT from rfl, k]

theorem StoreView.storeAt {ms : List Nat} {s u : State} {m : Nat} (view : StoreView h ms s u) (hm : m ∈ ms) : u.storeAt h i m = s.storeAt h i m :=
  congrArg (fun x => dmBase h + memAddr x i) (view.threads m hm)

theorem StoreView.storeBytes {ms : List Nat} {s u : State} {m : Nat} (view : StoreView h ms s u) (hm : m ∈ ms) : u.storeBytes h i n m = s.storeBytes h i n m :=
  congrArg (fun x : ThrSt => leBytes n (x.gr i.d).toNat) (view.threads m hm)

/-- A step of another member keeps the view of those to come. -/
theorem StoreView.step {s : State} {m : Nat} {ms : List Nat} (hm : m < 2) (hh : h < 16) (below : ∀ x ∈ ms, x < 2) (new : m ∉ ms) :
    StoreView h ms s ((s.storeGate h i n m).retire m h i) where
  threads x hx := by
    have other : thKey x h ≠ thKey m h := by
      have : x ≠ m := fun e => new (e ▸ hx)
      have := below x hx
      unfold thKey
      omega
    rw [th_retire_other _ _ _ _ _ _ other]
    exact th_of_core (storeGate_core h i n s m) x h
  holder x := by
    refine holds_of_word ?_ x
    rw [retire_word _ _ _ _ _ _ _ (by omega) (by omega) (by decide) (by decide) (by decide) (by decide) (by decide)]
    exact word_of_core (storeGate_core h i n s m) _ _ _
  host := (retire_hostWrote _ _ _).trans (hostWrote_of_core (storeGate_core h i n s m))

/-- At most one member holds the token. -/
theorem holds_unique {s : State} {m k : Nat} (a : s.holds 0 m = true) (b : s.holds 0 k = true) : m = k := by
  unfold State.holds at a b
  simp only [Bool.and_eq_true, decide_eq_true_eq] at a b
  exact a.2.symm.trans b.2

/-- The stores of members none of which holds the token write no byte. -/
theorem each_store_mem_of_none {ms : List Nat} (s : State) (hh : h < 16) (nodup : ms.Nodup) (below : ∀ m ∈ ms, m < 2) (none : ∀ m ∈ ms, s.holds 0 m = false) :
    (s.each ms (fun u m => (u.storeGate h i n m).retire m h i)).mem = s.mem := by
  induction ms generalizing s with
  | nil => rfl
  | cons m t ih =>
    obtain ⟨new, rest⟩ := List.nodup_cons.1 nodup
    have hm := below m List.mem_cons_self
    have below' := fun x hx => below x (List.mem_cons_of_mem m hx)
    have view : StoreView h t s ((s.storeGate h i n m).retire m h i) := StoreView.step hm hh below' new
    refine (ih _ rest below' fun x hx => (view.holder x).trans (none x (List.mem_cons_of_mem m hx))).trans ?_
    rw [retire_mem, storeGate_mem, none m List.mem_cons_self]
    rfl

/-- Where one of the members holds the token, its bytes are written. -/
theorem each_store_mem_of_holder {ms : List Nat} {k : Nat} (s : State) (hh : h < 16) (nodup : ms.Nodup) (below : ∀ m ∈ ms, m < 2) (mem : k ∈ ms) (holds : s.holds 0 k = true) :
    (s.each ms (fun u m => (u.storeGate h i n m).retire m h i)).mem = Memory.wrUnless s.hostWrote s.mem (s.storeAt h i k) (s.storeBytes h i n k) := by
  induction ms generalizing s with
  | nil => simp at mem
  | cons m t ih =>
    obtain ⟨new, rest⟩ := List.nodup_cons.1 nodup
    have hm := below m List.mem_cons_self
    have below' := fun x hx => below x (List.mem_cons_of_mem m hx)
    have view : StoreView h t s ((s.storeGate h i n m).retire m h i) := StoreView.step hm hh below' new
    rcases List.mem_cons.1 mem with rfl | later
    · refine (each_store_mem_of_none (ms := t) _ hh rest below' fun x hx => (view.holder x).trans (Bool.eq_false_iff.2 fun y => new (holds_unique holds y ▸ hx))).trans ?_
      rw [retire_mem, storeGate_mem, if_pos holds]
    · have apart : s.holds 0 m = false := Bool.eq_false_iff.2 fun y => new (holds_unique holds y ▸ later)
      refine (ih _ rest below' later ((view.holder k).trans holds)).trans ?_
      rw [retire_mem, storeGate_mem, apart, view.host, view.storeAt later, view.storeBytes later]
      rfl

end StoreSteps

/-- Settles O56: the members' steps write the holder's bytes, but the host's, and nothing else. -/
theorem storeFrames : Obligations.StoreFrames := by
  intro s h i n g f c rdy store hg hf e
  have next : exec c s = .next (s.each s.lock (fun s m => f m s)) := by
    rcases store with ⟨rfl, rfl, op⟩ | ⟨rfl, rfl, op⟩ | ⟨rfl, rfl, op⟩ | ⟨rfl, rfl, op⟩
    · exact (exec_st8 h s).trans (clocked_storeOp rdy op hg hf e)
    · exact (exec_st16 h s).trans (clocked_storeOp rdy op hg hf e)
    · exact (exec_st32 h s).trans (clocked_storeOp rdy op hg hf e)
    · exact (exec_st64 h s).trans (clocked_storeOp rdy op hg hf e)
  obtain rfl : f = fun m u => (u.storeGate h i n m).retire m h i := hf
  have below : ∀ m ∈ s.lock, m < 2 := fun m hm => mem_lock hm
  refine ⟨_, next, ?_⟩
  unfold State.MemOk
  by_cases some : ∃ k ∈ s.lock, s.holds 0 k = true
  case neg =>
    have none : ∀ m ∈ s.lock, s.holds 0 m = false := fun m hm => Bool.eq_false_iff.2 fun y => some ⟨m, hm, y⟩
    rw [each_store_mem_of_none s h.isLt (lock_nodup s) below none]
    exact ⟨id, fun _ _ => rfl, fun m hm y => absurd y (ne_true_of_eq_false (none m hm))⟩
  case pos =>
    obtain ⟨k, hk, holds⟩ := some
    rw [each_store_mem_of_holder s h.isLt (lock_nodup s) below hk holds]
    refine ⟨Memory.wf_wrUnless _ _ _ _, fun a outside => ?_, fun m hm y j hj => ?_⟩
    · exact Memory.rd_wrUnless_other _ _ _ _ _ (by simpa [State.storeAt, State.storeBytes] using outside k hk holds)
    · obtain rfl : m = k := holds_unique y holds
      have fits : j < (s.storeBytes h i n m).length := by simpa [State.storeBytes] using hj
      refine ⟨fun free => ?_, fun host => Memory.rd_wrUnless_host host _ _ _⟩
      have byte : (s.storeBytes h i n m).getD j 0 = (s.storeBytes h i n m)[j] := by
        rw [List.getD_eq_getElem?_getD, List.getElem?_eq_getElem fits, Option.getD_some]
      exact (Memory.rd_wrUnless_same _ _ _ j fits free).trans byte.symm

end Sys2Proof.Machine
end

section
/-! PROOF. Threads: waits and their ends, events, D2 code, thread control, the Program Store, the data-memory window and the code ranges. -/

namespace Sys2Proof.Machine

/-! ### WAITT and WAITE (R184, R185) -/

section Waits

variable {s : State} {h : Nat}

theorem waittWake_of_time {t : RWord} (waits : (s.leadTh h).wait = some (.time t)) :
    waittWake h s = if s.hasLead && s.tvReached t then s.wake h (fun s => s.lAll h false) else s := by
  rw [waittWake, waits]

/-- What ends a wait is judged by the state that it finds. -/
theorem wake_congr {f f' : State → State} (e : f s = f' s) : s.wake h f = s.wake h f' := by
  unfold State.wake
  rw [e]

theorem waiteWake_of_event {d mask : Nat} {clear : Bool} (waits : (s.leadTh h).wait = some (.event d mask clear none)) :
    waiteWake h s = if s.hasLead && s.watched h &&& mask != 0 then s.wake h (fun u => u.waiteEnd h d (u.watched h &&& mask) clear) else s := by
  rw [waiteWake, waits]
  dsimp only
  rw [Bool.or_false, wake_congr (f' := fun u => u.waiteEnd h d (u.watched h &&& mask) clear) rfl]

variable {i : OIns} {mask : Nat} (op : i.opc = 0x43) (issued : s.leadIssues h i = true) (operand : mask = ((s.leadTh h).gr i.s1).toNat)
include op issued operand

theorem waiteOp_of_forbidden (forbidden : mask &&& s.g F.EVT_PERM_WATCH_VAL h ≠ mask) : waiteOp h s = s.excAll h 0x03 0 none := by
  subst operand
  exact (issueSw_eq (decide_eq_true op) issued).trans (if_pos (by simpa using forbidden))

theorem waiteOp_of_set (permitted : mask &&& s.g F.EVT_PERM_WATCH_VAL h = mask) (set : s.watched h &&& mask ≠ 0) :
    waiteOp h s = (s.waiteEnd h i.d (s.watched h &&& mask) (bitOf i.func 0)).retireAll h i := by
  subst operand
  refine (issueSw_eq (decide_eq_true op) issued).trans ((if_neg (by simpa using permitted)).trans (if_pos ?_))
  simp [set]

theorem waiteOp_of_clear (permitted : mask &&& s.g F.EVT_PERM_WATCH_VAL h = mask) (clear : s.watched h &&& mask = 0) (endless : bitOf i.func 1 = false) :
    waiteOp h s = s.waitAll h (.event i.d mask (bitOf i.func 0) none) true := by
  subst operand
  refine (issueSw_eq (decide_eq_true op) issued).trans ((if_neg (by simpa using permitted)).trans ((if_neg ?_).trans ?_))
  · simp [clear, endless]
  · simp [endless]

end Waits

/-! ### Events (R186, R188, R190) -/

section Events

variable {s : State} {h : Nat}

/-- The channel that EVRAISE names. -/
def State.raisedChannel (s : State) (h : Nat) (i : OIns) : Nat := if 64 ≤ i.func then i.func % 64 else ((s.leadTh h).gr i.s1).toNat % 64

theorem evraiseOp_eq {i : OIns} (op : i.opc = 0x44) (issued : s.leadIssues h i = true) :
    evraiseOp h s = if bitOf (s.g F.EVT_PERM_RAISE_VAL h) (s.raisedChannel h i) then (s.occur (256 + s.raisedChannel h i)).retireAll h i else s.excAll h 0x03 0 none := by
  refine (issueSw_eq (decide_eq_true op) issued).trans ?_
  unfold State.raisedChannel
  dsimp only
  cases bitOf (s.g F.EVT_PERM_RAISE_VAL h) (if 64 ≤ i.func then i.func % 64 else ((s.leadTh h).gr i.s1).toNat % 64) <;> rfl

@[simp] theorem abandon_flt (s : State) (m h : Nat) : (s.abandon m h).flt = s.flt := abandon_keeps State.flt (fun _ _ => rfl) s m h

variable {m : Nat}

theorem enterEvent_of_none (none : s.takeable m h = 0) : s.enterEvent m h = s := by
  simp [State.enterEvent, none]

theorem enterEvent_of_takeable (takes : s.takeable m h ≠ 0) (native : (s.th m h).inD2 = false)
    (boundary : (s.thState m h = 1 ∧ (s.th m h).wait = none) ∨ s.thState m h = 2) :
    s.enterEvent m h = (((s.abandon m h).updTh m h (fun x => x.enter { code := 0x10, info := lowestBit (s.takeable m h), epc := x.pc })).setThState m h 1).put
      F.SEQ_THR_STAT_CAUSE 0x10 m h := by
  refine if_neg ?_
  rcases boundary with ⟨running, free⟩ | waiting
  · simp [takes, native, running, free]
  · simp [takes, native, waiting]

end Events

/-! ### D2 code (R191, R192) -/

/-- The registers and flags that a D2 instruction leaves. -/
def ThrSt.afterD2 (x : ThrSt) (e : D2Effect) : ThrSt :=
  let y := e.t.foldl (fun x y => x.setT y.1.val y.2) (e.g.foldl (fun x y => x.setG y.1.val y.2) x)
  { y.setStatus (y.status / 32 * 32 + e.flags.toNat) with d2 := {} }

/-- A micro-trap enters the handler of the lowest of the channels v with MT = 1. -/
def ThrSt.microTrapped (x : ThrSt) (v : Nat) : ThrSt :=
  let y := x.enter { code := 0x10, info := lowestBit v, epc := x.pc }
  { y.setStatus (orBit y.status bitMT) with d2 := {} }

section D2

variable {s : State} {h m : Nat} (single : s.lock = [m])
include single

theorem d2Instruction_of_plain {e : D2Effect} {u : State} (hu : u = s.updTh m h (fun x => x.afterD2 e)) (runs : s.d2Runs m h = true)
    (fetched : s.fetchBad h (s.th m h).pc (s.th m h).pc = none) (plain : e.switching = false) :
    d2Instruction h e s = (u.when (u.holds 0 m) (fun w =>
      ((w.when (!e.stores.isEmpty) (fun x => x.grant 4 (2 + m))).dmStores (e.stores.map (fun y => (dmBase h + y.1.val, y.2)))).passEffect 0
        (e.stores.map (fun y => y.2)))).retireTo m h e.pc.toNat := by
  subst hu
  unfold ThrSt.afterD2
  rw [d2Instruction, single]
  simp [State.each, runs, fetched, plain]

variable {upc : BitVec 13} {step : W64} {ut : List W64} {tt : List RWord}

theorem d2MicroTrap_of_none (none : s.takeable m h = 0) : d2MicroTrap h upc step ut tt s = s := by
  rw [d2MicroTrap, single]
  simp [State.each, none]

theorem d2MicroTrap_of_takeable {f : List Byte} (frame : f = frameBytes (s.th m h) (s.microMatch 0 m upc.toNat) step.toNat ut tt) (takes : s.takeable m h ≠ 0)
    (runs : s.d2Runs m h = true) (fetched : s.fetchBad h (s.th m h).pc (s.th m h).pc = none) :
    d2MicroTrap h upc step ut tt s = ((s.when (s.holds 0 m) (fun u => ((u.grant 4 (2 + m)).dmStore (frameAddr h (s.th m h)) f).passEffect 0 f)).updTh m h
      (fun x => x.microTrapped (s.takeable m h))).put F.SEQ_THR_STAT_CAUSE 0x10 m h := by
  subst frame
  unfold ThrSt.microTrapped
  rw [d2MicroTrap, single]
  simp [State.each, runs, fetched, takes]

end D2

/-! ### Thread control (R171, R177) -/

section Control

variable {s : State} {h m : Nat} (single : s.lock = [m])

theorem threadStart_of_quiet (quiet : s.quiet = true) : threadStart h s = s := if_pos quiet

theorem threadStart_of_awake (awake : s.quiet = false) : threadStart h s = s.each s.lock (fun s m => s.startTh m h) :=
  if_neg (ne_true_of_eq_false awake)

include single

/-- A thread at a boundary stops and is redirected at once. -/
theorem threadStop_of_free (running : s.thState m h = 1) (free : (s.th m h).wait = none) : threadStop h s = s.thStop m h := by
  rw [threadStop, single]
  simp [State.each, State.stopTh, running, free]

theorem threadRedirect_of_free (running : s.thState m h = 1) (free : (s.th m h).wait = none) : threadRedirect h s = s.thRedirect m h := by
  rw [threadRedirect, single]
  simp [State.each, running, free]

/-- One in a staging instruction is asked to. -/
theorem threadStop_of_staging {x : WaitOp} (running : s.thState m h = 1) (staging : (s.th m h).wait = some x) :
    threadStop h s = s.updTh m h (fun x => { x with stop := true }) := by
  rw [threadStop, single]
  simp [State.each, State.stopTh, running, staging]

theorem threadRedirect_of_staging {x : WaitOp} (running : s.thState m h = 1) (staging : (s.th m h).wait = some x) :
    threadRedirect h s = s.updTh m h (fun x => { x with redirect := true }) := by
  rw [threadRedirect, single]
  simp [State.each, running, staging]

theorem threadStop_of_stopped (stopped : s.thState m h = 0) : threadStop h s = s := by
  rw [threadStop, single]
  simp [State.each, State.stopTh, stopped]

theorem threadRedirect_of_stopped (stopped : s.thState m h = 0) : threadRedirect h s = s := by
  rw [threadRedirect, single]
  simp [State.each, stopped]

end Control

theorem thStop_flt (s : State) (m h : Nat) : (s.thStop m h).flt = s.flt := abandon_flt s m h

theorem thRedirect_flt (s : State) (m h : Nat) : (s.thRedirect m h).flt = s.flt := abandon_flt s m h

/-! ### The data-memory window (R8, R176) -/

section Window

variable {s : State} {m v : Nat}

/-- Where the window of a block stands. -/
def State.dmwinAt (s : State) (m : Nat) : Nat := dmBase (s.g F.SEQ_DMWIN_ADDR_PART m) + 8 * s.g F.SEQ_DMWIN_ADDR_WORD m

/-- The high half comes from the latch of its master, where it holds one. -/
theorem dmwinRead_high_of_latched {y : RWord} (latched : Map.find s.latches (latchKey 0 (dmwinKey m)) = some y) :
    dmwinAccess 0 m 2 false v (s.grant 0 0) = { dropLatch 0 (dmwinKey m) (s.grant 0 0) with readData := getField y 32 32 } := by
  simp [dmwinAccess, dmwinRead, latched]

theorem dmwinRead_high_of_unlatched (unlatched : Map.find s.latches (latchKey 0 (dmwinKey m)) = none) :
    dmwinAccess 0 m 2 false v (s.grant 0 0) = { s.grant 0 0 with readData := s.rdN (s.dmwinAt m + 4) 4 } := by
  simp only [dmwinAccess, dmwinRead, State.grant_latches, unlatched]
  rfl

variable (inc : s.on F.SEQ_DMWIN_ADDR_INC m = true)
include inc

/-- An access that INC counts moves WORD on. -/
theorem dmwinNext_of_inc {u : State} (same : u.regs = s.regs) : dmwinNext m u = u.put F.SEQ_DMWIN_ADDR_WORD (s.g F.SEQ_DMWIN_ADDR_WORD m + 1) m := by
  unfold dmwinNext State.when State.on
  dsimp only
  rw [g_of_regs same, g_of_regs same]
  exact if_pos inc

theorem dmwinRead_whole : dmwinAccess 0 m 0 false v (s.grant 0 0) =
    ({ dropLatch 0 (dmwinKey m) (s.grant 0 0) with readData := s.rdN (s.dmwinAt m) 8 } : State).put F.SEQ_DMWIN_ADDR_WORD (s.g F.SEQ_DMWIN_ADDR_WORD m + 1) m :=
  dmwinNext_of_inc inc (u := { dropLatch 0 (dmwinKey m) (s.grant 0 0) with readData := s.rdN (s.dmwinAt m) 8 }) rfl

theorem dmwinRead_low : dmwinAccess 0 m 1 false v (s.grant 0 0) =
    ({ (s.grant 0 0).setLatch 0 (dmwinKey m) (BitVec.ofNat 96 (s.rdN (s.dmwinAt m) 8)) with readData := s.rdN (s.dmwinAt m) 4 } : State).put
      F.SEQ_DMWIN_ADDR_WORD (s.g F.SEQ_DMWIN_ADDR_WORD m + 1) m :=
  dmwinNext_of_inc inc (u := { (s.grant 0 0).setLatch 0 (dmwinKey m) (BitVec.ofNat 96 (s.rdN (s.dmwinAt m) 8)) with readData := s.rdN (s.dmwinAt m) 4 }) rfl

theorem dmwinWrite_whole : dmwinAccess 0 m 0 true v (s.grant 0 0) =
    ({ (dropLatch 0 (dmwinKey m) (s.grant 0 0)).wrBs (s.dmwinAt m) (leBytes 8 v) with
      seq.dmHost := s.seq.dmHost.filter (fun e => e.2 = s.cycle) ++ (List.range 8).map (fun i => (s.dmwinAt m + i, s.cycle)) } : State).put
      F.SEQ_DMWIN_ADDR_WORD (s.g F.SEQ_DMWIN_ADDR_WORD m + 1) m :=
  dmwinNext_of_inc inc (u := { (dropLatch 0 (dmwinKey m) (s.grant 0 0)).wrBs (s.dmwinAt m) (leBytes 8 v) with
      seq.dmHost := s.seq.dmHost.filter (fun e => e.2 = s.cycle) ++ (List.range 8).map (fun i => (s.dmwinAt m + i, s.cycle)) }) rfl

end Window

/-! ### Code ranges (R194) -/

section Ranges

variable {s : State} {h v : Nat}

theorem thrCodeWrite_of_refused {new : Bool} (refused : 512 < bitsOf v 0 9 + bitsOf v 16 10 ∨ (new = false ∧ s.thState s.lead h ≠ 0)) :
    thrCodeWrite h new v s = (s.put F.SEQ_STAT_CFG_REFUSED 1 0).put F.SEQ_STAT_CFG_REFUSED 1 1 :=
  if_pos (by simpa using refused)

theorem thrCodeWrite_of_stopped (fits : bitsOf v 0 9 + bitsOf v 16 10 ≤ 512) (stopped : s.thState s.lead h = 0) :
    thrCodeWrite h false v s = (s.sput F.SEQ_THR_CODE_BASE (bitsOf v 0 9) h).sput F.SEQ_THR_CODE_SIZE (bitsOf v 16 10) h :=
  (if_neg (by simp [fits, stopped])).trans (if_neg Bool.false_ne_true)

theorem thrCodeWrite_of_new (fits : bitsOf v 0 9 + bitsOf v 16 10 ≤ 512) :
    thrCodeWrite h true v s = (s.sput F.SEQ_THR_NCODE_BASE (bitsOf v 0 9) h).sput F.SEQ_THR_NCODE_SIZE (bitsOf v 16 10) h :=
  (if_neg (by simp [fits])).trans (if_pos rfl)

end Ranges

/-- Settles O17: each clause is one branch of the command's function, which the lemmas above name. -/
theorem threads : Obligations.Threads := by
  refine ⟨fun s h t rdy waits => ?waitt, fun s h i mask run op issued operand => ?waite, fun s h d mask clear rdy waits => ?waiteWake,
    fun s h i c run op issued channel => ?evraise, fun s h m rdy single => ?event, fun s h m e u run single runs fetched plain hu => ?d2,
    fun s h m upc step ut tt f rdy single frame => ?trap, fun s h rdy => ?control, fun s off bs rdy => ?store, fun s x m v a w rdy hx ha inc hw => ?window,
    fun s h v rdy => ?code⟩
  case waitt =>
    exact ⟨fun lead reached => clocked_settle rdy.1 ((waittWake_of_time waits).trans (if_pos (by simp [lead, reached]))),
      fun ahead => clocked_eq rdy ((waittWake_of_time waits).trans (if_neg (by simp [ahead]))) rfl⟩
  case waite =>
    exact ⟨fun forbidden => clocked_settle run (waiteOp_of_forbidden op issued operand forbidden),
      fun permitted set => clocked_settle run (waiteOp_of_set op issued operand permitted set),
      fun permitted clear endless => clocked_settle run (waiteOp_of_clear op issued operand permitted clear endless)⟩
  case waiteWake =>
    exact ⟨fun lead set => clocked_settle rdy.1 ((waiteWake_of_event waits).trans (if_pos (by simp [lead, set]))),
      fun clear' => clocked_eq rdy ((waiteWake_of_event waits).trans (if_neg (by simp [clear']))) rfl⟩
  case evraise =>
    obtain rfl : c = s.raisedChannel h i := channel
    exact ⟨fun permitted => clocked_settle run ((evraiseOp_eq op issued).trans (if_pos permitted)),
      fun forbidden => clocked_settle run ((evraiseOp_eq op issued).trans (if_neg (ne_true_of_eq_false forbidden)))⟩
  case event =>
    have one : s.each s.lock (fun u m => u.enterEvent m h) = s.enterEvent m h := by rw [single]; rfl
    rw [exec_eventEntry, execEventEntry]
    exact ⟨fun none => clocked_eq rdy (one.trans (enterEvent_of_none none)) rfl,
      fun takes native boundary => clocked_eq rdy (one.trans (enterEvent_of_takeable takes native boundary)) (by simp)⟩
  case d2 =>
    exact clocked_settle run (d2Instruction_of_plain single hu runs fetched plain)
  case trap =>
    exact ⟨fun none => clocked_eq rdy (d2MicroTrap_of_none single none) rfl,
      fun takes runs fetched => clocked_settle rdy.1 (d2MicroTrap_of_takeable single frame takes runs fetched)⟩
  case control =>
    exact ⟨fun quiet => clocked_eq rdy (threadStart_of_quiet quiet) rfl, fun awake => clocked_settle rdy.1 (threadStart_of_awake awake),
      fun m single running free => ⟨clocked_eq rdy (threadStop_of_free single running free) (thStop_flt ..),
        clocked_eq rdy (threadRedirect_of_free single running free) (thRedirect_flt ..)⟩,
      fun m x single running staging => ⟨clocked_eq rdy (threadStop_of_staging single running staging) rfl,
        clocked_eq rdy (threadRedirect_of_staging single running staging) rfl⟩,
      fun m single stopped => ⟨clocked_eq rdy (threadStop_of_stopped single stopped) rfl, clocked_eq rdy (threadRedirect_of_stopped single stopped) rfl⟩⟩
  case store =>
    rw [exec_psWrite, execPsWrite]
    exact ⟨fun running => clocked_eq rdy (psWrite_of_running running) rfl, fun idle => clocked_eq rdy (psWrite_of_idle idle) rfl⟩
  case window =>
    obtain rfl : a = s.dmwinAt m := ha
    subst hx hw
    rw [exec_dmwinDataAccess, exec_dmwinDataAccess, exec_dmwinDataAccess, exec_dmwinDataAccess]
    exact ⟨clocked_eq rdy (dmwinRead_whole inc) rfl, clocked_eq rdy (dmwinRead_low inc) rfl, fun y latched => clocked_eq rdy (dmwinRead_high_of_latched latched) rfl,
      fun unlatched => clocked_eq rdy (dmwinRead_high_of_unlatched unlatched) rfl, clocked_eq rdy (dmwinWrite_whole inc) rfl⟩
  case code =>
    refine ⟨fun refused => clocked_eq rdy (thrCodeWrite_of_refused (refused.imp_right fun awake => ⟨rfl, awake⟩)) rfl,
      fun fits stopped => clocked_eq rdy (thrCodeWrite_of_stopped fits stopped) rfl, fun fits => clocked_eq rdy (thrCodeWrite_of_new fits) rfl⟩

end Sys2Proof.Machine
end

section
/-! PROOF. How a switching instruction is issued, reads its operands, waits and goes on, and what one with register results leaves alone. -/

namespace Sys2Proof.Machine

/-! ### Issue, operands and waits (R195, R197, R198) -/

section Issue

variable {s : State} {h : Nat} {i : OIns} {kind : OIns → Bool} {modes : List Nat} {f : OIns → State → State}

/-- The lead member issues a switching instruction in a mode that it runs in: the command ends as its effect does. -/
theorem clocked_swOp {t : State} (run : s.clk = Clk.running) (is : kind i = true) (issued : s.leadIssues h i = true)
    (mode : modes.contains (s.pm h) = true) (e : f i s = t) : clocked s (fun s => s.swOp h kind modes f) = .next t.settle :=
  clocked_settle run ((swOp_eq is issued mode).trans e)

/-- In another mode it ends in SW_MODE. -/
theorem clocked_swOp_mode (run : s.clk = Clk.running) (is : kind i = true) (issued : s.leadIssues h i = true)
    (mode : modes.contains (s.pm h) = false) : clocked s (fun s => s.swOp h kind modes f) = .next (s.swExc h swMode i).settle :=
  clocked_settle run (swOp_mode is issued mode)

theorem isOpc_of {opc func : Nat} (op : i.opc = opc ∧ i.func = func) : isOpc opc func i = true := by
  simp [isOpc, op]

theorem isOpcAny_of {opc : Nat} (op : i.opc = opc) : isOpcAny opc i = true := decide_eq_true op

theorem ite_of_eq_false {α : Type} {b : Bool} {x y : α} (no : b = false) : (if b = true then x else y) = y := if_neg (ne_true_of_eq_false no)

end Issue

section Operands

variable {s : State} {h a : Nat} {bs : List Byte}

theorem withBytes_of_read {n align : Nat} {f : List Byte → State → State} (read : s.swRead h a n align = .ok bs) :
    s.withBytes h a n align f = f bs (s.swAsk h a n) := by
  rw [State.withBytes, read]

theorem withRec_of_open {i : OIns} {x : Rec} {f : List Byte → Rec → State → State} (read : s.swRead h a 64 64 = .ok bs)
    (found : (s.swAsk h a 64).findRec h (leNat ((bs.drop 12).take 2)) = some x) : s.withRec h a i f = f bs x (s.swAsk h a 64) := by
  rw [State.withRec, withBytes_of_read read, found]

end Operands

/-- A command that ends a wait: it does so where a lead member finds what the wait is for, and is nothing else. -/
theorem clocked_wait_end {s t : State} {c : Bool} {w : State → State} (rdy : s.Ready) (e : w s = if s.hasLead && c then t else s) :
    (s.hasLead = true → c = true → clocked s w = .next t.settle) ∧ (c = false → clocked s w = .next s) :=
  ⟨fun lead there => clocked_settle rdy.1 (e.trans (if_pos (by rw [lead, there]; rfl))),
    fun missing => clocked_eq rdy (e.trans (ite_of_eq_false (by rw [missing, Bool.and_false]))) rfl⟩

/-! ### Register results (R195) -/

section Results

variable {h : Nat} (u : State) (hh : h < 16)
include hh

/-- What every member in step does to its own thread. -/
theorem ThreadOnly.each_lock {f : State → Nat → State} (own : ∀ v m, m < 2 → ThreadOnly [m] h v (f v m)) : ThreadOnly [0, 1] h u (u.each u.lock f) :=
  (ThreadOnly.each u u.lock f (lock_nodup u) (fun _ hm => mem_lock hm) hh (fun v m hm _ _ => own v m (mem_lock hm))).mono
    fun _ hm => (List.mem_filter.mp hm).1

theorem ThreadOnly.each_lock_updTh (w : State → ThrSt → ThrSt) : ThreadOnly [0, 1] h u (u.each u.lock (fun v m => v.updTh m h (w v))) :=
  ThreadOnly.each_lock u hh fun v _ hm => ThreadOnly.updTh v (w v) hm hh

/-- An instruction whose effect is no beat of its own. -/
theorem ThreadOnly.retireAll {i : OIns} (silent : beatOpcs.contains i.opc = false) : ThreadOnly [0, 1] h u (u.retireAll h i) := by
  have pass : u.passSw h i = u := ite_of_eq_false silent
  rw [State.retireAll, pass]
  exact ThreadOnly.each_lock u hh fun v _ hm => ThreadOnly.retire v i hm hh

end Results

end Sys2Proof.Machine
end

section
/-! PROOF. The switching instructions of Obrix: admission, completions and routing. -/

namespace Sys2Proof.Machine

/-! ### The pop of a request (R200, R232) -/

section Pop

variable {s : State} {h : Nat}

theorem admitPopWake_of_request {d a : Nat} {y : Rec} (waits : (s.leadTh h).wait = some (.pop d a)) (lead : s.hasLead = true) (pop : s.popSlot h = some y) :
    admitPopWake h s = s.wake h (fun s => s.popTo h d a y) := by
  rw [admitPopWake, waits, pop]
  exact if_pos lead

theorem admitPopWake_of_none (empty : s.popSlot h = none) : admitPopWake h s = s := by
  rw [admitPopWake, empty]
  split
  · contradiction
  · rfl

end Pop

/-! ### ROUTE (R207, R208) -/

section Route

variable {s : State} {h : Nat} {i : OIns} {bs : List Byte} {x : Rec} (op : i.opc = 130) (issued : s.leadIssues h i = true)
  (mode : allModes.contains (s.pm h) = true) (idle : s.jobOut h = false) (read : s.swRead h (s.gOf h i.s1) 64 64 = .ok bs)
  (found : (s.swAsk h (s.gOf h i.s1) 64).findRec h (leNat ((bs.drop 12).take 2)) = some x)
include op issued mode idle read found

theorem routeOp_of_other_type (notSet : x.req.typ ≠ 1) (notClear : x.req.typ ≠ 2) : routeOp h s = (s.swAsk h (s.gOf h i.s1) 64).swExc h swRec i :=
  (swOp_eq (isOpcAny_of op) issued mode).trans ((ite_of_eq_false idle).trans ((withRec_of_open read found).trans (if_pos (by simp [notSet, notClear]))))

/-- The payload of a CIRCUIT_CLEAR does not hold its operations (R203). -/
theorem routeOp_of_bad_payload (clear : x.req.typ = 2) (bad : (s.swAsk h (s.gOf h i.s1) 64).recOps h bs x = none) (sw : (s.swAsk h (s.gOf h i.s1) 64).pm h ≠ 2) :
    routeOp h s = ((s.swAsk h (s.gOf h i.s1) 64).failJob h
      { ring := some x.req.ring, handle := some x.handle, priv := x.req.priv, pol := 0, ops := [], perm := none } 4).retireAll h i := by
  refine (swOp_eq (isOpcAny_of op) issued mode).trans ((ite_of_eq_false idle).trans ((withRec_of_open read found).trans ((if_neg (by simp [clear])).trans ?_)))
  dsimp only
  rw [bad]
  exact congrArg (State.retireAll · h i) ((if_neg sw).trans (by rw [clear]; rfl))

theorem routeOp_of_operations {ops : List CircOp} (set : x.req.typ = 1) (held : (s.swAsk h (s.gOf h i.s1) 64).recOps h bs x = some ops) :
    routeOp h s = ((s.swAsk h (s.gOf h i.s1) 64).submit h
      { ring := some x.req.ring, handle := some x.handle, priv := x.req.priv, pol := 1, ops := ops, perm := none }).retireAll h i := by
  refine (swOp_eq (isOpcAny_of op) issued mode).trans ((ite_of_eq_false idle).trans ((withRec_of_open read found).trans ((if_neg (by simp [set])).trans ?_)))
  dsimp only
  rw [held, if_pos set]

end Route

/-- Settles O18: what the lead member issues is the branch that the operands, the admission queue and the job select; a wait goes on when what it awaits is there. -/
theorem switchRequests : Obligations.SwitchRequests := by
  refine ⟨fun s h i run op issued mode => ?pop, fun s h d a rdy waits => ?popWake, fun s h i run op issued mode => ?post, fun s h i run op issued mode => ?defer,
    fun s h i run op issued mode => ?route, fun s h i run op issued mode => ?routeWait, fun s h d rdy waits => ?routeWake, fun s h i run op issued mode => ?permLoad⟩
  case pop =>
    have is := isOpcAny_of op
    have aligned (even : s.gOf h i.s1 % 64 = 0) : ¬(s.gOf h i.s1 % 64 != 0) = true := by simp [even]
    refine ⟨fun odd => clocked_swOp run is issued mode (if_pos (bne_iff_ne.mpr odd)),
      fun even beyond => clocked_swOp run is issued mode ((if_neg (aligned even)).trans (if_pos beyond)),
      fun y even inside pop => clocked_swOp run is issued mode ((if_neg (aligned even)).trans ((if_neg (Nat.not_le.mpr inside)).trans (by rw [pop]))),
      fun even inside empty poll => clocked_swOp run is issued mode ((if_neg (aligned even)).trans ((if_neg (Nat.not_le.mpr inside)).trans ?_)),
      fun even inside empty wait => clocked_swOp run is issued mode ((if_neg (aligned even)).trans ((if_neg (Nat.not_le.mpr inside)).trans ?_))⟩
    · rw [empty]
      exact if_neg (by omega)
    · rw [empty]
      exact if_pos wait
  case popWake =>
    exact ⟨fun y lead pop => clocked_settle rdy.1 (admitPopWake_of_request waits lead pop), fun empty => clocked_eq rdy (admitPopWake_of_none empty) rfl⟩
  case post =>
    exact ⟨fun bad => clocked_swOp run (isOpc_of op) issued mode (if_pos (by simpa using bad)),
      fun plain status => clocked_swOp run (isOpc_of op) issued mode (if_neg (by simp [plain, status]))⟩
  case defer =>
    exact ⟨fun bad => clocked_swOp run (isOpc_of op) issued mode (if_pos (bne_iff_ne.mpr bad)),
      fun zero => clocked_swOp run (isOpc_of op) issued mode (if_neg (by simp [zero]))⟩
  case route =>
    refine ⟨fun busy => clocked_swOp run (isOpcAny_of op) issued mode (if_pos busy), fun bs x u idle read hu found notSet notClear => ?_,
      fun bs x u idle read hu found clear bad sw => ?_, fun bs x ops u idle read hu found set held => ?_⟩
    all_goals subst hu
    · exact clocked_settle run (routeOp_of_other_type op issued mode idle read found notSet notClear)
    · exact clocked_settle run (routeOp_of_bad_payload op issued mode idle read found clear bad sw)
    · exact clocked_settle run (routeOp_of_operations op issued mode idle read found set held)
  case routeWait =>
    have is := isOpcAny_of op
    exact ⟨fun idle => clocked_swOp run is issued mode (if_pos (by simp [idle])),
      fun busy poll => clocked_swOp run is issued mode ((if_neg (by simp [busy])).trans (if_pos poll)),
      fun busy wait => clocked_swOp run is issued mode ((if_neg (by simp [busy])).trans (if_neg (by omega)))⟩
  case routeWake =>
    have ends := clocked_wait_end rdy (show routeWaitWake h s = if s.hasLead && !s.jobOut h then _ else s by rw [routeWaitWake, waits])
    exact ⟨fun lead idle => ends.1 lead (by rw [idle]; rfl), fun busy => ends.2 (by simpa using busy)⟩
  case permLoad =>
    have is := isOpcAny_of op
    refine ⟨fun busy => clocked_swOp run is issued mode (if_pos busy),
      fun idle plain => clocked_swOp run is issued mode ((ite_of_eq_false idle).trans (if_pos plain)), fun bs x u idle record read hu found => ?_⟩
    subst hu
    exact clocked_swOp run is issued mode ((ite_of_eq_false idle).trans ((if_neg record).trans (withRec_of_open read found)))

end Sys2Proof.Machine
end

section
/-! PROOF. The switching instructions of Obrix: the plan, staging, arming and the commit. -/

namespace Sys2Proof.Machine

/-! ### PLAN.CLR (R210) -/

/-- PLAN.CLR and its form are refused alike and differ in what they withdraw. -/
theorem clocked_planOp {s : State} {h func : Nat} {i : OIns} {f : State → State} (run : s.clk = Clk.running) (op : i.opc = 133 ∧ i.func = func)
    (issued : s.leadIssues h i = true) (mode : hscm.contains (s.pm h) = true) :
    let out := clocked s (fun s => s.swOp h (isOpc 0x85 func) hscm (fun i s =>
      if s.armed h then s.swExc h swArmed i else if s.jobOut h then s.swExc h swBusy i else (f s).retireAll h i))
    (s.armed h = true → out = .next (s.swExc h swArmed i).settle) ∧
    (s.armed h = false → s.jobOut h = true → out = .next (s.swExc h swBusy i).settle) ∧
    (s.armed h = false → s.jobOut h = false → out = .next ((f s).retireAll h i).settle) :=
  ⟨fun armed => clocked_swOp run (isOpc_of op) issued mode (if_pos armed),
    fun free busy => clocked_swOp run (isOpc_of op) issued mode ((ite_of_eq_false free).trans (if_pos busy)),
    fun free idle => clocked_swOp run (isOpc_of op) issued mode ((ite_of_eq_false free).trans (ite_of_eq_false idle))⟩

/-! ### STAGE and its forms (R211, R212) -/

section Stage

variable {s : State} {h form : Nat} {i : OIns} {f : OIns → State → State} (run : s.clk = Clk.running) (op : i.opc = 136 ∧ i.func = form)
  (issued : s.leadIssues h i = true) (mode : hscm.contains (s.pm h) = true)
include run op issued mode

theorem clocked_stageOp_of_armed (armed : s.armed h = true) : clocked s (fun s => s.stageOp h form f) = .next (s.swExc h swArmed i).settle :=
  clocked_swOp run (isOpc_of op) issued mode (if_pos armed)

theorem clocked_stageOp_of_busy (free : s.armed h = false) (busy : s.jobOut h = true) :
    clocked s (fun s => s.stageOp h form f) = .next (s.swExc h swBusy i).settle :=
  clocked_swOp run (isOpc_of op) issued mode ((ite_of_eq_false free).trans (if_pos busy))

theorem clocked_stageOp_of_no_slot (free : s.armed h = false) (idle : s.jobOut h = false) (slotted : form ≠ 0) (beyond : 64 ≤ s.gOf h i.s1) :
    clocked s (fun s => s.stageOp h form f) = .next (s.swExc h swArg i).settle :=
  clocked_swOp run (isOpc_of op) issued mode ((ite_of_eq_false free).trans ((ite_of_eq_false idle).trans (if_pos (by simp [slotted, beyond]))))

theorem clocked_stageOp_of_slot {t : State} (free : s.armed h = false) (idle : s.jobOut h = false) (slot : form = 0 ∨ s.gOf h i.s1 < 64) (e : f i s = t) :
    clocked s (fun s => s.stageOp h form f) = .next t.settle :=
  clocked_swOp run (isOpc_of op) issued mode
    ((ite_of_eq_false free).trans ((ite_of_eq_false idle).trans ((if_neg (by rcases slot with none | inside <;> simp [*])).trans e)))

end Stage

/-! ### ARM (R213) -/

theorem armResume_of_arm {s : State} {h d mask : Nat} {t : RWord} {wt : Option Nat} (waits : (s.leadTh h).wait = some (.arm d t mask wt)) :
    armResume h s = if !s.hasLead || s.staging mask then s
      else if !scm.contains (s.pm h) then (s.each s.lock (fun u m => u.setThState m h 1)).swExc h swMode { opc := 0x89 }
      else if s.armed h then (s.each s.lock (fun u m => u.setThState m h 1)).swExc h swArmed { opc := 0x89 }
      else s.wake h (fun s => s.armEnd h d mask t wt) := by
  rw [armResume, waits]

/-- Settles O19: what the lead member issues is refused while armed or busy, or else is the branch that its operands select; a wait goes on when the commit has closed or the staging is done. -/
theorem switchStaging : Obligations.SwitchStaging := by
  refine ⟨fun s h i run op issued mode => ?clear, fun s h i run op issued mode => ?clearLast, fun s h i run op issued mode => ?set, fun s h i run op issued mode => ?list,
    fun s h i run op issued mode => ?stage, fun s h i run op issued mode => ?fill, fun s h i run op issued mode => ?cache,
    fun s h i mask run op issued mode hm => ?arm, fun s h i run op issued mode => clocked_swOp_mode run (isOpcAny_of op) issued mode, fun s h d t mask wt rdy waits => ?armWake,
    fun s h i run op issued mode => ?commit, fun s h d wt rdy waits => ?commitWake, fun s h i run op issued mode => ?abort, fun s h d rdy waits => ?abortWake⟩
  case clear => exact clocked_planOp (f := (State.planClr · h)) run op issued mode
  case clearLast => exact clocked_planOp (f := (State.withdrawLast · h)) run op issued mode
  case set =>
    have is := isOpcAny_of op
    exact ⟨fun armed => clocked_swOp run is issued mode (if_pos armed),
      fun free beyond => clocked_swOp run is issued mode ((ite_of_eq_false free).trans (if_pos beyond)),
      fun free inside => clocked_swOp run is issued mode ((ite_of_eq_false free).trans (if_neg (Nat.not_le.mpr inside)))⟩
  case list =>
    have is := isOpcAny_of op
    refine ⟨fun armed => clocked_swOp run is issued mode (if_pos armed),
      fun free bad => clocked_swOp run is issued mode ((ite_of_eq_false free).trans (if_pos (by simpa using bad))), fun bs ws free nonempty few read hw good => ?_⟩
    subst hw
    refine clocked_swOp run is issued mode ((ite_of_eq_false free).trans ((if_neg ?_).trans ((withBytes_of_read read).trans (ite_of_eq_false good))))
    simp [few, Nat.pos_iff_ne_zero.mp nonempty]
  case stage =>
    refine ⟨clocked_stageOp_of_armed run op issued mode, clocked_stageOp_of_busy run op issued mode, fun u free idle hu => ?_⟩
    subst hu
    exact clocked_stageOp_of_slot run op issued mode free idle (.inl rfl) rfl
  case fill =>
    refine ⟨clocked_stageOp_of_armed run op issued mode, clocked_stageOp_of_busy run op issued mode,
      fun free idle => clocked_stageOp_of_no_slot run op issued mode free idle Nat.one_ne_zero, fun u free idle slot hu => ?_⟩
    subst hu
    exact clocked_stageOp_of_slot run op issued mode free idle (.inr slot) rfl
  case cache =>
    refine ⟨clocked_stageOp_of_armed run op issued mode, clocked_stageOp_of_busy run op issued mode, fun u free idle slot hu planned => ?_,
      fun u w free idle slot hu empty hw => ?_⟩
    · subst hu
      exact clocked_stageOp_of_slot run op issued mode free idle (.inr slot) (if_pos (by simpa using planned))
    · subst hw hu
      exact clocked_stageOp_of_slot run op issued mode free idle (.inr slot) (if_neg (by simp [empty]))
  case arm =>
    subst hm
    have is := isOpcAny_of op
    exact ⟨fun armed => clocked_swOp run is issued mode (if_pos armed),
      fun free other => clocked_swOp run is issued mode ((ite_of_eq_false free).trans (if_pos (bne_iff_ne.mpr other))),
      fun free base stages => clocked_swOp run is issued mode ((ite_of_eq_false free).trans ((if_neg (by simp [base])).trans (if_pos stages))),
      fun free base staged => clocked_swOp run is issued mode ((ite_of_eq_false free).trans ((if_neg (by simp [base])).trans (ite_of_eq_false staged)))⟩
  case armWake =>
    have e := armResume_of_arm waits
    have judged (lead : s.hasLead = true) (staged : s.staging mask = false) : (!s.hasLead || s.staging mask) = false := by rw [lead, staged]; rfl
    exact ⟨fun lead staged mode free => clocked_settle rdy.1 (e.trans ((ite_of_eq_false (judged lead staged)).trans ((if_neg (by rw [mode]; decide)).trans (ite_of_eq_false free)))),
      fun lead staged mode armed => clocked_settle rdy.1 (e.trans ((ite_of_eq_false (judged lead staged)).trans ((if_neg (by rw [mode]; decide)).trans (if_pos armed)))),
      fun lead staged mode => clocked_settle rdy.1 (e.trans ((ite_of_eq_false (judged lead staged)).trans (if_pos (by rw [mode]; rfl)))),
      fun stages => clocked_eq rdy (e.trans (if_pos (by simp [stages]))) rfl⟩
  case commit =>
    have is := isOpcAny_of op
    exact ⟨fun pending => clocked_swOp run is issued mode (if_pos (Bool.or_eq_true_iff.mpr pending)),
      fun closed => clocked_swOp run is issued mode (ite_of_eq_false (Bool.or_eq_false_iff.mpr closed))⟩
  case commitWake =>
    have ends := clocked_wait_end rdy (show commitWaitWake h s = if s.hasLead && !(s.armed h || s.unclosed h) then _ else s by rw [commitWaitWake, waits])
    exact ⟨fun lead closed => ends.1 lead (by simp [closed]), fun pending => ends.2 (by simpa using pending)⟩
  case abort =>
    have is := isOpcAny_of op
    refine ⟨fun c cancels => clocked_swOp run is issued mode (by rw [cancels]), fun late pending => clocked_swOp run is issued mode ?_,
      fun late closed => clocked_swOp run is issued mode ?_⟩
    · rw [late]
      exact if_pos (Bool.or_eq_true_iff.mpr pending)
    · rw [late]
      exact ite_of_eq_false (Bool.or_eq_false_iff.mpr closed)
  case abortWake =>
    have ends := clocked_wait_end rdy (show abortWake h s = if s.hasLead && !(s.armed h || s.unclosed h) then _ else s by rw [abortWake, waits])
    exact ⟨fun lead closed => ends.1 lead (by simp [closed]), fun pending => ends.2 (by simpa using pending)⟩

end Sys2Proof.Machine
end

section
/-! PROOF. The switching instructions of Obrix: loops and sampling, partition control, the budget and the Rotor Engines. -/

namespace Sys2Proof.Machine

/-! ### LE.BAR (R217) -/

theorem barDone_endless (s : State) (l : List Nat) : s.barDone l none = s.settled l := Bool.or_false _

/-! ### SAMP.FOCUS (R73, R75, R218) -/

section Focus

variable {s : State} {h m : Nat}

theorem focusAdd_of_listed (listed : (s.md (miTile m) (miMadc m)).shadow.contains (h, miPos m) = true) : s.focusAdd h m = s := if_pos listed

theorem focusAdd_of_room (new : (s.md (miTile m) (miMadc m)).shadow.contains (h, miPos m) = false) (room : (s.md (miTile m) (miMadc m)).shadow.length < 16) :
    s.focusAdd h m = s.updMd (miTile m) (miMadc m) (fun x => { x with shadow := x.shadow ++ [(h, miPos m)] }) :=
  (ite_of_eq_false new).trans (if_neg (Nat.not_le.mpr room))

theorem focusAdd_of_full (new : (s.md (miTile m) (miMadc m)).shadow.contains (h, miPos m) = false) (full : 16 ≤ (s.md (miTile m) (miMadc m)).shadow.length) :
    s.focusAdd h m = (s.sat F.MI_SCAN_STAT_FOCUS_OVF (miTile m) (miMadc m)).put F.MI_TILE_STAT_FOCUS_OVF 1 (miTile m) :=
  (ite_of_eq_false new).trans (if_pos full)

variable {i : OIns} (run : s.clk = Clk.running) (op : i.opc = 145 ∧ i.func = 0) (issued : s.leadIssues h i = true)
  (mode : allModes.contains (s.pm h) = true) (hm : m = s.gOf h i.s1) (inside : m < 16384)
include run op issued mode hm inside

theorem clocked_sampFocus_of_foreign (foreign : s.miOwned m h = false) : clocked s (sampFocus h) = .next (s.swDone h i 1).settle := by
  subst hm
  exact clocked_swOp run (isOpc_of op) issued mode ((if_neg (Nat.not_le.mpr inside)).trans (if_pos (by rw [foreign]; rfl)))

theorem clocked_sampFocus_of_owned {l : List (Nat × Nat)} (hl : l = (s.md (miTile m) (miMadc m)).shadow) (owned : s.miOwned m h = true) :
    clocked s (sampFocus h) = .next ((s.focusAdd h m).swDone h i (if 16 ≤ l.length ∧ l.contains (h, miPos m) = false then 2 else 0)).settle := by
  subst hm hl
  refine clocked_swOp run (isOpc_of op) issued mode ((if_neg (Nat.not_le.mpr inside)).trans ((if_neg (by rw [owned]; decide)).trans ?_))
  simp only [Bool.and_eq_true, decide_eq_true_eq, Bool.not_eq_true']

end Focus

/-- Settles O49: an input of another partition is refused, and one of the thread's own is listed, added or counted as what adding it to the list finds. -/
theorem focusRequests : Obligations.FocusRequests := by
  intro s h i m l run op issued mode hm inside hl
  have owns (owned : s.miOwned m h = true) := clocked_sampFocus_of_owned run op issued mode hm inside hl owned
  subst hl
  refine ⟨clocked_sampFocus_of_foreign run op issued mode hm inside, fun owned listed => (owns owned).trans ?_, fun owned new room => (owns owned).trans ?_,
    fun owned new full => (owns owned).trans ?_⟩
  · rw [focusAdd_of_listed listed, if_neg (fun full => ne_true_of_eq_false full.2 listed)]
  · rw [focusAdd_of_room new room, if_neg (fun full => Nat.not_le.mpr room full.1)]
  · rw [focusAdd_of_full new full, if_pos ⟨full, new⟩]

/-! ### BUDGET.CHK (R221, R238) -/

section Budget

variable {s : State} {h : Thr} {i : OIns} {r : W64} (op : i.opc = 146)
include op

theorem budgetChk_eq (issued : s.leadIssues h i = true) (mode : allModes.contains (s.pm h) = true) (hr : r = BitVec.ofInt 64 (s.remain h) - (s.leadTh h).gr i.s1) :
    budgetChk h s = ((s.each s.lock (fun u m => u.updTh m h (fun x => x.setStatus (withZN x.status r)))).wrAll h i.d r).retireAll h i := by
  subst hr
  exact swOp_eq (isOpcAny_of op) issued mode

/-- The result and its flags are all that it leaves. -/
theorem budgetChk_threadOnly :
    ThreadOnly [0, 1] h s (((s.each s.lock (fun u m => u.updTh m h (fun x => x.setStatus (withZN x.status r)))).wrAll h i.d r).retireAll h i) :=
  ((ThreadOnly.each_lock_updTh s h.isLt _).trans (ThreadOnly.each_lock_updTh _ h.isLt _)).trans (ThreadOnly.retireAll _ h.isLt (by rw [op]; decide))

end Budget

/-- Settles O48: the instruction touches its thread alone, so Barista and its ports stand as they did. -/
theorem budgetCheck : Obligations.BudgetCheck := by
  intro s h i r t rdy op issued mode hr ht
  subst ht
  have only := budgetChk_threadOnly (s := s) (h := h) (r := r) op
  have port := only.words F.BRS_PORT_STAT_REMAIN.reg h 0 (by omega) (by decide) (by decide) (by decide) (by decide)
  exact ⟨clocked_eq rdy (budgetChk_eq op issued mode hr) (only.keeps State.flt fun _ => rfl), only.keeps State.brs fun _ => rfl,
    congrArg (getField · F.BRS_PORT_STAT_REMAIN.lo F.BRS_PORT_STAT_REMAIN.wd) port⟩

/-! ### FENCE.P and UNFENCE.P (R220) -/

section Fence

variable {s : State} {h opc : Nat} {i : OIns} {f : OIns → Nat → State → State} (run : s.clk = Clk.running) (op : i.opc = opc)
  (issued : s.leadIssues h i = true) (mode : allModes.contains (s.pm h) = true)
include run op issued mode

theorem clocked_fenceOp_of_permitted {t : State} (permitted : bitOf (s.g F.SEQ_THR_SWP_FMASK h) (s.gOf h i.s1 % 16) = true)
    (e : f i (s.gOf h i.s1 % 16) s = t) : clocked s (fun s => s.fenceOp h opc f) = .next t.settle :=
  clocked_swOp run (isOpcAny_of op) issued mode ((if_pos permitted).trans e)

theorem clocked_fenceOp_of_forbidden (forbidden : bitOf (s.g F.SEQ_THR_SWP_FMASK h) (s.gOf h i.s1 % 16) = false) :
    clocked s (fun s => s.fenceOp h opc f) = .next (s.swExc h swPerm i).settle :=
  clocked_swOp run (isOpcAny_of op) issued mode (ite_of_eq_false forbidden)

end Fence

/-- The forms of ROTOR.STOP that wait (.W), without .NOW and with it (R222). -/
theorem stopForm_waiting {func : Nat} (waiting : func = 2 ∨ func = 3) : bitOf func 1 = true ∧ bitOf func 0 = decide (func = 3) := by
  rcases waiting with rfl | rfl <;> decide

/-- Settles O20: what the lead member issues is the branch that its operands and the block that it asks select; a wait goes on when what it awaits is there. -/
theorem switchLoops : Obligations.SwitchLoops := by
  refine ⟨fun s h i run op issued mode => ?law, fun s h i run op issued mode => ?bar, fun s h d l tmo rdy waits => ?barWake, fun s h i run op issued mode => ?focus,
    fun s h i run op issued mode => clocked_swOp run (isOpc_of op) issued mode rfl, fun s h i run op issued mode => ?mode, fun s h i run op issued mode => ?fence,
    fun s h i run op issued mode => ?unfence, fun s h i run op issued mode r hr => clocked_settle run (budgetChk_eq op issued mode hr),
    fun s h i run op issued mode => ?load, fun s h i run op issued mode => clocked_swOp run (isOpcAny_of op) issued mode rfl, fun s h i run op issued mode => ?stop,
    fun s h d rdy waits => ?stopWake⟩
  case law =>
    have is := isOpcAny_of op
    refine ⟨fun beyond => clocked_swOp run is issued mode (if_pos beyond), fun bs v inside read hv foreign => ?_, fun bs v u inside read hv owned own hu => ?_⟩
    · subst hv
      exact clocked_swOp run is issued mode ((if_neg (Nat.not_le.mpr inside)).trans ((withBytes_of_read read).trans (if_pos (by simpa using foreign))))
    · subst hu hv
      exact clocked_swOp run is issued mode ((if_neg (Nat.not_le.mpr inside)).trans ((withBytes_of_read read).trans (if_neg (by simp [owned, own]))))
  case bar =>
    have is := isOpcAny_of op
    refine ⟨fun endless settled => clocked_swOp run is issued mode ?_, fun endless unsettled => clocked_swOp run is issued mode ?_,
      fun limited unsettled early => clocked_swOp run is issued mode ?_⟩
    · have noLimit : ¬i.func = 1 := by omega
      dsimp only
      rw [if_neg noLimit, barDone_endless, if_pos settled]
    · have noLimit : ¬i.func = 1 := by omega
      dsimp only
      rw [if_neg noLimit, barDone_endless, ite_of_eq_false unsettled]
    · dsimp only
      rw [if_pos limited]
      exact ite_of_eq_false (Bool.or_eq_false_iff.mpr ⟨unsettled, early⟩)
  case barWake =>
    have ends := clocked_wait_end rdy (show leBarWake h s = if s.hasLead && s.barDone l tmo then _ else s by rw [leBarWake, waits])
    exact ⟨ends.1, fun early => ends.2 (eq_false_of_ne_true early)⟩
  case focus =>
    exact ⟨fun beyond => clocked_swOp run (isOpc_of op) issued mode (if_pos beyond), clocked_sampFocus_of_foreign run op issued mode rfl,
      fun l inside owned hl => clocked_sampFocus_of_owned run op issued mode rfl inside hl owned⟩
  case mode =>
    have is := isOpcAny_of op
    refine ⟨fun beyond => clocked_swOp run is issued mode (if_pos beyond),
      fun code refused => clocked_swOp run is issued mode ((if_neg (Nat.not_lt.mpr code)).trans ?_),
      fun code taken => clocked_swOp run is issued mode ((if_neg (Nat.not_lt.mpr code)).trans ?_)⟩
    · dsimp only
      rw [refused]
      rfl
    · dsimp only
      rw [taken]
      rfl
  case fence =>
    exact ⟨fun permitted => clocked_fenceOp_of_permitted run op issued mode permitted rfl, clocked_fenceOp_of_forbidden run op issued mode⟩
  case unfence =>
    exact ⟨fun permitted fenced settled idle => clocked_fenceOp_of_permitted run op issued mode permitted (if_pos (by simp [fenced, settled, idle])),
      fun permitted refused => clocked_fenceOp_of_permitted run op issued mode permitted (if_neg (by rcases refused with h | h | h <;> simp [h])),
      clocked_fenceOp_of_forbidden run op issued mode⟩
  case load =>
    have is := isOpcAny_of op
    refine ⟨fun bs u read hu closed => ?_, fun bs u read hu opened plain => ?_, fun bs u v read hu opened swaps hv => ?_⟩
    · subst hu
      exact clocked_swOp run is issued mode ((withBytes_of_read read).trans (if_pos (by rw [closed]; rfl)))
    · subst hu
      exact clocked_swOp run is issued mode ((withBytes_of_read read).trans ((if_neg (by rw [opened]; decide)).trans (if_neg (by omega))))
    · subst hv hu
      exact clocked_swOp run is issued mode ((withBytes_of_read read).trans ((if_neg (by rw [opened]; decide)).trans (if_pos swaps)))
  case stop =>
    have is := isOpcAny_of op
    refine ⟨fun idle => clocked_swOp run is issued mode (if_pos idle), fun busy func => clocked_swOp run is issued mode ((if_neg busy).trans ?_),
      fun busy func => clocked_swOp run is issued mode ((if_neg busy).trans ?_), fun u busy waiting hu stopped => ?_, fun u busy waiting hu running => ?_⟩
    · rw [func]
      rfl
    · rw [func]
      rfl
    · obtain ⟨waits, now⟩ := stopForm_waiting waiting
      rw [← now] at hu
      subst hu
      exact clocked_swOp run is issued mode ((if_neg busy).trans ((if_pos waits).trans (if_pos stopped)))
    · obtain ⟨waits, now⟩ := stopForm_waiting waiting
      rw [← now] at hu
      subst hu
      exact clocked_swOp run is issued mode ((if_neg busy).trans ((if_pos waits).trans (if_neg running)))
  case stopWake =>
    have ends := clocked_wait_end rdy (show rotorStopWake h s = if s.hasLead && decide (s.roState h = 0) then _ else s by rw [rotorStopWake, waits])
    exact ⟨fun lead idle => ends.1 lead (decide_eq_true idle), fun busy => ends.2 (decide_eq_false busy)⟩

end Sys2Proof.Machine
end

section
/-! PROOF. The rings of Barista: doorbells, fetching, the control word and the configuration, drains and held-back messages. -/

namespace Sys2Proof.Machine

/-- Software writes of fields leave the fields of every register that none of them is of. -/
theorem g_each_sput_reg {f : Fld} {i i' : Nat} (hi : i < 16384) (hi' : i' < 16384) (v : Nat) :
    ∀ (l : List Fld) (s : State), (∀ f' ∈ l, f.reg.id ≠ f'.reg.id) → (s.each l (fun s f' => s.sput f' (bitsOf v f'.lo f'.wd) i)).g f i' = s.g f i'
  | [], _, _ => rfl
  | f' :: l, s, apart => (g_each_sput_reg hi hi' v l _ fun e he => apart e (List.mem_cons_of_mem _ he)).trans
      (g_sput_reg s f' f _ i i' hi hi' (apart f' List.mem_cons_self))

/-! ### Doorbells (R225) -/

section Doorbells

variable {s : State} {n v : Nat}

theorem rqDoorbell_of_frame (frame : s.on F.BRS_RING_CFG_KIND n = true) : rqDoorbell n v s = s := if_pos frame

theorem rqDoorbell_of_host (host : s.on F.BRS_RING_CFG_KIND n = false) : rqDoorbell n v s =
    if s.rqLen n ≤ v % 32768 then (s.put F.BRS_RING_STAT_DB_ERR 1 n).ringErr n else s.sput F.BRS_RQ_PI_PI (v % 32768) n := ite_of_eq_false host

end Doorbells

/-! ### Fetching (R225, R226, R231) -/

/-- The ring may have a further read of its entries issued, and finds entries to read. -/
def State.fetches (s : State) (n : Nat) : Prop :=
  s.on F.BRS_RING_CTL_EN n = true ∧ s.on F.BRS_RING_CFG_KIND n = false ∧ s.on F.BRS_RING_STAT_HALTED n = false ∧ (s.ring n).draining = false ∧
    s.mayPost (s.ringFn n) = true ∧ (openReads (s.ring n).reads).length < 4 ∧ s.readRoom 1 = true ∧ s.mode ≠ 2 ∧ s.readLen n ≠ 0

section Fetching

variable {s : State} {n : Nat}

theorem not_fetches_iff : ¬ s.fetches n ↔ s.on F.BRS_RING_CTL_EN n = false ∨ s.on F.BRS_RING_CFG_KIND n = true ∨ s.on F.BRS_RING_STAT_HALTED n = true ∨
    (s.ring n).draining = true ∨ s.mayPost (s.ringFn n) = false ∨ 4 ≤ (openReads (s.ring n).reads).length ∨ s.readRoom 1 = false ∨ s.mode = 2 ∨ s.readLen n = 0 := by
  simp only [State.fetches, not_and_or, Bool.not_eq_true, Bool.not_eq_false, not_lt, not_not]

/-- The model's test is this condition. -/
theorem fetches_iff : s.fetches n ↔ (s.on F.BRS_RING_CTL_EN n && !s.on F.BRS_RING_CFG_KIND n && !s.on F.BRS_RING_STAT_HALTED n && !(s.ring n).draining
    && s.mayPost (s.ringFn n) && decide ((openReads (s.ring n).reads).length < 4) && s.readRoom 1 && s.mode != 2 && s.readLen n != 0) = true := by
  simp only [State.fetches, Bool.and_eq_true, Bool.not_eq_true', decide_eq_true_eq, bne_iff_ne, and_assoc]

theorem ringFetchIssue_of_fetches (may : s.fetches n) : ringFetchIssue n s =
    ((s.readReq (s.ringFn n) (64 * s.g F.BRS_RQ_BASE_BASE n + 64 * s.nextIdx n) (64 * s.readLen n)).grant 7 5).updRing n
      (fun r => { r with reads := r.reads ++ [⟨s.nextIdx n, s.readLen n, none⟩] }) := if_pos (fetches_iff.1 may)

theorem ringFetchIssue_of_not_fetches (not : ¬ s.fetches n) : ringFetchIssue n s = s := if_neg (mt fetches_iff.2 not)

variable {k i : Nat}

theorem entryArrival_of_none {bs : List Byte} (closed : (openReads (s.ring n).reads)[k]? = none) : entryArrival n k bs s = s := by
  rw [entryArrival, closed]

theorem entryArrival_of_open {bs : List Byte} {u : State} (found : (openReads (s.ring n).reads)[k]? = some i)
    (hu : u = s.updRing n (fun x => { x with reads := x.reads.modify i (fun r => { r with got := some bs }) })) :
    entryArrival n k bs s = (u.examineReads (u.ring n).reads.length n).syncRounds := by
  rw [entryArrival, found, hu]

theorem ringFetchError_of_none {e : HostErr} (closed : (openReads (s.ring n).reads)[k]? = none) : ringFetchError n k e s = s := by
  rw [ringFetchError, closed]

theorem ringFetchError_of_open {e : HostErr} {u : State} (found : (openReads (s.ring n).reads)[k]? = some i)
    (hu : u = s.updRing n (fun x => { x with reads := x.reads.take i })) :
    ringFetchError n k e s = (((u.put F.BRS_RING_STAT_HALTED 1 n).put F.BRS_RING_STAT_FETCH_ERR 1 n).ringErr n).readFails (u.ringFn n) e := by
  rw [ringFetchError, found, hu]

end Fetching

/-! ### INIT and the configuration (R242) -/

@[simp] theorem updRing_flt (s : State) (n : Nat) (f : RingSt → RingSt) : (s.updRing n f).flt = s.flt := rfl

/-- A ring whose INIT is carried out. -/
def State.initialised (s : State) (n : Nat) : State :=
  ((((((s.updRing n (fun r => { r with reads := [] })).put F.BRS_RQ_PI_PI 0 n).put F.BRS_RQ_CI_CI 0 n).put F.BRS_CQ_PI_PI 0 n).put F.BRS_CQ_CI_CI 0 n).put
    F.BRS_CQ_PI_PHASE 1 n).put F.BRS_RING_STAT_HALTED 0 n

@[simp] theorem initialised_flt (s : State) (n : Nat) : (s.initialised n).flt = s.flt := by simp only [State.initialised, put_flt, updRing_flt]

@[simp] theorem ringEnWrite_flt (n v : Nat) (s : State) : (ringEnWrite n v s).flt = s.flt := rfl

theorem ringInit_eq (n v : Nat) (s : State) : ringInit n v s = ringEnWrite n v
    (if s.on F.BRS_RING_CTL_EN n || s.on F.BRS_RING_STAT_BUSY n then s.put F.BRS_RING_STAT_CFG_REFUSED 1 n else s.initialised n) := rfl

/-- The fields of register w of a ring's configuration, numbered as RING_CFG_WRITE numbers them. -/
def ringCfgFields (w : Nat) : List Fld :=
  if w = 0 then [F.BRS_RQ_BASE_BASE] else if w = 1 then [F.BRS_CQ_BASE_BASE]
  else if w = 2 then [F.BRS_RING_CFG_SVC, F.BRS_RING_CFG_KIND, F.BRS_RING_CFG_PRIV, F.BRS_RING_CFG_OVH, F.BRS_RING_CFG_MPROF]
  else if w = 3 then [F.BRS_RING_CFG2_SPROF, F.BRS_RING_CFG2_VEC, F.BRS_RING_CFG2_FN, F.BRS_RING_CFG2_SP, F.BRS_RING_CFG2_RWT]
  else [F.BRS_RING_SIZE_RQ_LOG2, F.BRS_RING_SIZE_CQ_LOG2]

section Configuration

variable {s : State} {n w v : Nat}

/-- INIT and the configuration are refused in these states of the ring. -/
theorem ring_active (active : s.on F.BRS_RING_CTL_EN n = true ∨ s.on F.BRS_RING_STAT_BUSY n = true) :
    (s.on F.BRS_RING_CTL_EN n || s.on F.BRS_RING_STAT_BUSY n) = true := Bool.or_eq_true_iff.mpr active

theorem ring_idle (disabled : s.on F.BRS_RING_CTL_EN n = false) (settled : s.on F.BRS_RING_STAT_BUSY n = false) :
    (s.on F.BRS_RING_CTL_EN n || s.on F.BRS_RING_STAT_BUSY n) = false := Bool.or_eq_false_iff.mpr ⟨disabled, settled⟩

theorem ringCfgWrite_of_active (active : (s.on F.BRS_RING_CTL_EN n || s.on F.BRS_RING_STAT_BUSY n) = true) :
    ringCfgWrite n w v s = s.put F.BRS_RING_STAT_CFG_REFUSED 1 n := if_pos active

section Idle

variable {u : State} (hu : u = s.each (ringCfgFields w) (fun s f => s.sput f (bitsOf v f.lo f.wd) n))
include hu

/-- A field that is in none of the registers written stands as it did. -/
theorem ringCfgWrite_keeps (hn : n < 16384) {f : Fld} (apart : ∀ f' ∈ ringCfgFields w, f.reg.id ≠ f'.reg.id) : s.g f n = u.g f n := by
  subst hu
  exact (g_each_sput_reg hn hn v _ s apart).symm

variable (idle : (s.on F.BRS_RING_CTL_EN n || s.on F.BRS_RING_STAT_BUSY n) = false)
include idle

/-- With the fields written, another meter profile fills its bucket, and then another shaper profile its own. -/
theorem ringCfgWrite_of_idle {t : State} (metered : (if s.g F.BRS_RING_CFG_MPROF n = u.g F.BRS_RING_CFG_MPROF n then u
      else u.updRing n (fun r => { r with meter := some (u.mpDepth (u.g F.BRS_RING_CFG_MPROF n)) })) = t) :
    ringCfgWrite n w v s = if s.g F.BRS_RING_CFG2_SPROF n = u.g F.BRS_RING_CFG2_SPROF n then t
      else t.updRing n (fun r => { r with s := some (t.spDepth (u.g F.BRS_RING_CFG2_SPROF n)) }) := by
  subst metered hu
  exact ite_of_eq_false idle

variable (hn : n < 16384)
include hn

/-- RQ_BASE, CQ_BASE and SIZE hold no profile. -/
theorem ringCfgWrite_of_no_profile (word : w = 0 ∨ w = 1 ∨ w = 4) : ringCfgWrite n w v s = u := by
  have apart : (∀ f' ∈ ringCfgFields w, F.BRS_RING_CFG_MPROF.reg.id ≠ f'.reg.id) ∧ ∀ f' ∈ ringCfgFields w, F.BRS_RING_CFG2_SPROF.reg.id ≠ f'.reg.id := by
    rcases word with rfl | rfl | rfl <;> decide
  exact (ringCfgWrite_of_idle hu idle (if_pos (ringCfgWrite_keeps hu hn apart.1))).trans (if_pos (ringCfgWrite_keeps hu hn apart.2))

theorem ringCfgWrite_of_meter (word : w = 2) : ringCfgWrite n w v s = if s.g F.BRS_RING_CFG_MPROF n = u.g F.BRS_RING_CFG_MPROF n then u
    else u.updRing n (fun r => { r with meter := some (u.mpDepth (u.g F.BRS_RING_CFG_MPROF n)) }) := by
  have apart : ∀ f' ∈ ringCfgFields w, F.BRS_RING_CFG2_SPROF.reg.id ≠ f'.reg.id := by subst word; decide
  exact (ringCfgWrite_of_idle hu idle rfl).trans (if_pos (ringCfgWrite_keeps hu hn apart))

theorem ringCfgWrite_of_shaper (word : w = 3) : ringCfgWrite n w v s = if s.g F.BRS_RING_CFG2_SPROF n = u.g F.BRS_RING_CFG2_SPROF n then u
    else u.updRing n (fun r => { r with s := some (u.spDepth (u.g F.BRS_RING_CFG2_SPROF n)) }) := by
  have apart : ∀ f' ∈ ringCfgFields w, F.BRS_RING_CFG_MPROF.reg.id ≠ f'.reg.id := by subst word; decide
  exact ringCfgWrite_of_idle hu idle (if_pos (ringCfgWrite_keeps hu hn apart))

end Idle

end Configuration

/-- The state after a write of register k of a ring's configuration has released the latch of its master (R8). -/
def State.baseWritten (s : State) (m k n : Nat) : State :=
  if k = 0 then s.wideWritten m R.BRS_RQ_BASE n else if k = 1 then s.wideWritten m R.BRS_CQ_BASE n else s

theorem ringCfgBy_eq (n k m v : Nat) (s : State) : ringCfgBy n k m v s = ringCfgWrite n k v (s.baseWritten m k n) := rfl

@[simp] theorem baseWritten_regs (s : State) (m k n : Nat) : (s.baseWritten m k n).regs = s.regs := by
  unfold State.baseWritten
  split
  · rfl
  · split <;> rfl

@[simp] theorem baseWritten_flt (s : State) (m k n : Nat) : (s.baseWritten m k n).flt = s.flt := by
  unfold State.baseWritten
  split
  · rfl
  · split <;> rfl

/-- The answer of RING_CFG_WRITE, from what the write of the register does once the latch is released. -/
theorem exec_ringCfgWrite_of_eq {s w t : State} {n : Ring} {k : Fin 5} {m : Fin 9} {v : W64} (rdy : s.Ready) (hw : w = s.baseWritten m k n)
    (e : ringCfgWrite n k v.toNat w = t) (q : t.flt = w.flt) : exec (.ringCfgWrite n k ⟨m, v⟩) s = .next t := by
  subst hw
  exact clocked_eq rdy ((ringCfgBy_eq ..).trans e) (q.trans (baseWritten_flt ..))

/-! ### Messages held back (R230) -/

section Messages

variable {s : State} {n c : Nat}

theorem itrHoldoffExpiry_of_none (none' : (s.ring n).lastMsg = none) : itrHoldoffExpiry n s = s := by
  rw [itrHoldoffExpiry, none']

theorem itrHoldoffExpiry_of_some (last : (s.ring n).lastMsg = some c) : itrHoldoffExpiry n s =
    if (s.ring n).msgDue && c + 1000 * s.g F.BRS_RING_CTL_ITR n ≤ s.cycle then
      (s.updRing n (fun r => { r with lastMsg := some s.cycle, msgDue := false })).msix (s.ringFn n) (s.g F.BRS_RING_CFG2_VEC n) else s := by
  rw [itrHoldoffExpiry, last]

end Messages

/-- Settles O21: each clause is the branch of the command's function that the ring's registers and its outstanding reads select. -/
theorem ringQueues : Obligations.RingQueues := by
  refine ⟨fun s n v run => ?rqDoorbell, fun s n v run => ?cqDoorbell, fun s n rdy => ?fetch, fun s n k bs run => ?arrival, fun s n x run => ?error,
    fun s n v rdy => clocked_eq rdy rfl rfl, fun s n v u rdy => ?init, fun s n run => clocked_settle run rfl, fun s n rdy => ?drained,
    fun s w n k m v rdy hw => ?cfg, fun s n rdy => ?message⟩
  case rqDoorbell =>
    exact ⟨fun frame => clocked_settle run (rqDoorbell_of_frame frame),
      fun host inside => clocked_settle run ((rqDoorbell_of_host host).trans (if_neg (Nat.not_le.mpr inside))),
      fun host beyond => clocked_settle run ((rqDoorbell_of_host host).trans (if_pos beyond))⟩
  case cqDoorbell =>
    exact ⟨fun inside => clocked_settle run (if_neg (Nat.not_le.mpr inside)), fun beyond => clocked_settle run (if_pos beyond)⟩
  case fetch =>
    exact ⟨fun shut => clocked_eq rdy (ringFetchIssue_of_not_fetches (not_fetches_iff.2 shut)) rfl,
      fun enabled host live undrained posts few room mode some' =>
        clocked_settle rdy.1 (ringFetchIssue_of_fetches ⟨enabled, host, live, undrained, posts, few, room, mode, some'⟩)⟩
  case arrival =>
    exact ⟨fun closed => clocked_settle run (entryArrival_of_none closed), fun i u found hu => clocked_settle run (entryArrival_of_open found hu)⟩
  case error =>
    exact ⟨fun i found => clocked_settle run (ringFetchError_of_open found rfl), fun closed => clocked_settle run (ringFetchError_of_none closed)⟩
  case init =>
    have answers {t : State} (e : (if s.on F.BRS_RING_CTL_EN n || s.on F.BRS_RING_STAT_BUSY n then s.put F.BRS_RING_STAT_CFG_REFUSED 1 n else s.initialised n) = t)
        (q : t.flt = s.flt) : exec (.ringInit n v) s = .next (ringEnWrite n v.toNat t) :=
      clocked_eq rdy ((ringInit_eq n v.toNat s).trans (congrArg _ e)) ((ringEnWrite_flt ..).trans q)
    refine ⟨fun active hu => ?_, fun disabled settled hu => ?_⟩
    · subst hu
      exact answers (if_pos (ring_active active)) rfl
    · subst hu
      exact answers (ite_of_eq_false (ring_idle disabled settled)) (initialised_flt s n)
  case drained => exact clocked_eq rdy rfl (ite_flt rfl rfl)
  case cfg =>
    have hw' : w = s.baseWritten m k n := hw.trans (by simp only [State.baseWritten, Fin.ext_iff, Fin.val_zero, Fin.val_one])
    have kept (f : Fld) : w.on f n = s.on f n := congrArg (decide <| · = 1) (g_of_regs (hw'.symm ▸ baseWritten_regs ..) f n 0)
    have idle (disabled : s.on F.BRS_RING_CTL_EN n = false) (settled : s.on F.BRS_RING_STAT_BUSY n = false) :=
      ring_idle ((kept _).trans disabled) ((kept _).trans settled)
    have hn : n.val < 16384 := by omega
    refine ⟨fun active => exec_ringCfgWrite_of_eq rdy hw' (ringCfgWrite_of_active (ring_active (active.imp (kept _).trans (kept _).trans))) rfl,
      fun disabled settled hk => ?_, fun disabled settled hk => ?_, fun disabled settled hk => ?_, fun u disabled settled hk hu => ?_, fun u disabled settled hk hu => ?_⟩
    all_goals subst hk
    · exact exec_ringCfgWrite_of_eq rdy hw' (ringCfgWrite_of_no_profile rfl (idle disabled settled) hn (.inl rfl)) rfl
    · exact exec_ringCfgWrite_of_eq rdy hw' (ringCfgWrite_of_no_profile rfl (idle disabled settled) hn (.inr (.inl rfl))) rfl
    · subst hw
      exact exec_ringCfgWrite_of_eq rdy hw' (ringCfgWrite_of_no_profile rfl (idle disabled settled) hn (.inr (.inr rfl))) rfl
    · subst hu hw
      exact exec_ringCfgWrite_of_eq rdy hw' (ringCfgWrite_of_meter rfl (idle disabled settled) hn rfl) (ite_flt rfl rfl)
    · subst hu hw
      exact exec_ringCfgWrite_of_eq rdy hw' (ringCfgWrite_of_shaper rfl (idle disabled settled) hn rfl) (ite_flt rfl rfl)
  case message =>
    refine ⟨fun none' => clocked_eq rdy (itrHoldoffExpiry_of_none none') rfl,
      fun c last due past => clocked_settle rdy.1 ((itrHoldoffExpiry_of_some last).trans (if_pos (by simp [due, past]))),
      fun c last held => clocked_eq rdy ((itrHoldoffExpiry_of_some last).trans (if_neg ?_)) rfl⟩
    rcases held with none' | early
    · simp [none']
    · simp [early]

end Sys2Proof.Machine
end

section
/-! PROOF. The ports of Barista: refills, profiles and services, admission and the slot budget, extended payloads and schedule frames. -/

namespace Sys2Proof.Machine

/-! ### Admission (R232, R238) -/

/-- What becomes of a permitted request: refused above the slot budget, held above REMAIN, and else charged and queued (R238). -/
def State.admission (u : State) (p : Nat) (r : Req) : State :=
  if (u.port p).budget < r.cost then (((u.takeReq p r).sat F.BRS_PORT_CNT_OVERSIZE p).selfComplete r 2).syncRounds
  else if u.remain p < r.cost then (u.sat F.BRS_PORT_CNT_HOLDS p).updPort p (fun x => { x with held := some r, blocked := true })
  else
    let t := (((u.setRemain p (u.remain p - r.cost)).chargeReq { r with port := p }).takeReq p r).sat F.BRS_PORT_ADM_ADMITTED p
    (t.updPort p (fun x => { x with aq := x.aq ++ [{ r with port := p, admitted := true, cls := (t.svc (t.ringSvc r.ring)).cls }] })).syncRounds

section Admission

variable {s u : State} {p : Nat} {r : Req}

theorem admitStep_of_shut (shut : s.on F.BRS_PORT_CFG_EN p = false ∨ (s.port p).blocked = true ∨ 64 ≤ (s.port p).aq.length) : admitStep p s = s :=
  if_pos (by simpa [or_assoc] using shut)

variable (enabled : s.on F.BRS_PORT_CFG_EN p = true) (free : (s.port p).blocked = false) (room : (s.port p).aq.length < 64)
  (next : s.syncRounds.nextReq p = (u, some r))
include enabled free room next

/-- An open port judges the request that it takes next. -/
theorem admitStep_of_next :
    admitStep p s = if r.xp && !u.xen p then ((u.takeReq p r).selfComplete r 8).syncRounds else u.admission p r := by
  refine (if_neg (by simp [enabled, free, room])).trans ?_
  rw [next]
  rfl

theorem admitStep_of_no_xen (extended : r.xp = true) (closed : u.xen p = false) :
    admitStep p s = ((u.takeReq p r).selfComplete r 8).syncRounds :=
  (admitStep_of_next enabled free room next).trans (if_pos (by rw [extended, closed]; rfl))

variable (permitted : r.xp = false ∨ u.xen p = true)
include permitted

theorem admitStep_of_permitted : admitStep p s = u.admission p r :=
  (admitStep_of_next enabled free room next).trans (if_neg (by rcases permitted with h | h <;> simp [h]))

end Admission

/-! ### Extended payloads (R232) -/

section Payloads

variable {s : State} {p : Nat}

theorem xpPayloadFetch_of_none (none' : (s.port p).aq = [] ∨ (s.port p).freeSlot = none) : xpPayloadFetch p s = s := by
  rcases none' with empty | full
  · rw [xpPayloadFetch, empty]
  · rw [xpPayloadFetch, full]
    cases (s.port p).aq <;> rfl

theorem xpPayloadFetch_of_head {r : Req} {l : List Req} {k : Nat} (head : (s.port p).aq = r :: l) (slot : (s.port p).freeSlot = some k) :
    xpPayloadFetch p s = if r.xp && !(s.port p).recs.any (fun y => !y.isOpen) && s.xpCan r then
      (s.xpRead r).updPort p (fun x => { x with recs := x.recs ++ [{ slot := k, gen := 0, req := r, isOpen := false }] }) else s := by
  rw [xpPayloadFetch, head, slot]

theorem xpPayloadFetch_of_unread {r : Req} {l : List Req} (head : (s.port p).aq = r :: l) (unread : r.xp = false ∨ s.xpCan r = false) :
    xpPayloadFetch p s = s := by
  cases slot : (s.port p).freeSlot with
  | none => exact xpPayloadFetch_of_none (.inr slot)
  | some k => exact (xpPayloadFetch_of_head head slot).trans (if_neg (by rcases unread with h | h <;> simp [h]))

variable {err : Option HostErr} {bs : List Byte}

theorem xpPayloadWritten_of_none (settled : ∀ y ∈ (s.port p).recs, y.isOpen = true ∨ y.ready = true) : xpPayloadWritten p err bs s = s := by
  have absent : (s.port p).recs.find? (fun y => !y.isOpen && !y.ready) = none :=
    List.find?_eq_none.2 fun y hy => by rcases settled y hy with h | h <;> simp [h]
  rw [xpPayloadWritten, absent]

section Reserved

variable {y : Rec} {l : List Rec} (first : (s.port p).recs = y :: l) (reserved : y.isOpen = false) (unready : y.ready = false)
include first reserved unready

theorem find_reserved : (s.port p).recs.find? (fun y => !y.isOpen && !y.ready) = some y := by
  rw [first, List.find?_cons_of_pos (by rw [reserved, unready]; rfl)]

theorem xpPayloadWritten_of_frame (frame : s.on F.BRS_RING_CFG_KIND y.req.ring = true) : xpPayloadWritten p err bs s =
    ((s.grant 4 5).wrBs (dmBase p + s.xpAddr p y.slot) (y.req.xdata.take y.req.xlen)).setRec p { y with ready := true, xa := s.xpAddr p y.slot } := by
  rw [xpPayloadWritten, find_reserved first reserved unready]
  dsimp only
  rw [frame]
  rfl

variable (host : s.on F.BRS_RING_CFG_KIND y.req.ring = false)
include host

theorem xpPayloadWritten_of_read (read : err = none) : xpPayloadWritten p err bs s =
    ((s.grant 4 5).wrBs (dmBase p + s.xpAddr p y.slot) (bs.take y.req.xlen)).setRec p { y with ready := true, xa := s.xpAddr p y.slot } := by
  subst read
  rw [xpPayloadWritten, find_reserved first reserved unready]
  dsimp only
  rw [host]
  rfl

theorem xpPayloadWritten_of_failed {e : HostErr} {u : State} (failed : err = some e)
    (hu : u = s.updPort p (fun x => { x with recs := x.recs.filter (fun z => z.slot ≠ y.slot), aq := x.aq.drop 1 })) :
    xpPayloadWritten p err bs s = ((u.selfComplete y.req 8).put F.BRS_RING_STAT_XERR 1 y.req.ring).readFails (u.ringFn y.req.ring) e := by
  subst failed hu
  rw [xpPayloadWritten, find_reserved first reserved unready]
  dsimp only
  rw [host]
  rfl

end Reserved

end Payloads

/-! ### Schedule frames (R243, R244) -/

/-- The header of a frame is one that R243 allows. -/
def goodHeader (bs : List Byte) : Bool :=
  8 ≤ bs.length && bitsOf (entryWord bs 0) 0 8 = 1 && bitsOf (entryWord bs 0) 8 8 != 0 && bitsOf (entryWord bs 0) 8 8 ≤ 128 && entryWord bs 4 = 0

theorem goodHeader_iff {bs : List Byte} : goodHeader bs = true ↔
    8 ≤ bs.length ∧ bitsOf (entryWord bs 0) 0 8 = 1 ∧ bitsOf (entryWord bs 0) 8 8 ≠ 0 ∧ bitsOf (entryWord bs 0) 8 8 ≤ 128 ∧ entryWord bs 4 = 0 := by
  simp only [goodHeader, Bool.and_eq_true, decide_eq_true_eq, bne_iff_ne, and_assoc]

theorem goodHeader_eq_false {bs : List Byte} (bad : bs.length < 8 ∨ bitsOf (entryWord bs 0) 0 8 ≠ 1 ∨ bitsOf (entryWord bs 0) 8 8 = 0 ∨
    128 < bitsOf (entryWord bs 0) 8 8 ∨ entryWord bs 4 ≠ 0) : goodHeader bs = false := by
  refine Bool.eq_false_iff.2 fun good => ?_
  obtain ⟨long, kind, some', few, zero⟩ := goodHeader_iff.1 good
  omega

/-- The entries of a well-formed frame; none where its header is not allowed or they run past its end. -/
def frameParts (bs : List Byte) : Option (List (List Byte × List Byte)) :=
  if goodHeader bs then frameEntries (bitsOf (entryWord bs 0) 8 8) (bs.drop 8) else none

theorem frameParts_of_bad {bs : List Byte} (bad : bs.length < 8 ∨ bitsOf (entryWord bs 0) 0 8 ≠ 1 ∨ bitsOf (entryWord bs 0) 8 8 = 0 ∨
    128 < bitsOf (entryWord bs 0) 8 8 ∨ entryWord bs 4 ≠ 0) : frameParts bs = none := ite_of_eq_false (goodHeader_eq_false bad)

theorem frameParts_of_good {bs : List Byte} (good : goodHeader bs = true) : frameParts bs = frameEntries (bitsOf (entryWord bs 0) 8 8) (bs.drop 8) :=
  if_pos good

/-- The sequence number of a frame from a sync port is not the one after the last. -/
def State.seqGap (s : State) (sp seq : Nat) : Bool := (Map.find s.brs.seq sp).any (fun q => seq != (q + 1) % 65536)

/-- A well-formed frame is counted, its sequence number kept and its entries handled. -/
def State.frameAccepted (s : State) (sp seq : Nat) (es : List (List Byte × List Byte)) : State :=
  let v := s.when (s.seqGap sp seq) (fun u => u.sat F.BRS_FRM_B_SEQ_GAP sp)
  ((({ v with brs.seq := Map.ins v.brs.seq sp seq } : State).sat F.BRS_FRM_A_ACCEPTED sp).each es (fun u e => u.frameEntry sp e)).syncRounds

section Frames

variable {s : State} {sp : Nat}

theorem schedFrame_of_none (none' : s.brs.frames = []) : schedFrame s = s := by
  rw [schedFrame, none']

theorem schedFrame_of_oldest {bs : List Byte} {l : List (Nat × List Byte)} (oldest : s.brs.frames = (sp, bs) :: l) : schedFrame s =
    (frameParts bs).elim (({ s with brs.frames := l } : State).sat F.BRS_FRM_A_BADFRAME sp)
      (({ s with brs.frames := l } : State).frameAccepted sp (bitsOf (entryWord bs 0) 16 16)) := by
  cases parts : frameParts bs with
  | none =>
    unfold frameParts goodHeader at parts
    rw [schedFrame, oldest]
    dsimp only
    rw [parts]
    rfl
  | some es =>
    unfold frameParts goodHeader at parts
    rw [schedFrame, oldest]
    dsimp only
    rw [parts, Option.elim_some, State.frameAccepted, State.seqGap]
    cases Map.find s.brs.seq sp <;> rfl

variable {seq : Nat} {es : List (List Byte × List Byte)}

theorem frameAccepted_of_first (first : Map.find s.brs.seq sp = none) : s.frameAccepted sp seq es =
    ((({ s with brs.seq := Map.ins s.brs.seq sp seq } : State).sat F.BRS_FRM_A_ACCEPTED sp).each es (fun u e => u.frameEntry sp e)).syncRounds := by
  have joined : s.seqGap sp seq = false := by rw [State.seqGap, first]; rfl
  rw [State.frameAccepted, joined]
  rfl

theorem frameAccepted_of_later {q : Nat} (last : Map.find s.brs.seq sp = some q) : s.frameAccepted sp seq es =
    ((({ (s.when (seq != (q + 1) % 65536) (fun u => u.sat F.BRS_FRM_B_SEQ_GAP sp)) with
      brs := { s.brs with seq := Map.ins s.brs.seq sp seq } } : State).sat F.BRS_FRM_A_ACCEPTED sp).each es (fun u e => u.frameEntry sp e)).syncRounds := by
  have judged : s.seqGap sp seq = (seq != (q + 1) % 65536) := by rw [State.seqGap, last]; rfl
  rw [State.frameAccepted, judged]
  cases seq != (q + 1) % 65536 <;> rfl

end Frames

/-- Settles O22: each clause is the branch of the command's function that the port, the request it takes next or the oldest frame selects. -/
theorem portAdmission : Obligations.PortAdmission := by
  refine ⟨fun s rdy early => clocked_eq rdy (if_pos early) rfl, fun s run due => clocked_settle run (if_neg (Nat.not_lt.mpr due)),
    fun s n w v t u run ht hu => ?meter, fun s n w v t u run ht hu => ?shaper, fun s v x rdy => ?service,
    fun s p rdy shut => clocked_eq rdy (admitStep_of_shut shut) rfl, fun s p u r run enabled free room next => ?judge, fun s p u rdy hu => ?renewal,
    fun s p v u run hu => ?enable, fun s p rdy => ?fetch, fun s p err bs run => ?written, fun s run => ?frame⟩
  case meter =>
    subst hu ht
    exact clocked_settle run rfl
  case shaper =>
    subst hu ht
    exact clocked_settle run rfl
  case service =>
    exact ⟨fun enabled moved => clocked_eq rdy (if_pos (by simp [enabled, moved])) rfl,
      fun kept => clocked_settle rdy.1 (if_neg (by rcases kept with h | h <;> simp [h]))⟩
  case judge =>
    have judged := admitStep_of_permitted enabled free room next
    refine ⟨fun extended closed => clocked_settle run (admitStep_of_no_xen enabled free room next extended closed),
      fun permitted oversize => clocked_settle run ((judged permitted).trans (if_pos oversize)),
      fun permitted fits short => clocked_settle run ((judged permitted).trans ((if_neg (Nat.not_lt.mpr fits)).trans (if_pos short))),
      fun t permitted fits enough ht => ?_⟩
    subst ht
    exact clocked_settle run ((judged permitted).trans ((if_neg (Nat.not_lt.mpr fits)).trans (if_neg (Int.not_lt.mpr enough))))
  case renewal =>
    subst hu
    exact ⟨fun none' => clocked_eq rdy (if_pos (by simpa using none')) rfl, fun enabled due => clocked_settle rdy.1 (if_neg (by simp [enabled, due]))⟩
  case enable =>
    subst hu
    refine ⟨fun same => clocked_settle run (if_neg (by rcases same with h | h <;> simp [h])), fun t was now ht => ?_⟩
    subst ht
    exact clocked_settle run (if_pos (by simp [was, now]))
  case fetch =>
    refine ⟨fun r l k head slot extended opens can => clocked_settle rdy.1 ((xpPayloadFetch_of_head head slot).trans (if_pos ?_)),
      fun r l head unread => clocked_eq rdy (xpPayloadFetch_of_unread head unread) rfl, fun none' => clocked_eq rdy (xpPayloadFetch_of_none none') rfl⟩
    simpa [extended, can] using opens
  case written =>
    exact ⟨fun settled => clocked_settle run (xpPayloadWritten_of_none settled),
      fun y l first reserved unready host read => clocked_settle run (xpPayloadWritten_of_read first reserved unready host read),
      fun y l first reserved unready frame => clocked_settle run (xpPayloadWritten_of_frame first reserved unready frame),
      fun y l e u first reserved unready host failed hu => clocked_settle run (xpPayloadWritten_of_failed first reserved unready host failed hu)⟩
  case frame =>
    refine ⟨fun none' => clocked_settle run (schedFrame_of_none none'), fun sp bs l oldest bad => ?_,
      fun sp bs l es oldest long kind some' few zero entries first => ?_, fun sp bs l es q oldest long kind some' few zero entries last => ?_⟩
    · exact clocked_settle run ((schedFrame_of_oldest oldest).trans (by rw [frameParts_of_bad bad]; rfl))
    all_goals have parts := (frameParts_of_good (goodHeader_iff.2 ⟨long, kind, some', few, zero⟩)).trans entries
    · exact clocked_settle run ((schedFrame_of_oldest oldest).trans (by rw [parts]; exact frameAccepted_of_first first))
    · exact clocked_settle run ((schedFrame_of_oldest oldest).trans (by rw [parts]; exact frameAccepted_of_later last))

end Sys2Proof.Machine
end

section
/-! PROOF. The twin pairs: leases and planned transfers, loading, self-test and resynchronisation of a member, machine checks, and comparison with its outcomes. -/

namespace Sys2Proof.Machine

/-! ### Leases and planned transfers (R249, R250) -/

@[simp] theorem pp_cycle (s : State) (fs fl : Fld) (v x : Nat) : (s.pp fs fl v x).cycle = s.cycle := by
  unfold State.pp
  split <;> rfl

section Transfers

variable {s : State} {x : Nat}

theorem leaseExpiry_of_kept (kept : s.noHolder x = true ∨ s.engGated = true ∨ s.cycle < (s.tw x).renewed + 1000 * (s.tw x).lease) : leaseExpiry x s = s :=
  if_pos (by simpa [or_assoc] using kept)

theorem leaseMove_of_no_standby (none' : s.noHolder x = true ∨ s.mstate x (1 - s.holder x) ≠ 4) :
    leaseMove x s = s.pp F.SEQ_LEASE_STAT_MOVE_REFUSED F.LE_LEASE_STAT_MOVE_REFUSED 1 x := if_pos (by simpa using none')

theorem handover_of_not_ready (unready : s.noHolder x = true ∨ s.mstate x (1 - s.holder x) ≠ 4 ∨ s.atHandover x = false) : handover x s = s :=
  if_pos (by simpa [or_assoc] using unready)

theorem moveWanted_iff : s.moveWanted x = true ↔ s.pg F.SEQ_LEASE_STAT_MOVE_PEND F.LE_LEASE_STAT_MOVE_PEND x = 1 ∨
    ((s.tw x).back = some (1 - s.holder x) ∧ s.mayTakeBack x (1 - s.holder x) = true) := by
  simp only [State.moveWanted, Bool.or_eq_true, Bool.and_eq_true, decide_eq_true_eq]

theorem moveWanted_eq_false (unasked : s.pg F.SEQ_LEASE_STAT_MOVE_PEND F.LE_LEASE_STAT_MOVE_PEND x ≠ 1)
    (kept : (s.tw x).back = none ∨ s.mayTakeBack x (1 - s.holder x) = false) : s.moveWanted x = false := by
  refine Bool.eq_false_iff.2 fun wanted => ?_
  obtain ⟨back, may⟩ := (moveWanted_iff.1 wanted).resolve_left unasked
  rcases kept with h | h
  · simp [h] at back
  · simp [h] at may

variable (held : s.noHolder x = false) (standby : s.mstate x (1 - s.holder x) = 4)
include held standby

theorem leaseMove_of_standby : leaseMove x s = if s.pg F.SEQ_LEASE_STAT_MOVE_PEND F.LE_LEASE_STAT_MOVE_PEND x = 1 then s
    else ((s.pp F.SEQ_LEASE_STAT_MOVE_PEND F.LE_LEASE_STAT_MOVE_PEND 1 x).pp F.SEQ_LEASE_CTL_MOVE F.LE_LEASE_CTL_MOVE 1 x).wantMove x :=
  if_neg (by simp [held, standby])

theorem leaseMove_of_unasked (unasked : s.pg F.SEQ_LEASE_STAT_MOVE_PEND F.LE_LEASE_STAT_MOVE_PEND x ≠ 1) : leaseMove x s =
    ((s.pp F.SEQ_LEASE_STAT_MOVE_PEND F.LE_LEASE_STAT_MOVE_PEND 1 x).pp F.SEQ_LEASE_CTL_MOVE F.LE_LEASE_CTL_MOVE 1 x).updTw x
      (fun w => { w with reqAt := some s.cycle, hand := false }) :=
  (leaseMove_of_standby held standby).trans ((if_neg unasked).trans (by rw [State.wantMove, pp_cycle, pp_cycle]))

variable (point : s.atHandover x = true)
include point

theorem handover_of_ready : handover x s = if s.moveWanted x then s.passToken x (1 - s.holder x) else s.handPoint x :=
  if_neg (by simp [held, standby, point])

theorem handover_of_wanted (wanted : s.moveWanted x = true) : handover x s = s.passToken x (1 - s.holder x) :=
  (handover_of_ready held standby point).trans (if_pos wanted)

theorem handover_of_unwanted (unwanted : s.moveWanted x = false) : handover x s = s.updTw x (fun w => { w with reqAt := none, back := none }) :=
  (handover_of_ready held standby point).trans ((ite_of_eq_false unwanted).trans (ite_of_eq_false unwanted))

end Transfers

/-! ### Loading, self-test and resynchronisation of a member (R251, R258, R265) -/

section Members

variable {s : State} {x m : Nat}

theorem restartMember_of_holder (holds : s.holds x m = true) :
    s.restartMember x m = s.pp F.SEQ_LEASE_STAT_RESTART_REFUSED F.LE_LEASE_STAT_RESTART_REFUSED 1 x := if_pos holds

theorem restartMember_of_other (other : s.holds x m = false) :
    s.restartMember x m = if s.mstate x m = 0 ∨ s.mstate x m = 4 then (s.memberOff x m).memberTo x m 1 else s :=
  (ite_of_eq_false other).trans (by simp only [Bool.or_eq_true, decide_eq_true_eq])

/-- Under running clocks RESTART ends as its own function does. -/
theorem exec_memberRestart_of_eq {s t : State} {x : Pair} {m : Member} (run : s.clk = Clk.running) (e : s.restartMember x m = t) :
    exec (.memberRestart x m) s = .next t.settle := clocked_settle (f := fun s => s.restartMember x m) run e

section Loading

variable {k : Nat} {i : PatchImage}

theorem patchLoadDone_of_not_loading (other : s.mstate x m ≠ 1) : patchLoadDone x m k i s = s := if_pos (by simp [other])

theorem patchLoadDone_of_disagrees (disagrees : loadAgrees (s.patchImage x) k i = false) : patchLoadDone x m k i s = s := if_pos (by simp [disagrees])

variable (loading : s.mstate x m = 1) (agrees : loadAgrees (s.patchImage x) k i = true)
include loading agrees

theorem patchLoadDone_of_image {g : PatchImage} (image : s.patchImage x = .ok g) : patchLoadDone x m k i s =
    (s.setPatch x m (if s.mode = 2 && 2 ≤ s.mstate x (1 - m) && (s.ident x (1 - m)).isNone then none else some g)).memberTo x m 2 := by
  rw [patchLoadDone, if_neg (by simp [loading, agrees]), image]

theorem patchLoadDone_of_bad_image {c : Nat} {u : State} (image : s.patchImage x = .error c)
    (hu : u = s.raise 52 (if x = 0 then c + m * 512 else c + 16 + (x - 1) * 32 + m * 512)) : patchLoadDone x m k i s =
    if u.mode = 2 then (((u.setPatch x m none).setPatch x (1 - m) none).memberTo x m 2).bootFail 3 else (u.setCause x m 7).memberOff x m := by
  rw [patchLoadDone, if_neg (by simp [loading, agrees]), image, hu]

end Loading

/-- A member takes ROM alone only at boot, beside a twin with none (R251). -/
theorem not_romTwin (patched : s.mode ≠ 2 ∨ (s.ident x (1 - m)).isSome = true) :
    ¬(s.mode = 2 && 2 ≤ s.mstate x (1 - m) && (s.ident x (1 - m)).isNone) = true := by
  rcases patched with normal | patched
  · simp [normal]
  · simp [Option.isSome_iff_ne_none.1 patched]

section Selftest

variable {cls ua : Nat}

theorem selftestDone_of_not_testing {ok : Bool} (other : s.mstate x m ≠ 2) : selftestDone x m ok cls ua s = s := if_pos (by simp [other])

variable (testing : s.mstate x m = 2)
include testing

theorem selftestDone_of_pass : selftestDone x m true cls ua s = if s.mayTake x m then s.takeToken x m else s.memberTo x m 3 :=
  if_neg (by simp [testing])

theorem selftestDone_of_fail {u : State} (hu : u = (s.mp F.SEQ_HEALTH_FAIL F.LE_HEALTH_FAIL cls x m).machineCheck x m 8 ua) :
    selftestDone x m false cls ua s = if u.mode = 2 then u.bootFail 4 else u := by
  subst hu
  refine (if_neg (by simp [testing])).trans ?_
  simp only [State.when, Bool.false_eq_true, if_false, decide_eq_true_eq]

end Selftest

theorem resyncDone_of_not_resyncing (other : s.mstate x m ≠ 3 ∨ s.noHolder x = true) : resyncDone x m s = s := if_pos (by simpa using other)

/-- A member that has resynchronised is INSYNC with the holder's replay buffer, and asks for the token. -/
theorem resyncDone_of_resyncing {u : State} (resyncing : s.mstate x m = 3) (held : s.noHolder x = false) (hu : u = s.when (x = 0) (fun u => u.copyThreads m)) :
    resyncDone x m s = ((((u.memberUp x m).suspSync x).updMem x m (fun y => { y with replay := (u.mem' x (u.holder x)).replay })).updTw x
      (fun w => { w with back := some m })).wantMove x := by
  subst hu
  exact if_neg (by simp [resyncing, held])

section Sweep

variable {cls ua : Nat}

theorem sweepDone_of_not_sweeping {ok : Bool} (other : s.mstate x m ≠ 4 ∨ s.engGated = true) : sweepDone x m ok cls ua s = s := if_pos (by simpa using other)

theorem sweepDone_of_sweeping {ok : Bool} (sync : s.mstate x m = 4) (live : s.engGated = false) : sweepDone x m ok cls ua s = if ok then
    ((s.mp F.SEQ_HEALTH_SWEEPS F.LE_HEALTH_SWEEPS (s.mg F.SEQ_HEALTH_SWEEPS F.LE_HEALTH_SWEEPS x m + 1) x m).mp F.SEQ_HEALTH_AGE F.LE_HEALTH_AGE 0 x m).updTw x
      (fun w => { w with mems := Map.upd w.mems m {} (fun y => { y with sweepAt := some s.cycle }) })
    else ((s.mp F.SEQ_HEALTH_FAIL F.LE_HEALTH_FAIL cls x m).mp F.SEQ_HEALTH_GOOD F.LE_HEALTH_GOOD 0 x m).machineCheck x m 3 ua :=
  if_neg (by simp [sync, live])

end Sweep

/-! ### Machine checks and microcode (R260 to R262) -/

section MicroEvents

variable {e : MicroEvt} {ua : Nat}

theorem machineCheckEvt_of_idle (idle : s.mstate x m < 2 ∨ s.engGated = true) : machineCheckEvt x m e ua s = s := if_pos (by simpa using idle)

/-- What befalls a member that runs microcode. -/
theorem machineCheckEvt_of_running (runs : 2 ≤ s.mstate x m) (live : s.engGated = false) : machineCheckEvt x m e ua s = match e with
    | .parity => (s.spoilWord x m ua).machineCheck x m 1 ua
    | .badAddr => s.machineCheck x m 2 ua
    | .cycle cond => s.microCycle x m cond ua := by
  refine (if_neg (by simp [live, Nat.not_lt.2 runs])).trans ?_
  cases e <;> rfl

end MicroEvents

section MicroCycle

variable {c : Bool} {entry : Nat} {y : MemberSt} {w : Nat × Nat} (hy : y = s.mem' x m) (hw : w = s.microword x m y.upc)
include hy hw

theorem microCycle_of_bad_word (bad : w.2 ≠ microParity x w.1) : s.microCycle x m c entry = s.machineCheck x m 1 y.upc := by
  subst hw hy
  exact if_pos (by simpa using bad)

variable (good : w.2 = microParity x w.1)
include good

theorem microCycle_of_no_next (next : microNext x w.1 y.upc y.uret c entry = none) : s.microCycle x m c entry = s.machineCheck x m 2 y.upc := by
  subst hw hy
  rw [State.microCycle, if_neg (by simp [good]), next]
  rfl

theorem microCycle_of_next {z : Nat} (next : microNext x w.1 y.upc y.uret c entry = some z) (there : populated x (s.microMatch x m z) = true) :
    s.microCycle x m c entry = s.updMem x m (fun q => { q with upc := s.microMatch x m z, uret := microRet x w.1 y.upc y.uret }) := by
  subst hw hy
  rw [State.microCycle, if_neg (by simp [good]), next]
  exact if_pos there

end MicroCycle

end Members

/-- Settles O23: each clause is the branch of the command's function that the pair's token and the member's state select. -/
theorem twinPairs : Obligations.TwinPairs := by
  refine ⟨fun s x m rdy => ?renewal, fun s x rdy => ?expiry, fun s x run => ?move, fun s x rdy => ?handover, fun s x m run => ?restart,
    fun s x m k i run => ?load, fun s x m cls ua run => ?selftest, fun s x m run => ?resync, fun s x m cls ua run => ?sweep, fun s x m e ua run => ?check⟩
  case renewal => exact ⟨fun holds => clocked_eq rdy (if_pos holds) rfl, fun other => clocked_eq rdy (ite_of_eq_false other) rfl⟩
  case expiry =>
    exact ⟨fun kept => clocked_eq rdy (leaseExpiry_of_kept kept) rfl,
      fun held live due => clocked_settle rdy.1 (if_neg (by simp [held, live, Nat.not_lt.2 due]))⟩
  case move =>
    exact ⟨fun none' => clocked_settle run (leaseMove_of_no_standby none'),
      fun held standby pending => clocked_settle run ((leaseMove_of_standby held standby).trans (if_pos pending)),
      fun held standby unasked => clocked_settle run (leaseMove_of_unasked held standby unasked)⟩
  case handover =>
    exact ⟨fun unready => clocked_eq rdy (handover_of_not_ready unready) rfl,
      fun held standby point unasked kept => clocked_eq rdy (handover_of_unwanted held standby point (moveWanted_eq_false unasked kept)) rfl,
      fun held standby point wanted => clocked_settle rdy.1 (handover_of_wanted held standby point (moveWanted_iff.2 wanted))⟩
  case restart =>
    exact ⟨fun holds => exec_memberRestart_of_eq run (restartMember_of_holder holds),
      fun other state => exec_memberRestart_of_eq run ((restartMember_of_other other).trans (if_pos state)),
      fun other on unsynced => exec_memberRestart_of_eq run ((restartMember_of_other other).trans (if_neg (not_or.2 ⟨on, unsynced⟩)))⟩
  case load =>
    refine ⟨fun other => clocked_settle run (patchLoadDone_of_not_loading other), fun disagrees => clocked_settle run (patchLoadDone_of_disagrees disagrees),
      fun g loading agrees image patched => clocked_settle run ((patchLoadDone_of_image loading agrees image).trans (by rw [if_neg (not_romTwin patched)])),
      fun g loading agrees image boot passed rom => clocked_settle run ((patchLoadDone_of_image loading agrees image).trans (by rw [if_pos (by simp [boot, passed, rom])])),
      fun c u loading agrees image hu normal => clocked_settle run ((patchLoadDone_of_bad_image loading agrees image hu).trans (if_neg normal)),
      fun c u loading agrees image hu boot => clocked_settle run ((patchLoadDone_of_bad_image loading agrees image hu).trans (if_pos boot))⟩
  case selftest =>
    exact ⟨fun ok other => clocked_settle run (selftestDone_of_not_testing other), fun testing => clocked_settle run (selftestDone_of_pass testing),
      fun u testing hu normal held => clocked_settle run ((selftestDone_of_fail testing hu).trans (if_neg normal))⟩
  case resync =>
    exact ⟨fun other => clocked_settle run (resyncDone_of_not_resyncing other),
      fun u resyncing held hu => clocked_settle run (resyncDone_of_resyncing resyncing held (by simpa only [Fin.val_eq_zero_iff] using hu))⟩
  case sweep =>
    exact ⟨fun ok other => clocked_settle run (sweepDone_of_not_sweeping other), fun sync live => clocked_settle run (sweepDone_of_sweeping sync live),
      fun sync live => clocked_settle run (sweepDone_of_sweeping sync live)⟩
  case check =>
    have befalls (runs : 2 ≤ s.mstate x m) (live : s.engGated = false) := machineCheckEvt_of_running (e := e) (ua := ua.toNat) runs live
    refine ⟨fun idle => clocked_settle run (machineCheckEvt_of_idle idle), fun runs live he => ?_, fun runs live he => ?_, fun c y w runs live he hy hw => ?_⟩
    all_goals subst he
    · exact clocked_settle run (befalls runs live)
    · exact clocked_settle run (befalls runs live)
    · exact ⟨fun bad => clocked_settle run ((befalls runs live).trans (microCycle_of_bad_word hy hw bad)),
        fun good next => clocked_settle run ((befalls runs live).trans (microCycle_of_no_next hy hw good next)),
        fun z good next there => clocked_settle run ((befalls runs live).trans (microCycle_of_next hy hw good next there))⟩

/-! ### Comparison (R253 to R256, R263) -/

/-- A comparison that is made is counted, and the holder's digest is shown. -/
def State.comparing (s : State) (x : Nat) (d : DigDue) : State :=
  (s.psat F.SEQ_COMPARES_N F.LE_COMPARES_N x).setDigest x (s.holder x) d.dig

/-- The digests of a partition, or of a Loop Engine pair, agree. -/
def State.digestsAgree (s : State) (x : Nat) (d : DigDue) : State :=
  s.updTw x (fun w => { w with run := 0, matched := d.part :: w.matched.filter (fun q => q ≠ d.part) })

section Comparison

variable {s u : State} {x : Nat} {other : Option W64} {d : DigDue} {l : List DigDue}

theorem compareWith_of_none (none' : (s.tw x).dues = []) : s.compareWith x other = s := by
  rw [State.compareWith, none']

variable (due : (s.tw x).dues = d :: l) (hu : u = s.updTw x (fun w => { w with dues := l }))
include due hu

theorem compareWith_of_due : s.compareWith x other = if u.suspReason x != 0 || (u.tw x).diag.isSome then u else
    other.elim ((u.comparing x d).mismatch x d) fun o =>
      let t := (u.comparing x d).setDigest x (1 - (u.comparing x d).holder x) o
      if o = d.dig then (if x = 0 then t.digestsAgree x d else (t.digestsAgree x d).handPoint x) else t.mismatch x d := by
  subst hu
  rw [State.compareWith, due]
  cases other <;> rfl

theorem compareWith_of_dropped (dropped : u.suspReason x ≠ 0 ∨ (u.tw x).diag.isSome = true) : s.compareWith x other = u :=
  (compareWith_of_due due hu).trans (if_pos (by simpa using dropped))

variable (compares : u.suspReason x = 0) (free : (u.tw x).diag = none)
include compares free

theorem compareWith_of_timeout : s.compareWith x none = (u.comparing x d).mismatch x d :=
  (compareWith_of_due due hu).trans (if_neg (by simp [compares, free]))

variable {o : W64}

theorem compareWith_of_digest : s.compareWith x (some o) =
    let t := (u.comparing x d).setDigest x (1 - (u.comparing x d).holder x) o
    if o = d.dig then (if x = 0 then t.digestsAgree x d else (t.digestsAgree x d).handPoint x) else t.mismatch x d :=
  (compareWith_of_due due hu).trans (if_neg (by simp [compares, free]))

theorem compareWith_of_differs (differs : o ≠ d.dig) :
    s.compareWith x (some o) = ((u.comparing x d).setDigest x (1 - (u.comparing x d).holder x) o).mismatch x d :=
  (compareWith_of_digest due hu compares free).trans (if_neg differs)

theorem compareWith_of_agrees (agrees : o = d.dig) : s.compareWith x (some o) =
    let t := (u.comparing x d).setDigest x (1 - (u.comparing x d).holder x) o
    if x = 0 then t.digestsAgree x d else (t.digestsAgree x d).handPoint x :=
  (compareWith_of_digest due hu compares free).trans (if_pos agrees)

end Comparison

section Outcome

variable {s t : State} {x : Pair} (run : s.clk = Clk.running)
include run

theorem exec_digestCompare_of_eq {o : W64} (e : s.compareWith x (some o) = t) : exec (.digestCompare x o) s = .next t.settle :=
  clocked_settle (f := fun s => s.compareWith x (some o)) run e

theorem exec_digestTimeout_of_eq (e : s.compareWith x none = t) : exec (.digestTimeout x) s = .next t.settle :=
  clocked_settle (f := fun s => s.compareWith x none) run e

end Outcome

/-! ### The outcome of the micro-diagnostics (R255, R256) -/

/-- What follows an outcome of the micro-diagnostics that the comparison of d started; k is the holder. -/
def State.diagOutcome (s : State) (x k : Nat) (d : DigDue) : Bool → Bool → State
  | true, true => (((((s.pp F.SEQ_LEASE_STAT_LAST_OUT F.LE_LEASE_STAT_LAST_OUT 4 x).updTw x (fun w => { w with run := 0 })).setCause x 0 4).setCause x 1 4).noHolderRule x).outFault x 4
  | true, false =>
    let t := (((s.pp F.SEQ_LEASE_STAT_LAST_OUT F.LE_LEASE_STAT_LAST_OUT 1 x).updTw x (fun w => { w with run := 0 })).setCause x k 4).memberLost x k
    (if x = 0 then t.miscAbort d else t).outFault x 1
  | false, true =>
    ((((s.pp F.SEQ_LEASE_STAT_LAST_OUT F.LE_LEASE_STAT_LAST_OUT 2 x).updTw x (fun w => { w with run := 0 })).setCause x (1 - k) 4).memberLost x (1 - k)).outFault x 2
  | false, false => ((s.pp F.SEQ_LEASE_STAT_LAST_OUT F.LE_LEASE_STAT_LAST_OUT 3 x).unresolved x).outFault x 3

section Diagnostics

variable {s : State} {x : Nat} {hf sf : Bool}

theorem diagDone_of_none (none' : (s.tw x).diag = none) : diagDone x hf sf s = s := by
  rw [diagDone, none']

theorem diagDone_of_some {d : DigDue} (diag : (s.tw x).diag = some d) : diagDone x hf sf s =
    ((s.updTw x (fun w => { w with diag := none })).pp F.SEQ_LEASE_STAT_DIAG F.LE_LEASE_STAT_DIAG 0 x).diagOutcome x (s.holder x) d hf sf := by
  rw [diagDone, diag]
  cases hf <;> cases sf <;> rfl

end Diagnostics

/-- Settles O24: a comparison is the branch that the dues of the pair, its suspension and the two digests select, and an outcome the one of the two verdicts. -/
theorem twinComparison : Obligations.TwinComparison := by
  refine ⟨fun s x o run => ⟨fun none' => ⟨exec_digestCompare_of_eq run (compareWith_of_none none'), exec_digestTimeout_of_eq run (compareWith_of_none none')⟩,
    fun d l u due hu dropped => ⟨exec_digestCompare_of_eq run (compareWith_of_dropped due hu dropped), exec_digestTimeout_of_eq run (compareWith_of_dropped due hu dropped)⟩,
    fun d l u t due hu compares free ht => ?made⟩, fun s x hf sf run => ⟨fun none' => clocked_settle run (diagDone_of_none none'), fun d u diag hu => ?outcome⟩⟩
  case made =>
    subst ht
    exact ⟨exec_digestTimeout_of_eq run (compareWith_of_timeout due hu compares free),
      fun differs => exec_digestCompare_of_eq run (compareWith_of_differs due hu compares free differs),
      fun agrees first => exec_digestCompare_of_eq run ((compareWith_of_agrees due hu compares free agrees).trans (if_pos (Fin.val_eq_zero_iff.2 first))),
      fun agrees later => exec_digestCompare_of_eq run ((compareWith_of_agrees due hu compares free agrees).trans (if_neg (mt Fin.val_eq_zero_iff.1 later)))⟩
  case outcome =>
    subst hu
    have ends {t : State} {a b : Bool} (ha : hf = a) (hb : sf = b) (e : State.diagOutcome _ x (s.holder x) d a b = t) :
        exec (.diagDone x hf sf) s = .next t.settle := clocked_settle run ((diagDone_of_some diag).trans (ha ▸ hb ▸ e))
    exact ⟨fun failed failed' => ends failed failed' rfl,
      fun failed passed later => ends failed passed (congrArg (State.outFault · x 1) (if_neg (mt Fin.val_eq_zero_iff.1 later))),
      fun failed passed first => ends failed passed (congrArg (State.outFault · x 1) (if_pos (Fin.val_eq_zero_iff.2 first))),
      fun passed failed => ends passed failed rfl, fun passed passed' => ends passed passed' rfl⟩

end Sys2Proof.Machine
end

section
/-! PROOF. That no command leaves a reset outstanding: settling takes up what the faults called for, and what ends without settling leaves the faults alone. -/

namespace Sys2Proof.Machine

/-! ### Outcomes with nothing outstanding (R338, R340, R373) -/

/-- Whatever state an outcome answers has no reset outstanding. -/
def AnswersQuiet (o : Out) : Prop := ∀ t, o = .next t → t.Quiet

theorem answersQuiet_next {s : State} (q : s.Quiet) : AnswersQuiet (.next s) := by
  intro t e
  cases e
  exact q

theorem answersQuiet_fin (s : State) : AnswersQuiet (fin s) := answersQuiet_next (settle_quiet s)

theorem answersQuiet_ite {p : Prop} [Decidable p] {x y : Out} (hx : AnswersQuiet x) (hy : AnswersQuiet y) : AnswersQuiet (if p then x else y) := by
  split
  · exact hx
  · exact hy

theorem answersQuiet_clocked {s : State} (f : State → State) (q : s.Quiet) : AnswersQuiet (clocked s f) :=
  answersQuiet_ite (answersQuiet_fin _) (answersQuiet_next q)

/-- What leaves the faults as they stand leaves nothing outstanding where nothing was. -/
theorem quiet_of_flt_eq {s t : State} (q : s.Quiet) (e : t.flt = s.flt) : t.Quiet := by
  rw [State.Quiet, e]
  exact q

theorem pinUnseen_flt (s : State) (i : Nat) (level : Bool) (held : Nat) : (s.pinUnseen i level held).flt = s.flt := ite_flt rfl rfl

theorem pcieLinkTrained_flt (speed width : Nat) (s : State) : (pcieLinkTrained speed width s).flt = s.flt := ite_flt rfl rfl

/-- A command ends in settling, under the clock gate or outside it, or else it leaves the faults alone. -/
theorem exec_answersQuiet (c : Instr) {s : State} (q : s.Quiet) : AnswersQuiet (exec c s) := by
  cases gated : rootClocked c with
  | true =>
    obtain ⟨f, e⟩ := exec_eq_clocked c s gated
    rw [e]
    exact answersQuiet_clocked f q
  | false =>
    cases c with
    | tilePowerUp | clkLoss | clkLossReset | pcieRequest | freezeRequest | freezePinRise | thaw | pwrReqRise | railPowerGood
    | pwrupStepTimeout | pwrReqFall | vstbyLow | powerDownDone | railFault | chipReset | isRead | boscCorrection | tapUpdateIr
    | unlock | vstbyPowerUp | vstbyBrownout | pcieConfigWrite => exact answersQuiet_fin _
    | tileWatchdogExpiry | msixSend | ijtagAccess => exact answersQuiet_ite (answersQuiet_next q) (answersQuiet_fin _)
    | tciEdge | syncInEdge =>
      exact answersQuiet_ite (answersQuiet_clocked _ q) (answersQuiet_next (quiet_of_flt_eq q (pinUnseen_flt _ _ _ _)))
    | pcieLinkTrained => exact answersQuiet_ite (answersQuiet_next (quiet_of_flt_eq q (pcieLinkTrained_flt _ _ _))) (answersQuiet_clocked _ q)
    | pcieLinkDown | evinEdge => exact answersQuiet_ite (answersQuiet_next q) (answersQuiet_clocked _ q)
    | _ => exact nomatch gated

/-! ### A step with nothing waiting -/

theorem runBases_flt (s : State) (n : Nat) : (s.runBases n).flt = s.flt := each_keep State.flt (fun u b => u.updTb b (fun x => x.run n)) (fun _ _ => rfl) s (List.range 4)

theorem fixReps_flt (s : State) : s.fixReps.flt = s.flt := ite_flt rfl rfl

/-- A tick raises nothing: in a freeze the Freeze Timer alone moves on (R350). -/
theorem tick_quiet {s : State} (q : s.Quiet) : s.tick.Quiet := by
  unfold State.tick
  split
  · exact quiet_of_flt_eq q ((fixReps_flt _).trans (runBases_flt s 1))
  · exact q
  · exact q

/-- Settles O44: the command at the front of the queue answers with nothing outstanding, and so does a tick. -/
theorem nothingOutstanding : Obligations.NothingOutstanding := by
  intro s t q run
  unfold step at run
  split at run
  · rename_i c rest _
    exact exec_answersQuiet c (s := { s with pending := rest }) q t run
  · exact answersQuiet_next (tick_quiet q) t run

end Sys2Proof.Machine
end

section
/-! PROOF. The time bases: rates, steps, amortisation and the replicas; pulse outputs, capture inputs and SYNC_IN. -/

namespace Sys2Proof.Machine

/-! ### Rates and steps (R270 to R272) -/

theorem when_put_flt (s : State) (c : Bool) (f : Fld) (v i j : Nat) : (s.when c (fun u => u.put f v i j)).flt = s.flt :=
  when_keep State.flt (fun u => u.put f v i j) (fun _ => rfl) s c

section Bases

variable {s : State} {b : Nat}

theorem usReached_of_le {due : Nat} (reached : wholeUs due ≤ s.tbVal b) : s.usReached b due = true := decide_eq_true reached

theorem usReached_of_lt {due : Nat} (ahead : s.tbVal b < wholeUs due) : s.usReached b due = false := decide_eq_false (Nat.not_le.2 ahead)

theorem tbIncWrite_of_within {v : Nat} (above : 999 * 2 ^ 48 ≤ 1000 * (v % 2 ^ 50)) (below : 1000 * (v % 2 ^ 50) ≤ 1001 * 2 ^ 48) :
    tbIncWrite b v s = (s.sput F.TB_INC_INC (v % 2 ^ 50) b).updTb b (fun x => { x with pendInc := some (v % 2 ^ 50, s.tbVal b + usU) }) :=
  if_pos (Bool.and_eq_true_iff.2 ⟨decide_eq_true above, decide_eq_true below⟩)

theorem tbIncWrite_of_outside {v : Nat} (outside : 1000 * (v % 2 ^ 50) < 999 * 2 ^ 48 ∨ 1001 * 2 ^ 48 < 1000 * (v % 2 ^ 50)) :
    tbIncWrite b v s = s.put F.TB_STAT_INC_REFUSED 1 b :=
  if_neg fun within => by
    obtain ⟨above, below⟩ := Bool.and_eq_true_iff.1 within
    exact outside.elim (Nat.not_lt.2 (of_decide_eq_true above)) (Nat.not_lt.2 (of_decide_eq_true below))

theorem tbIncApply_of_none (none' : (s.tb b).pendInc = none) : tbIncApply b s = s := by rw [tbIncApply, none']

theorem tbIncApply_of_some {inc due : Nat} (pending : (s.tb b).pendInc = some (inc, due)) :
    tbIncApply b s = if s.usReached b due then s.updTb b (fun x => { x with inc := inc, pendInc := none }) else s := by
  rw [tbIncApply, pending]

theorem stepCmd_of_refused (refused : s.on F.TB_STAT_STEP_BUSY b = true ∨ 10 ^ 9 ≤ getField (s.word R.TB_SET b) 18 30 ∨ s.stepBlocked b = true) :
    stepCmd b s = s.put F.TB_STAT_STEP_REFUSED 1 b :=
  if_pos (by simpa [or_assoc] using refused)

theorem stepCmd_of_accepted (free : s.on F.TB_STAT_STEP_BUSY b = false) (fits : getField (s.word R.TB_SET b) 18 30 < 10 ^ 9) (allowed : s.stepBlocked b = false) :
    stepCmd b s = s.askStep b (tvUnits (s.word R.TB_SET b)) true :=
  if_neg (by simpa [free, allowed] using fits)

theorem stepOff_of_refused (refused : s.on F.TB_STAT_STEP_BUSY b = true ∨ 10 ^ 9 ≤ getField (s.word R.TB_SET b) 18 30 ∨ (s.tbVal b : Int) + s.offUnits b < 0 ∨
    s.stepBlocked b = true) : stepOff b s = s.put F.TB_STAT_STEP_REFUSED 1 b :=
  if_pos (by simpa [or_assoc] using refused)

theorem stepOff_of_accepted (free : s.on F.TB_STAT_STEP_BUSY b = false) (fits : getField (s.word R.TB_SET b) 18 30 < 10 ^ 9) (positive : 0 ≤ (s.tbVal b : Int) + s.offUnits b)
    (allowed : s.stepBlocked b = false) : stepOff b s = s.askStep b (s.offUnits b) false :=
  if_neg (by simpa [free, allowed] using ⟨fits, positive⟩)

theorem tbStepApply_of_none (none' : (s.tb b).pendStep = none) : tbStepApply b s = s := by rw [tbStepApply, none']

section Pending

variable {v : Int} {isSet : Bool} {due : Nat} (pending : (s.tb b).pendStep = some (v, isSet, due))
include pending

theorem tbStepApply_of_early (early : s.tbVal b < wholeUs due) : tbStepApply b s = s := by
  rw [tbStepApply, pending]
  exact if_pos (by rw [usReached_of_lt early]; rfl)

/-- A target stands for the instant of the step, an offset for the base as it is (R271). -/
theorem tbStepApply_of_due {val : Int} (reached : wholeUs due ≤ s.tbVal b)
    (hval : val = if isSet then v + ((s.tbVal b - wholeUs due : Nat) : Int) else (s.tbVal b : Int) + v) :
    tbStepApply b s = (s.updTb b (fun x => { x with pendStep := none })).stepTo b (val.toNat % tbWrap) := by
  rw [tbStepApply, pending, hval]
  exact if_neg (by rw [usReached_of_le reached]; decide)

end Pending

/-! ### Amortisation (R273) -/

theorem amortCmd_of_busy (busy : s.on F.TB_STAT_AMORT_BUSY b = true) : amortCmd b s = s.put F.TB_STAT_AMORT_REFUSED 1 b := if_pos busy

theorem amortCmd_of_free (free : s.on F.TB_STAT_AMORT_BUSY b = false) : amortCmd b s = (s.put F.TB_STAT_AMORT_BUSY 1 b).updTb b
    (fun x => { x with amort := some { left := s.offUnits b, rate := s.amRate b, running := false, startAt := s.tbVal b + usU } }) :=
  ite_of_eq_false free

section NoAmort

variable (none' : (s.tb b).amort = none)
include none'

theorem amortStartApply_of_none : amortStartApply b s = s := by rw [amortStartApply, none']
theorem amortDone_of_none : amortDone b s = s := by rw [amortDone, none']
theorem amortStop_of_none : amortStop b s = s := by rw [amortStop, none']
theorem amortStopApply_of_none : amortStopApply b s = s := by rw [amortStopApply, none']

end NoAmort

section OneAmort

variable {a : Amort} (adjusts : (s.tb b).amort = some a)
include adjusts

theorem amortStartApply_of_some :
    amortStartApply b s = if !a.running && s.usReached b a.startAt then s.updTb b (fun x => { x with amort := some { a with running := true } }) else s := by
  rw [amortStartApply, adjusts]

theorem amortDone_of_some : amortDone b s = if a.running && a.left = 0 then (s.put F.TB_STAT_AMORT_BUSY 0 b).updTb b (fun x => { x with amort := none }) else s := by
  rw [amortDone, adjusts]

theorem amortStop_of_first (first : a.stopAt = none) : amortStop b s = s.updTb b (fun x => { x with amort := some { a with stopAt := some (s.tbVal b + usU) } }) := by
  rw [amortStop, adjusts]
  exact if_neg (by rw [first]; decide)

/-- What is left of the offset goes back into TB_OFF (R271, R273). -/
theorem amortEnd_of_some : s.amortEnd b =
    ((s.when (a.left != 0) (fun u => u.put F.TB_OFF_OFF (ofSigned 64 (a.left.tdiv (2 ^ 32))) b)).put F.TB_STAT_AMORT_BUSY 0 b).updTb b (fun x => { x with amort := none }) := by
  rw [State.amortEnd, adjusts]

theorem amortStopApply_of_due {due : Nat} (asked : a.stopAt = some due) (reached : wholeUs due ≤ s.tbVal b) : amortStopApply b s = s.amortEnd b := by
  rw [amortStopApply, adjusts]
  dsimp only
  rw [asked]
  exact if_pos (usReached_of_le reached)

end OneAmort

end Bases

/-! ### Replicas (R274, R275) -/

section Replicas

variable {s u : State} {t : Nat} {x : MarkerTrip} {err : Int} {due : Nat}

theorem replicaRealign_of_not_due (still : (s.tl t).linkUp = false ∨ s.cycle < (s.rep t).due) : replicaRealign t x s = s :=
  if_pos (by rcases still with h | h <;> simp [h])

variable (herr : err = (s.rep t).dev - markerDev t x) (hdue : due = (s.rep t).due + 100000 * ((s.cycle - (s.rep t).due) / 100000 + 1))
  (hu : u = s.put F.TL_TSTAT_ERR (ofSigned 16 (clampI (-32768) 32767 err)) t) (up : (s.tl t).linkUp = true) (past : (s.rep t).due ≤ s.cycle)
include herr hdue hu up past

theorem replicaRealign_of_near (near : err.natAbs ≤ 1000) : replicaRealign t x s =
    ({ u with tm.reps := Map.ins u.tm.reps t ⟨(s.rep t).dev, some err, due⟩ } : State).fixReps.when (err.natAbs ≤ 500) (fun r => r.put F.TL_TSTAT_VALID 1 t) := by
  subst herr hdue hu
  exact (if_neg (by simp [up, past])).trans (if_pos near)

theorem replicaRealign_of_far (far : 1000 < err.natAbs) : replicaRealign t x s =
    ((({ u with tm.reps := Map.ins u.tm.reps t ⟨markerDev t x, none, due⟩ } : State).put F.TL_TSTAT_VALID 0 t).put F.TL_TSTAT_TIME_ERR 1 t).fsum t 3 := by
  subst herr hdue hu
  exact (if_neg (by simp [up, past])).trans (if_neg (Nat.not_le.2 far))

end Replicas

/-- Settles O25: each clause is the branch of the command's function that the base's pending change, its adjustment or the marker's error selects. -/
theorem timeBases : Obligations.TimeBases := by
  refine ⟨fun s w b m v rdy hw => ?rate, fun s b rdy => ?inForce, fun s b rdy => ?step, fun s b rdy => ?stepOff, fun s b rdy => ?stepApply,
    fun s b rdy => ?amort, fun s b rdy => ?starts, fun s b rdy => ?done, fun s b rdy => ?stop, fun s b rdy => ?stops, fun s u t x err due rdy herr hdue hu => ?replica⟩
  case rate =>
    subst hw
    exact ⟨fun above below => clocked_eq rdy (f := fun s => tbIncWrite b v.toNat (s.wideWritten m R.TB_INC b)) (tbIncWrite_of_within above below) rfl,
      fun outside => clocked_eq rdy (f := fun s => tbIncWrite b v.toNat (s.wideWritten m R.TB_INC b)) (tbIncWrite_of_outside outside) rfl⟩
  case inForce =>
    exact ⟨fun none' => clocked_eq rdy (tbIncApply_of_none none') rfl,
      fun inc due pending early => clocked_eq rdy ((tbIncApply_of_some pending).trans (ite_of_eq_false (usReached_of_lt early))) rfl,
      fun inc due pending reached => clocked_eq rdy ((tbIncApply_of_some pending).trans (if_pos (usReached_of_le reached))) rfl⟩
  case step =>
    exact ⟨fun refused => clocked_eq rdy (stepCmd_of_refused refused) rfl, fun free fits allowed => clocked_eq rdy (stepCmd_of_accepted free fits allowed) rfl⟩
  case stepOff =>
    exact ⟨fun refused => clocked_eq rdy (stepOff_of_refused refused) rfl,
      fun free fits positive allowed => clocked_eq rdy (stepOff_of_accepted free fits positive allowed) rfl⟩
  case stepApply =>
    exact ⟨fun none' => clocked_eq rdy (tbStepApply_of_none none') rfl, fun v k due pending early => clocked_eq rdy (tbStepApply_of_early pending early) rfl,
      fun v due pending reached => clocked_settle rdy.1 (tbStepApply_of_due pending reached (if_pos rfl).symm),
      fun v due pending reached => clocked_settle rdy.1 (tbStepApply_of_due pending reached (if_neg Bool.false_ne_true).symm)⟩
  case amort =>
    exact ⟨fun busy => clocked_eq rdy (amortCmd_of_busy busy) rfl, fun free => clocked_eq rdy (amortCmd_of_free free) rfl⟩
  case starts =>
    refine ⟨fun none' => clocked_eq rdy (amortStartApply_of_none none') rfl,
      fun a adjusts still => clocked_eq rdy ((amortStartApply_of_some adjusts).trans (if_neg ?_)) rfl,
      fun a adjusts waits reached => clocked_eq rdy ((amortStartApply_of_some adjusts).trans (if_pos ?_)) rfl⟩
    · rcases still with runs | early
      · simp [runs]
      · simp [usReached_of_lt early]
    · rw [waits, usReached_of_le reached]
      rfl
  case done =>
    refine ⟨fun none' => clocked_eq rdy (amortDone_of_none none') rfl,
      fun a adjusts runs absorbed => clocked_eq rdy ((amortDone_of_some adjusts).trans (if_pos (by simp [runs, absorbed]))) rfl,
      fun a adjusts still => clocked_eq rdy ((amortDone_of_some adjusts).trans (if_neg ?_)) rfl⟩
    rcases still with waits | left
    · simp [waits]
    · simp [left]
  case stop =>
    exact ⟨fun none' => clocked_eq rdy (amortStop_of_none none') rfl, fun a adjusts first => clocked_eq rdy (amortStop_of_first adjusts first) rfl⟩
  case stops =>
    exact ⟨fun none' => clocked_eq rdy (amortStopApply_of_none none') rfl, fun a due adjusts asked reached =>
      clocked_eq rdy (((amortStopApply_of_due adjusts asked reached)).trans (amortEnd_of_some adjusts)) (when_put_flt s _ _ _ _ _)⟩
  case replica =>
    refine ⟨fun still => clocked_eq rdy (replicaRealign_of_not_due still) rfl, fun r hr up past valid => ?_, fun r hr up past invalid near => ?_,
      fun up past far => clocked_settle rdy.1 (replicaRealign_of_far herr hdue hu up past far)⟩
    all_goals subst hr
    · exact clocked_settle rdy.1 ((replicaRealign_of_near herr hdue hu up past (Nat.le_trans valid (by decide))).trans (if_pos (decide_eq_true valid)))
    · exact clocked_settle rdy.1 ((replicaRealign_of_near herr hdue hu up past near).trans (ite_of_eq_false (decide_eq_false (Nat.not_le.2 invalid))))

end Sys2Proof.Machine
end

section
/-! PROOF. Pulse outputs, capture inputs and SYNC_IN. -/

namespace Sys2Proof.Machine

/-! ### Pulse outputs (R277) -/

/-- The same place in two registers. -/
theorem key_ne_of_id_ne {r r' : Reg} {i j : Nat} (h : r.id ≠ r'.id) : r.key i j ≠ r'.key i j := by
  unfold Reg.key
  omega

section Pulses

variable {s : State} {n : Nat}

/-- LOAD marks a single pulse that starts too soon (R277). -/
def State.loadJudged (s : State) (n : Nat) : State :=
  s.when ((s.tpoStaged n).mode = 1 && (s.tpoStaged n).first.isNone) (fun u => u.put F.TB_TPO_STAT_LATE 1 n)

theorem tpoLoad_eq : tpoLoad n s = if ((s.loadJudged n).tpo n).fall.isSome then (s.loadJudged n).setTpo n { (s.loadJudged n).tpo n with load := some (s.tpoStaged n) }
    else (s.loadJudged n).tpoApply n (s.tpoStaged n) := rfl

section Falling

variable {f : Nat} (fall : (s.tpo n).fall = some f)
include fall

theorem tpoEdge_of_pulse (early : s.tbVal (s.tpo n).prog.tb < f) : tpoEdge n s = s := by
  rw [tpoEdge]
  dsimp only
  rw [fall]
  exact if_pos early

theorem tpoEdge_of_trailing (past : f ≤ s.tbVal (s.tpo n).prog.tb) (unloaded : (s.tpo n).load = none) : tpoEdge n s = s.setTpo n { s.tpo n with fall := none } := by
  rw [tpoEdge]
  dsimp only
  rw [fall, unloaded]
  exact if_neg (Nat.not_lt.2 past)

end Falling

section Idle

variable (idle : (s.tpo n).fall = none)
include idle

theorem tpoEdge_of_no_edge (none' : (s.tpo n).next = none) : tpoEdge n s = s := by
  rw [tpoEdge]
  dsimp only
  rw [idle, none']

variable {t : Nat} (next : (s.tpo n).next = some t)
include next

theorem tpoEdge_of_early (early : s.tbVal (s.tpo n).prog.tb < t) : tpoEdge n s = s := by
  rw [tpoEdge]
  dsimp only
  rw [idle, next]
  exact if_pos early

theorem tpoEdge_of_leading (past : t ≤ s.tbVal (s.tpo n).prog.tb) : tpoEdge n s =
    (s.setTpo n { s.tpo n with fall := some (t + (s.tpo n).prog.wid), next := if (s.tpo n).prog.mode = 2 then some (t + (s.tpo n).prog.per) else none }).when
      (s.on F.TB_TPO_CTL_EV n) (fun u => u.occur (8 + n)) := by
  have kept (x : TpoSt) : (s.setTpo n x).on F.TB_TPO_CTL_EV n = s.on F.TB_TPO_CTL_EV n :=
    congrArg (fun k => decide (k = 1)) (g_put_other _ _ _ _ _ _ _ _ (.inl (key_ne_of_id_ne (by decide))))
  rw [tpoEdge]
  dsimp only
  rw [idle, next]
  exact (if_neg (Nat.not_lt.2 past)).trans (by rw [kept])

end Idle

end Pulses

/-! ### Capture inputs (R279, R281) -/

section Captures

variable {s u : State} {n k held : Nat} {falling : Bool}

theorem tciEdge_of_ignored (ignored : filtered held = false ∨ s.pinAt (1 + n) = !falling) : tciEdge n falling k held s = s :=
  if_pos (by rcases ignored with h | h <;> simp [h])

/-- The edges that an input's EDGE selects. -/
def State.tciSelects (s : State) (n : Nat) (falling : Bool) : Bool :=
  if falling then bitOf (s.g F.TB_TCI_CTL_EDGE n) 1 else bitOf (s.g F.TB_TCI_CTL_EDGE n) 0

variable (persists : filtered held = true) (moved : s.pinAt (1 + n) = falling) (hu : u = s.pinTo (1 + n) (!falling))
include persists moved hu

/-- An edge that lasts is judged by its input's EDGE, and then by the edge before it and the room that is left. -/
theorem tciEdge_of_unselected (off : s.tciSelects n falling = false) : tciEdge n falling k held s = u := by
  subst hu moved
  exact (if_neg (by simp [persists])).trans (if_pos (congrArg (!·) off))

variable (on : s.tciSelects n falling = true)
include on

theorem tciEdge_of_early {t : Nat} (last : (s.tci n).lastEdge = some t) (early : 5 * s.cycle + k < t + 40) :
    tciEdge n falling k held s = (u.sat F.TB_TCI_STAT_DROP n).put F.TB_TCI_STAT_OVF 1 n := by
  subst hu moved
  rw [tciEdge, if_neg (by simp [persists])]
  dsimp only
  rw [show (s.pinTo (1 + n) (!s.pinAt (1 + n))).tci n = s.tci n from rfl, last]
  dsimp only
  refine (if_neg (ne_true_of_eq_false (congrArg (!·) on))).trans ((if_pos ?_).trans (ite_of_eq_false (congrArg (!·) (decide_eq_true early))))
  exact Bool.or_eq_true_iff.2 (.inl (decide_eq_true early))

theorem tciEdge_of_first {v : State} (first : (s.tci n).lastEdge = none) (room : (s.tci n).fifo.length < 4)
    (hv : v = u.setTci n { fifo := (s.tci n).fifo ++ [(tvOf (s.tbAt (s.g F.TB_TCI_CTL_TB n) k) (s.g F.TB_TCI_CTL_TB n), falling)], lastEdge := some (5 * s.cycle + k) }) :
    tciEdge n falling k held s = v.when (v.on F.TB_TCI_CTL_EV n) (fun u => u.occur (16 + n)) := by
  subst hv hu moved
  rw [tciEdge, if_neg (by simp [persists])]
  dsimp only
  rw [show (s.pinTo (1 + n) (!s.pinAt (1 + n))).tci n = s.tci n from rfl, first]
  exact (if_neg (ne_true_of_eq_false (congrArg (!·) on))).trans (if_neg (by simpa using room))

end Captures

section Timestamps

variable {s : State} {n m : Nat} {wide : Bool}

theorem tciTsRead_of_none (empty : (s.tci n).fifo = []) : tciTsRead n m wide s = { s.setLatch m (R.TB_TCI_TS.key n 0) 0 with readData := 0 } := by
  rw [tciTsRead]
  dsimp only
  rw [empty]

theorem tciTsRead_of_oldest {e : RWord × Bool} {l : List (RWord × Bool)} (oldest : (s.tci n).fifo = e :: l) : tciTsRead n m wide s =
    { ((s.setTci n { s.tci n with fifo := l }).putB F.TB_TCI_STAT_HEDGE e.2 n).setLatch m (R.TB_TCI_TS.key n 0) e.1 with readData := lowRead e.1 wide } := by
  rw [tciTsRead]
  dsimp only
  rw [oldest]

end Timestamps

/-! ### SYNC_IN (R280, R281) -/

section Sync

variable {s u : State} {k held : Nat} {rising : Bool}

theorem syncInEdge_of_ignored (ignored : filtered held = false ∨ s.pinAt 0 = rising) : syncInEdge rising k held s = s :=
  if_pos (by rcases ignored with h | h <;> simp [h])

theorem syncInEdge_of_moved (persists : filtered held = true) (moved : s.pinAt 0 ≠ rising)
    (hu : u = (((s.pinTo 0 rising).putB F.TB_SYNC_STAT_LEVEL rising).sat F.TB_SYNC_STAT_EDGES).setWord (if rising then R.TB_SYNC_R else R.TB_SYNC_F) (tvOf (s.tbAt 0 k) 0)) :
    syncInEdge rising k held s = ({ u with
      tm.edges := u.tm.edges ++ ((List.range 16).filter u.roSync).map (fun p => ⟨p, rising, s.tbAt 0 k * 1000 / 2 ^ 48⟩) } : State).occur 5 := by
  subst hu
  exact if_neg (by simp [persists, moved])

end Sync

/-- Settles O26: each clause is the branch of the pin's function that its level, its filter and what is waiting select. -/
theorem timePins : Obligations.TimePins := by
  refine ⟨fun s n u run hu => ?load, fun s n rdy => ?pulse, fun s u n falling x on q hu hon => ?capture, fun s n m wide rdy => ?read, fun s n rdy => clocked_eq rdy rfl rfl,
    fun s rising x u q hu => ?sync⟩
  case load =>
    subst hu
    exact ⟨fun pulse => clocked_settle run (tpoLoad_eq.trans (if_pos pulse)), fun idle => clocked_settle run (tpoLoad_eq.trans (if_neg (by rw [State.loadJudged, idle]; decide)))⟩
  case pulse =>
    exact ⟨fun f fall early => clocked_eq rdy (tpoEdge_of_pulse fall early) rfl, fun f fall past unloaded => clocked_eq rdy (tpoEdge_of_trailing fall past unloaded) rfl,
      fun idle none' => clocked_eq rdy (tpoEdge_of_no_edge idle none') rfl, fun t idle next early => clocked_eq rdy (tpoEdge_of_early idle next early) rfl,
      fun t idle next past => clocked_settle rdy.1 (tpoEdge_of_leading idle next past)⟩
  case capture =>
    subst hon
    have runs {t : State} (run : s.clk = Clk.running) (e : tciEdge n falling x.k x.held.toNat s = t) (kept : t.flt = s.flt) : exec (.tciEdge n falling x) s = .next t :=
      (if_pos run).trans (clocked_eq ⟨run, q⟩ e kept)
    refine ⟨fun stopped => (if_neg stopped).trans (by rw [hu]; rfl), fun run ignored => runs run (tciEdge_of_ignored ignored) rfl,
      fun run persists moved off => runs run (tciEdge_of_unselected persists moved hu off) (hu ▸ rfl),
      fun t run persists moved on last early => runs run (tciEdge_of_early persists moved hu on last early) (hu ▸ rfl),
      fun v run persists moved on first room hv => (if_pos run).trans (clocked_settle run (tciEdge_of_first persists moved hu on first room hv))⟩
  case read =>
    exact ⟨fun empty => clocked_eq rdy (tciTsRead_of_none empty) rfl, fun e l oldest => clocked_eq rdy (tciTsRead_of_oldest oldest) rfl⟩
  case sync =>
    have runs {t : State} (run : s.clk = Clk.running) (e : syncInEdge rising x.k x.held.toNat s = t) (kept : t.flt = s.flt) : exec (.syncInEdge rising x) s = .next t :=
      (if_pos run).trans (clocked_eq ⟨run, q⟩ e kept)
    exact ⟨fun stopped => if_neg stopped, fun run ignored => runs run (syncInEdge_of_ignored ignored) rfl,
      fun run persists moved => runs run (syncInEdge_of_moved persists moved hu) (hu ▸ rfl)⟩

end Sys2Proof.Machine
end

section
/-! PROOF. The sync ports: configuration and link, frames received and sent, host rings, timestamps and the transparent clock. -/

namespace Sys2Proof.Machine

section Ports

variable {s : State} {p : Nat}

/-! ### Configuration and link (R282, R284, R289) -/

def spCfgFields : List Fld := [F.SP_CFG_EN, F.SP_CFG_SPEED, F.SP_CFG_FEC, F.SP_CFG_SCHED_COPY, F.SP_CFG_TB]

section Configuration

variable {v : Nat}

theorem spCfgWrite_of_refused (refused : bitsOf v F.SP_CFG_FEC.lo F.SP_CFG_FEC.wd = 3 ∨
    (bitsOf v F.SP_CFG_FEC.lo F.SP_CFG_FEC.wd = 2 ∧ bitsOf v F.SP_CFG_SPEED.lo F.SP_CFG_SPEED.wd = 0) ∨
    (s.on F.SP_CFG_EN p = true ∧ bitsOf v F.SP_CFG_TB.lo F.SP_CFG_TB.wd ≠ s.g F.SP_CFG_TB p)) : spCfgWrite p v s = s.put F.SP_STAT_CFG_REFUSED 1 p := by
  refine if_pos ?_
  rcases refused with reserved | ⟨rs, slow⟩ | ⟨enabled, changed⟩
  · simp [reserved]
  · simp [rs, slow]
  · simp [enabled, Ne.symm changed]

theorem spCfgWrite_of_accepted {u : State} (disabled : s.on F.SP_CFG_EN p = false) (known : bitsOf v F.SP_CFG_FEC.lo F.SP_CFG_FEC.wd < 2)
    (hu : u = s.each spCfgFields (fun u f => u.sput f (bitsOf v f.lo f.wd) p)) :
    spCfgWrite p v s = if u.on F.SP_CFG_EN p then u else u.put F.SP_STAT_LINK 0 p := by
  subst hu
  exact if_neg (by simp [disabled]; omega)

end Configuration

theorem spLoss_of_down (down : s.on F.SP_CFG_EN p = false ∨ s.on F.SP_STAT_LINK p = false) : s.spLoss p = s :=
  if_neg (by rcases down with h | h <;> simp [h])

theorem spLoss_of_up (enabled : s.on F.SP_CFG_EN p = true) (linked : s.on F.SP_STAT_LINK p = true) :
    s.spLoss p = ((s.put F.SP_STAT_LINK 0 p).raise (39 + p)).spDiscard p :=
  if_pos (by rw [enabled, linked]; rfl)

theorem spBlockLock_of_free (enabled : s.on F.SP_CFG_EN p = true) (silent : s.on F.TST_LCFG_GEN_EN (8 + p) = false) (unchecked : s.on F.TST_LCFG_CHK_EN (8 + p) = false)
    (open' : s.on F.SP_STAT_FENCED p = false) : spBlockLock p s = s.put F.SP_STAT_LINK 1 p :=
  if_pos (by rw [enabled, silent, unchecked, open']; rfl)

theorem spBlockLock_of_held (held : s.on F.SP_CFG_EN p = false ∨ s.on F.TST_LCFG_GEN_EN (8 + p) = true ∨ s.on F.TST_LCFG_CHK_EN (8 + p) = true) : spBlockLock p s = s :=
  if_neg (by rcases held with h | h | h <;> simp [h])

theorem spTcEnable_of_refused (off : s.on F.SP_CFG_EN 0 = false ∨ s.on F.SP_CFG_EN 1 = false ∨ s.g F.SP_CFG_TB 0 ≠ s.g F.SP_CFG_TB 1) :
    spTcEnable true s = s.put F.SP_STAT_CFG_REFUSED 1 0 :=
  if_pos (by rcases off with h | h | h <;> simp [h])

theorem spTcEnable_of_joint (first : s.on F.SP_CFG_EN 0 = true) (second : s.on F.SP_CFG_EN 1 = true) (same : s.g F.SP_CFG_TB 0 = s.g F.SP_CFG_TB 1) :
    spTcEnable true s = s.sput F.SP_TC_CTL_EN (b2n true) 0 :=
  if_neg (by simp [first, second, same])

/-! ### Reception (R283, R289) -/

section Reception

variable {bs : List Byte} {fcs : Bool} {k : Nat}

theorem spFrameRx_of_down (down : s.spUp p = false) : spFrameRx p bs fcs k s = s := if_pos (by rw [down]; rfl)

variable (up : s.spUp p = true)
include up

theorem spFrameRx_of_bad (bad : fcs = false ∨ bs.length + 4 < 64 ∨ s.maxFrm p < bs.length + 4) : spFrameRx p bs fcs k s = s.sat F.SP_RX_BAD_CNT p :=
  (if_neg (by rw [up]; decide)).trans (if_pos (by simpa [or_assoc] using bad))

variable (good : fcs = true) (long : 64 ≤ bs.length + 4) (short : bs.length + 4 ≤ s.maxFrm p)
include good long short

theorem spFrameRx_of_pause (pause : beAt bs 12 2 = 0x8808) : spFrameRx p bs fcs k s = s.sat F.SP_RX_FRAMES_CNT p :=
  (if_neg (by rw [up]; decide)).trans ((if_neg (by simp [good]; omega)).trans (if_pos pause))

/-- A frame for the station that no transparent clock forwards and no schedule claims goes into the receive ring. -/
theorem spFrameRx_of_delivered {u : State} (data : beAt bs 12 2 ≠ 0x8808) (hu : u = s.sat F.SP_RX_FRAMES_CNT p) (opaque' : u.on F.SP_TC_CTL_EN 0 = false)
    (addressed : u.macAccepts p (bs.take 6) = true) (plain : (etherType bs).1 ≠ u.g F.BRS_ETYPE_ETYPE) :
    spFrameRx p bs fcs k s = u.toRing p bs (u.spTime p k F.SP_RXASYM_ASYM) false false := by
  subst hu
  refine (if_neg (by rw [up]; decide)).trans ((if_neg (by simp [good]; omega)).trans ((if_neg data).trans ?_))
  dsimp only
  rw [opaque']
  refine (if_neg ?_).trans ?_
  · exact ne_true_of_eq_false (congrArg (!·) addressed)
  · simp only [Bool.false_and, State.when, Bool.false_eq_true, if_false, plain, decide_false, Bool.not_false, Bool.true_or, if_true]

end Reception

theorem forwardReady_of_none (none' : (s.sp p).coming = []) : forwardReady p s = s := by rw [forwardReady, none']

theorem forwardReady_of_oldest {x : TxFrame} {l : List TxFrame} (oldest : (s.sp p).coming = x :: l) :
    forwardReady p s = s.updSp p (fun y => { y with q := y.q ++ [x], coming := l }) := by
  rw [forwardReady, oldest]

/-! ### Transmission (R285, R287, R288) -/

section Transmission

variable {k : Nat}

theorem spFrameTx_of_none (none' : s.spUp p = false ∨ s.spNext p = none) : spFrameTx p k s = s := by
  rcases none' with down | empty
  · exact if_pos (by rw [down]; rfl)
  · rw [spFrameTx, empty]
    exact ite_self s

variable {x : TxFrame} {u : State} (up : s.spUp p = true) (next : s.spNext p = some x)
  (hu : u = ((({ (s.updSp p (fun y => { y with q := y.q.erase x })) with
    tm.wire := s.tm.wire ++ [(p, (x.leave (s.spTime p k F.SP_TXASYM_ASYM)).1)] } : State).sat F.SP_TX_FRAMES_CNT p).when (!(x.leave (s.spTime p k F.SP_TXASYM_ASYM)).2)
      (fun u => u.put F.SP_STAT_ONESTEP_ERR 1 p)))
include up next hu

theorem spFrameTx_of_forwarded (fwd : x.fwd = true) : spFrameTx p k s = u := by
  subst hu
  rw [spFrameTx, next]
  exact (if_neg (by rw [up]; decide)).trans (if_pos fwd)

theorem spFrameTx_of_host (host : x.fwd = false) : spFrameTx p k s =
    (u.when x.tsreq (fun u => u.tsqPut p ⟨x.tag, false, tvOf (s.spTime p k F.SP_TXASYM_ASYM) (u.g F.SP_CFG_TB p)⟩)).hostDone p := by
  subst hu
  rw [spFrameTx, next]
  exact (if_neg (by rw [up]; decide)).trans (ite_of_eq_false host)

end Transmission

/-! ### Host rings and timestamps (R285, R287) -/

theorem spFrInit_of_enabled {v : Nat} (enabled : s.on F.SP_FR_CTL_EN p = true) :
    spFrInit p v s = (s.sput F.SP_FR_CTL_EN (bitsOf v 0 1) p).sput F.SP_FR_CTL_VEC (bitsOf v 16 11) p := by
  rw [spFrInit, enabled]
  rfl

theorem spFrInit_of_disabled {u : State} {v : Nat} (disabled : s.on F.SP_FR_CTL_EN p = false)
    (hu : u = (((((s.put F.SP_TXR_PI_PI 0 p).put F.SP_TXR_CI_CI 0 p).put F.SP_RXR_PI_PI 0 p).put F.SP_RXR_CI_CI 0 p).updSp p (fun x => { x with q := x.q.filter (fun y => y.fwd), bufs := [] }))) :
    spFrInit p v s = (u.sput F.SP_FR_CTL_EN (bitsOf v 0 1) p).sput F.SP_FR_CTL_VEC (bitsOf v 16 11) p := by
  rw [spFrInit, disabled, hu]
  rfl

theorem spTsqRead_of_none {m : Nat} {wide : Bool} (empty : (s.sp p).tsq = []) : spTsqRead p m wide s = { s.setLatch m (R.SP_TSQ_TS.key p 0) 0 with readData := 0 } := by
  rw [spTsqRead, empty]

theorem spTsqRead_of_oldest {m : Nat} {wide : Bool} {e : TsqEnt} {l : List TsqEnt} (oldest : (s.sp p).tsq = e :: l) : spTsqRead p m wide s =
    { (((s.setTsq p l).put F.SP_TSQ_STAT_HID e.tag p).putB F.SP_TSQ_STAT_HFAIL e.fail p).setLatch m (R.SP_TSQ_TS.key p 0) e.ts with readData := lowRead e.ts wide } := by
  rw [spTsqRead, oldest]

end Ports

/-- Settles O27: each clause is the branch of the port's function that its registers, its queues and the frame select. -/
theorem syncPorts : Obligations.SyncPorts := by
  refine ⟨fun s p v rdy => ?config, fun s p rdy => ?loss, fun s p rdy => ?lock, fun s p bs fcs k rdy => ?receive, fun s p rdy => ?forward, fun s p k rdy => ?send,
    fun s p v fr rdy => ?descriptors, fun s p v bufs rdy => ?buffers, fun s p v rdy => ?init, fun s p m wide rdy => ?timestamps, fun s en rdy => ?clock⟩
  case config =>
    refine ⟨fun refused => clocked_eq rdy (spCfgWrite_of_refused refused) rfl, fun u disabled known hu => ?_⟩
    subst hu
    exact clocked_eq rdy (spCfgWrite_of_accepted disabled known rfl) (ite_flt rfl rfl)
  case loss =>
    exact ⟨fun down => clocked_eq rdy (spLoss_of_down down) rfl, fun enabled linked => clocked_settle rdy.1 (spLoss_of_up enabled linked)⟩
  case lock =>
    exact ⟨fun enabled silent unchecked open' => clocked_eq rdy (spBlockLock_of_free enabled silent unchecked open') rfl,
      fun held => clocked_eq rdy (spBlockLock_of_held held) rfl⟩
  case receive =>
    exact ⟨fun down => clocked_eq rdy (spFrameRx_of_down down) rfl, fun up bad => clocked_eq rdy (spFrameRx_of_bad up bad) rfl,
      fun up good long short pause => clocked_eq rdy (spFrameRx_of_pause up good long short pause) rfl,
      fun u up good long short data hu opaque' addressed plain => clocked_settle rdy.1 (spFrameRx_of_delivered up good long short data hu opaque' addressed plain)⟩
  case forward =>
    exact ⟨fun none' => clocked_eq rdy (forwardReady_of_none none') rfl, fun x l oldest => clocked_eq rdy (forwardReady_of_oldest oldest) rfl⟩
  case send =>
    exact ⟨fun none' => clocked_eq rdy (spFrameTx_of_none none') rfl, fun x u up next hu =>
      ⟨fun fwd => clocked_settle rdy.1 (spFrameTx_of_forwarded up next hu fwd), fun host => clocked_settle rdy.1 (spFrameTx_of_host up next hu host)⟩⟩
  case descriptors =>
    exact ⟨fun beyond => clocked_eq rdy (if_pos beyond) rfl, fun within => clocked_eq rdy (if_neg (Nat.not_le.2 within)) rfl⟩
  case buffers =>
    exact ⟨fun beyond => clocked_eq rdy (if_pos beyond) rfl, fun within => clocked_eq rdy (if_neg (Nat.not_le.2 within)) rfl⟩
  case init =>
    refine ⟨fun enabled => clocked_eq rdy (spFrInit_of_enabled enabled) rfl, fun u disabled hu => ?_⟩
    subst hu
    exact clocked_eq rdy (spFrInit_of_disabled disabled rfl) rfl
  case timestamps =>
    exact ⟨fun empty => clocked_eq rdy (spTsqRead_of_none empty) rfl, fun e l oldest => clocked_eq rdy (spTsqRead_of_oldest oldest) rfl⟩
  case clock =>
    refine ⟨fun off => ?_, fun on first second same => ?_, fun on off => ?_⟩
    · subst off
      exact clocked_eq rdy (f := spTcEnable false) (if_neg Bool.false_ne_true) rfl
    · subst on
      exact clocked_eq rdy (spTcEnable_of_joint first second same) rfl
    · subst on
      exact clocked_eq rdy (spTcEnable_of_refused off) rfl

end Sys2Proof.Machine
end

section
/-! PROOF. The PCIe link, configuration writes, MSI-X, the rings, vectors and mailboxes of a VF, and Function Level Reset. -/

namespace Sys2Proof.Machine

/-! ### The link and configuration (R293, R295, R303) -/

section Link

variable {s : State} {speed width : Nat}

theorem pcieLinkTrained_of_refused (refused : s.pci.linkUp = true ∨ s.pcieLanesOn = true ∨ speed = 0 ∨ 5 < speed ∨ (width ≠ 1 ∧ width ≠ 2 ∧ width ≠ 4 ∧ width ≠ 8)) :
    pcieLinkTrained speed width s = s :=
  if_pos (by simpa [or_assoc, and_assoc] using refused)

theorem pcieLinkTrained_of_valid (down : s.pci.linkUp = false) (free : s.pcieLanesOn = false) (some' : speed ≠ 0) (known : speed ≤ 5)
    (lanes : width = 1 ∨ width = 2 ∨ width = 4 ∨ width = 8) : pcieLinkTrained speed width s =
    (({ s with pci.linkUp := true, pci.trained := speed } : State).put F.LAT_PCI_STAT_SPEED speed).put F.LAT_PCI_STAT_WIDTH width :=
  if_neg (by rcases lanes with rfl | rfl | rfl | rfl <;> simp [down, free, some', known])

/-- The PHY trains in a freeze as it does while the clocks run (R347). -/
theorem exec_pcieLinkTrained_of_eq {t : State} {speed : Fin 8} {width : Fin 16} (q : s.Quiet) (alive : s.clk = Clk.running ∨ s.clk = Clk.frozen)
    (e : pcieLinkTrained speed width s = t) (kept : t.flt = s.flt) : exec (.pcieLinkTrained speed width) s = .next t := by
  rcases alive with run | frozen
  · exact (if_neg (by rw [run]; decide)).trans (clocked_eq ⟨run, q⟩ e kept)
  · exact (if_pos frozen).trans (congrArg _ e)

end Link

section Configuration

variable {s : State} {f : Nat} {x : CfgItem}

theorem answer_of_link_up (up : s.pci.linkUp = true) (status : Nat) (ep : Bool) (data : List Byte) :
    s.answer f status ep data = { s with hostOut := s.hostOut ++ [.cpl f status ep data] } := if_pos up

theorem receive_configWrite_of_earlyBoot (up : s.pci.linkUp = true) (run : s.clk = Clk.running) (accepts : s.retiring 0 = false) (early : s.earlyBoot = true) :
    receive f (.configWrite x) s = { s with hostOut := s.hostOut ++ [.cpl f 2 false []] } := by
  simp [receive, up, run, accepts, early, answer_of_link_up up]

theorem pcieConfigWrite_of_absent (up : s.pci.linkUp = true) (absent : s.fnExists f = false) :
    pcieConfigWrite f x s = ({ s with hostOut := s.hostOut ++ [.cpl f 1 false []] } : State).uncorr 0 .unsupported := by
  refine (if_neg (by rw [up]; decide)).trans ((if_pos (by rw [absent]; rfl)).trans ?_)
  rw [State.unsupported, absent, answer_of_link_up up]
  rfl

/-- A write that acts is completed, and what it holds back no longer is sent. -/
theorem receive_configWrite_of_set {u w : State} (rdy : s.Ready) (up : s.pci.linkUp = true) (accepts : s.retiring 0 = false) (late : s.earlyBoot = false)
    (acts : pcieConfigWrite f x s = (w.answer f 0 false []).flushHeld.flushMsix) (hu : u = w) (kept : w.pci.linkUp = true) :
    receive f (.configWrite x) s = ({ u with hostOut := u.hostOut ++ [.cpl f 0 false []] } : State).flushHeld.flushMsix := by
  subst hu
  rw [receive_of_served up rdy.1 accepts late, ← answer_of_link_up kept]
  exact acts

end Configuration

/-! ### MSI-X (R300, R301) -/

section Messages

variable {s : State} {f v : Nat}

theorem msix_of_bad_vector (bad : s.vecCount f ≤ v) : s.msix f v = s.put F.LAT_STAT_VEC_BAD 1 := if_pos bad

variable (within : v < s.vecCount f)
include within

theorem msix_of_open (sent : s.msixOpen f v = true) : s.msix f v = { s with hostOut := s.hostOut ++ [.msix f v (s.msixEnt f v).addr (s.msixEnt f v).data] } :=
  (if_neg (Nat.not_le.2 within)).trans (if_pos sent)

theorem msix_of_held (held : s.msixOpen f v = false) (new : s.pci.pba.contains (msixKey f v) = false) :
    s.msix f v = { s with pci.pba := s.pci.pba ++ [msixKey f v] } := by
  refine (if_neg (Nat.not_le.2 within)).trans ((ite_of_eq_false held).trans ?_)
  rw [new]
  rfl

end Messages

theorem exec_msixSend_of_eq {s t : State} {f : Fn} {v : BitVec 11} (q : s.Quiet) (on : s.clk ≠ Clk.off) (e : s.msix f v.toNat = t) :
    exec (.msixSend f v) s = .next t := by
  subst e
  exact (if_neg on).trans (next_settle_of_flt_eq q (msix_brst s f v.toNat))

/-! ### Rings, vectors and mailboxes of a VF (R297, R300, R324) -/

section Functions

variable {s : State} {v : Nat}

theorem vfMboxSend_of_shut (shut : s.vfShut v = true) : vfMboxSend v s = s := if_pos (by simp [shut])

theorem vfFlr_of_absent (absent : s.fnExists v = false) : vfFlr v s = s := if_pos (by simp [absent])

variable (vf : v ≠ 0)
include vf

theorem vfRingWrite_eq {w : Nat} : vfRingWrite v w s = if s.vfEn then s.put F.LAT_STAT_CFG_REFUSED 1 else
    (((s.sput F.LAT_VF_RING_FIRST (bitsOf w 0 13) v).sput F.LAT_VF_RING_COUNT (bitsOf w 16 11) v).sput F.LAT_VFR_ID2_FIRST (bitsOf w 0 13) v).sput
      F.LAT_VFR_ID_COUNT (bitsOf w 16 11) v := if_neg vf

theorem vfVecWrite_of_refused {w : Nat} (refused : s.vfEn = true ∨ bitsOf w 0 11 = 0 ∨ 1536 < s.vecSum v (bitsOf w 0 11)) :
    vfVecWrite v w s = s.put F.LAT_STAT_CFG_REFUSED 1 :=
  (if_neg vf).trans (if_pos (by simpa [or_assoc] using refused))

theorem vfVecWrite_of_accepted {w : Nat} (off : s.vfEn = false) (some' : bitsOf w 0 11 ≠ 0) (fits : s.vecSum v (bitsOf w 0 11) ≤ 1536) :
    vfVecWrite v w s = (s.sput F.LAT_VF_VEC_COUNT (bitsOf w 0 11) v).sput F.LAT_VFR_ID2_VECS (bitsOf w 0 11) v :=
  (if_neg vf).trans (if_neg (by simpa [off, some'] using fits))

theorem vfMboxSend_of_open (open' : s.vfShut v = false) :
    vfMboxSend v s = (s.setBits F.LAT_MBOX_PEND_PEND (2 ^ (v - 1))).msix 0 (s.g F.LAT_MBOX_VEC_VEC) := if_neg (by simp [vf, open'])

/-- Function Level Reset puts a VF's own state back, drains its rings and retires what it has under way (R304). -/
theorem vfFlr_of_existing {u : State} (exists' : s.fnExists v = true)
    (hu : u = { s.clrMbox v with pci.fns := Map.del (s.clrMbox v).pci.fns v, pci.msix := (s.clrMbox v).pci.msix.map (fun e => if e.1 / 2048 = v then (e.1, { e.2 with mask := true }) else e), pci.pba := (s.clrMbox v).pci.pba.filter (fun k => k / 2048 ≠ v), pci.inq := (s.clrMbox v).pci.inq.filter (fun r => r.1 ≠ v) }) :
    vfFlr v s = ((u.each ((List.range 8192).filter (fun n => u.ringFn n = v)) (fun u n => ringDrain n u)).put F.LAT_VF_STAT_FLR_BUSY 1 v).masterReset 0 := by
  subst hu
  exact if_neg (by simp [vf, exists'])

end Functions

/-- Settles O28: each clause is the branch that the link, the function's registers and the item written select. -/
theorem hostLink : Obligations.HostLink := by
  refine ⟨fun s u v hu hv => ?down, fun s speed width q alive => ?trained, fun s f x u rdy => ?config, fun s f v q => ?send, fun s f v rdy => ?unmask, fun s v w rdy vf => ?rings,
    fun s v w rdy vf => ?vectors, fun s v rdy vf => ?toPf, fun s v rdy vf => clocked_settle rdy.1 (if_neg vf), fun s v u rdy vf hu => ?reset, fun s v rdy => clocked_eq rdy (f := fun s => s.put F.LAT_VF_STAT_FLR_BUSY 0 v) rfl rfl⟩
  case down =>
    subst hu
    subst hv
    exact ⟨fun run => (if_neg (by rw [run]; decide)).trans (clocked_settle run rfl), fun frozen => if_pos frozen⟩
  case trained =>
    refine ⟨fun refused => exec_pcieLinkTrained_of_eq q alive (pcieLinkTrained_of_refused ?_) rfl, fun down free some' known lanes =>
      exec_pcieLinkTrained_of_eq q alive (pcieLinkTrained_of_valid down free (fun zero => some' (Fin.ext zero)) known
        (lanes.imp (congrArg Fin.val) (Or.imp (congrArg Fin.val) (Or.imp (congrArg Fin.val) (congrArg Fin.val))))) rfl⟩
    rcases refused with up | held | zero | beyond | ⟨n1, n2, n4, n8⟩
    · exact .inl up
    · exact .inr (.inl held)
    · exact .inr (.inr (.inl (congrArg Fin.val zero)))
    · exact .inr (.inr (.inr (.inl beyond)))
    · exact .inr (.inr (.inr (.inr ⟨fun e => n1 (Fin.ext e), fun e => n2 (Fin.ext e), fun e => n4 (Fin.ext e), fun e => n8 (Fin.ext e)⟩)))
  case config =>
    have ends {t : State} (e : receive f (.configWrite x) s = t) (kept : t.flt = s.flt) : exec (.pcieConfigWrite f x) s = .next t :=
      (congrArg fin e).trans (next_settle_of_flt_eq rdy.2 kept)
    refine ⟨fun down => ends (receive_of_link_down down) rfl, fun up retires => ends (receive_of_waiting up (.inr ⟨rdy.1, retires⟩)) rfl,
      fun up accepts early => ends (receive_configWrite_of_earlyBoot up rdy.1 accepts early) rfl,
      fun up accepts late absent => congrArg fin ((receive_of_served up rdy.1 accepts late).trans (pcieConfigWrite_of_absent up absent)),
      fun up accepts late there item => congrArg fin ?_⟩
    have acts {w : State} (e : pcieConfigWrite f x s = (w.answer f 0 false []).flushHeld.flushMsix) (hu : u = w) (kept : w.pci.linkUp = true) :=
      receive_configWrite_of_set rdy up accepts late e hu kept
    have known : ¬ (!s.pci.linkUp) = true ∧ ¬ (!s.fnExists f) = true := by simp [up, there]
    rcases item with ⟨b, rfl, hu⟩ | ⟨b, rfl, hu⟩ | ⟨b, rfl, hu⟩ | ⟨b, rfl, hu⟩ | ⟨b, rfl, hu⟩ | ⟨n, rfl, hu⟩ | ⟨n, rfl, hu⟩ | ⟨i, w, rfl, hu⟩ | ⟨e, o, rfl, hu⟩ | ⟨n, rfl, hu⟩
    case inr.inr.inr.inr.inr.inr.inr.inr.inr =>
      exact acts (w := s.when (ctoCodes.contains n.val) (fun s => s.updFn f (fun c => { c with cto := n.val }))) ((if_neg known.1).trans (if_neg known.2)) hu
        ((when_keep (fun w => w.pci.linkUp) (fun s => s.updFn f (fun c => { c with cto := n.val })) (fun _ => rfl) s _).trans up)
    all_goals exact acts ((if_neg known.1).trans (if_neg known.2)) hu up
  case send =>
    exact ⟨fun off => if_pos off, fun on bad => exec_msixSend_of_eq q on (msix_of_bad_vector bad), fun on within sent => exec_msixSend_of_eq q on (msix_of_open within sent),
      fun on within held new => exec_msixSend_of_eq q on (msix_of_held within held new)⟩
  case unmask =>
    exact ⟨fun bad => clocked_eq rdy (if_pos bad) rfl, fun within => clocked_settle rdy.1 (if_neg (Nat.not_le.2 within))⟩
  case rings =>
    exact ⟨fun on => clocked_eq rdy ((vfRingWrite_eq vf).trans (if_pos on)) rfl, fun off => clocked_eq rdy ((vfRingWrite_eq vf).trans (ite_of_eq_false off)) rfl⟩
  case vectors =>
    exact ⟨fun refused => clocked_eq rdy (vfVecWrite_of_refused vf refused) rfl, fun off some' fits => clocked_eq rdy (vfVecWrite_of_accepted vf off some' fits) rfl⟩
  case toPf =>
    exact ⟨fun shut => clocked_eq rdy (vfMboxSend_of_shut shut) rfl, fun open' => clocked_settle rdy.1 (vfMboxSend_of_open vf open')⟩
  case reset =>
    exact ⟨fun absent => clocked_eq rdy (vfFlr_of_absent absent) rfl, fun exists' => clocked_settle rdy.1 (vfFlr_of_existing vf exists' hu)⟩

end Sys2Proof.Machine
end

section
/-! PROOF. The Lattice: arbitration of a target, timeouts, refused accesses and master resets. -/

namespace Sys2Proof.Machine

/-! ### Arbitration (R307, R308) -/

section Arbitration

variable {s u : State} {t m p : Nat} {l : List Nat}

theorem latArb_of_promoted {hs : List Head} (first : longest (s.promoted hs) = some m) : s.latArb t hs = some m := by
  rw [State.latArb, first]

theorem latArb_of_turn {hs : List Head} (none' : longest (s.promoted hs) = none) (top : p = (hs.map (fun h => s.latPri t h.master)).foldl max 0) :
    s.latArb t hs = nextAfter ((hs.filter (fun h => s.latPri t h.master = p)).map (fun h => h.master)) (s.latAfter t p) := by
  rw [State.latArb, none', top]

theorem nextAfter_nil (after : Nat) : nextAfter [] after = none := List.find?_eq_none.2 fun _ _ => Bool.false_ne_true

theorem latArb_nil : s.latArb t [] = none := by
  have none' : s.promoted [] = [] := ite_self ([] : List Head)
  rw [latArb_of_turn (by rw [none']; rfl) rfl]
  exact nextAfter_nil _

variable {ms : List Nat} (hl : l = ms.filter (fun m => latPath m t && !s.retiring m)) (hu : u = s.latWait t l)
include hl hu

theorem latStarvePromote_of_some (arb : u.latArb t (l.map (u.latHead t)) = some m) : latStarvePromote t ms s = u.grant t m := by
  subst hl hu
  rw [latStarvePromote, arb]

theorem latStarvePromote_of_none (arb : u.latArb t (l.map (u.latHead t)) = none) : latStarvePromote t ms s = u := by
  subst hl hu
  rw [latStarvePromote, arb]

end Arbitration

/-! ### Timeouts and refusals (R310, R312) -/

section Errors

variable {s u : State} {m t addr waited c : Nat} {wr : Bool}

theorem latTimeoutExpiry_of_early (early : latPath m t = false ∨ waited < max 1 (s.g F.LAT_TMO_CYCLES)) : latTimeoutExpiry m t wr addr waited c s = s := by
  refine if_pos ?_
  rcases early with none' | short
  · simp [none']
  · simpa using .inr short

theorem latTimeoutExpiry_of_due (path : latPath m t = true) (long : max 1 (s.g F.LAT_TMO_CYCLES) ≤ waited)
    (hu : u = if s.on F.LAT_STAT_TIMEOUT then s else
      ((((s.put F.LAT_ERR_INFO_MASTER m).put F.LAT_ERR_INFO_TARGET t).putB F.LAT_ERR_INFO_WRITE wr).put F.LAT_ERR_INFO_KIND 1).put F.LAT_ERR_INFO_ADDR addr) :
    latTimeoutExpiry m t wr addr waited c s = (((u.grant t m).put F.LAT_STAT_TIMEOUT 1).raise 44 (m + 16 * t)).when (m = 1) (fun v => v.dmaEnds c 8) := by
  subst hu
  refine (if_neg ?_).trans (congrArg (fun v : State => v.when (m = 1) (fun v => v.dmaEnds c 8)) (if_neg (by rw [path]; decide)))
  have kept : ¬ waited < s.latTmo := Nat.not_lt.2 long
  simp [path, kept]

theorem latDecodeError_of_inside (path : latPath m t = true) (inside : latOutside t addr = false) : latDecodeError m t wr addr c s = s :=
  if_pos (by rw [path, inside]; rfl)

theorem latDecodeError_of_refused (refused : latPath m t = false ∨ latOutside t addr = true) :
    latDecodeError m t wr addr c s = ((if wr then s else { s with readData := 0 }).latDecode m t wr addr).when (m = 1) (fun v => v.dmaEnds c 8) :=
  if_neg (by rcases refused with h | h <;> simp [h])

end Errors

/-- What an error does to the DMA engine alone leaves the access of another master as it is. -/
theorem when_one_of_ne {m : Fin 8} (h : m ≠ 1) (s : State) (f : State → State) : s.when (m.val = 1) f = s :=
  ite_of_eq_false (decide_eq_false fun e => h (Fin.ext e))

theorem when_one_of_eq {m : Fin 8} (h : m = 1) (s : State) (f : State → State) : s.when (m.val = 1) f = f s :=
  if_pos (decide_eq_true (congrArg Fin.val h))

/-- Settles O30: each clause is the branch that the waiting heads, the path and the address select. -/
theorem latticeRules : Obligations.LatticeRules := by
  refine ⟨fun s t hs l u run hl hu => ?arbitration, fun s m t wr x run => ?timeout, fun s m t wr x run => ?refused, fun s m rdy => clocked_eq rdy (f := fun s => s.masterReset m) rfl rfl⟩
  case arbitration =>
    exact ⟨fun m first => clocked_settle run (latStarvePromote_of_some hl hu (latArb_of_promoted first)),
      fun m p none' top next => clocked_settle run (latStarvePromote_of_some hl hu ((latArb_of_turn none' top).trans next)),
      fun empty => clocked_settle run (latStarvePromote_of_none hl hu (by rw [empty]; exact latArb_nil))⟩
  case timeout =>
    refine ⟨fun early => clocked_settle run (latTimeoutExpiry_of_early early), fun u path long hu => ⟨fun other => ?_, fun dma => ?_⟩⟩
    · exact clocked_settle run ((latTimeoutExpiry_of_due path long hu).trans (when_one_of_ne other _ _))
    · exact clocked_settle run ((latTimeoutExpiry_of_due path long hu).trans (when_one_of_eq dma _ _))
  case refused =>
    refine ⟨fun refused other => clocked_settle run ((latDecodeError_of_refused refused).trans (when_one_of_ne other _ _)),
      fun refused dma => clocked_settle run ((latDecodeError_of_refused refused).trans (when_one_of_eq dma _ _)),
      fun path whole => clocked_settle run (latDecodeError_of_inside path ?_),
      fun path data within => clocked_settle run (latDecodeError_of_inside path ?_), fun path data beyond => ?_⟩
    · rcases whole with rfl | rfl <;> rfl
    · subst data
      exact decide_eq_false (Nat.not_le.2 within)
    · subst data
      exact decide_eq_true beyond

end Sys2Proof.Machine
end

section
/-! PROOF. The DMA channels: START, chains, kicks, ABORT and CLEAR, fetches, the completion of a descriptor and errors. -/

namespace Sys2Proof.Machine

section Channels

variable {s : State} {c : Nat}

/-! ### Commands of a channel (R313, R321) -/

theorem dmaStart_of_busy (busy : s.dmaState c ≠ 0) : dmaStart c s = s.put F.DMA_CH_STAT_REFUSED 1 c := if_pos (bne_iff_ne.2 busy)

theorem dmaStart_of_idle (idle : s.dmaState c = 0) : dmaStart c s = s.dmaBegin c (s.dmaImage c) true := if_neg (by rw [idle]; decide)

theorem dmaChainStart_of_busy (busy : s.dmaState c ≠ 0) : dmaChainStart c s = s.put F.DMA_CH_STAT_REFUSED 1 c := if_pos (bne_iff_ne.2 busy)

theorem dmaChainStart_of_idle (idle : s.dmaState c = 0) : dmaChainStart c s = s.dmaFetch c (s.g F.DMA_CH_NEXT_VAL c) false := if_neg (by rw [idle]; decide)

theorem dmaChainKick_of_eoc (eoc : s.dmaState c = 3) : dmaChainKick c s = s.dmaFetch c (s.g F.DMA_CH_CUR_VAL c) true := by
  rw [dmaChainKick, eoc]
  rfl

theorem dmaChainKick_of_active (active : s.dmaState c = 1 ∨ s.dmaState c = 2) : dmaChainKick c s = s.put F.DMA_CH_STAT_KICK_PEND 1 c := by
  rw [dmaChainKick]
  rcases active with h | h <;> rw [h] <;> rfl

theorem dmaChainKick_of_refused (refused : s.dmaState c = 0 ∨ s.dmaState c = 4) : dmaChainKick c s = s.put F.DMA_CH_STAT_REFUSED 1 c := by
  rw [dmaChainKick]
  rcases refused with h | h <;> rw [h] <;> rfl

/-- How ABORT ends: the port retires and the channel is idle (R311, R313). -/
def State.dmaStopped (s : State) (c : Nat) : State := ((s.masterReset 1).put F.DMA_CH_STAT_ABORTED 1 c).setDma c 0

section Aborts

variable {n : Nat} {host : List Byte}

theorem dmaAbort_of_unmoved (unmoved : s.dmaState c = 1 ∨ (s.dmaState c = 2 ∧ (s.dmaWaits c = true ∨ s.retiring 1 = true))) : dmaAbort c n host s = s.dmaStopped c := by
  rw [dmaAbort]
  rcases unmoved with h | ⟨h, waits⟩
  · rw [h]; rfl
  · rw [h]
    exact if_pos (by rcases waits with w | w <;> simp [w])

theorem dmaAbort_of_moving (runs : s.dmaState c = 2) (moves : s.dmaWaits c = false) (accepts : s.retiring 1 = false) :
    dmaAbort c n host s = (s.dmaMove c ((s.dmaLeft c).take n) host).1.dmaStopped c := by
  rw [dmaAbort, runs]
  exact if_neg (by rw [moves, accepts]; decide)

theorem dmaAbort_of_still (still : s.dmaState c = 0 ∨ s.dmaState c = 3 ∨ s.dmaState c = 4) : dmaAbort c n host s = s := by
  rw [dmaAbort]
  rcases still with h | h | h <;> rw [h] <;> rfl

end Aborts

theorem dmaClear_eq : s.dmaClear c = if s.dmaState c = 3 ∨ s.dmaState c = 4 then s.setDma c 0 else s :=
  ite_of_iff (by simp [State.dmaState])

/-! ### Fetches (R313, R319) -/

section Fetches

variable {host : List Byte}

theorem dmaFetchDone_of_none (none' : s.dmaState c ≠ 1 ∨ s.retiring 1 = true) : dmaFetchDone c host s = s :=
  if_pos (by rcases none' with h | h <;> simp [h])

variable (fetches : s.dmaState c = 1)
include fetches

theorem dmaFetchDone_of_no_host (csp : s.on F.DMA_CH_CFG_CSP c = true) (closed : s.dmaHost = false ∨ s.readRoom 1 = false) : dmaFetchDone c host s = s := by
  have unread : ¬ (s.dmaHost && s.readRoom 1) = true := by rcases closed with h | h <;> simp [h]
  cases retires : s.retiring 1 with
  | true => exact dmaFetchDone_of_none (.inr retires)
  | false => exact (if_neg (by rw [fetches, retires]; decide)).trans ((if_pos csp).trans (if_neg unread))

variable (accepts : s.retiring 1 = false) (whole : (s.dma' c).relink = false)
include accepts whole

theorem dmaFetchDone_of_host (csp : s.on F.DMA_CH_CFG_CSP c = true) (host' : s.dmaHost = true) (room : s.readRoom 1 = true) :
    dmaFetchDone c host s = ((s.readReq 0 (s.g F.DMA_CH_CUR_VAL c) 64).grant 7 1).dmaFetched c (leBytes 64 (leNat (host.take 64))) := by
  rw [dmaFetchDone, whole]
  exact (if_neg (by rw [fetches, accepts]; decide)).trans ((if_pos csp).trans (if_pos (by rw [host', room]; rfl)))

variable {a : Nat} {u : State} (chip : s.on F.DMA_CH_CFG_CSP c = false) (ha : a = s.g F.DMA_CH_CUR_VAL c) (hu : u = s.grant (bar2Target a) 1)
include chip ha hu

theorem dmaFetchDone_of_read {bs : List Byte} (read : u.dmaRead a 64 = .ok bs) : dmaFetchDone c host s = u.dmaFetched c bs := by
  subst ha hu
  rw [dmaFetchDone, whole]
  refine (if_neg (by rw [fetches, accepts]; decide)).trans ((ite_of_eq_false chip).trans ?_)
  rw [if_neg Bool.false_ne_true, if_neg Bool.false_ne_true, read]

theorem dmaFetchDone_of_decode {x : Nat} {wr : Bool} (read : u.dmaRead a 64 = .decode x wr) :
    dmaFetchDone c host s = (s.latDecode 1 (bar2Target x) wr x).dmaFail c 8 := by
  subst ha hu
  rw [dmaFetchDone, whole]
  refine (if_neg (by rw [fetches, accepts]; decide)).trans ((ite_of_eq_false chip).trans ?_)
  rw [if_neg Bool.false_ne_true, if_neg Bool.false_ne_true, read]
  rfl

end Fetches

/-! ### Moving (R315, R322) -/

section Turns

variable {host : List Byte}

/-- A channel that has nothing to move takes no turn and waits for none. -/
theorem dmaTurns_of_not_ready (idle : s.dmaReady c c = false) (fuel : Nat) : s.dmaTurns fuel c host = s := by
  cases fuel with
  | zero => rfl
  | succ k => exact if_pos (by rw [idle]; rfl)

theorem dmaReady_of_stopped (stopped : s.dmaState c ≠ 2) : s.dmaReady c c = false := by simp [State.dmaReady, stopped]

theorem dmaReady_of_moved (moved : s.dmaLeft c = []) : s.dmaReady c c = false := by simp [State.dmaReady, moved]

section OwnTurn

variable (runs : s.dmaState c = 2) (moves : s.dmaWaits c = false) (accepts : s.retiring 1 = false)
include runs moves accepts

theorem dmaDescDone_eq : dmaDescDone c host s =
    if (s.dmaTurns s.dmaFuel c host).dmaState c = 2 ∧ (s.dmaTurns s.dmaFuel c host).dmaLeft c = [] then (s.dmaTurns s.dmaFuel c host).dmaComplete c
    else s.dmaTurns s.dmaFuel c host :=
  (if_neg (by rw [runs, moves, accepts]; decide)).trans (ite_of_iff (by simp))

variable (left : s.dmaLeft c ≠ []) (turn : s.dmaTurn c = some c)
include left turn

/-- A channel whose one burst leaves it nothing to do has had all its turns. -/
theorem dmaTurns_of_last_burst (fuel : 0 < s.dmaFuel) (done : (s.dmaBurst c host).dmaReady c c = false) : s.dmaTurns s.dmaFuel c host = s.dmaBurst c host := by
  have ready : s.dmaReady c c = true := by simp [State.dmaReady, runs, moves, left]
  obtain ⟨k, hk⟩ := Nat.exists_eq_add_of_lt fuel
  rw [hk, Nat.zero_add, State.dmaTurns, if_neg (by rw [ready, accepts]; decide), turn]
  exact (if_pos rfl).trans (dmaTurns_of_not_ready done k)

end OwnTurn

section Burst

variable {u v : State} (hv : v = ({ s with lat.turn := Map.ins s.lat.turn (s.g F.DMA_CH_CFG_PRI c) c } : State))
include hv

theorem dmaBurst_of_moved (moved : v.dmaMove c ((v.dmaLeft c).take (Dd.burst (s.dma' c).desc)) host = (u, none)) : s.dmaBurst c host = u := by
  subst hv
  rw [State.dmaBurst]
  dsimp only
  rw [moved]

theorem dmaBurst_of_failed {r : DmaRead} (failed : v.dmaMove c ((v.dmaLeft c).take (Dd.burst (s.dma' c).desc)) host = (u, some r)) :
    s.dmaBurst c host = u.dmaReadFail c r := by
  subst hv
  rw [State.dmaBurst]
  dsimp only
  rw [failed]

end Burst

end Turns

/-! ### Completion and errors (R313, R323) -/

theorem dmaDescDone_of_none {host : List Byte} (none' : s.dmaState c ≠ 2 ∨ s.dmaWaits c = true ∨ s.retiring 1 = true) : dmaDescDone c host s = s :=
  if_pos (by rcases none' with h | h | h <;> simp [h])

theorem dmaWaits_of_no_host (off : s.dmaHost = false) (far : Dd.ssp (s.dma' c).desc = 1 ∨ Dd.dsp (s.dma' c).desc = 1) : s.dmaWaits c = true := by
  rcases far with h | h <;> simp [State.dmaWaits, off, h]

section Failures

variable {e : DmaErr} {n : Nat} {host : List Byte}

theorem dmaError_of_fetch (fetches : s.dmaState c = 1) : dmaError c e n host s = (s.dmaFail c (dmaCode e)).dmaErrLog e := by
  rw [dmaError, fetches]
  rfl

theorem dmaError_of_run (runs : s.dmaState c = 2) :
    dmaError c e n host s = ((s.dmaMove c ((s.dmaLeft c).take n) host).1.dmaFail c (dmaCode e)).dmaErrLog e := by
  rw [dmaError, runs]
  rfl

theorem dmaError_of_still (still : s.dmaState c = 0 ∨ s.dmaState c = 3 ∨ s.dmaState c = 4) : dmaError c e n host s = s := by
  rw [dmaError]
  rcases still with h | h | h <;> rw [h] <;> rfl

end Failures

end Channels

/-- Settles O31: each clause is the branch that the channel's state and what its transfer meets select. -/
theorem dmaChannels : Obligations.DmaChannels := by
  refine ⟨fun s c rdy => ?start, fun s c rdy => ?chain, fun s c rdy => ?kick, fun s c n host rdy => ?abort,
    fun s c rdy => clocked_eq rdy (f := fun s => s.dmaClear c) dmaClear_eq (ite_flt rfl rfl), fun s c host rdy => ?fetch, fun s c host rdy => ?complete, fun s c e n host k rdy code => ?error⟩
  case start =>
    exact ⟨fun busy => clocked_eq rdy (dmaStart_of_busy busy) rfl, fun idle => clocked_settle rdy.1 (dmaStart_of_idle idle)⟩
  case chain =>
    exact ⟨fun busy => clocked_eq rdy (dmaChainStart_of_busy busy) rfl, fun idle => clocked_eq rdy (dmaChainStart_of_idle idle) rfl⟩
  case kick =>
    exact ⟨fun eoc => clocked_eq rdy (dmaChainKick_of_eoc eoc) rfl, fun active => clocked_eq rdy (dmaChainKick_of_active active) rfl,
      fun refused => clocked_eq rdy (dmaChainKick_of_refused refused) rfl⟩
  case abort =>
    refine ⟨fun unmoved => clocked_settle rdy.1 (dmaAbort_of_unmoved unmoved), fun u runs moves accepts hu => ?_, fun still => clocked_eq rdy (dmaAbort_of_still still) rfl⟩
    subst hu
    exact clocked_settle rdy.1 (dmaAbort_of_moving runs moves accepts)
  case fetch =>
    exact ⟨fun none' => clocked_eq rdy (dmaFetchDone_of_none none') rfl, fun fetches csp closed => clocked_eq rdy (dmaFetchDone_of_no_host fetches csp closed) rfl,
      fun fetches accepts csp host' room whole => clocked_settle rdy.1 (dmaFetchDone_of_host fetches accepts whole csp host' room),
      fun a u bs fetches accepts chip whole ha hu read => clocked_settle rdy.1 (dmaFetchDone_of_read fetches accepts whole chip ha hu read),
      fun a u x wr fetches accepts chip whole ha hu read => clocked_settle rdy.1 (dmaFetchDone_of_decode fetches accepts whole chip ha hu read)⟩
  case complete =>
    have ends {t : State} (runs : s.dmaState c = 2) (moves : s.dmaWaits c = false) (accepts : s.retiring 1 = false) (e : t = s.dmaTurns s.dmaFuel c host) :
        exec (.dmaDescDone c host) s = .next (if t.dmaState c = 2 ∧ t.dmaLeft c = [] then t.dmaComplete c else t).settle :=
      clocked_settle rdy.1 (e ▸ dmaDescDone_eq runs moves accepts)
    refine ⟨fun none' => clocked_eq rdy (dmaDescDone_of_none (none'.imp id .inr)) rfl,
      fun _ off far => clocked_eq rdy (dmaDescDone_of_none (.inr (.inl (dmaWaits_of_no_host off far)))) rfl,
      fun u runs moves accepts hu state moved => (ends runs moves accepts hu).trans (by rw [if_pos ⟨state, moved⟩]),
      fun u runs moves accepts hu open' => (ends runs moves accepts hu).trans (by rw [if_neg (by tauto)]),
      fun v u runs moves accepts left turn fuel hv burst state moved => ?_, fun v u r t runs moves accepts left turn fuel hv burst ht stopped => ?_⟩
    · have e : s.dmaBurst c host = u := dmaBurst_of_moved hv burst
      rw [ends runs moves accepts (e ▸ (dmaTurns_of_last_burst runs moves accepts left turn fuel (e ▸ dmaReady_of_moved moved)).symm), if_pos ⟨state, moved⟩]
    · have e : s.dmaBurst c host = t := (dmaBurst_of_failed hv burst).trans ht.symm
      rw [ends runs moves accepts (e ▸ (dmaTurns_of_last_burst runs moves accepts left turn fuel (e ▸ dmaReady_of_stopped stopped)).symm), if_neg fun h => stopped h.1]
  case error =>
    have coded : dmaCode e = k := by
      rcases code with ⟨rfl, rfl⟩ | ⟨rfl, rfl⟩ | ⟨rfl, rfl⟩ | ⟨rfl, rfl⟩ | ⟨rfl, rfl⟩ | ⟨⟨w, rfl⟩, rfl⟩ <;> rfl
    subst coded
    exact ⟨fun fetches => clocked_settle rdy.1 (dmaError_of_fetch fetches), fun runs => clocked_settle rdy.1 (dmaError_of_run runs),
      fun still => clocked_eq rdy (dmaError_of_still still) rfl⟩

end Sys2Proof.Machine
end

section
/-! PROOF. Chord: what reaches a channel, its firing and the storm guard, the retrigger time, and the EVIN and EVOUT pins. -/

namespace Sys2Proof.Machine

/-! ### What reaches a channel (R326, R330, R331, R334) -/

section Channels

variable {s : State} {c : Nat} {isRaise : Bool}

/-- A channel fires, or the storm guard stops it (R334). -/
def State.firesOrStorms (s : State) (c : Nat) : State := if s.stormy c then s.storm c else s.fire c

theorem reach_of_off (off : s.on F.EVT_CH_EN c = false ∨ bitOf s.grpMask (s.g F.EVT_CH_GRP c) = false) : s.reach c isRaise = s :=
  if_pos (by rcases off with h | h <;> simp [h])

/-- Before a channel's first firing an occurrence and a raise do the same. -/
theorem reach_of_never (never : Map.find s.evt.last c = none) :
    s.reach c isRaise = if !s.on F.EVT_CH_EN c || !bitOf s.grpMask (s.g F.EVT_CH_GRP c) then s else s.firesOrStorms c := by
  rw [State.reach, never]
  rfl

section Enabled

variable (enabled : s.on F.EVT_CH_EN c = true) (group : bitOf s.grpMask (s.g F.EVT_CH_GRP c) = true)
include enabled group

theorem reach_of_merged (now : Map.find s.evt.last c = some s.slow) : s.reach c isRaise = s.put F.EVT_CHSTAT_COINC 1 c := by
  rw [State.reach, now]
  exact (if_neg (by rw [enabled, group]; decide)).trans (if_pos rfl)

theorem reach_of_earlier {t : Nat} (last : Map.find s.evt.last c = some t) (earlier : t ≠ s.slow) :
    s.reach c isRaise = if !isRaise && s.g F.EVT_CH_RETRIG c != 0 && s.slow < t + s.g F.EVT_CH_RETRIG c then s.sat F.EVT_CHSTAT_RTRG_DROP c else s.firesOrStorms c := by
  rw [State.reach, last]
  exact (if_neg (by rw [enabled, group]; decide)).trans (if_neg earlier)

/-- A raise is tested against no time but that of its own cycle. -/
theorem reach_raise (unmerged : Map.find s.evt.last c ≠ some s.slow) : s.reach c true = s.firesOrStorms c := by
  cases last : Map.find s.evt.last c with
  | none => exact (reach_of_never last).trans (if_neg (by rw [enabled, group]; decide))
  | some t => exact (reach_of_earlier enabled group last fun e => unmerged (last.trans (congrArg some e))).trans (if_neg Bool.false_ne_true)

end Enabled

end Channels

/-- Settles O50: an occurrence is tested against RETRIG where a raise is not, and otherwise both do the same. -/
theorem retriggering : Obligations.Retriggering := by
  refine ⟨fun s c t enabled group last earlier => ?_, fun s c never => (reach_of_never never).trans (reach_of_never never).symm⟩
  have raised : s.reach c true = s.firesOrStorms c := reach_raise enabled group fun e => Nat.ne_of_lt earlier (Option.some.inj (last.symm.trans e))
  have tested := reach_of_earlier (isRaise := false) enabled group last (Nat.ne_of_lt earlier)
  refine ⟨fun early => tested.trans (if_pos ?_), fun late => (tested.trans (if_neg ?_)).trans raised.symm, fun zero => (tested.trans (if_neg ?_)).trans raised.symm, raised⟩
  · have some' : s.g F.EVT_CH_RETRIG c ≠ 0 := by omega
    simp [some', early]
  · simp [Nat.not_lt.2 late]
  · simp [zero]

/-! ### Occurrences and pins (R328, R332) -/

section Occurrences

variable {s u : State} {k : Nat} {l : List Nat}

theorem chordOccurrence_of_none (none' : s.evt.occ = []) : chordOccurrence s = s := by rw [chordOccurrence, none']

variable (oldest : s.evt.occ = k :: l) (hu : u = ({ s with evt.occ := l } : State))
include oldest hu

theorem chordOccurrence_of_oldest : chordOccurrence s = if 256 ≤ k then u.reach (k - 256) true
    else if producer k then u.each ((List.range 64).filter (fun c => s.g F.EVT_CH_PSEL c = k)) (fun u c => u.reach c false) else u := by
  subst hu
  rw [chordOccurrence, oldest]
  rfl

end Occurrences

theorem exec_evinEdge_of_eq {s t : State} {i : Fin 4} {level : Bool} (rdy : s.Ready) (e : evinEdge i level s = t) (kept : t.flt = s.flt) :
    exec (.evinEdge i level) s = .next t :=
  (if_neg (by rw [rdy.1]; decide)).trans (clocked_eq rdy e kept)

/-- Settles O32: each clause is the branch that the oldest occurrence, the channel's enables and its last firing, or the pin's level select. -/
theorem chordEvents : Obligations.ChordEvents := by
  refine ⟨fun s rdy => ?occurrence, fun s c rdy => ?raise, fun s i level rdy => ?edge, fun s i level frozen => if_pos frozen, fun s i rdy => ?pulse, fun s c v u rdy hu => ?write⟩
  case occurrence =>
    refine ⟨fun none' => clocked_eq rdy (chordOccurrence_of_none none') rfl,
      fun k l oldest raised => clocked_settle rdy.1 ((chordOccurrence_of_oldest oldest rfl).trans (if_pos raised)), fun k l oldest low known => ?_, fun k l oldest low unknown => ?_⟩
    · exact clocked_settle rdy.1 ((chordOccurrence_of_oldest oldest rfl).trans ((if_neg (Nat.not_le.2 low)).trans (if_pos known)))
    · exact clocked_eq rdy ((chordOccurrence_of_oldest oldest rfl).trans ((if_neg (Nat.not_le.2 low)).trans (ite_of_eq_false unknown))) rfl
  case raise =>
    have ends {t : State} (e : s.reach c true = t) : exec (.evtRaise c) s = .next t.settle := clocked_settle (f := fun s => s.reach c true) rdy.1 e
    have kept {t : State} (e : s.reach c true = t) (q : t.flt = s.flt) : exec (.evtRaise c) s = .next t := clocked_eq (f := fun s => s.reach c true) rdy e q
    exact ⟨fun off => kept (reach_of_off off) rfl, fun enabled group now => kept (reach_of_merged enabled group now) rfl,
      fun enabled group unmerged calm => ends ((reach_raise enabled group unmerged).trans (ite_of_eq_false calm)),
      fun enabled group unmerged stormy => ends ((reach_raise enabled group unmerged).trans (if_pos stormy))⟩
  case edge =>
    exact ⟨fun same => exec_evinEdge_of_eq rdy (if_pos same) rfl, fun differs => exec_evinEdge_of_eq rdy (if_neg differs) (when_keep State.flt (fun u => u.occur (1 + i)) (fun _ => rfl) _ _)⟩
  case pulse =>
    exact ⟨fun ended => clocked_eq rdy (if_pos ended) rfl, fun lasts => clocked_eq rdy (ite_of_eq_false lasts) rfl⟩
  case write =>
    subst hu
    exact clocked_eq rdy (f := evtChWrite c v.toNat) rfl (ite_flt rfl rfl)

end Sys2Proof.Machine
end

section
/-! PROOF. The fault collector: raises, clears, the first fault, soft faults, windows of corrected errors and the watchdog. -/

namespace Sys2Proof.Machine

section Collector

variable {s : State} {n info : Nat}

theorem ne_lost_of_running (run : s.clk = Clk.running) : s.clk ≠ Clk.lost := by rw [run]; decide

/-- A source other than SRAM_UE is raised and nothing else (R336, R340). -/
theorem faultRaise_of_plain (plain : n ≠ 24) : faultRaise n info s = s.raise n (info &&& infoBits n) := by
  rw [faultRaise, if_neg plain]

/-- SRAM_UE makes the word that its information names uncorrectable (R340). -/
theorem faultRaise_of_word {w : Nat} (named : storeWord (bitsOf info 0 4) (bitsOf info 8 21) = some w) : faultRaise 24 info s =
    ({ s with ueWords := if s.ueWords.contains w then s.ueWords else s.ueWords ++ [w] } : State).raise 24 (info &&& infoBits 24) := by
  rw [faultRaise, if_pos rfl, named]

theorem fltFirstClear_of_none (none' : bitList (s.hwOf R.FLT_STAT).set.toNat 64 = []) : fltFirstClear s = (s.w1c F.FLT_FIRST_VALID).w1c F.FLT_FIRST_OVF := by
  rw [fltFirstClear, none']

theorem fltFirstClear_of_lowest {l : List Nat} {u : State} (set : bitList (s.hwOf R.FLT_STAT).set.toNat 64 = n :: l)
    (hu : u = (((s.put F.FLT_FIRST_VALID 1).put F.FLT_FIRST_SRC n).putB F.FLT_FIRST_OVF (!l.isEmpty)).put F.FLT_FIRST_TIME_VAL (s.tbNow 0).toNat) :
    fltFirstClear s = { u with flt.firstAt := s.cycle } := by
  subst hu
  rw [fltFirstClear, set]

theorem ceWindowEnd_of_early {store d : Nat} (hd : d = s.ceDue store) (early : s.cycle < d) : ceWindowEnd store n s = s := if_pos (hd ▸ early)

theorem ceWindowEnd_of_due {store d : Nat} (hd : d = s.ceDue store) (past : d ≤ s.cycle) : ceWindowEnd store n s =
    if max 1 (s.g F.FLT_CE_THR_THR) ≤ n then ({ s with flt.ceAt := Map.ins s.flt.ceAt store d } : State).raise 25 store
    else { s with flt.ceAt := Map.ins s.flt.ceAt store d } := by
  subst hd
  exact if_neg (Nat.not_lt.2 past)

end Collector

/-- Settles O33: each clause is the branch that the source's bit, the registers of the collector or the cycle select. -/
theorem faultCollector : Obligations.FaultCollector := by
  refine ⟨fun s n info k run plain hk => ?raised, fun s info w run named => clocked_settle run (faultRaise_of_word named), fun s m mask l u run hl hu => ?cleared,
    fun s run => ?first, fun s mask run => clocked_settle run rfl, fun s store n d rdy hd => ?window,
    fun s i run => clocked_settle run (f := fun s => s.raise 50 i) rfl⟩
  case raised =>
    subst hk
    have alone := faultRaise_of_plain (s := s) (info := info.toNat) fun e => plain (Fin.ext e)
    refine ⟨fun stands => clocked_settle run (alone.trans (raise_of_standing (ne_lost_of_running run) stands _)), fun u clear hu => ?_⟩
    subst hu
    exact clocked_settle run (alone.trans (raise_of_clear (ne_lost_of_running run) clear _))
  case cleared =>
    subst hl hu
    exact clocked_settle run (f := fun s => fltStatClear mask.toNat (s.wideWritten m R.FLT_STAT)) rfl
  case first =>
    exact ⟨fun none' => clocked_settle run (fltFirstClear_of_none none'), fun n l u set hu => clocked_settle run (fltFirstClear_of_lowest set hu)⟩
  case window =>
    exact ⟨fun early => clocked_eq rdy (ceWindowEnd_of_early hd early) rfl,
      fun past few => clocked_settle rdy.1 ((ceWindowEnd_of_due hd past).trans (if_neg (Nat.not_le.2 few))),
      fun past many => clocked_settle rdy.1 ((ceWindowEnd_of_due hd past).trans (if_pos many))⟩

end Sys2Proof.Machine
end

section
/-! PROOF. Fences asked for and taken effect, resume sequences and their ends; freeze requests, FREEZE_N and requests for a partition's mode. -/

namespace Sys2Proof.Machine

/-! ### Fences and resumes (R343, R344) -/

section Fences

variable {s u : State} {region idx : Nat}

section Commands

variable (hu : u = (s.sput F.FLT_FENCE_CTL_REGION region).sput F.FLT_FENCE_CTL_INDEX idx)
include hu

theorem fltFence_of_pending (pending : u.flt.cmds.any (fun c => c.2.2) = true) : fltFence region idx s = u := by
  subst hu
  exact if_pos pending

theorem fltFence_of_idle (idle : u.flt.cmds.any (fun c => c.2.2) = false) : fltFence region idx s =
    if !regionIdx region idx then u.put F.FLT_FENCE_STAT_REFUSED 1 else (u.setCmds (u.flt.cmds ++ [(region, idx, true)])).askFence region idx false := by
  subst hu
  exact ite_of_eq_false idle

theorem fltUnfence_of_refused (refused : regionIdx region idx = false ∨ u.regionFenced region idx = false ∨ u.on F.FLT_FENCE_STAT_BUSY = true) :
    fltUnfence region idx s = u.put F.FLT_FENCE_STAT_REFUSED 1 := by
  subst hu
  exact if_pos (by simpa [or_assoc] using refused)

theorem fltUnfence_of_fenced (known : regionIdx region idx = true) (fenced : u.regionFenced region idx = true) (free : u.on F.FLT_FENCE_STAT_BUSY = false) :
    fltUnfence region idx s = (u.setCmds (u.flt.cmds ++ [(region, idx, false)])).startResume region idx := by
  subst hu
  exact if_neg (by simp [known, fenced, free])

end Commands

theorem fenceTakeEffect_of_none (none' : s.flt.fences = []) : fenceTakeEffect s = s := by rw [fenceTakeEffect, none']

theorem fenceTakeEffect_of_oldest {r : FenceReq} {l : List FenceReq} (oldest : s.flt.fences = r :: l)
    (hu : u = (({ s with flt.fences := l } : State).fenceNow r.region r.idx).endCmd r.region r.idx true) :
    fenceTakeEffect s = if r.resume then u.startResume r.region r.idx else u := by
  subst hu
  rw [fenceTakeEffect, oldest]

theorem resumeDone_of_waiting (waits : s.resuming region idx = false ∨ s.resumeReady region idx = false) : resumeDone region idx s = s :=
  if_neg (by rcases waits with h | h <;> simp [h])

theorem resumeDone_of_ready (resumes : s.resuming region idx = true) (ready : s.resumeReady region idx = true) :
    resumeDone region idx s = (s.endResume region idx).liftFence region idx :=
  if_pos (by rw [resumes, ready]; rfl)

theorem resumeStepTimeout_of_none (none' : s.resuming region idx = false) : resumeStepTimeout region idx s = s := if_neg (by rw [none']; exact Bool.false_ne_true)

theorem resumeStepTimeout_of_ready (ready : s.resumeReady region idx = true) (checked : region ≠ 6) : resumeStepTimeout region idx s = s :=
  if_neg (by simp [ready, checked])

section Unmet

variable (resumes : s.resuming region idx = true)
include resumes

theorem resumeFails_of_resuming : s.resumeFails region idx = (s.endResume region idx).put F.FLT_FENCE_STAT_RESUME_FAIL 1 := if_pos resumes

variable (unmet : s.resumeReady region idx = false ∨ region = 6)
include unmet

theorem resumeLate_of_unmet : (s.resuming region idx && (region = 6 || !s.resumeReady region idx)) = true := by
  rw [resumes]
  rcases unmet with h | h <;> simp [h]

theorem resumeStepTimeout_of_other (not2 : region ≠ 2) (not3 : region ≠ 3) : resumeStepTimeout region idx s = (s.endResume region idx).put F.FLT_FENCE_STAT_RESUME_FAIL 1 := by
  rw [resumeStepTimeout, if_pos (resumeLate_of_unmet resumes unmet)]
  · exact resumeFails_of_resuming resumes
  · exact not2
  · exact not3

end Unmet

end Fences

/-- Settles O34: each clause is the branch that the region, its fence and its resume select. -/
theorem fencesAndResumes : Obligations.FencesAndResumes := by
  refine ⟨fun s r i u rdy hu => ?fence, fun s rdy => ?effect, fun s r i u rdy hu => ?unfence, fun s r i rdy => ?done, fun s r i rdy => ?timeout⟩
  case fence =>
    have kept : u.flt = s.flt := hu ▸ rfl
    exact ⟨fun pending => clocked_eq rdy (fltFence_of_pending hu pending) kept,
      fun idle unknown => clocked_eq rdy ((fltFence_of_idle hu idle).trans (if_pos (by rw [unknown]; rfl))) kept,
      fun idle known => clocked_settle rdy.1 ((fltFence_of_idle hu idle).trans (if_neg (by rw [known]; decide)))⟩
  case effect =>
    exact ⟨fun none' => clocked_eq rdy (fenceTakeEffect_of_none none') rfl, fun r l u oldest hu => clocked_settle rdy.1 (fenceTakeEffect_of_oldest oldest hu)⟩
  case unfence =>
    have kept : u.flt = s.flt := hu ▸ rfl
    exact ⟨fun refused => clocked_eq rdy (fltUnfence_of_refused hu refused) kept, fun known fenced free => clocked_settle rdy.1 (fltUnfence_of_fenced hu known fenced free)⟩
  case done =>
    exact ⟨fun waits => clocked_eq rdy (resumeDone_of_waiting waits) rfl, fun resumes ready => clocked_settle rdy.1 (resumeDone_of_ready resumes ready)⟩
  case timeout =>
    refine ⟨fun none' => clocked_eq rdy (resumeStepTimeout_of_none none') rfl,
      fun _ ready checked => clocked_eq rdy (resumeStepTimeout_of_ready ready fun e => checked (Fin.ext e)) rfl,
      fun resumes unmet not2 not3 => clocked_settle rdy.1 (resumeStepTimeout_of_other resumes (unmet.imp id (congrArg Fin.val)) (fun e => not2 (Fin.ext e)) fun e => not3 (Fin.ext e)),
      fun resumes unmet two => ?_, fun resumes unmet three => ?_⟩
    · subst two
      exact clocked_settle rdy.1 (if_pos (resumeLate_of_unmet resumes (.inl unmet)))
    · subst three
      exact clocked_settle rdy.1 (if_pos (resumeLate_of_unmet resumes (.inl unmet)))

/-! ### Freeze (R346) -/

section Freeze

variable {s u : State} {src : Nat}

/-- The clocks stop and the mode is FREEZE, which keeps the mode before it. -/
def State.frozenBy (s : State) (src mode : Nat) : State :=
  { ((s.put F.FLT_FRZ_STAT_SRC src).sat F.FLT_FRZ_STAT_COUNT).put F.GLB_MODE_MODE 5 with clk := .frozen, flt.frozen := 0, flt.frzBy := some src, flt.frzMode := mode }

/-- A freeze is refused where the clocks stand, in another mode than OPERATE and TEST, and to a pin that PIN_EN does not enable. -/
def State.frzRefused (s : State) (src : Nat) : Bool := s.clk != .running || !(s.mode = 3 || s.mode = 4) || (src = 0 && !s.on F.FLT_FRZ_CTL_PIN_EN)

theorem freezeRequest_pin (hu : u = { s with flt.frzPin := false }) : freezeRequest 0 s = if s.frzRefused 0 then u else u.frozenBy 0 s.mode := by
  subst hu
  rfl

theorem freezeRequest_other (other : src ≠ 0) : freezeRequest src s = if s.frzRefused src then s else (s.put F.FLT_FRZ_CTL_HOLD 1).frozenBy src s.mode := by
  rw [freezeRequest, if_neg other, State.when, if_pos (bne_iff_ne.2 other)]
  rfl

theorem frzRefused_of (refused : s.clk ≠ Clk.running ∨ (s.mode ≠ 3 ∧ s.mode ≠ 4) ∨ (src = 0 ∧ s.on F.FLT_FRZ_CTL_PIN_EN = false)) : s.frzRefused src = true := by
  simpa [State.frzRefused, or_assoc] using refused

theorem frzRefused_eq_false (run : s.clk = Clk.running) (mode : s.mode = 3 ∨ s.mode = 4) (admitted : src ≠ 0 ∨ s.on F.FLT_FRZ_CTL_PIN_EN = true) :
    s.frzRefused src = false := by
  rcases mode with h | h <;> rcases admitted with a | a <;> simp [State.frzRefused, run, h, a]

end Freeze

/-! ### A partition's mode (R374) -/

section Modes

variable {s u v : State} {p code : Nat}

theorem askMode_of_accepted (operates : u.mode = 3) (free : u.partFenced p = false) (settled : u.resuming 0 p = false) (known : code ≤ 4)
    (hv : v = if u.pmode p = code then u else u.setMode p code) : u.askMode p code = (v, true) := by
  have accepted : (u.mode != 3 || u.partFenced p || u.resuming 0 p || 4 < code) = false := by simp [operates, free, settled, known]
  rw [State.askMode, accepted, hv, if_neg Bool.false_ne_true]
  split <;> rfl

variable (hu : u = s.sput F.GLB_PMODE_REQ code p)
include hu

theorem pmodeRequest_of_refused (refused : u.mode ≠ 3 ∨ u.partFenced p = true ∨ u.resuming 0 p = true ∨ 4 < code) :
    pmodeRequest p code s = u.put F.GLB_PMODE_REFUSED 1 p := by
  subst hu
  have asked : (s.sput F.GLB_PMODE_REQ code p).askMode p code = (s.sput F.GLB_PMODE_REQ code p, false) := if_pos (by simpa [or_assoc] using refused)
  rw [pmodeRequest, asked]
  rfl

/-- A PART.MODE of the same cycle acts after an accepted request. -/
theorem pmodeRequest_of_accepted (asked : u.askMode p code = (v, true)) : pmodeRequest p code s = (v.pmNow p).elim v (fun c => (v.askMode p c).1) := by
  subst hu
  rw [pmodeRequest, asked]
  cases later : v.pmNow p
  all_goals
    dsimp only
    exact if_pos rfl

end Modes

/-- Settles O35: each clause is the branch that the clocks, the mode, the pin and the partition select. -/
theorem freezeAndModes : Obligations.FreezeAndModes := by
  refine ⟨fun s src u q hu => ?freeze, fun s q => ?rise, fun s p code u run hu => ?mode⟩
  case freeze =>
    have ends {t : State} (e : freezeRequest src s = t) (tq : t.Quiet) : exec (.freezeRequest src) s = .next t := (congrArg fin e).trans (fin_of_quiet tq)
    by_cases pin : src = 0
    · subst pin
      rw [if_pos rfl] at hu
      have uq : u.Quiet := hu ▸ q
      refine ⟨fun refused => ends ((freezeRequest_pin hu).trans (if_pos (frzRefused_of ?_))) uq, fun _ _ other => absurd rfl other, fun run mode _ admitted => ?_⟩
      · exact refused.imp id (Or.imp id fun h => ⟨rfl, h.2⟩)
      · exact ends ((freezeRequest_pin hu).trans (ite_of_eq_false (frzRefused_eq_false run mode (.inr admitted)))) uq
    · rw [if_neg pin] at hu
      subst hu
      have other : src.val ≠ 0 := fun e => pin (Fin.ext e)
      refine ⟨fun refused => ends ((freezeRequest_other other).trans (if_pos (frzRefused_of ?_))) q,
        fun run mode _ => ends ((freezeRequest_other other).trans (ite_of_eq_false (frzRefused_eq_false run mode (.inl other)))) q, fun _ _ zero => absurd zero pin⟩
      exact refused.imp id (Or.imp id fun h => absurd h.1 pin)
  case rise =>
    refine fin_of_quiet ?_
    unfold freezePinRise
    split
    · exact q
    · exact q
  case mode =>
    refine ⟨fun refused => clocked_settle run (pmodeRequest_of_refused hu refused), fun v operates free settled known hv => ?_⟩
    have done := pmodeRequest_of_accepted hu (askMode_of_accepted operates free settled known hv)
    exact ⟨fun none' => clocked_settle run (done.trans (by rw [none']; rfl)), fun c later => clocked_settle run (done.trans (by rw [later]; rfl))⟩

end Sys2Proof.Machine
end

section
/-! PROOF. Power: PWR_REQ, power good, timeouts, VSTBY, rail faults and restarts, set values, headroom and caps, chip reset. -/

namespace Sys2Proof.Machine

section Power

variable {s u : State}

/-! ### Power-up (R355, R356) -/

theorem powerUp_of_kept (kept : s.clk ≠ Clk.off ∨ s.pwr.seq ≠ 0 ∨ s.pwr.down = true ∨ s.pwr.vstby = false ∨ s.pwr.req = false ∨ s.pwr.blocked = true) : s.powerUp = s :=
  if_pos (by simpa [or_assoc] using kept)

theorem powerUp_of_off (off : s.clk = Clk.off) (idle : s.pwr.seq = 0) (up : s.pwr.down = false) (vstby : s.pwr.vstby = true) (req : s.pwr.req = true)
    (free : s.pwr.blocked = false) : s.powerUp = { s with pwr.seq := 1 } :=
  if_neg (by simp [off, idle, up, vstby, req, free])

theorem pwrReqRise_of_kept {ms : Nat}
    (kept : s.clk ≠ Clk.off ∨ s.pwr.seq ≠ 0 ∨ s.pwr.down = true ∨ s.pwr.vstby = false ∨ (s.pwr.blocked = true ∧ ms < 10)) :
    pwrReqRise ms s = { s with pwr.req := true, pwr.blocked := s.pwr.blocked && (ms < 10 || s.clk != Clk.off || s.pwr.down) } := by
  refine powerUp_of_kept ?_
  rcases kept with h | h | h | h | ⟨h, short⟩
  · exact .inl h
  · exact .inr (.inl h)
  · exact .inr (.inr (.inl h))
  · exact .inr (.inr (.inr (.inl h)))
  · exact .inr (.inr (.inr (.inr (.inr (by simp [h, short])))))

theorem pwrReqRise_of_off {ms : Nat} (off : s.clk = Clk.off) (idle : s.pwr.seq = 0) (up : s.pwr.down = false) (vstby : s.pwr.vstby = true)
    (free : s.pwr.blocked = false ∨ 10 ≤ ms) : pwrReqRise ms s = { s with pwr.req := true, pwr.blocked := false, pwr.seq := 1 } := by
  have lifted : (s.pwr.blocked && (ms < 10 || s.clk != Clk.off || s.pwr.down)) = false := by
    rcases free with h | h
    · simp [h]
    · simp [off, up, Nat.not_lt.2 h]
  rw [pwrReqRise, lifted]
  exact powerUp_of_off off idle up vstby rfl rfl

/-! ### Power good (R355, R358) -/

section PowerGood

variable {r : Nat}

theorem railPowerGood_of_idle (idle : s.pwr.seq = 0) : railPowerGood r s = if r < 8 && s.on F.DPC_STAT_ON r then s.setPg r else s := if_pos idle

variable (runs : s.pwr.seq ≠ 0)
include runs

theorem railPowerGood_of_lock (lock : r = 9) : railPowerGood r s = if s.pwr.seq = 8 then s.powerGood else s :=
  (if_neg runs).trans (if_pos lock)

theorem railPowerGood_of_unawaited (rail : r ≠ 9) (unawaited : (s.stepRails s.pwr.seq).contains r = false) : railPowerGood r s = s :=
  (if_neg runs).trans ((if_neg rail).trans (if_pos (by rw [unawaited]; rfl)))

theorem railPowerGood_of_last (rail : r ≠ 9) (awaited : (s.stepRails s.pwr.seq).contains r = true)
    (last : ((s.setPg r).stepRails s.pwr.seq).any (fun x => !(s.setPg r).railPg x) = false) :
    railPowerGood r s = (s.setPg r).beginStep (nextStep s.pwr.seq) :=
  (if_neg runs).trans ((if_neg rail).trans ((if_neg (by rw [awaited]; decide)).trans (if_neg (by rw [last, Bool.and_false]; decide))))

end PowerGood

theorem pwrupStepTimeout_of_running (runs : s.pwr.seq ≠ 0) : pwrupStepTimeout s =
    { (s.put F.PWR_SEQ_STAT_FAIL_STEP s.pwr.seq).put F.PWR_SEQ_STAT_VALID 1 with
      pwr.failDpc := if s.pwr.seq = 1 then some 7 else ((s.stepRails s.pwr.seq).filter (fun r => !s.railPg r)).head?, pwr.blocked := true, pwr.down := true, pwr.seq := 0 } :=
  if_neg runs

/-! ### Power-down and VSTBY (R355, R357) -/

theorem powerDown_of_off (off : s.clk = Clk.off) (idle : s.pwr.seq = 0) : s.powerDown = s := if_pos (by simp [off, idle])

theorem powerDown_of_up (up : s.clk ≠ Clk.off ∨ s.pwr.seq ≠ 0) :
    s.powerDown = { s.each (List.range 16) (fun u t => u.fenceNow 1 t) with pwr.down := true, pwr.seq := 0 } :=
  if_neg (by rcases up with h | h <;> simp [h])

theorem powerDownDone_of_down (down : s.pwr.down = true) : powerDownDone s = s.allOff.powerUp := if_pos down

theorem vstbyPowerUp_of_low (low : s.pwr.vstby = false) (hu : u = if s.pwr.down then s.allOff else s) : vstbyPowerUp s =
    (({ u with
      clk := .off
      regs := u.regs.filter (fun e => keyReg e.1 < numTileRegs || keyReg e.1 = R.CAR_WR_CNT.id)
      pwr := { u.pwr with vstby := true, seq := 0, blocked := false, down := false, failDpc := none, vio := false, board := [] } } : State).each (List.range 5) State.railOff).powerUp := by
  subst hu
  exact if_neg (by rw [low]; exact Bool.false_ne_true)

/-! ### Rail faults (R358) -/

section RailFault

variable {r kind : Nat}

theorem railFault_of_down (off : s.clk = Clk.off) (down : s.pwr.seq = 0 ∨ s.railPg r = false) : railFault r kind s = s :=
  if_pos (by rcases down with h | h <;> simp [off, h])

/-- A rail fault as the DPC's status and, while the Control Die runs, the fault collector take it. -/
def State.noteRail (s : State) (r kind : Nat) : State :=
  let s := if r = 8 then s else s.put (if kind = 0 then F.DPC_STAT_UV else if kind = 1 then F.DPC_STAT_OV else F.DPC_STAT_OC) 1 r
  s.when (s.clk != .off) (fun s => s.raise (if kind = 2 then 31 else 30) (min r 7))

theorem noteRail_of_running (run : s.clk ≠ Clk.off) (vio : r ≠ 8) :
    s.noteRail r kind = (s.put (if kind = 0 then F.DPC_STAT_UV else if kind = 1 then F.DPC_STAT_OV else F.DPC_STAT_OC) 1 r).raise (if kind = 2 then 31 else 30) (min r 7) := by
  rw [State.noteRail, if_neg vio]
  exact if_pos (bne_iff_ne.2 run)

theorem noteRail_vio (run : s.clk ≠ Clk.off) : s.noteRail 8 kind = s.raise (if kind = 2 then 31 else 30) 7 := if_pos (bne_iff_ne.2 run)

theorem noteRail_of_off (off : s.clk = Clk.off) (vio : r ≠ 8) :
    s.noteRail r kind = s.put (if kind = 0 then F.DPC_STAT_UV else if kind = 1 then F.DPC_STAT_OV else F.DPC_STAT_OC) 1 r := by
  rw [State.noteRail, if_neg vio]
  exact if_neg (fun e => bne_iff_ne.1 e off)

section Up

variable (up : s.clk ≠ Clk.off ∨ (s.pwr.seq ≠ 0 ∧ s.railPg r = true))
include up

theorem railFault_live : ¬(s.clk = .off && (s.pwr.seq = 0 || !s.railPg r)) = true := by
  rcases up with h | ⟨h, g⟩ <;> simp [*]

/-- A rail that feeds the others takes the device down. -/
theorem railFault_of_common (common : r ≤ 3 ∨ r = 8) : railFault r kind s = ((s.noteRail r kind).railOff r).powerDown :=
  (if_neg (railFault_live up)).trans (if_pos (by simpa using common))

theorem railFault_of_vhtr (vhtr : r = 4) : railFault r kind s = (s.noteRail r kind).railOff 4 := by
  subst vhtr
  exact if_neg (railFault_live up)

end Up

end RailFault

/-! ### Restarts and set values (R354, R358) -/

section Restart

variable {n : Nat}

theorem railRestart_of_faulted (faulted : s.on F.DPC_STAT_UV (4 + n) = true ∨ s.on F.DPC_STAT_OV (4 + n) = true ∨ s.on F.DPC_STAT_OC (4 + n) = true) :
    railRestart n s = s.put F.PWR_STAT_CFG_REFUSED 1 :=
  if_pos (by simpa [or_assoc] using faulted)

theorem railRestart_of_good (uv : s.on F.DPC_STAT_UV (4 + n) = false) (ov : s.on F.DPC_STAT_OV (4 + n) = false) (oc : s.on F.DPC_STAT_OC (4 + n) = false) :
    railRestart n s = (if n = 0 then s else (s.put F.PWR_VPIC_CFG_EN 1 (n - 1)).put F.DPC_VSET_VSET (s.vpicSet (n - 1)) (4 + n)).railOn (4 + n) :=
  if_neg (by simp [uv, ov, oc])

end Restart

theorem vset0Write_of_inside {v : Nat} (least : 700 ≤ v) (most : v ≤ 800) : vset0Write v s = s.sput F.DPC_VSET_VSET v 0 := if_pos (by simp [least, most])

theorem vset0Write_of_outside {v : Nat} (outside : v < 700 ∨ 800 < v) : vset0Write v s = s.put F.PWR_STAT_CFG_REFUSED 1 :=
  if_neg (by simp only [Bool.and_eq_true, decide_eq_true_eq]; omega)

/-! ### Headroom and caps (R359, R360, R363) -/

theorem retarget_of_auto (auto : s.on F.PWR_VHTR_CFG_MANUAL = false) :
    s.retarget = (({ s with pwr.vtarget := s.vhtrTarget } : State).put F.DPC_VSET_VSET s.vhtrTarget 4).vhtrLow :=
  congrArg State.vhtrLow (if_neg (by rw [show State.on { s with pwr.vtarget := s.vhtrTarget } F.PWR_VHTR_CFG_MANUAL = false from auto]; exact Bool.false_ne_true))

theorem retarget_of_manual (manual : s.on F.PWR_VHTR_CFG_MANUAL = true) : s.retarget = ({ s with pwr.vtarget := s.vhtrTarget } : State).vhtrLow :=
  congrArg State.vhtrLow (if_pos manual)

section Caps

variable {itot ph : Nat} (hu : u = s.capMeasure itot ph)
include hu

theorem capTimeout_of_within (within : u.pwr.capSince = none) : capTimeout itot ph s = u := by
  subst hu
  simp only [capTimeout, within]

theorem capTimeout_of_exceeded {k : Nat} (since : u.pwr.capSince = some k) : capTimeout itot ph s = if k + 100000 ≤ u.cycle then u.raise 31 4 else u := by
  subst hu
  simp only [capTimeout, since]

end Caps

theorem capCheck_of_within (current : s.g F.PWR_VHTR_LOAD_ITOT ≤ s.g F.PWR_VHTR_ILIM_ILIM) (dissipation : s.g F.PWR_VHTR_LOAD_PH ≤ s.g F.PWR_HDISS_CAP_CAP) :
    s.capCheck.pwr.capSince = none :=
  if_neg (by simp [Nat.not_lt.2 current, Nat.not_lt.2 dissipation])

end Power

theorem railOff_clk (s : State) (r : Nat) : (s.railOff r).clk = s.clk := by
  unfold State.railOff
  split <;> rfl

theorem railOff_pwr (s : State) {r : Nat} (dpc : r ≠ 8) : (s.railOff r).pwr = s.pwr := by
  rw [State.railOff, if_neg dpc]
  rfl

theorem each_railOff_clk (s : State) (l : List Nat) : (s.each l State.railOff).clk = s.clk := each_keep State.clk State.railOff railOff_clk s l

theorem each_railOff_pwr (s : State) : (s.each (List.range 5) State.railOff).pwr = s.pwr :=
  each_keeps State.pwr s _ _ fun u r h => railOff_pwr u (by have := List.mem_range.1 h; omega)

/-- Settles O37: each clause is the branch that the clocks, the sequence and the rail select. -/
theorem powerSequences : Obligations.PowerSequences := by
  refine ⟨fun s ms q => ?rise, fun s r v c u hu => ?good, fun s q => ?missed, fun s q => ?fall, fun s q => ?brownout, fun s q => ?vstby, fun s q => ?down,
    fun s r kind v c u hu => ?fault, fun s n rdy => ?restart, fun s v rdy => ?vset, fun s k rdy => clocked_eq rdy rfl (ite_flt rfl rfl),
    fun s t l v a w u x run hu hx => ?demand, fun s a b x u run hx hu => ?cap, fun s q => ?reset⟩
  case rise =>
    exact ⟨fun kept => (congrArg fin (pwrReqRise_of_kept kept)).trans (next_settle_of_flt_eq q rfl),
      fun off idle up vstby free => (congrArg fin (pwrReqRise_of_off off idle up vstby free)).trans (next_settle_of_flt_eq q rfl)⟩
  case good =>
    subst hu
    refine ⟨fun idle rail regulated => congrArg fin ((railPowerGood_of_idle idle).trans (if_pos (by simp [rail, regulated]))),
      fun idle unregulated => congrArg fin ((railPowerGood_of_idle idle).trans (if_neg ?_)), fun lock nine => ?_, fun runs other nine => ?_,
      fun runs rail unawaited => congrArg fin (railPowerGood_of_unawaited runs (fun e => rail (Fin.ext e)) unawaited),
      fun runs _ rail awaited last => congrArg fin (railPowerGood_of_last runs (fun e => rail (Fin.ext e)) awaited last)⟩
    · rcases unregulated with h | h
      · simp [Nat.not_lt.2 h]
      · simp [h]
    · exact congrArg fin ((railPowerGood_of_lock (by rw [lock]; decide) (congrArg Fin.val nine)).trans (if_pos lock))
    · exact congrArg fin ((railPowerGood_of_lock runs (congrArg Fin.val nine)).trans (if_neg other))
  case missed =>
    exact ⟨fun idle => (congrArg fin (if_pos idle)).trans (fin_of_quiet q), fun runs => (congrArg fin (pwrupStepTimeout_of_running runs)).trans (next_settle_of_flt_eq q rfl)⟩
  case fall =>
    have off {t : State} (kept : t.flt = s.flt) (off : t.clk = Clk.off) (idle : t.pwr.seq = 0) : fin t.powerDown = .next t :=
      (congrArg fin (powerDown_of_off off idle)).trans (next_settle_of_flt_eq q kept)
    have up {t : State} (up : t.clk ≠ Clk.off ∨ t.pwr.seq ≠ 0) : fin t.powerDown = .next (State.settle { t.each (List.range 16) (fun u x => u.fenceNow 1 x) with pwr.down := true, pwr.seq := 0 }) :=
      congrArg fin (powerDown_of_up up)
    exact ⟨fun clk idle => ⟨off (t := { s with pwr.req := false }) rfl clk idle, off (t := { s with pwr.vstby := false }) rfl clk idle⟩,
      fun running => ⟨up (t := { s with pwr.req := false }) running, up (t := { s with pwr.vstby := false }) running⟩⟩
  case brownout =>
    exact ⟨fun run => congrArg fin (if_neg run), fun off => (congrArg fin (if_pos off)).trans (fin_of_quiet q)⟩
  case vstby =>
    refine ⟨fun good => (congrArg fin (if_pos good)).trans (fin_of_quiet q), fun u v low hu hv => ?_⟩
    have done : vstbyPowerUp s = v.powerUp := hv ▸ vstbyPowerUp_of_low low hu
    refine ⟨fun req => congrArg fin (done.trans (powerUp_of_kept (.inr (.inr (.inr (.inr (.inl req))))))), fun req => congrArg fin (done.trans ?_)⟩
    have pwr := (congrArg State.pwr hv).trans (each_railOff_pwr _)
    exact powerUp_of_off ((congrArg State.clk hv).trans (each_railOff_clk _ _)) (by rw [pwr]) (by rw [pwr]) (by rw [pwr]) req (by rw [pwr])
  case down =>
    refine ⟨fun up => (congrArg fin (ite_of_eq_false up)).trans (fin_of_quiet q), fun u v down hu hv => ?_⟩
    have done : powerDownDone s = v.powerUp := by
      subst hv hu
      exact powerDownDone_of_down down
    refine ⟨fun kept => congrArg fin (done.trans (powerUp_of_kept ?_)), fun req vstby free idle => congrArg fin (done.trans ?_)⟩
    · rcases kept with h | h | h | h
      · exact .inr (.inr (.inr (.inr (.inl h))))
      · exact .inr (.inr (.inr (.inl h)))
      · exact .inr (.inr (.inr (.inr (.inr h))))
      · exact .inr (.inl h)
    · subst hv
      exact powerUp_of_off rfl idle rfl vstby req free
  case fault =>
    subst hu
    refine ⟨fun off down => congrArg fin (railFault_of_down off down), fun off runs up vhtr uv => congrArg fin ?_, fun run vhtr uv => congrArg fin ?_,
      fun run vhtr oc => congrArg fin ?_, fun run common uv => congrArg fin ?_, fun run vio uv => congrArg fin ?_⟩
    · subst uv
      rw [vhtr] at runs up off ⊢
      rw [railFault_of_vhtr (.inr ⟨runs, up⟩) rfl, noteRail_of_off off (by decide)]
      rfl
    · subst uv
      rw [vhtr] at run ⊢
      rw [railFault_of_vhtr (.inl run) rfl, noteRail_of_running run (by decide)]
      rfl
    · subst oc
      rw [vhtr] at run ⊢
      rw [railFault_of_vhtr (.inl run) rfl, noteRail_of_running run (by decide)]
      rfl
    · subst uv
      rw [railFault_of_common (.inl run) (.inl common), noteRail_of_running run (by omega), Nat.min_eq_left (by omega)]
      rfl
    · subst uv
      rw [vio] at run ⊢
      rw [railFault_of_common (.inl run) (.inr rfl), noteRail_vio run]
      rfl
  case restart =>
    refine ⟨fun faulted => clocked_eq rdy (railRestart_of_faulted faulted) rfl, fun uv ov oc zero => ?_, fun uv ov oc vpic => ?_⟩
    · subst zero
      exact clocked_eq rdy (railRestart_of_good uv ov oc) rfl
    · exact clocked_settle rdy.1 ((railRestart_of_good uv ov oc).trans (congrArg (State.railOn · _) (if_neg fun e => vpic (Fin.ext e))))
  case vset =>
    exact ⟨fun least most => clocked_eq rdy (vset0Write_of_inside least most) rfl, fun outside => clocked_eq rdy (vset0Write_of_outside outside) rfl⟩
  case demand =>
    subst hx hu
    exact ⟨fun auto => clocked_settle run (congrArg (State.capMeasure · _ _) (retarget_of_auto auto)), fun manual => clocked_settle run (congrArg (State.capMeasure · _ _) (retarget_of_manual manual))⟩
  case cap =>
    subst hx
    exact ⟨fun within => clocked_settle run (capTimeout_of_within hu within),
      fun k since early => clocked_settle run ((capTimeout_of_exceeded hu since).trans (if_neg (Nat.not_le.2 early))),
      fun k since late => clocked_settle run ((capTimeout_of_exceeded hu since).trans (if_pos late)),
      fun current dissipation => hu ▸ capCheck_of_within current dissipation⟩
  case reset =>
    refine ⟨fun off => ⟨(congrArg fin (if_pos off)).trans (fin_of_quiet q), clocked_of_stopped (by rw [off]; decide)⟩,
      fun run => ⟨congrArg fin (if_neg (by rw [run]; decide)), clocked_settle run rfl⟩, fun stands => ?_⟩
    rcases stands with h | h
    · exact ⟨congrArg fin (if_neg (by rw [h]; decide)), clocked_of_stopped (by rw [h]; decide)⟩
    · exact ⟨congrArg fin (if_neg (by rw [h]; decide)), clocked_of_stopped (by rw [h]; decide)⟩

end Sys2Proof.Machine
end

section
/-! PROOF. Temperature inputs, their check, internal sensors, references and the backup oscillator. -/

namespace Sys2Proof.Machine

/-! ### Temperature (R377 to R386) -/

section Temperature

variable {s u : State}

section Conversion

variable {t n : Nat} {a b c d : Int} (hn : n = 4 * t + Map.look s.thm.next t 0)
  (hu : u = { s with thm.next := Map.ins s.thm.next t ((Map.look s.thm.next t 0 + 1) % 4) })
include hn hu

theorem tdConversion_of_left (left : u.tdOff n = true ∨ (u.tl t).linkUp = false) : tdConversion t a b c d s = u := by
  subst hn hu
  exact if_pos (by simpa using left)

theorem tdConversion_of_on (on : u.tdOff n = false) (up : (u.tl t).linkUp = true) : tdConversion t a b c d s = u.tdConvert n a b c d := by
  subst hn hu
  exact if_neg (by rw [on, up]; decide)

end Conversion

section InternalSensor

variable {i v : Nat}

theorem isRead_of_unread (stands : s.clk ≠ Clk.running) (other : i ≠ 7) : isRead i v s = s := if_pos (by simp [stands, other])

theorem isRead_of_read (read : s.clk = Clk.running ∨ i = 7) : isRead i v s =
    if s.clk = .running || s.clk = .frozen then (s.put F.THM_IS_VAL_T v i).threshold (64 + i) (toSigned 16 v) ((s.put F.THM_IS_VAL_T v i).isThr i).1 ((s.put F.THM_IS_VAL_T v i).isThr i).2
    else s.put F.THM_IS_VAL_T v i :=
  if_neg (by rcases read with h | h <;> simp [h])

end InternalSensor

theorem boscCorrection_of_on {err : Nat} {valid : Bool} (on : s.clk ≠ Clk.off) :
    boscCorrection err valid s = if valid then (s.put F.THM_BOSC_ERR err).put F.THM_BOSC_VALID 1 else s.put F.THM_BOSC_VALID 0 := if_neg on

end Temperature

/-- Settles O38: each clause is the branch that the clocks, the link and the input select. -/
theorem temperature : Obligations.Temperature := by
  refine ⟨fun s t a b c d n u rdy hn hu => ?conversion, fun s raws live u run hraws hlive hu => ?check, fun s i v u hu => ?sensor,
    fun s t v rdy => clocked_eq rdy rfl (ite_flt rfl rfl), fun s err q => ?oscillator⟩
  case conversion =>
    have kept : u.flt = s.flt := hu ▸ rfl
    exact ⟨fun left => clocked_eq rdy (tdConversion_of_left hn hu left) kept, fun on up => clocked_settle rdy.1 (tdConversion_of_on hn hu on up)⟩
  case check =>
    subst hraws hlive hu
    exact clocked_settle run rfl
  case sensor =>
    subst hu
    refine ⟨fun stands other => congrArg fin (isRead_of_unread stands fun e => other (Fin.ext e)), fun stands unfrozen seven => congrArg fin ?_, fun read => congrArg fin ?_⟩
    · exact (isRead_of_read (.inr (congrArg Fin.val seven))).trans (if_neg (by simp [stands, unfrozen]))
    · exact (isRead_of_read (read.imp id fun h => congrArg Fin.val h.2)).trans (if_pos (by simpa using read.imp id And.left))
  case oscillator =>
    exact ⟨fun ok off => (congrArg fin (if_pos off)).trans (fin_of_quiet q), fun on => (congrArg fin (boscCorrection_of_on on)).trans (next_settle_of_flt_eq q rfl),
      fun on => (congrArg fin (boscCorrection_of_on on)).trans (next_settle_of_flt_eq q rfl)⟩

end Sys2Proof.Machine
end

section
/-! PROOF. The trim window, the trimming commands and their end. -/

namespace Sys2Proof.Machine

/-! ### Calibration (R387 to R392) -/

section Calibration

variable {s u : State}

section TrimTile

variable {t : Nat}

section References

variable {x y : BitVec 32} {ok : Bool} {ws : List W32}

theorem trimTile_refs_of_idle (idle : s.trimming t = false) : trimTile t (.refs x y ok ws) s = s := if_pos (by rw [idle]; rfl)

theorem trimTile_refs_of_trimming (runs : s.trimming t = true)
    (hu : u = { s with cal.refd := t :: s.cal.refd.filter (fun y => y ≠ t), cal.left := s.cal.left.filter (fun m => miTile m ≠ t) ++ (List.range 1024).map (fun j => t * 1024 + j), cal.aoDone := s.cal.aoDone.filter (fun a => aoTile a ≠ t) }) :
    trimTile t (.refs x y ok ws) s =
      if u.refsOk x.toNat y.toNat ok then { u.setTileWords t 0xC00 (ws.take 14) with cal.failed := s.cal.failed.filter (fun y => y ≠ t) } else u.calFail t := by
  subst hu
  exact if_neg (by rw [runs]; decide)

end References

theorem trimTile_miBegin_of_left {m : Mi} (step : s.trimStep t = true) (here : miTile m.val = t) (left : s.cal.left.contains m.val = true) :
    trimTile t (.miBegin m) s = s.miTrimBegin m := if_pos (by simp only [step, here, left, decide_true, Bool.and_self])

theorem trimTile_tcal_of_unfinished {v : BitVec 16} (unfinished : s.trimLast t = false) : trimTile t (.tcal v) s = s := if_pos (by rw [unfinished]; rfl)

end TrimTile

theorem trimAo_aoSecond_of_kept {p : Nat} {t : Tile} {m : AoMeas} (run : s.cal.run = some (2, p)) (found : Map.find s.cal.meas t = some m) (kept : s.disturbed m = false) :
    trimAo p (.aoSecond t) s = s.measure t { m with second := true } 0xF000 := by
  refine (if_neg (by simp [run])).trans ?_
  rw [found]
  exact ite_of_eq_false kept

theorem trimMi_miBegin_of_left {p : Nat} {m : Mi} (run : s.cal.run = some (3, p)) (serves : s.pm p = 4) (left : s.cal.left.contains m.val = true) :
    trimMi p (.miBegin m) s = s.miTrimBegin m := if_pos (by simp only [run, serves, left, decide_true, Bool.and_self])

theorem calStart_of_refused {op i : Nat} (hu : u = (s.put F.CAL_CMD_OP op).put (if op = 1 then F.CAL_CMD_TILE else F.CAL_CMD_PART) i)
    (refused : u.on F.CAL_STAT_BUSY = true ∨ (op ≠ 1 ∧ s.pm i ≠ 4) ∨ (op = 1 ∧ (s.tileParts i).all (fun p => s.pm p = 4) = false)) :
    calStart op i s = u.put F.CAL_STAT_CMD_REFUSED 1 := by
  subst hu
  refine if_pos ?_
  rcases refused with h | ⟨other, h⟩ | ⟨one, h⟩
  · rw [h, Bool.true_or]
  · simp [other, h]
  · subst one
    show (_ || !(s.tileParts i).all _) = true
    rw [h]
    exact Bool.or_true _

/-! ### The trim window (R388, R392) -/

section Window

variable {v w t : Nat} (hw : w = s.g F.CAL_TWIN_ADDR_WORD % 4096) (ht : t = s.g F.CAL_TWIN_ADDR_WORD / 4096)
include hw ht

/-- What an access does before its address moves on. -/
theorem trimAccess_read : trimAccess false v s =
    if s.on F.CAL_TWIN_ADDR_INC then ({ s with readData := s.trimWord t w } : State).put F.CAL_TWIN_ADDR_WORD (s.g F.CAL_TWIN_ADDR_WORD + 1) else { s with readData := s.trimWord t w } := by
  subst hw ht
  rfl

variable (stays : s.on F.CAL_TWIN_ADDR_INC = false)
include stays

omit ht in
theorem trimAccess_write_of_readOnly (readOnly : 0xC0E ≤ w) : trimAccess true v s = s := by
  subst hw
  simp only [trimAccess, Bool.not_true, Bool.false_eq_true, if_false, if_pos readOnly, stays]

theorem trimAccess_write_of_accepted (inside : w < 0xC0E) (accepted : s.trimAccepted t w = true) : trimAccess true v s = s.setTrim t w v := by
  subst hw ht
  have stays' : (s.setTrim (s.g F.CAL_TWIN_ADDR_WORD / 4096) (s.g F.CAL_TWIN_ADDR_WORD % 4096) v).on F.CAL_TWIN_ADDR_INC = false := stays
  simp only [trimAccess, Bool.not_true, Bool.false_eq_true, if_false, if_neg (Nat.not_le.2 inside), if_pos accepted, stays']

end Window

/-! ### The end of a command -/

theorem calCmdDone_of_none (none' : s.cal.run = none) : calCmdDone s = s := by rw [calCmdDone, none']

theorem calCmdDone_tile {t : Nat} (run : s.cal.run = some (1, t)) :
    calCmdDone s = if s.cal.failed.contains t || !(s.tl t).linkUp then s.calEnd 3 else if s.cal.trimmed.contains t then s.calEnd 0 else s := by
  rw [calCmdDone, run]
  rfl

theorem calCmdDone_aos {p : Nat} (run : s.cal.run = some (2, p)) (measured : s.cal.meas = []) :
    calCmdDone s = if (List.range 16).any (fun t => (s.nextTrim p t).isSome) then (if s.pm p != 4 then s.calEnd 1 else s) else s.calEnd (if s.g F.CAL_STAT_SKIPPED = 0 then 0 else 2) := by
  rw [calCmdDone, run]
  exact if_neg (by rw [measured]; decide)

theorem calCmdDone_mis {p : Nat} (run : s.cal.run = some (3, p)) (connected : s.cal.miOff = []) :
    calCmdDone s = if s.cal.left.isEmpty then s.calEnd 0 else if s.pm p != 4 then s.calEnd 1 else s := by
  rw [calCmdDone, run]
  exact if_neg (by rw [connected]; decide)

end Calibration

/-- Settles O39: each clause is the branch that the command in hand, its stage and the window's address select. -/
theorem calibration : Obligations.Calibration := by
  refine ⟨fun s t p run => ⟨?trimTile, ?trimAo, ?trimMi, fun x y ok ws idle => ?idle, fun x y ok ws u hu runs good => ?good, fun x y ok ws u hu runs bad => ?bad,
      fun m step here left => ?miBegin, fun v unfinished => ?tcal, fun hand => ?aoBegin, fun m hand found kept => ?aoSecond, fun o g l hand => ?aoDone,
      fun m hand serves left => ?partMi, fun m o g hand => ?miDone⟩,
    fun s u op i hu refused _ busy => ?refused, fun s v w t rdy hw ht => ?window, fun s rdy => ?done⟩
  case trimTile => exact clocked_settle run rfl
  case trimAo => exact clocked_settle run rfl
  case trimMi => exact clocked_settle run rfl
  case idle => exact clocked_settle run (trimTile_refs_of_idle idle)
  case good => exact clocked_settle run ((trimTile_refs_of_trimming runs hu).trans (if_pos good))
  case bad => exact clocked_settle run ((trimTile_refs_of_trimming runs hu).trans (ite_of_eq_false bad))
  case miBegin => exact clocked_settle run (trimTile_miBegin_of_left step here left)
  case tcal => exact clocked_settle run (trimTile_tcal_of_unfinished unfinished)
  case aoBegin => exact clocked_settle run (if_pos hand)
  case aoSecond => exact clocked_settle run (trimAo_aoSecond_of_kept hand found kept)
  case aoDone => exact clocked_settle run (if_pos hand)
  case partMi => exact clocked_settle run (trimMi_miBegin_of_left hand serves left)
  case miDone => exact clocked_settle run (if_pos hand)
  case refused => exact calStart_of_refused hu (refused.imp (busy.trans ·) id)
  case window =>
    exact ⟨fun stays => clocked_eq rdy ((trimAccess_read hw ht).trans (ite_of_eq_false stays)) rfl,
      fun stays inside accepted => clocked_eq rdy (trimAccess_write_of_accepted hw ht stays inside accepted) rfl,
      fun stays readOnly => clocked_eq rdy (trimAccess_write_of_readOnly hw stays readOnly) rfl,
      fun moves => clocked_eq rdy ((trimAccess_read hw ht).trans (if_pos moves)) rfl⟩
  case done =>
    refine ⟨fun none' => clocked_eq rdy (calCmdDone_of_none none') rfl, fun t run failed => clocked_eq rdy ((calCmdDone_tile run).trans (if_pos (by rw [failed]; rfl))) rfl,
      fun t run good up trimmed => clocked_eq rdy ((calCmdDone_tile run).trans ((if_neg (by rw [good, up]; decide)).trans (if_pos trimmed))) rfl,
      fun p run measured next left => clocked_eq rdy ((calCmdDone_aos run measured).trans ((if_pos ?_).trans (if_pos (bne_iff_ne.2 left)))) rfl,
      fun p run measured last => clocked_eq rdy ((calCmdDone_aos run measured).trans (if_neg ?_)) rfl,
      fun p run connected leaves left => clocked_eq rdy ((calCmdDone_mis run connected).trans ((if_neg (by simpa using left)).trans (if_pos (bne_iff_ne.2 leaves)))) rfl,
      fun p run connected left => clocked_eq rdy ((calCmdDone_mis run connected).trans (if_pos (by rw [left]; rfl))) rfl⟩
    · obtain ⟨t, range, found⟩ := next
      exact List.any_eq_true.2 ⟨t, List.mem_range.2 range, found⟩
    · simp only [List.any_eq_true, List.mem_range, not_exists, not_and]
      exact fun t range => by rw [last t range]; decide

end Sys2Proof.Machine
end

section
/-! PROOF. Lane tests: enabling, disabling, the timeout of PCIe, checkers, injection and counters. -/

namespace Sys2Proof.Machine

section LaneTests

variable {s u : State} {l : Nat}

/-! ### A write of a lane's configuration (R398 to R400) -/

theorem bitsOf_one_eq_getLsbD (v : W32) (i : Nat) : decide (bitsOf v.toNat i 1 = 1) = v.getLsbD i := bitOf_eq_testBit v.toNat i

theorem laneWrite_of_unused {v : Nat} (unused : laneUsed l = false) : laneWrite l v s = s := if_pos (by rw [unused]; rfl)

section Write

variable {v : W32} {moved : Bool} {b w x : State} (used : laneUsed l = true)
  (hmoved : moved = [F.TST_LCFG_PAT, F.TST_LCFG_INV, F.TST_LCFG_SQN].any (fun f => s.g f l != bitsOf v.toNat f.lo f.wd))
  (hb : b = [F.TST_LCFG_PAT, F.TST_LCFG_INV, F.TST_LCFG_SQN, F.TST_LCFG_LPBK].foldl (fun u f => u.sput f (bitsOf v.toNat f.lo f.wd) l) s)
  (hu : u = if (moved || (v.getLsbD 8 && !s.on F.TST_LCFG_GEN_EN l)) = true then b.setLane l (b.lane l).start else b)
  (hw : w = if (moved && s.on F.TST_LCFG_CHK_EN l) = true then u.checkerLoss l else u)
  (hx : x = ((w.turnChk l (v.getLsbD 9)).sput F.TST_LCFG_GEN_EN (b2n (v.getLsbD 8)) l).sput F.TST_LCFG_CHK_EN (b2n (v.getLsbD 9)) l)
include used hmoved hb hu hw hx

theorem laneWrite_of_used : laneWrite l v.toNat s =
    if (v.getLsbD 8 || v.getLsbD 9) && !s.laneOn l && !w.inTest then w.testRefused
    else if (v.getLsbD 8 || v.getLsbD 9) && !s.laneOn l then x.laneOut l
    else if s.laneOn l && !(v.getLsbD 8 || v.getLsbD 9) then x.laneBack l
    else x := by
  simp only [← bitsOf_one_eq_getLsbD] at hu hx ⊢
  subst hmoved hb hu hw hx
  exact if_neg (by rw [used]; decide)

theorem laneWrite_of_refused (enables : (v.getLsbD 8 || v.getLsbD 9) = true) (off : s.laneOn l = false) (outside : w.mode ≠ 4) : laneWrite l v.toNat s = w.put F.TST_STAT_REFUSED 1 :=
  (laneWrite_of_used used hmoved hb hu hw hx).trans (if_pos (by rw [enables, off, State.inTest, decide_eq_false outside]; rfl))

theorem laneWrite_of_first (enables : (v.getLsbD 8 || v.getLsbD 9) = true) (off : s.laneOn l = false) (test : w.mode = 4) : laneWrite l v.toNat s = x.laneOut l :=
  (laneWrite_of_used used hmoved hb hu hw hx).trans ((if_neg (by simp [State.inTest, test])).trans (if_pos (by rw [enables, off]; rfl)))

theorem laneWrite_of_further (enables : (v.getLsbD 8 || v.getLsbD 9) = true) (on : s.laneOn l = true) : laneWrite l v.toNat s = x :=
  (laneWrite_of_used used hmoved hb hu hw hx).trans ((if_neg (by simp [on])).trans ((if_neg (by simp [on])).trans (if_neg (by rw [enables, on]; decide))))

theorem laneWrite_of_disabling (disables : (v.getLsbD 8 || v.getLsbD 9) = false) : laneWrite l v.toNat s = if s.laneOn l then x.laneBack l else x := by
  rw [laneWrite_of_used used hmoved hb hu hw hx, disables]
  simp

end Write

theorem laneStop_of_on (on : s.laneOn l = true) : s.laneStop l = (((s.turnChk l false).put F.TST_LCFG_GEN_EN 0 l).put F.TST_LCFG_CHK_EN 0 l).laneBack l := if_pos on

theorem pcieLaneTimeout_of_kept (kept : s.on F.TST_STAT_PCIE_ACTIVE = false ∨ s.cycle < s.tst.pcieAt + 1000000 * max 1 (s.g F.TST_PCIE_TMO_MS)) : pcieLaneTimeout s = s :=
  if_neg (by rcases kept with h | h <;> simp [h])

theorem pcieLaneTimeout_of_due (active : s.on F.TST_STAT_PCIE_ACTIVE = true) (due : s.tst.pcieAt + 1000000 * max 1 (s.g F.TST_PCIE_TMO_MS) ≤ s.cycle) :
    pcieLaneTimeout s = (List.range 8).foldl State.laneStop s := if_pos (by rw [active, decide_eq_true due]; rfl)

/-! ### Checkers (R400, R401) -/

section Checker

variable {rx line : List Bool}

theorem laneBits_of_inactive (off : (s.laneCfg l).active = false) : s.laneBits l rx line = s := if_pos (by rw [off]; rfl)

theorem laneBits_of_active {lock : Bool} {r : LaneRun} (active : (s.laneCfg l).active = true) (hl : decide (s.g F.TST_LSTAT_CSTATE l = 2) = lock)
    (hr : r = (if s.laneOwn l then line else rx).foldl (fun x b => LaneRun.take x (s.laneCfg l) (s.on F.TST_LCFG_GEN_EN l) (s.laneOwn l) b) { st := s.lane l, lock := lock })
    (hu : u = (((((s.setLane l (r.st.tally s.cycle r.bits r.errs)).laneOut1 l r.out).sat F.TST_LBITS_BITS l 0 r.bits).sat F.TST_LERR_ERR l 0 r.errs).sat F.TST_LSTAT_LOSSES l 0 r.losses).put F.TST_LSTAT_CSTATE (if r.lock then 2 else 1) l) :
    s.laneBits l rx line = if 0 < r.losses then u.put F.TST_LSTAT_LOST 1 l else u := by
  subst hl hr hu
  rw [State.laneBits, active]
  exact ite_of_iff decide_eq_true_iff

end Checker

section Run

variable (x : LaneRun) (c : LaneCfg) (b : Bool)

theorem seek_bits : (x.seek c b).bits = x.bits := (apply_ite LaneRun.bits _ _ _).trans (ite_self _)

theorem seek_errs : (x.seek c b).errs = x.errs := (apply_ite LaneRun.errs _ _ _).trans (ite_self _)

theorem seek_losses : (x.seek c b).losses = x.losses := (apply_ite LaneRun.losses _ _ _).trans (ite_self _)

theorem compare_bits : (x.compare c b).bits = x.bits + 1 := (apply_ite LaneRun.bits _ _ _).trans (ite_self _)

theorem compare_errs : (x.compare c b).errs = x.errs + b2n (c.bit x.st.reg x.st.place != b) := (apply_ite LaneRun.errs _ _ _).trans (ite_self _)

variable {x c b} {miss : List Nat} (hm : miss = (if (c.bit x.st.reg x.st.place != b) = true then [x.st.n] else []) ++ x.st.miss.filter (fun k => x.st.n < k + 256))
include hm

theorem compare_of_lost (lost : 64 < miss.length) : (x.compare c b).lock = false ∧ (x.compare c b).losses = x.losses + 1 := by
  subst hm
  exact ⟨congrArg LaneRun.lock (if_pos lost), congrArg LaneRun.losses (if_pos lost)⟩

theorem compare_of_kept (kept : miss.length ≤ 64) : (x.compare c b).lock = x.lock ∧ (x.compare c b).losses = x.losses := by
  subst hm
  dsimp only [LaneRun.compare]
  rw [if_neg (Nat.not_lt.2 kept)]
  exact ⟨rfl, rfl⟩

end Run

/-! ### Injection (R401) -/

theorem send_inj (x : LaneSt) (c : LaneCfg) : ({ x with inj := 1 } : LaneSt).send c = ({ (x.send c).1 with inj := 0 }, !(({ x with inj := 0 } : LaneSt).send c).2) :=
  Prod.ext rfl (by simp [LaneSt.send])

theorem laneInj_of_on {x : LaneSt} (hx : x = { s.lane l with inj := 1 }) (on : s.on F.TST_LCFG_GEN_EN l = true) :
    laneInj l s = if s.laneTaken l then s.setLane l x else (s.setLane l (x.send (s.laneCfg l)).1).laneOut1 l [(x.send (s.laneCfg l)).2] := by
  subst hx
  exact if_neg (by rw [on]; decide)

end LaneTests

/-- Settles O40: each clause is the branch that the lane, its enables, the mode and the checker's state select. -/
theorem laneTests : Obligations.LaneTests := by
  refine ⟨fun s l v moved b u w x run used hmoved hb hu hw hx => ?write, fun s l v rdy unused => ?unused, fun s rdy => ?timeout, fun s l on => laneStop_of_on on,
    fun s l rx line r u rdy hr hu => ?lock, fun s l rx line r u rdy hr hu => ?loss,
    fun x c b miss hm => ⟨seek_bits x c b, seek_errs x c b, seek_losses x c b, compare_bits x c b, compare_errs x c b, compare_of_lost hm, compare_of_kept hm⟩,
    fun s l x run hx => ?inj, send_inj, fun s l rdy => ?clr⟩
  case write =>
    have enable {t : State} (enables : v.getLsbD 8 = true ∨ v.getLsbD 9 = true) (e : laneWrite l v.toNat s = t) : exec (.laneTestEnable l v) s = .next t.settle :=
      clocked_settle (f := fun s => if v.getLsbD 8 || v.getLsbD 9 then laneWrite l v.toNat s else s) run ((if_pos (Bool.or_eq_true_iff.2 enables)).trans e)
    have clear (gen : v.getLsbD 8 = false) (chk : v.getLsbD 9 = false) : ¬(v.getLsbD 8 || v.getLsbD 9) = true := by rw [gen, chk]; decide
    have disable {t : State} (gen : v.getLsbD 8 = false) (chk : v.getLsbD 9 = false) (e : laneWrite l v.toNat s = t) : exec (.laneTestDisable l v) s = .next t.settle :=
      clocked_settle (f := fun s => if v.getLsbD 8 || v.getLsbD 9 then s else laneWrite l v.toNat s) run ((if_neg (clear gen chk)).trans e)
    have off (gen : v.getLsbD 8 = false) (chk : v.getLsbD 9 = false) := laneWrite_of_disabling used hmoved hb hu hw hx (by rw [gen, chk]; rfl)
    exact ⟨fun enables idle outside => enable enables (laneWrite_of_refused used hmoved hb hu hw hx (Bool.or_eq_true_iff.2 enables) idle outside),
      fun enables idle test => enable enables (laneWrite_of_first used hmoved hb hu hw hx (Bool.or_eq_true_iff.2 enables) idle test),
      fun enables on => enable enables (laneWrite_of_further used hmoved hb hu hw hx (Bool.or_eq_true_iff.2 enables) on),
      fun gen chk => clocked_settle (f := fun s => if v.getLsbD 8 || v.getLsbD 9 then laneWrite l v.toNat s else s) run (if_neg (clear gen chk)),
      fun gen chk on => disable gen chk ((off gen chk).trans (if_pos on)),
      fun gen chk idle => disable gen chk ((off gen chk).trans (ite_of_eq_false idle)),
      fun enables => clocked_settle (f := fun s => if v.getLsbD 8 || v.getLsbD 9 then s else laneWrite l v.toNat s) run (if_pos (Bool.or_eq_true_iff.2 enables))⟩
  case unused =>
    have same := laneWrite_of_unused (s := s) (v := v.toNat) unused
    exact ⟨clocked_eq (f := fun s => if v.getLsbD 8 || v.getLsbD 9 then laneWrite l v.toNat s else s) rdy (by rw [same, ite_self]) rfl,
      clocked_eq (f := fun s => if v.getLsbD 8 || v.getLsbD 9 then s else laneWrite l v.toNat s) rdy (by rw [same, ite_self]) rfl⟩
  case timeout =>
    exact ⟨fun none' => clocked_eq rdy (pcieLaneTimeout_of_kept (.inl none')) rfl, fun early => clocked_eq rdy (pcieLaneTimeout_of_kept (.inr early)) rfl,
      fun active due => clocked_settle rdy.1 (pcieLaneTimeout_of_due active due)⟩
  case lock =>
    have bits (search : s.g F.TST_LSTAT_CSTATE l = 1) (active : (s.laneCfg l).active = true) : checkerLock l rx line s = if 0 < r.losses then u.put F.TST_LSTAT_LOST 1 l else u :=
      (if_pos search).trans (laneBits_of_active active (by rw [search]; rfl) hr hu)
    refine ⟨fun other => clocked_eq rdy ?_ rfl, fun search active kept => clocked_settle rdy.1 ((bits search active).trans (if_neg (by omega))),
      fun search active lost => clocked_settle rdy.1 ((bits search active).trans (if_pos lost))⟩
    rcases other with h | h
    · exact if_neg h
    · exact (congrArg (ite _ · s) (laneBits_of_inactive h)).trans (ite_self s)
  case loss =>
    have bits (locked : s.g F.TST_LSTAT_CSTATE l = 2) (active : (s.laneCfg l).active = true) : checkerLossEvt l rx line s = if 0 < r.losses then u.put F.TST_LSTAT_LOST 1 l else u :=
      (if_pos locked).trans (laneBits_of_active active (decide_eq_true locked) hr hu)
    refine ⟨fun other => clocked_eq rdy ?_ rfl, fun locked active kept => clocked_settle rdy.1 ((bits locked active).trans (if_neg (by omega))),
      fun locked active lost => clocked_settle rdy.1 ((bits locked active).trans (if_pos lost))⟩
    rcases other with h | h
    · exact if_neg h
    · exact (congrArg (ite _ · s) (laneBits_of_inactive h)).trans (ite_self s)
  case inj =>
    refine ⟨fun on chk active => clocked_settle run ((laneInj_of_on hx on).trans (if_pos (by rw [State.laneTaken, chk, active]; rfl))),
      fun on none' => clocked_settle run ((laneInj_of_on hx on).trans (if_neg ?_)), fun off => clocked_settle run (if_pos (by rw [off]; rfl))⟩
    rcases none' with h | h <;> simp [State.laneTaken, h]
  case clr =>
    exact ⟨fun other => clocked_eq rdy (by rw [laneClr, if_neg other, if_neg other]) rfl, fun now => clocked_eq rdy (by rw [laneClr, if_pos now, if_pos now]) rfl⟩

end Sys2Proof.Machine
end

section
/-! PROOF. The stimulus and the structural test of a tile, and leaving TEST. -/

namespace Sys2Proof.Machine

section ProductionTests

variable {s u : State} {t : Nat}

/-! ### The stimulus (R402 to R404) -/

section Start

variable {v : Nat}
  (hu : u = [F.TST_STIM_CTL_WAVE, F.TST_STIM_CTL_HOLD, F.TST_STIM_CTL_DELAY, F.TST_STIM_CTL_NAVG].foldl (fun u f => u.sput f (bitsOf v f.lo f.wd) t) s)
include hu

theorem stimStart_of_refused (refused : u.mode ≠ 4 ∨ (u.stimEntries t = [] ∧ u.stimResps t = []) ∨
    u.stimHold t * 1000 < u.g F.TST_STIM_CTL_DELAY t * 1000 + (u.g F.TST_STIM_CTL_NAVG t + 1) * 512) : stimStart t v s = u.put F.TST_STAT_REFUSED 1 := by
  have refused' : u.stimRefused t = true := by simpa [State.stimRefused, State.inTest, or_assoc] using refused
  subst hu
  exact if_pos refused'

variable (accepted : u.stimRefused t = false)
include accepted

theorem stimStart_of_accepted : stimStart t v s = if u.testBusy t then u else u.stimBegin t := by
  subst hu
  exact ite_of_eq_false accepted

end Start

section Edge

theorem stimEdge_of_none (none' : Map.find s.tst.stim t = none) : stimEdge t s = s := by rw [stimEdge, none']

theorem stimEdge_of_found {st : StimSt} (found : Map.find s.tst.stim t = some st) : stimEdge t s =
    if s.stimCount t ≤ st.n || s.replica t < st.startNs + 1000 * s.stimAt t st.n then s
    else ((s.stimEntries t).foldl (fun u e => u.stimWrite t (u.g F.TST_SE0_K t e) (u.stimCode t e st.n)) s).setStim t
      { s.stimFold t st with edge := s.cycle, window := s.stimWin t st.n, n := st.n + 1, acc := (s.stimResps t).map (fun r => { idx := r }) } := by
  rw [stimEdge, found]
  rfl

end Edge

section End

theorem stimEnd_of_none (none' : Map.find s.tst.stim t = none) : stimEnd t s = s := by rw [stimEnd, none']

variable {st : StimSt} (found : Map.find s.tst.stim t = some st)
include found

theorem stimEnd_of_early (early : st.n < s.stimCount t ∨ s.replica t < st.startNs + 1000 * s.stimEndAt t) : stimEnd t s = s := by
  rw [stimEnd, found]
  exact if_pos (by simpa using early)

theorem stimEnd_of_due {ok : Bool} (moved : s.stimCount t ≤ st.n) (due : st.startNs + 1000 * s.stimEndAt t ≤ s.replica t)
    (judged : (u, ok) = (s.stimFold t st).tot.foldl (fun (r : State × Bool) x => ((r.1.stimJudge t x).1, r.2 && (r.1.stimJudge t x).2)) (s, true)) :
    stimEnd t s = u.stimOver t (if ok then 0 else 1) (s.stimFold t st) := by
  rw [stimEnd, found]
  refine (if_neg (by simp [Nat.not_lt.2 moved, Nat.not_lt.2 due])).trans ?_
  exact congrArg (fun r : State × Bool => r.1.stimOver t (if r.2 then 0 else 1) (s.stimFold t st)) judged.symm

end End

theorem stimAbort_of_none (none' : Map.find s.tst.stim t = none) : s.stimAbort t = s := by rw [State.stimAbort, none']

theorem stimAbort_of_found {st : StimSt} (found : Map.find s.tst.stim t = some st) :
    s.stimAbort t = ((s.stimResps t).foldl (fun u r => if u.on F.TST_RE3_DONE t r then u else u.setWord R.TST_RE3 0 t r) s).stimOver t 2 st := by
  rw [State.stimAbort, found]
  rfl

/-! ### The structural test (R405, R406) -/

theorem osStart_eq {v : Nat}
    (hu : u = (s.sput F.TST_OS_CTL_KELV_MAX (bitsOf v F.TST_OS_CTL_KELV_MAX.lo F.TST_OS_CTL_KELV_MAX.wd) t).sput F.TST_OS_CTL_RS_THR (bitsOf v F.TST_OS_CTL_RS_THR.lo F.TST_OS_CTL_RS_THR.wd) t) :
    osStart t v s = if !u.inTest then u.testRefused else if u.testBusy t then u else (((aosOfTile t).foldl State.osOff u).put F.TST_OS_STAT_BUSY 1 t).biasTo t 0 := by
  subst hu
  rfl

theorem osDone_of_idle {l : OsRun} (idle : s.on F.TST_OS_STAT_BUSY t = false) : osDone t l s = s := if_pos (by rw [idle]; rfl)

theorem osDone_of_busy {l : OsRun} {m : Map Nat} (busy : s.on F.TST_OS_STAT_BUSY t = true) (hm : m = s.osFaults t (osAll l)) : osDone t l s =
    (((List.range 400).foldl (fun u w => u.setWord R.TST_OS_MAP (BitVec.ofNat 96 (osWord m w)) t w) s).put F.TST_OS_STAT_NFAIL m.length t).osOver t (if m.isEmpty then 0 else 1) := by
  rw [osDone, busy, if_neg (by decide), ← hm]
  rfl

theorem osAbort_of_idle (idle : s.on F.TST_OS_STAT_BUSY t = false) : s.osAbort t = s := ite_of_eq_false idle

theorem osAbort_of_busy (busy : s.on F.TST_OS_STAT_BUSY t = true) : s.osAbort t = s.osOver t 2 := if_pos busy

/-! ### Leaving TEST (R396) -/

theorem testExitStop_of_inside (inside : s.mode = 4 ∨ s.mode = 5) : testExitStop s = s := if_pos (by simpa using inside)

theorem testExitStop_of_left (test : s.mode ≠ 4) (freeze : s.mode ≠ 5) :
    testExitStop s = (List.range 16).foldl (fun u t => (u.stimAbort t).osAbort t) ((List.range 192).foldl State.laneStop s) := if_neg (by simp [test, freeze])

end ProductionTests

/-- Settles O41: each clause is the branch that the mode, the tile's test and its time select. -/
theorem productionTests : Obligations.ProductionTests := by
  refine ⟨fun s t v u run hu => ?start, fun s t rdy => ?edge, fun s t rdy => ?ends, fun s t rdy => ?abort, fun s t v u run hu => ?osStart, fun s t l rdy => ?osDone,
    fun s t rdy => ?osAbort, fun s rdy => ?exit⟩
  case start =>
    exact ⟨fun refused => clocked_settle run (stimStart_of_refused hu refused),
      fun accepted busy => clocked_settle run ((stimStart_of_accepted hu accepted).trans (if_pos busy)),
      fun accepted idle => clocked_settle run ((stimStart_of_accepted hu accepted).trans (ite_of_eq_false idle))⟩
  case edge =>
    refine ⟨fun none' => clocked_eq rdy (stimEdge_of_none none') rfl, fun st found early => clocked_eq rdy ((stimEdge_of_found found).trans (if_pos ?_)) rfl,
      fun st found left due => clocked_settle rdy.1 ((stimEdge_of_found found).trans (if_neg ?_))⟩
    · simpa using early
    · simp [Nat.not_le.2 left, Nat.not_lt.2 due]
  case ends =>
    exact ⟨fun none' => clocked_eq rdy (stimEnd_of_none none') rfl, fun st found early => clocked_eq rdy (stimEnd_of_early found early) rfl,
      fun st u ok found moved due judged => clocked_settle rdy.1 (stimEnd_of_due found moved due judged)⟩
  case abort =>
    exact ⟨fun none' => clocked_eq (f := fun s => s.stimAbort t) rdy (stimAbort_of_none none') rfl,
      fun st found => clocked_settle (f := fun s => s.stimAbort t) rdy.1 (stimAbort_of_found found)⟩
  case osStart =>
    refine ⟨fun outside => clocked_settle run ((osStart_eq hu).trans (if_pos ?_)), fun test busy => clocked_settle run ((osStart_eq hu).trans ((if_neg ?_).trans (if_pos busy))),
      fun test idle => clocked_settle run ((osStart_eq hu).trans ((if_neg ?_).trans (ite_of_eq_false idle)))⟩
    · simp [State.inTest, outside]
    · simp [State.inTest, test]
    · simp [State.inTest, test]
  case osDone =>
    exact ⟨fun idle => clocked_eq rdy (osDone_of_idle idle) rfl, fun m busy hm => clocked_settle rdy.1 (osDone_of_busy busy hm)⟩
  case osAbort =>
    exact ⟨fun idle => clocked_eq (f := fun s => s.osAbort t) rdy (osAbort_of_idle idle) rfl, fun busy => clocked_settle (f := fun s => s.osAbort t) rdy.1 (osAbort_of_busy busy)⟩
  case exit =>
    exact ⟨fun inside => clocked_eq rdy (testExitStop_of_inside inside) rfl, fun test freeze => clocked_settle rdy.1 (testExitStop_of_left test freeze)⟩

end Sys2Proof.Machine
end

section
/-! PROOF. The instruction register of the TAP, UNLOCK, the verification of a signature and RELOCK; the command at the front of the queue. -/

namespace Sys2Proof.Machine

section Tap

variable {s u : State}

/-! ### The instruction register (R407) -/

section Instruction

variable {op : Nat} (on : s.clk ≠ Clk.off)
include on

theorem tapUpdateIr_of_locked (listed : lockedOp op = true) (locked : s.unlocked = false) : tapUpdateIr op s = ({ s with tst.ir := 0xFF } : State).raise 59 :=
  (if_neg on).trans (if_pos (by rw [listed, locked]; rfl))

theorem tapUpdateIr_of_loaded (loads : lockedOp op = false ∨ s.unlocked = true) :
    tapUpdateIr op s = if op = 0x01 then { s with tst.ir := tapOp op, readData := 0x0B512C5B } else { s with tst.ir := tapOp op } :=
  (if_neg on).trans (if_neg (by rcases loads with h | h <;> simp [h]))

end Instruction

/-! ### UNLOCK (R408) -/

theorem unlock_of_unselected {x : UnlockOp} (unselected : s.clk = Clk.off ∨ s.tst.ir ≠ 32) : unlock x s = s := if_pos (by simpa using unselected)

section Selected

variable (on : s.clk ≠ Clk.off) (selected : s.tst.ir = 32)
include on selected

theorem unlock_capture {n : BitVec 256} {r : Nat} (hr : r = n.toNat + Config.devId.toNat * 2 ^ 256 + s.unlockStat * 2 ^ 320) :
    unlock (.capture n) s = { s with tst.nonce := some n, readData := r } := by
  rw [hr, unlock, if_neg (by simp [on, selected])]

theorem unlock_submit {g : BitVec 768} : unlock (.submit g) s = if s.tst.verify.isSome then s else { s with tst.verify := some (s.tst.nonce, g) } :=
  if_neg (by simp [on, selected])

end Selected

/-! ### The verification of a signature (R408) -/

section Verification

variable {ok k : Bool}

theorem unlockVerifyDone_of_none (none' : s.tst.verify = none) : unlockVerifyDone ok k s = s := by rw [unlockVerifyDone, none']

variable {n : Option (BitVec 256)} {g : BitVec 768} (verifies : s.tst.verify = some (n, g))
include verifies

theorem unlockVerifyDone_of_other (other : n.bind (fun n => debugKey n g) ≠ verdict ok k) : unlockVerifyDone ok k s = s := by
  rw [unlockVerifyDone, verifies]
  exact if_pos (bne_iff_ne.2 other)

variable (hu : u = { s with tst.verify := none }) (agrees : n.bind (fun n => debugKey n g) = verdict ok k)
include hu agrees

theorem unlockVerifyDone_of_verdict : unlockVerifyDone ok k s =
    if ok then (if u.on F.TST_DBG_LOCKOUT then u.unlockFails else (u.put F.TST_DBG_UNLOCKED 1).putB F.TST_DBG_KEY k) else u.unlockFails := by
  subst hu
  rw [unlockVerifyDone, verifies]
  refine (if_neg (by simp [agrees])).trans ?_
  rw [agrees]
  cases ok <;> rfl

theorem unlockVerifyDone_of_bad (bad : ok = false) : unlockVerifyDone ok k s = u.unlockFails :=
  (unlockVerifyDone_of_verdict verifies hu agrees).trans (ite_of_eq_false bad)

theorem unlockVerifyDone_of_lockout (lockout : u.on F.TST_DBG_LOCKOUT = true) : unlockVerifyDone ok k s = u.unlockFails := by
  rw [unlockVerifyDone_of_verdict verifies hu agrees, if_pos lockout, ite_self]

theorem unlockVerifyDone_of_good (good : ok = true) (free : u.on F.TST_DBG_LOCKOUT = false) : unlockVerifyDone ok k s = (u.put F.TST_DBG_UNLOCKED 1).putB F.TST_DBG_KEY k :=
  (unlockVerifyDone_of_verdict verifies hu agrees).trans ((if_pos good).trans (ite_of_eq_false free))

end Verification

end Tap

/-- Settles O42: each clause is the branch that the lock, the instruction and the verdict select. -/
theorem testAccessPort : Obligations.TestAccessPort := by
  refine ⟨fun s op q => ?instruction, fun s q => ?unlock, fun s u ok k rdy hu => ?verification, fun s rdy => clocked_eq (f := fun s => s.put F.TST_DBG_UNLOCKED 0) rdy rfl rfl⟩
  case instruction =>
    refine ⟨fun off => (congrArg fin (if_pos off)).trans (fin_of_quiet q), fun on listed locked => congrArg fin (tapUpdateIr_of_locked on listed locked),
      fun on loads other => (congrArg fin ((tapUpdateIr_of_loaded on loads).trans (if_neg fun e => other (BitVec.eq_of_toNat_eq e)))).trans (next_settle_of_flt_eq q rfl), fun on one => ?_⟩
    subst one
    exact (congrArg fin (tapUpdateIr_of_loaded on (.inl rfl))).trans (next_settle_of_flt_eq q rfl)
  case unlock =>
    exact ⟨fun x unselected => (congrArg fin (unlock_of_unselected unselected)).trans (fin_of_quiet q), fun n r on selected hr => (congrArg fin (unlock_capture on selected hr)).trans (next_settle_of_flt_eq q rfl),
      fun g on selected free => (congrArg fin ((unlock_submit on selected).trans (if_neg (by rw [free]; exact Bool.false_ne_true)))).trans (next_settle_of_flt_eq q rfl),
      fun g on selected busy => (congrArg fin ((unlock_submit on selected).trans (if_pos busy))).trans (fin_of_quiet q)⟩
  case verification =>
    have free (h : s.on F.TST_DBG_LOCKOUT = false) : u.on F.TST_DBG_LOCKOUT = false := hu ▸ h
    have lockout (h : s.on F.TST_DBG_LOCKOUT = true) : u.on F.TST_DBG_LOCKOUT = true := hu ▸ h
    refine ⟨fun none' => clocked_eq rdy (unlockVerifyDone_of_none none') rfl, fun n g verifies other => clocked_eq rdy (unlockVerifyDone_of_other verifies other) rfl,
      fun n g good verifies key unlocked => clocked_eq rdy (unlockVerifyDone_of_good verifies hu ?_ good (free unlocked)) ?_,
      fun n g bad verifies key => clocked_settle rdy.1 (unlockVerifyDone_of_bad verifies hu ?_ bad),
      fun g bad verifies => clocked_settle rdy.1 (unlockVerifyDone_of_bad verifies hu ?_ bad),
      fun n g verifies agrees locked => clocked_settle rdy.1 (unlockVerifyDone_of_lockout verifies hu agrees (lockout locked))⟩
    · rw [good]
      exact key
    · rw [hu]
      rfl
    · rw [bad]
      exact key
    · rw [bad]
      rfl

/-- A step with nothing waiting is one tick. -/
theorem step_of_idle {s : State} (idle : s.pending = []) : step s = .next s.tick := by rw [step, idle]

/-- Settles O1: a step takes the front of the queue, and with nothing waiting it is one tick. -/
theorem stepFront : Obligations.StepFront := ⟨fun _ _ _ => rfl, fun _ => step_of_idle⟩

end Sys2Proof.Machine
end
